-- ==== Sys2Proof/Word.lean ====
section
/-!
DEFINITION. The word types of the engine and the type of a sparse map.
A bit vector stands only for what the manual adds, shifts, masks or shows as a word: registers, samples,
coefficients, accumulators, pass indices.  Counts, addresses and indices are `Nat`.
-/

namespace Sys2Proof

/-- A 32-bit word: a peripheral register (R10), a scalar register (R230), a sample or a coefficient (R4). -/
abbrev Word := BitVec 32

/-- A byte of a memory, an image or the flash (R2). -/
abbrev Byte := BitVec 8

/-- An accumulator of one lane, Q9.63 (R4). -/
abbrev Acc := BitVec 72

/-- The pass index P and the offset K, 48 bits (R31, R33). -/
abbrev PassIx := BitVec 48

/-- A sparse map by number: pairs of a key and a value, keys strictly rising, and no pair whose value is the
map's default value.  An unlisted key holds the default.  The operations are in `Machine/Maps.lean`. -/
abbrev SMap (α : Type) := List (Nat × α)

end Sys2Proof
end

