-- ==== Sys2Proof/Forms.lean ====
section
/-!
DEFINITION. The operand forms of the tile instructions: register classes, post-modification, conversions, product
forms, branch conditions.  A form the tables of the Tile Instruction Set chapter leave undefined has no constructor.
-/

namespace Sys2Proof

/-- A cluster number, 0 to 7 (R20). -/
abbrev ClusterNo := Fin 8

/-- A tile of the engine, 8c + t for tile t of cluster c (R18, R329). -/
abbrev TileNo := Fin 64

/-- A serial port, 0 to 11 (R343). -/
abbrev PortNo := Fin 12

/-- A microphone, 0 to 15 (R378). -/
abbrev MicNo := Fin 16

/-- A race link, 0 to 3 (R481). -/
abbrev LinkNo := Fin 4

/-- A stream descriptor, 0 to 127 (R463). -/
abbrev StreamNo := Fin 128

/-- The masters of the device bus that send commands: the steward and the service port (R535). -/
inductive Master where
  | stew | svc
  deriving DecidableEq, Repr

/-- The size of a device-bus access (R10, R521). -/
inductive AccSize where
  | byte | half | word
  deriving DecidableEq, Repr

/-- Bytes of an access. -/
def AccSize.bytes : AccSize → Nat
  | .byte => 1
  | .half => 2
  | .word => 4

/-- A service-port request whose bytes have all come in (R661): READ or WRITE, its first word and its data. -/
structure SvcReq where
  write : Bool
  addr : Word
  n : Nat
  data : List Word := []
  deriving DecidableEq, Repr

/-- A bundle index within an instruction memory (R260). -/
abbrev BundleIx := BitVec 11

/-- A register that LDS, STS and MOVX name by class (R292, R279 classes 0 to 3). -/
inductive SReg where
  | s (i : Fin 16)
  | p (i : Fin 8)
  | m (i : Fin 8)
  | n (i : Fin 8)
  deriving DecidableEq, Repr

/-- A MOVX source: classes 0 to 3, 4, 5, 6, 7 and 9 (R279). -/
inductive MovSrc where
  | reg (r : SReg)
  | stat
  | mode
  | ldepth
  | lane (v : Fin 16) (l : Fin 4)
  | scyc
  deriving DecidableEq, Repr

/-- A MOVX destination: classes 0 to 3, 4, 7 and 8 (R279). -/
inductive MovDst where
  | reg (r : SReg)
  | stat
  | lane (v : Fin 16) (l : Fin 4)
  | allLanes (v : Fin 16)
  deriving DecidableEq, Repr

/-- The step after an access: 0, the access size or m_PTR (R291). -/
inductive Post where
  | none
  | size
  | byM
  deriving DecidableEq, Repr

/-- A conversion code: Word with shift k = code − 8, or 24-bit (R296). -/
inductive Conv where
  | word (code : Fin 17)
  | p24
  deriving DecidableEq, Repr

/-- A product form, which sets the alignment SH (R242, R301). -/
inductive MacForm where
  | coef
  | sample
  | square
  | integer
  deriving DecidableEq, Repr

/-- The count of an RPT: the COUNT field, or an s register (R284). -/
inductive RptCount where
  | imm (count : BitVec 11)
  | reg (a : Fin 16)
  deriving DecidableEq, Repr

/-- What an STA stores: all four lanes, or one (R297). -/
inductive StaLanes where
  | four
  | one (l : Fin 4)
  deriving DecidableEq, Repr

/-- The sixteen branch conditions (R281). -/
inductive Cond where
  | al | eq | ne | lt | ge | le | gt | lo | hs | ls | hi | mi | pl | vs | vc | nv
  deriving DecidableEq, Repr

/-! ## What comes over Ethernet and the race links -/

/-- A PTP port identity: clockIdentity and portNumber (R450). -/
structure PortId where
  clock : Nat
  port : Nat := 1
  deriving DecidableEq, Repr

/-- Where a PTP message comes from: sourcePortIdentity, whether it came over IEEE 802.3, the frame's bytes from the destination
address to the byte before the check sequence (R450, R453). -/
structure PtpFrom where
  id : PortId
  eth : Bool := false
  raw : List Byte := []
  deriving DecidableEq, Repr

/-- sequenceId and source of a PTP message (R450, R456). -/
structure PtpSeq where
  seq : Nat
  src : PtpFrom
  deriving DecidableEq, Repr

/-- sequenceId, source and requestingPortIdentity of a Delay_Resp (R456). -/
structure PtpReply where
  seq : Nat
  src : PtpFrom
  req : PortId
  deriving DecidableEq, Repr

/-- An ARP request: the address asked for and who asks (R446). -/
structure ArpAsk where
  target : Word
  mac : Nat
  ip : Word
  deriving DecidableEq, Repr

/-- An ICMP echo request: its destination, its sender, its identifier, sequence number and data (R446). -/
structure EchoAsk where
  target : Word
  mac : Nat
  ip : Word
  data : List Byte
  deriving DecidableEq, Repr

/-- The dataset of an Announce message (R450, R451): identities as numbers. -/
structure AnnData where
  prio1 : Nat
  cls   : Nat
  acc   : Nat
  var   : Nat := 0xFFFF
  prio2 : Nat
  gm    : Nat
  steps : Nat
  /-- sourcePortIdentity. -/
  sender : PortId
  /-- It came over IEEE 802.3. -/
  eth : Bool := false
  deriving DecidableEq, Repr

/-- An RTP packet with its IPv4 and UDP addressing (R463, R466). -/
structure RtpPacket where
  dst  : Word
  udp  : Nat
  pt   : Nat
  ssrc : Word
  seq  : Nat := 0
  ts   : Word
  payload : List Byte
  deriving DecidableEq, Repr

/-- An Ethernet frame as the MAC sees it (R446, R447, R471 to R473). -/
structure EthFrame where
  len : Nat
  /-- The frame check sequence is right. -/
  fcsOk : Bool
  /-- A protocol of R446. -/
  known : Bool
  /-- Source address. -/
  src : Nat
  /-- The frame is unicast to the engine; it is addressed to the engine at all. -/
  unicast : Bool
  mine : Bool
  /-- Sequence number of a PRP trailer or HSR tag. -/
  red : Option (BitVec 16) := none
  /-- PRP supervision frame. -/
  supervision : Bool := false
  /-- A PTP Sync or Delay_Req, which the transparent clock forwards itself (R453). -/
  ptpEvent : Bool := false
  /-- The bytes from the destination address to the byte before the check sequence. -/
  bytes : List Byte := []
  deriving DecidableEq, Repr

/-- The destination of a domain message (R502). -/
inductive MsgDst where
  | all
  | segment (n : BitVec 7)
  | device (n : BitVec 11)
  | manager
  deriving DecidableEq, Repr

/-- The header of a domain message and its MAC (R502, R503).  `link` is the race link it came over, none for
UDP. -/
structure MsgHdr where
  domain : Nat
  src  : BitVec 11
  dst  : MsgDst
  key1 : Bool := false
  own  : Bool := false
  seq  : BitVec 32
  sec  : Nat
  ms   : Nat := 0
  version : Nat := 1
  mac : List Byte := []
  link : Option LinkNo := none
  /-- Without a race link: it came on Ethernet port 1. -/
  port1 : Bool := false
  /-- It has left its interface and waited for the steward (R548). -/
  held : Bool := false
  deriving DecidableEq, Repr

/-- A deal's payload (R198). -/
structure DealMsg where
  id : BitVec 32
  scene : Nat
  prio : Nat
  /-- XF_OVERRIDE: XF_MS and LAW. -/
  xf : Option (Nat × Nat) := none
  sec : Nat
  ns : Nat
  /-- TARGET: none for every engine; bit s of a segment set; a device number. -/
  segments : Option (BitVec 128) := none
  device : Option (BitVec 11) := none
  deriving DecidableEq, Repr

/-- A stream table entry of a STREAMS message (R508): ACTION 0 start, 1 withdraw, 2 refused; no receiver is none. -/
structure StreamEntry where
  sender : Nat
  tx : Nat
  action : Nat
  receiver : Option Nat
  rx : Nat
  deriving DecidableEq, Repr

/-- A change of the roster or the stream table in a MIRROR message (R500; assumption 36). -/
inductive MirrorChange where
  | device (n : Nat) (present twin : Bool)
  | stream (sender tx receiver rx : Nat) (used : Bool)
  | deal (last : BitVec 32)
  deriving DecidableEq, Repr

/-- The payloads of domain messages (R505). -/
inductive MsgBody where
  | join (own : Nat) (rate96 twin twinB : Bool) (build nTx : Nat)
  | admission (ver : Nat) (epoch : PassIx)
  | refuse (reason : Nat)
  | leave
  | manager (term : BitVec 16) (ver : Nat) (lastDeal : BitVec 32) (used : Nat)
  | heartbeat (mode grid twin : Nat) (flt : Word)
  | mirror (changes : List MirrorChange)
  | deal (d : DealMsg)
  | dealAck (id : BitVec 32) (scene status : Nat) (s : PassIx)
  | dealCancel (id : BitVec 32)
  | cue (n level : Nat) (time : Option (Nat × Nat))
  | streams (epoch : PassIx) (es : List StreamEntry)
  | tallyPull (fromSeq : BitVec 32) (minSev max : Nat)
  | tallySummary (head drops : Nat) (records : List (List Byte))
  | param (es : List (Nat × Nat × Word))
  | image (payload : List Byte)
  | other (type : Nat) (payload : List Byte)
  deriving DecidableEq, Repr

/-- An event that the active twin relays (R206, R354, R396, R405, R563; assumption 37 for its kinds).  Ports, pairs,
microphones, converters and triggers are named by number, frames by the pass and cycle of their reference edge. -/
inductive TwinEv where
  | trigger (i : Nat)
  | level (pin : Nat) (up : Bool)
  | recall (v : Word)
  | lock (k e : Nat)
  | slip (k : Nat)
  | loss (k : Nat)
  | recovery (k : Nat)
  | cls (k c : Nat)
  | naOn (k j span : Nat)
  | naOff (k j : Nat)
  | rate (k rate prev : Nat)
  | frame0 (c pass cyc : Nat)
  | micStuck (m : Nat)
  | micBack (m : Nat)
  | clkStuck (c : Nat)
  | clkBack (c : Nat)
  | write (a : Nat) (v : Word)
  | param (inst k : Nat) (v : Word) (persist : Bool)
  deriving DecidableEq, Repr

/-- The EVENTS records an event takes: two for a raw parameter write (R663), one for any other. -/
def TwinEv.records : TwinEv → Nat
  | .param _ _ _ _ => 2
  | _ => 1

/-- The events of a list that one frame carries, at most `room` records with no event split (R563, R663), and the
rest. -/
def frameEvents : Nat → List TwinEv → List TwinEv × List TwinEv
  | _, [] => ([], [])
  | room, e :: l =>
    if e.records ≤ room then
      let (a, b) := frameEvents (room - e.records) l
      (e :: a, b)
    else ([], e :: l)

/-- The frame in which an event of `c` records leaves behind the listed ones, 0 for the next. -/
def frameOf (l : List TwinEv) (c : Nat) : Nat :=
  let (f, u) := l.foldl (fun (a : Nat × Nat) e => if a.2 + e.records ≤ 16 then (a.1, a.2 + e.records) else (a.1 + 1, e.records)) (0, 0)
  if u + c ≤ 16 then f else f + 1

/-- What a twin-link frame of pass f brings from the peer: the STATE record but its CMD, which is a command of its own,
and the twin block, both for pass f − 1 (R563). -/
structure TwinIn where
  tstate : Nat
  b : Bool
  ready : Bool
  graph : Bool
  match_ : Nat
  g : Word
  p : PassIx
  strmOk : BitVec 128 := 0
  /-- N and c of each converter, 0 to 7. -/
  srcs : List (Nat × Nat) := []
  /-- At most 16 events; one that missed its pass's frame is marked. -/
  events : List (TwinEv × Bool) := []
  /-- WINDOW and DIGEST. -/
  digest : Option (Word × BitVec 64) := none
  /-- Copied blocks: address and 64 bytes. -/
  copy : List (Nat × List Byte) := []
  deriving DecidableEq, Repr

/-- A race frame as its lanes bring it (R481 to R485): their codes from the place of the comma pair on, 4,096 each at 48 kHz and
2,048 at 96 kHz.  Instants are cycles after the strobe of the current pass. -/
structure RaceIn where
  /-- The places of the comma pairs lie one frame after those before. -/
  spaced : Bool := true
  /-- Arrival of the comma pair, and decoding of the last CRC byte. -/
  comma : Int
  done  : Int
  /-- Lane skew in characters. -/
  skew  : Nat := 0
  lane0 : List (BitVec 10)
  lane1 : List (BitVec 10)
  deriving DecidableEq, Repr

/-- A parity detector that has no command of its own (R546): of a cluster crossbar, or of the Millpond fabric and the
device bus by the master code of R543. -/
inductive ParityHit where
  | xbar (c : ClusterNo)
  | fabric (m : Fin 15)
  deriving DecidableEq, Repr

/-- What the pins show at a strobe: the levels read back and the bits captured in the pass that ends. -/
structure StrobeIn where
  /-- CUE15 to CUE0 as sampled, and STAT7 to STAT0 as read back (R205, R207). -/
  cue  : BitVec 16 := 0
  stat : BitVec 8 := 0
  /-- The levels of PDM_DATp at the rising edges (entry 2p) and at the falling edges (entry 2p + 1) of the PDM clock in the
  pass that ends, that of edge j at number j (R380), and for each PDM clock whether its readback agrees (R394). -/
  mics : List (BitVec 128) := []
  /-- In a standby whose PDM clocks the active twin drives: the rising and the falling edges received on its own ball, each
  with its cycle after the engine's own strobe and the levels of PDM_DAT7 to PDM_DAT0 (R395). -/
  rises : List (Int × BitVec 8) := []
  falls : List (Int × BitVec 8) := []
  pdmOk : BitVec 2 := 3
  /-- TWIN_ACT and TWIN_YIELD as read back, TWIN_PEER_ACT (R565). -/
  act  : Bool := false
  yield_ : Bool := false
  peer : Bool := false
  deriving DecidableEq, Repr

end Sys2Proof
end

