-- ==== Sys2Proof/Config.lean ====
section
/-!
DEFINITION. What an image fixes, as plain data (the compiled formats of the Graphs and Sample Programs, Scenes, and
NVM Image chapters), and the free values: constants without a body, one for each value the manual leaves open.
-/

namespace Sys2Proof

/-! ## Free values -/

/-- A word the manual does not fix, the n-th one drawn (assumption 5). -/
opaque Config.freeWord : Nat → BitVec 32

/-- Which word near its design value the library stores as a coefficient of a biquad section: sample rate, frequency, what
names the prototype, word number (R121: fixed by the image's handler bundles, not by the manual; assumption 6). -/
opaque Config.biquadWord : Nat → Nat → List Int → Nat → BitVec 32

/-- The value the reference loop sets F_ref to, by reference code and draw number (R423: the manual does not fix the
loop's arithmetic; assumption 7). -/
opaque Config.loopWord : Nat → Nat → Int

/-- Whether a value that the library code of a built-in node computes, and the manual gives without a rounding, is rounded
up: node type, item number, the operands (assumption 6). -/
opaque Config.libUp : Nat → Nat → List Int → Bool

/-- A 64-bit value of library code that the manual does not state, by node type and operands (R125: the mean square of an
auto-mixer's microphone beyond its 64-bit word; assumption 126). -/
opaque Config.libWide : Nat → List Int → BitVec 64

/-- Whether a free choice of the silicon goes one way or the other, the n-th one drawn (assumption 5). -/
opaque Config.freeBool : Nat → Bool

/-- Whether a value that a register shows in a coarser unit is rounded up, where the manual names the unit and no
rounding: the value and the divisor (assumption 42). -/
opaque Config.roundsUp : Int → Nat → Bool

/-- DST and ANY of the frames that link `k` sends under an image of BUILD `build` (R484): the image expects a device at the
far end, and no table of the manual holds which.  FREE VALUE (log entry 135). -/
opaque Config.raceDst (build k : Nat) : BitVec 16

/-- The cycles after the strobe, 0 to 3 and fixed, at which race link `k` launches the first bit of a frame (R488; assumption 171). -/
opaque Config.raceLaunch (k : Nat) : BitVec 2

/-- The number of REF cycles that have begun by a core cycle since reset: the two clocks' relation in phase is the oscillator's
(R411, R430; assumption 164). -/
opaque Config.refAt : Int → Int

/-- A decimated sample that a converter's ring does not hold, one not yet written or one before its last 128: converter, channel,
sample number (R399, R401: the manual does not say what the interpolation reads there; assumption 162). -/
opaque Config.srcSample : Nat → Nat → Int → BitVec 32

/-- The fields of a sent message that neither the manual nor its standard fixes: those of an IPv4 header, source ports and estimates
of a time, by graph pass, number in the pass and field (R3, R446; assumption 168). -/
opaque Config.sendWord : Nat → Nat → Nat → BitVec 32

/-- The phase of REF / 2 on an MCLK output that the sluice divider drives (R556; assumption 191). -/
opaque Config.sluicePhase : Nat → Bool

/-- The Ethernet address that the stream tables resolve a unicast address to; the manual names no place for it (R446; assumption
169). -/
opaque Config.macFor : BitVec 32 → Nat

/-- The device wrap key, from the random bit generator, by draw number (R636; assumption 187). -/
opaque Config.wrapKey : Nat → BitVec 256

/-- The WRAP field of a slot that a key store copy holds no key in, by GEN and slot (R638; assumption 187). -/
opaque Config.keyFill : Nat → Nat → BitVec 320

/-- The words of the boot ROM, whose contents the manual does not give, by word number (assumption 44). -/
opaque Config.romWord : Nat → BitVec 32

/-! ## The compiled formats -/

/-- Exchange descriptor (R86). -/
structure XDesc where
  mark : Nat
  /-- 0 input, 1 intermediate, 2 output. -/
  kind : Nat
  srcRing : Bool := false
  dstRing : Bool := false
  unpack3 : Bool := false
  pack3   : Bool := false
  zeroSrc : Bool := false
  src : Nat
  dst : Nat
  count : Nat
  srcLen : Nat := 0
  dstLen : Nat := 0
  srcFrame : Nat := 0
  dstFrame : Nat := 0
  srcPhase : Int := 0
  dstPhase : Int := 0
  srcElem : Nat := 4
  dstElem : Nat := 4
  deriving DecidableEq, Repr

/-- Ganged section record (R99). -/
structure GangRec where
  start : Nat
  length : Nat
  leadBundle : Nat
  dataAddr : Nat
  dataBytes : Nat
  deriving DecidableEq, Repr

/-- A place in a tile's sample program where library code runs: a node's call sequence (R108), or a crossing of a
crossfade program (R186).  `cycle` is its schedule cycle; the addresses are byte offsets in tile data memory
(assumption 8). -/
inductive Call where
  | node (inst : Nat) (cycle : Nat) (ins : Nat) (outs : Nat)
  | cross (cycle : Nat) (old : Nat) (new : Nat) (out : Nat)
  deriving DecidableEq, Repr

/-- One chunk of an initialisation list: byte offset and data (R80). -/
abbrev InitChunk := Nat × List Byte

/-- Tile record (R79), with the code and initialisation list it points to. -/
structure TileProg where
  /-- The bundles, each as its low and high word (R260). -/
  code : List (Word × Word) := []
  entry : Nat := 0
  schedCycles : Nat := 1
  /-- Gateable region 0 to 63, or none. -/
  region : Option Nat := none
  gang : Bool := false
  init : List InitChunk := []
  stateBase : Nat := 0
  stateBytes : Nat := 0
  calls : List Call := []
  /-- The program holds library calls only: no command issues its bundles, and it yields by itself (assumption 8). -/
  lib : Bool := false
  deriving DecidableEq, Repr

/-- The schedule of one cluster (R77, R78). -/
structure ClusterProg where
  descs : List XDesc := []
  gangs : List GangRec := []
  inputDone : Nat := 0
  outputMark : Nat := 0
  deriving DecidableEq, Repr

/-- Node instance record (R93), with the values its parameter table holds at boot. -/
structure NodeRec where
  inst : Nat
  type : Nat
  cluster : Nat
  /-- 0 to 7, or none: the node runs in a ganged section. -/
  tile : Option Nat
  nIn : Nat
  nOut : Nat
  stateAddr : Nat := 0
  stateBytes : Nat := 0
  paramAddr : Nat := 0
  paramWords : Nat := 0
  cost : Nat := 0
  coefAddr : Nat := 0
  coefBytes : Nat := 0
  latency : Nat := 0
  zone : Option Nat := none
  region : Option Nat := none
  ctrlCost : Nat := 0
  ctrlEntry : Nat := 0
  ctrlPeriodLog2 : Nat := 0
  custom : Bool := false
  noGate : Bool := false
  ctrlPhase : Nat := 0
  scratchBytes : Nat := 0
  params : List Word := []
  deriving DecidableEq, Repr

/-- Millpond map entry (R102). -/
structure MapEntry where
  area : Nat
  base : Nat
  bytes : Nat
  deriving DecidableEq, Repr

/-- A parameter entry of a scene (R176, R217): `rampMs` none is the scene's default. -/
structure SceneEntry where
  inst : Nat
  param : Nat
  value : Word
  mode : Nat := 0
  rampMs : Option Nat := none
  deriving DecidableEq, Repr

/-- A tile program part of a delta set (R184, R218). -/
structure TilePart where
  cluster : Nat
  tile : Nat
  powerUp : Bool := false
  powerDown : Bool := false
  region : Option Nat := none
  code : List (Word × Word) := []
  entry : Nat := 0
  xfEntry : Nat := 0
  schedCycles : Nat := 1
  xfCycles : Nat := 1
  init : List InitChunk := []
  stateBase : Nat := 0
  stateBytes : Nat := 0
  /-- Library calls of the new program N and of the crossfade program X (assumption 8). -/
  callsN : List Call := []
  callsX : List Call := []
  lib : Bool := false
  deriving DecidableEq, Repr

/-- An exchange part of a delta set (R190, R218). -/
structure XchgPart where
  cluster : Nat
  xf : List XDesc := []
  new : List XDesc := []
  inputDoneXf : Nat := 0
  outputMarkXf : Nat := 0
  inputDoneNew : Nat := 0
  outputMarkNew : Nat := 0
  deriving DecidableEq, Repr

/-- A delta set: what a recall from topology FROM brings (R183). -/
structure DeltaSet where
  from_ : Nat
  tiles : List TilePart := []
  xchg : List XchgPart := []
  added : List NodeRec := []
  removed : List Nat := []
  preroll : Nat := 0
  deriving DecidableEq, Repr

/-- A scene: directory entry and record (R176, R216, R217). -/
structure SceneRec where
  scene : Nat
  hot : Bool := true
  full : Bool := false
  priority : Nat := 0
  /-- 0 linear; 1 equal power. -/
  law : Nat := 0
  xfMs : Nat := 0
  rampMs : Nat := 0
  /-- Topology identity TO, when the scene has a topology part. -/
  topo : Option Nat := none
  /-- Ranges of instance numbers: first and last. -/
  scope : List (Nat × Nat) := []
  entries : List SceneEntry := []
  deltas : List DeltaSet := []
  /-- OFFSET and DIGEST of the directory entry, and the record's bytes, which it was read from (R216). -/
  offset : Nat := 0
  digest : List Byte := []
  bytes : List Byte := []
  deriving DecidableEq, Repr

/-- Trigger kinds with their arguments (R204). -/
inductive TrigKind where
  | disabled
  | pinEdge (pin : Nat) (dir : Nat) (debounce : Nat)
  | pinStale (pin : Nat) (count : Nat)
  | silence (inst : Nat) (chan : Nat) (dir : Nat)
  | trump (zone : Nat) (level : Nat) (falling : Bool)
  | thermal (cleared : Bool)
  | rateClass (port : Nat)
  | domainCue (cue : Nat)
  | time (sec : Nat) (period : Nat)
  | statStuck (pin : Nat)
  deriving DecidableEq, Repr

/-- Trigger entry (R204). -/
structure Trigger where
  kind : TrigKind
  level : Nat
  rule : Nat
  deriving DecidableEq, Repr

/-- What a rule does (R208). -/
inductive RuleAction where
  | none
  | recall (scene : Nat) (deal : Bool) (xfOverride : Bool) (law : Nat) (xfMs : Nat)
  | ramp (inst : Nat) (param : Nat) (value : Word) (rampMs : Nat)
  | statusPin (pin : Nat) (op : Nat) (pulse : Nat)
  | mark (code : Nat) (severity : Nat)
  deriving DecidableEq, Repr

/-- Rule entry (R208). -/
structure CueRule where
  action : RuleAction
  relay : Bool := false
  relayCue : Nat := 0
  chain : Option Nat := none
  deriving DecidableEq, Repr

/-- One entry of the clips directory, with the data the engine copies to Millpond (R618); `bytes` is the area it takes. -/
structure ClipRec where
  index : Nat
  addr : Nat
  bytes : Nat := 0
  recording : Bool := false
  data : List Byte := []
  deriving DecidableEq, Repr

/-- A row of the domain stream table (R617). -/
structure StreamRow where
  sender : Nat
  tx : Nat
  receiver : Nat
  rx : Nat
  deriving DecidableEq, Repr

/-- Domain settings record (R499). -/
structure DomainSettings where
  rate96 : Bool := false
  /-- 1 worker; 2 standby manager; 3 manager. -/
  role : Nat
  /-- Device number, or the pair number for twins. -/
  device : Nat
  domain : Nat
  manager : Nat
  standby : Nat
  group : Word := 0
  udpPort : Nat := 0
  gate : Bool := false
  grandmaster : Bool := false
  twin : Bool := false
  keyId : Nat := 0
  build : Nat := 0
  deriving DecidableEq, Repr

/-- An image's contents after its container has been checked (R613 to R619). -/
structure Image where
  build : Nat := 0
  rate96 : Bool := false
  /-- Header flag MARCH: start-up March test (R613). -/
  march : Bool := false
  /-- Clock and port setup, register initialisation, domain and stream register lists (R616). -/
  setupRegs : List (Nat × Word) := []
  initRegs : List (Nat × Word) := []
  domainRegs : List (Nat × Word) := []
  streamRegs : List (Nat × Word) := []
  domain : Option DomainSettings := none
  clusters : List (Nat × ClusterProg) := []
  tiles : List (Nat × TileProg) := []
  mpdMap : List MapEntry := []
  nodes : List NodeRec := []
  bootScene : Option Nat := none
  nTopo : Nat := 1
  scenes : List SceneRec := []
  /-- Offset of the scenes section in the slot (R614). -/
  scenesAt : Nat := 0
  triggers : List Trigger := []
  rules : List CueRule := []
  dealLeadMs : Nat := 50
  /-- Blobs for Millpond area 4 (R617). -/
  blobs : List (Nat × List Byte) := []
  /-- Recorded latencies: endpoint and passes (R62, R617). -/
  latencies : List (Word × Nat) := []
  streamTable : List StreamRow := []
  clips : List ClipRec := []
  deriving DecidableEq, Repr

/-! ## Where library code runs -/

/-- The library calls of a tile's program (assumption 8). -/
structure LibTile where
  calls : List Call := []
  lib : Bool := false
  deriving DecidableEq, Repr

/-- The library calls of a tile part of a scene's delta set: of N and of X (assumption 8). -/
structure LibPart where
  scene : Nat
  from_ : Nat
  cluster : Nat
  tile : Nat
  callsN : List Call := []
  callsX : List Call := []
  lib : Bool := false
  deriving DecidableEq, Repr

/-- Where the bundles of an image belong to library code, which the manual does not give: the one thing about an image that
its bytes do not say to a reader of the manual (assumption 8). -/
structure LibPlan where
  tiles : List (Nat × LibTile) := []
  parts : List LibPart := []
  deriving DecidableEq, Repr

end Sys2Proof
end

