-- ==== Sys2Proof/Machine/PassTypes.lean ====
section
/-!
DEFINITION. The state of the pass grid, of the clusters and their nodes, and of scenes, deals and cues as plain data
(chapters The Pass, Graphs and Sample Programs, Node Library, and Scenes, Deals, Cues and Trump Levels).
Pass numbers written `Nat` are counted in passes of the graph since boot, which never skip or repeat (R32); the pass
index P of the domain is the 48-bit counter `Grid.p`.
-/

namespace Sys2Proof.Machine

/-- A PTP time: seconds and nanoseconds (R28). -/
structure PtpTime where
  sec : Nat
  ns  : Nat
  deriving DecidableEq, Repr

/-- The grid states (R35). -/
inductive GridState where
  | stopped | localRef | free | slew | aligned | hold
  deriving DecidableEq, Repr

/-- What a pass acts on at its strobe: a decision whose acting pass it is (R352, R354, R396), or a register write that it
recognises (R355, R356, R389, R390, R392, R403, R408, R419). -/
inductive Act where
  | ev (e : TwinEv)
  /-- EN of a port recognised as 1, and as 0. -/
  | portOn (k : Nat)
  | portOff (k : Nat)
  /-- A master port's stuck clock: its fade begins (R357, R358). -/
  | portFade (k : Nat)
  /-- EN of the PDM block recognised as 1, and as 0; its clocks start. -/
  | pdmOn
  | pdmOff
  | pdmClk
  /-- A microphone's enable recognised as 1, and as 0; its chain is cleared at this strobe, with a WAKE of so many passes. -/
  | micOn (m : Nat)
  | micOff (m : Nat)
  | micGo (m wake : Nat)
  /-- A microphone restarts: recognised in this pass. -/
  | micAgain (m : Nat)
  /-- EN of a converter recognised as 1, and as 0. -/
  | srcOn (c : Nat)
  | srcOff (c : Nat)
  /-- A write of the reference list recognised; the pass after a list that names the crystal has taken effect. -/
  | refList
  | crystal
  /-- A write of an output's registers recognised. -/
  | outs
  /-- An admitted maintenance request starts (R665). -/
  | maint
  /-- A maintenance request or a write of PWR_QUIET recognised: the engine leaves QUIET (R591). -/
  | quietOff
  /-- A write of NET_CTRL.EN recognised as 1; one of PTP_CTRL, with the ROLE before it; one of a receive stream's control word. -/
  | netOn
  | ptpRole (old : Nat)
  | rxOn (j : Nat)
  /-- EN of a race link recognised as 1 and as 0. -/
  | linkOn (k : Nat)
  | linkOff (k : Nat)
  deriving DecidableEq, Repr

/-- The pass grid (R31 to R48). -/
structure Grid where
  /-- What later passes recognise or act on: the pass, and the recognition or decision, in the order they came. -/
  acts : List (Nat × Act) := []
  /-- Pass index P. -/
  p : PassIx := 0
  /-- Passes in which the graph has run; G is its low 32 bits (R32). -/
  tick : Nat := 0
  /-- K, defined once the grid is anchored (R33). -/
  k : Option PassIx := none
  state : GridState := .stopped
  /-- SYS_GRID_ERR in core cycles, saturated (R48). -/
  err : Int := 0
  /-- Re-anchorings since reset, saturating at 15 (R47). -/
  reanchors : Nat := 0
  /-- Consecutive passes within 122 cycles (R40). -/
  alignRun : Nat := 0
  /-- K to be loaded at the next strobe, by an anchoring or a re-anchoring (R38, R42). -/
  pendingK : Option PassIx := none
  /-- The pending K comes from a re-anchoring. -/
  pendingRe : Bool := false
  /-- Slew offset applied to the core clock in this pass, in ppm, positive to speed up (R39). -/
  slewPpm : Int := 0
  /-- A strobe after BOOT has begun a pass. -/
  ran : Bool := false
  /-- The functions of R36 run: the grid is LOCAL, or has reached ALIGNED since its anchoring (R24, R36). -/
  fnOn : Bool := false
  /-- Pass in which the grid last became ALIGNED. -/
  alignedAt : Nat := 0
  /-- Pass in which their fade before a re-anchoring began (R42). -/
  fnFade : Option Nat := none
  deriving DecidableEq, Repr

/-- An entry of a cluster's parameter queue: instance, parameter index, coded word (R96, R97). -/
structure QEntry where
  inst : Nat
  param : Nat
  value : Word
  /-- The value to commit as a trim when the write lands (R663). -/
  trim : Option Word := none
  deriving DecidableEq, Repr

/-- A slot of a cluster's ramp unit (R180 to R182). -/
structure RampSlot where
  inst : Nat
  param : Nat
  /-- Interpolation ends: v_0 and v_T after the mute rule of R181. -/
  v0 : Int
  vT : Int
  /-- Word written at k = K_p, and the word kept while k = 1 when the ramp leaves 0x8000. -/
  target : Word
  fromMute : Bool := false
  /-- Next k and the length K_p. -/
  k : Nat
  len : Nat
  /-- Order of starting: the oldest slot has the lowest number. -/
  age : Nat
  deriving DecidableEq, Repr

/-- A ganged section in progress (R288, R265). -/
structure GangRun where
  sec : Nat
  /-- Schedule cycles left. -/
  left : Nat
  /-- Bundle after tile 0's own GANG, to which it returns. -/
  ret : Nat := 0
  deriving DecidableEq, Repr

/-- One cluster: its exchange engine, parameter queue, ramp unit and ganged sections. -/
structure Cluster where
  /-- Descriptors of the front exchange table in use and of the tables a topology recall staged (R190). -/
  descs : List XDesc := []
  xfDescs : Option (List XDesc) := none
  newDescs : Option (List XDesc) := none
  gangs : List GangRec := []
  /-- Ring indexes of descriptor d: source at key 2d, destination at 2d + 1 (R87). -/
  ring : SMap Nat := []
  xfRing : SMap Nat := []
  /-- Next descriptor of the pass; the pass's exchange is complete when it reaches the table's end. -/
  next : Nat := 0
  queue : List QEntry := []
  ramps : List RampSlot := []
  rampAge : Nat := 0
  /-- Members that wait at a rendezvous, with their section (R288). -/
  arrived : List (Nat × Nat) := []
  gang : Option GangRun := none
  /-- Words that queue entries wrote in this pass: instance and index (R182). -/
  landed : List (Nat × Nat) := []
  /-- Words that the ramp unit or a recall has changed in this pass, with the values in use in the pass before (R180):
  instance, index, word. -/
  before : List (Nat × Nat × Word) := []
  /-- Ganged sections ended in this pass (R101). -/
  gangsDone : Nat := 0
  /-- The cluster fabric is being reset: transfers end and tiles are muted until the next strobe (R542). -/
  fabricReset : Bool := false
  deriving DecidableEq, Repr

/-- The working values of one node instance that the manual describes without placing them in tile memory: numbered
values and delay lines, empty after a clear (R128; assumption 9); and the handler's parameter values in effect. -/
structure NodeSt where
  w : SMap Int := []
  line : SMap (List Int) := []
  /-- Values of the parameters as the handler last read them, and those in effect from the next pass (R119, R120). -/
  h : List Word := []
  hNext : Option (List Word) := none
  /-- Handler runs by tile since the first pass of the graph (R144, R146). -/
  runs : SMap Nat := []
  /-- Gains that the last runs have converted: coefficient address and word, in use from the next pass (R144). -/
  gains : List (Nat × Word) := []
  deriving DecidableEq, Repr

/-- A recall request in the arbiter (R192 to R196). -/
structure RecallReq where
  scene : Nat
  priority : Nat
  /-- Crossfade override: milliseconds and law. -/
  xf : Option (Nat × Nat) := none
  /-- Order among equal priorities, ascending in application: service port 0, cue rules 1 to 512, deals 513 (R196). -/
  rank : Nat
  /-- Domain pass S a deal asks for, as a graph pass; none for a late one. -/
  dealS : Option Nat := none
  dealId : Option Nat := none
  deriving DecidableEq, Repr

/-- A recall that is staged or running (R179, R192, R193). -/
structure Recall where
  req : RecallReq
  /-- Pass of recognition, start pass, audible start and swap pass. -/
  n : Nat
  s0 : Nat
  s : Nat
  e : Nat
  /-- Topology work: the delta set's FROM and the identity TO. -/
  topo : Option Nat := none
  /-- Crossfade length K and law. -/
  xfLen : Nat := 0
  law : Nat := 0
  /-- Last pass of the longest ramp or of the crossfade (R179). -/
  last : Nat := 0
  /-- A cold record is still being fetched, and the recall starts after its due pass (R193, R202, R223). -/
  fetching : Bool := false
  late : Bool := false
  /-- The back memory and tables are loaded. -/
  staged : Bool := false
  started : Bool := false
  audible : Bool := false
  swapped : Bool := false
  /-- The instances of its entries of MODE 2 that were live in pass S (R181). -/
  live : List Nat := []
  deriving DecidableEq, Repr

/-- A deal staged for a PTP time (R199 to R203). -/
structure Deal where
  id : Nat
  scene : Nat
  priority : Nat
  xf : Option (Nat × Nat)
  time : PtpTime
  /-- Pass S of the deal, and the pass S0 − L in which its request is entered; none while the grid is not anchored. -/
  s : Option PassIx
  due : Option PassIx
  staged : Bool
  deriving DecidableEq, Repr

/-- A deal the manager has issued and whose answers it awaits (R197, R202). -/
structure IssuedDeal where
  id : Nat
  time : PtpTime
  /-- Devices targeted, and those that answered READY. -/
  targets : List Nat
  ready : List Nat
  deriving DecidableEq, Repr

/-- A trigger recognised and waiting to act: trigger index, the pass it acts in (R205, R210). -/
structure TrigHit where
  trig : Nat
  /-- PTP time a time trigger carries to a relay (R209). -/
  time : Option PtpTime := none
  late : Bool := false
  deriving DecidableEq, Repr

/-- A pulse on a status pin: passes left until it falls (R209). -/
structure Pulse where
  pin : Nat
  left : Nat
  deriving DecidableEq, Repr

/-- A change of a status pin that takes place at the next strobe (R209). -/
structure PinChange where
  pin : Nat
  /-- 0 low, 1 high, 2 toggle, 3 pulse. -/
  op : Nat
  pulse : Nat
  deriving DecidableEq, Repr

/-- A ramp action's entry, started at the next strobe (R209). -/
structure RampStart where
  inst : Nat
  param : Nat
  value : Word
  len : Nat
  deriving DecidableEq, Repr

/-- Scenes and recalls. -/
structure Scenes where
  /-- Front topology identity and current scene (R221). -/
  frontTopo : Nat := 0
  current : Nat := 0
  /-- Instances of the front and, during a topology recall, of the added instances: the live node records. -/
  nodes : List NodeRec := []
  /-- The records that the running topology recall has replaced by those of its delta set: its changed instances (R323). -/
  replaced : List NodeRec := []
  /-- The program of each tile's front, and the part that a topology recall has staged for a tile (R184). -/
  progs : SMap TileProg := []
  backs : SMap (Option TilePart) := []
  /-- Requests written by SCN_RECALL, with the pass they are recognised in (R220). -/
  written : List (Nat × RecallReq) := []
  /-- Requests recognised in the current pass (R196). -/
  recognised : List RecallReq := []
  /-- The topology recall that runs, and the other recalls that are not yet complete, oldest first. -/
  running : Option Recall := none
  others : List Recall := []
  pending : Option RecallReq := none
  coldBusy : Bool := false
  /-- The cold slots that hold a record: slot 0 or 1, and the scene (R193). -/
  coldSlots : List (Nat × Nat) := []
  /-- Pass in which the latest cold fetch ended, as 1 + pass (R221). -/
  coldEnd : Nat := 0
  deals : List Deal := []
  /-- Deals staged or completed, newest first: DEAL_ID, scene and S (R203). -/
  recentDeals : List (Nat × Nat × PassIx) := []
  /-- Last DEAL_ID of the manager, and deals it awaits answers to (R197, R500). -/
  lastDealId : Nat := 0
  issued : List IssuedDeal := []
  deriving DecidableEq, Repr

/-- Cue pins, triggers and rules. -/
structure Cues where
  /-- Levels of CUE15 to CUE0 as sampled at the last strobe (R224). -/
  raw : BitVec 16 := 0
  /-- Recognised levels of CUE_PIN_IN.STATE. -/
  state : BitVec 16 := 0
  /-- A strobe of the graph has sampled the pins: the first sample is the starting level (R205). -/
  sampled : Bool := false
  /-- Recognised levels that take effect later: pass, pin, level (R206, R224). -/
  stateDue : List (Nat × Nat × Bool) := []
  /-- Consecutive strobes at the current raw level, per pin. -/
  held : SMap Nat := []
  /-- Level last recognised by trigger i of kind 1, as 0 or 1 + level. -/
  edge : SMap Nat := []
  /-- Next firing of time trigger i: 1 + seconds, 0 before its first firing is set (R205). -/
  nextTime : SMap Nat := []
  /-- Time trigger i has fired and has no period. -/
  timeDone : List Nat := []
  /-- Silence result bit last read by trigger i, as 1 + bit; 0 not read yet. -/
  silence : SMap Nat := []
  /-- Trump activity A last read by trigger i, as 1 + A; 0 not read yet. -/
  trump : SMap Nat := []
  /-- Triggers recognised in the current pass. -/
  hits : List TrigHit := []
  /-- Triggers recognised for the next pass (kinds 3 and 4, late time triggers). -/
  nextHits : List TrigHit := []
  /-- Trigger queued behind another, per rule (R210). -/
  queued : SMap (Option TrigHit) := []
  /-- Relayed twin triggers: the pass they act in and the trigger (R206). -/
  relayed : List (Nat × Nat) := []
  /-- Timed domain cues held: cue, level, time (R205). -/
  timedCues : List (Nat × Nat × PtpTime) := []
  /-- Domain cues to send in the next pass: cue, level, time (R209). -/
  outCues : List (Nat × Nat × Option PtpTime) := []
  pulses : List Pulse := []
  pinChanges : List PinChange := []
  rampStarts : List RampStart := []
  /-- Consecutive strobes with a wrong readback, per STAT pin (R207). -/
  statBad : SMap Nat := []
  deriving DecidableEq, Repr

/-- The steward state block that a rejoining twin takes from the active one (R572; assumption 40). -/
structure StewBlock where
  scn : Scenes
  cue : Cues
  ramps : SMap (List RampSlot)
  queues : SMap (List QEntry)
  gated : List Nat
  quiet : SMap Nat
  /-- The pair counter of domain messages (R504). -/
  seq : BitVec 32
  deriving DecidableEq, Repr

end Sys2Proof.Machine
end

