-- ==== Sys2Proof/Syntax.lean ====
section
/-!
DEFINITION. The commands of the engine: the steps of spec/opcode_table.json, one constructor each.
A tile instruction is one slot of a bundle issued by tile `t`; `last` marks the last slot of its bundle, at which the
bundle issues.  An event's operands are what the engine is given by the outside with the event: times, levels,
received frames and messages.
-/

namespace Sys2Proof

/-- The commands of the block: one constructor for each row of the opcode table, in the table's order. -/
inductive Instr where
  /-- REGISTER_WRITE (R14): A write to a register that has no row of its own updates its fields according to their types. -/
  | registerWrite (m : Master) (addr : Word) (size : AccSize) (v : Word)
  /-- READ_CLEAR (R14): A read of an RC field returns its value and then clears it, keeping an event of the same cycle for the next read. -/
  | readClear (m : Master) (addr : Word) (size : AccSize) (cycle : Nat)
  /-- LO_READ (R15): A read of a _LO register latches the matching _HI part so that a later _HI read gives one consistent value. -/
  | loRead (m : Master) (addr : Word)
  /-- STROBE (R50): The pass strobe starts a pass: the pass counter and G advance, the schedulers start the tiles and the input exchange starts. -/
  | strobe (x : StrobeIn)
  /-- ANCHORING (R38): In the first pass with a valid time source while FREE, the engine sets K from the time-stamped strobe and the grid becomes SLEW. -/
  | anchoring
  /-- ALIGNED (R40): After 1,024 consecutive passes with phase error of at most 122 cycles, the grid changes from SLEW to ALIGNED. -/
  | aligned
  /-- EXCHANGE_DESCRIPTOR (R89): An exchange descriptor starts at its MARK or when the previous descriptor completes and moves its elements. -/
  | exchangeDescriptor (c : ClusterNo)
  /-- CONTROL_SWITCH (R320): At the first allowed bundle boundary with a pending run that fits the allowance, the tile switches into the control context. -/
  | controlSwitch (n : TileNo) (spent : Nat)
  /-- RESTART (R332): A tile stopped by an exception restarts at its strobe with cleared registers and state and begins its ramp-in. -/
  | restart (t : TileNo)
  /-- ECC_WORD_REWRITE (R334): After an uncorrectable error, the steward reads the word's source from flash and writes it back with valid check bits. -/
  | eccWordRewrite (a : Word)
  /-- NOP (R271): A slot of all zero bits does nothing for that slot. -/
  | nop (t : TileNo) (last : Bool)
  /-- YIELD (R289): YIELD ends the sample program for the pass and stops the tile clock once results in flight drain. -/
  | yield (t : TileNo) (last : Bool)
  /-- CRET (R289): CRET ends the control context and the sample context resumes at its held bundle. -/
  | cret (t : TileNo) (last : Bool)
  /-- SETMODE_IMM (R274): SETMODE with an immediate writes MODE[1:0] at distance 2. -/
  | setmodeImm (t : TileNo) (last : Bool) (nosat trunc : Bool)
  /-- SETMODE_S (R274): SETMODE from a register writes MODE[1:0] from s_a at distance 2. -/
  | setmodeS (t : TileNo) (last : Bool) (a : Fin 16)
  /-- WAITS (R287): WAITS holds the tile until its schedule-cycle counter reaches CYCLE. -/
  | waits (t : TileNo) (last : Bool) (cycle : BitVec 13)
  /-- GANG (R288): GANG waits for all 8 members and then runs the named ganged section from tile 0's issue stream. -/
  | gang (t : TileNo) (last : Bool) (sec : Fin 16)
  /-- ADD (R275): ADD writes a + b and optionally sets N Z C V. -/
  | add (t : TileNo) (last : Bool) (d a b : Fin 16) (sf : Bool)
  /-- SUB (R275): SUB writes a − b and optionally sets N Z C V. -/
  | sub (t : TileNo) (last : Bool) (d a b : Fin 16) (sf : Bool)
  /-- AND (R275): AND writes the bitwise AND of a and b. -/
  | and (t : TileNo) (last : Bool) (d a b : Fin 16) (sf : Bool)
  /-- OR (R275): OR writes the bitwise OR of a and b. -/
  | or (t : TileNo) (last : Bool) (d a b : Fin 16) (sf : Bool)
  /-- XOR (R275): XOR writes the bitwise XOR of a and b. -/
  | xor (t : TileNo) (last : Bool) (d a b : Fin 16) (sf : Bool)
  /-- ANDN (R275): ANDN writes a AND NOT b. -/
  | andn (t : TileNo) (last : Bool) (d a b : Fin 16) (sf : Bool)
  /-- SHL (R275): SHL shifts a left by b AND 31. -/
  | shl (t : TileNo) (last : Bool) (d a b : Fin 16) (sf : Bool)
  /-- SHR (R275): SHR shifts a right logically by b AND 31. -/
  | shr (t : TileNo) (last : Bool) (d a b : Fin 16) (sf : Bool)
  /-- ASR (R275): ASR shifts a right arithmetically by b AND 31. -/
  | asr (t : TileNo) (last : Bool) (d a b : Fin 16) (sf : Bool)
  /-- MIN (R275): MIN writes the signed minimum of a and b. -/
  | min (t : TileNo) (last : Bool) (d a b : Fin 16) (sf : Bool)
  /-- MAX (R275): MAX writes the signed maximum of a and b. -/
  | max (t : TileNo) (last : Bool) (d a b : Fin 16) (sf : Bool)
  /-- MINU (R275): MINU writes the unsigned minimum of a and b. -/
  | minu (t : TileNo) (last : Bool) (d a b : Fin 16) (sf : Bool)
  /-- MAXU (R275): MAXU writes the unsigned maximum of a and b. -/
  | maxu (t : TileNo) (last : Bool) (d a b : Fin 16) (sf : Bool)
  /-- MULL (R275): MULL writes the low 32 bits of a × b. -/
  | mull (t : TileNo) (last : Bool) (d a b : Fin 16) (sf : Bool)
  /-- MULH (R275): MULH writes the high 32 bits of the signed product a × b. -/
  | mulh (t : TileNo) (last : Bool) (d a b : Fin 16) (sf : Bool)
  /-- ABS (R275): ABS writes the saturated absolute value of a. -/
  | abs (t : TileNo) (last : Bool) (d a : Fin 16) (sf : Bool)
  /-- NEG (R275): NEG writes 0 − a modulo 2^32. -/
  | neg (t : TileNo) (last : Bool) (d a : Fin 16) (sf : Bool)
  /-- CLS (R275): CLS writes the count of leading sign bits of a. -/
  | cls (t : TileNo) (last : Bool) (d a : Fin 16) (sf : Bool)
  /-- CLZ (R275): CLZ writes the count of leading zero bits of a. -/
  | clz (t : TileNo) (last : Bool) (d a : Fin 16) (sf : Bool)
  /-- CMP (R275): CMP sets the flags of a − b without writing a register. -/
  | cmp (t : TileNo) (last : Bool) (a b : Fin 16)
  /-- TST (R275): TST sets the flags of a AND b without writing a register. -/
  | tst (t : TileNo) (last : Bool) (a b : Fin 16)
  /-- ADDSAT (R275): ADDSAT writes a + b saturated to 32-bit signed. -/
  | addsat (t : TileNo) (last : Bool) (d a b : Fin 16) (sf : Bool)
  /-- SUBSAT (R275): SUBSAT writes a − b saturated to 32-bit signed. -/
  | subsat (t : TileNo) (last : Bool) (d a b : Fin 16) (sf : Bool)
  /-- ADDI (R277): ADDI writes a plus the sign-extended immediate. -/
  | addi (t : TileNo) (last : Bool) (d a : Fin 16) (imm : BitVec 8)
  /-- ANDI (R277): ANDI writes a AND the sign-extended immediate. -/
  | andi (t : TileNo) (last : Bool) (d a : Fin 16) (imm : BitVec 8)
  /-- ORI (R277): ORI writes a OR the sign-extended immediate. -/
  | ori (t : TileNo) (last : Bool) (d a : Fin 16) (imm : BitVec 8)
  /-- XORI (R277): XORI writes a XOR the sign-extended immediate. -/
  | xori (t : TileNo) (last : Bool) (d a : Fin 16) (imm : BitVec 8)
  /-- SHLI (R277): SHLI shifts a left by an immediate amount. -/
  | shli (t : TileNo) (last : Bool) (d a : Fin 16) (amt : Fin 32)
  /-- SHRI (R277): SHRI shifts a right logically by an immediate amount. -/
  | shri (t : TileNo) (last : Bool) (d a : Fin 16) (amt : Fin 32)
  /-- ASRI (R277): ASRI shifts a right arithmetically by an immediate amount. -/
  | asri (t : TileNo) (last : Bool) (d a : Fin 16) (amt : Fin 32)
  /-- CMPI (R277): CMPI sets N Z C V from a minus the immediate. -/
  | cmpi (t : TileNo) (last : Bool) (a : Fin 16) (imm : BitVec 8)
  /-- MINI (R277): MINI writes the signed minimum of a and the immediate. -/
  | mini (t : TileNo) (last : Bool) (d a : Fin 16) (imm : BitVec 8)
  /-- MAXI (R277): MAXI writes the signed maximum of a and the immediate. -/
  | maxi (t : TileNo) (last : Bool) (d a : Fin 16) (imm : BitVec 8)
  /-- LDI (R278): LDI loads a sign-extended 16-bit constant into s_d. -/
  | ldi (t : TileNo) (last : Bool) (d : Fin 16) (imm : BitVec 16)
  /-- LDIH (R278): LDIH replaces the high 16 bits of s_d with an immediate. -/
  | ldih (t : TileNo) (last : Bool) (d : Fin 16) (imm : BitVec 16)
  /-- MOVX (R279): MOVX copies a register between register files and classes. -/
  | movx (t : TileNo) (last : Bool) (dst : MovDst) (src : MovSrc)
  /-- B (R282): B branches conditionally to TARGET after two delay slots, optionally annulling them when not taken. -/
  | b (t : TileNo) (last : Bool) (cond : Cond) (annul : Bool) (target : BundleIx)
  /-- BAL (R282): BAL branches conditionally and, when taken, writes the return index to s15. -/
  | bal (t : TileNo) (last : Bool) (cond : Cond) (annul : Bool) (target : BundleIx)
  /-- BR (R282): BR branches conditionally to the bundle index held in s_a. -/
  | br (t : TileNo) (last : Bool) (cond : Cond) (annul : Bool) (a : Fin 16)
  /-- LOOP (R283): LOOP pushes a loop level with a count from a register, or skips the body for count 0. -/
  | loop (t : TileNo) (last : Bool) (a : Fin 16) (lend : BundleIx)
  /-- LOOPI (R283): LOOPI pushes a loop level with an immediate count, or skips the body for count 0. -/
  | loopi (t : TileNo) (last : Bool) (count : BitVec 9) (lend : BundleIx)
  /-- RPT (R284): RPT issues the following bundle count times in consecutive cycles without interruption. -/
  | rpt (t : TileNo) (last : Bool) (count : RptCount)
  /-- RCP (R285): RCP computes the reciprocal of s_a in the function unit at distance 8. -/
  | rcp (t : TileNo) (last : Bool) (d a : Fin 16)
  /-- RSQ (R285): RSQ computes the reciprocal square root of s_a at distance 8. -/
  | rsq (t : TileNo) (last : Bool) (d a : Fin 16)
  /-- LOG2 (R285): LOG2 computes the base-2 logarithm of s_a at distance 8. -/
  | log2 (t : TileNo) (last : Bool) (d a : Fin 16)
  /-- EXP2 (R285): EXP2 computes 2 to the power s_a at distance 8. -/
  | exp2 (t : TileNo) (last : Bool) (d a : Fin 16)
  /-- DIV (R285): DIV computes s_a / s_b at distance 8. -/
  | div (t : TileNo) (last : Bool) (d a b : Fin 16)
  /-- LDS (R292): LDS loads a word into an s, p, m or n register, aligned or rotating. -/
  | lds (t : TileNo) (last : Bool) (r : SReg) (ptr : Fin 8) (post : Post) (rot : Bool) (off : Fin 16)
  /-- STS (R292): STS stores an s, p, m or n register as a word. -/
  | sts (t : TileNo) (last : Bool) (r : SReg) (ptr : Fin 8) (post : Post) (rot : Bool) (off : Fin 16)
  /-- LDV (R293): LDV loads a 16-byte vector into the four lanes of a v register. -/
  | ldv (t : TileNo) (last : Bool) (v : Fin 16) (ptr : Fin 8) (post : Post) (off : Fin 32)
  /-- STV (R293): STV stores the four lanes of a v register as a vector. -/
  | stv (t : TileNo) (last : Bool) (v : Fin 16) (ptr : Fin 8) (post : Post) (off : Fin 32)
  /-- LDB (R293): LDB loads one word into all four lanes of a v register. -/
  | ldb (t : TileNo) (last : Bool) (v : Fin 16) (ptr : Fin 8) (post : Post) (off : Fin 32)
  /-- LDL (R294): LDL loads a rotating or packed word into one lane. -/
  | ldl (t : TileNo) (last : Bool) (v : Fin 16) (lane : Fin 4) (ptr : Fin 8) (post : Post) (p3 : Bool) (off : Fin 16)
  /-- STL (R294): STL stores one lane as a rotating or packed word. -/
  | stl (t : TileNo) (last : Bool) (v : Fin 16) (lane : Fin 4) (ptr : Fin 8) (post : Post) (p3 : Bool) (off : Fin 16)
  /-- LDD (R295): LDD loads a vector and a vector or broadcast through two pointers, stalling on a bank conflict. -/
  | ldd (t : TileNo) (last : Bool) (pair : Fin 8) (pa : Fin 8) (posta : Post) (pb : Fin 8) (postb : Post) (bc : Bool)
  /-- STA (R297): STA converts an accumulator and stores four lanes or one lane. -/
  | sta (t : TileNo) (last : Bool) (acc : Fin 2) (conv : Conv) (ptr : Fin 8) (post : Post) (sel : StaLanes)
  /-- LEA (R298): LEA sets a pointer to another pointer plus an immediate. -/
  | lea (t : TileNo) (last : Bool) (pd pa : Fin 8) (imm : BitVec 10)
  /-- STEP (R298): STEP post-modifies a pointer by its m register without access. -/
  | stepPtr (t : TileNo) (last : Bool) (ptr : Fin 8)
  /-- MUL (R301): MUL loads the accumulator with the aligned product in every lane. -/
  | mul (t : TileNo) (last : Bool) (form : MacForm) (acc : Fin 2) (va vb : Fin 16)
  /-- MAC (R301): MAC adds the aligned product to the accumulator in every lane. -/
  | mac (t : TileNo) (last : Bool) (form : MacForm) (acc : Fin 2) (va vb : Fin 16)
  /-- MSU (R301): MSU subtracts the aligned product from the accumulator in every lane. -/
  | msu (t : TileNo) (last : Bool) (form : MacForm) (acc : Fin 2) (va vb : Fin 16)
  /-- CVT (R302): CVT converts an accumulator into a v register in every lane. -/
  | cvt (t : TileNo) (last : Bool) (vd : Fin 16) (acc : Fin 2) (conv : Conv)
  /-- CLR (R303): CLR clears the accumulator in every lane. -/
  | clr (t : TileNo) (last : Bool) (acc : Fin 2)
  /-- LDA (R303): LDA loads the accumulator from a v register shifted by 2^32. -/
  | lda (t : TileNo) (last : Bool) (acc : Fin 2) (v : Fin 16)
  /-- ADDA (R303): ADDA adds a shifted v register to the accumulator. -/
  | adda (t : TileNo) (last : Bool) (acc : Fin 2) (v : Fin 16)
  /-- SUBA (R303): SUBA subtracts a shifted v register from the accumulator. -/
  | suba (t : TileNo) (last : Bool) (acc : Fin 2) (v : Fin 16)
  /-- SUMA (R303): SUMA sums the four lanes of the accumulator into lane 0. -/
  | suma (t : TileNo) (last : Bool) (acc : Fin 2)
  /-- VADD (R304): VADD adds lanes modulo 2^32. -/
  | vadd (t : TileNo) (last : Bool) (vd va vb : Fin 16)
  /-- VSUB (R304): VSUB subtracts lanes modulo 2^32. -/
  | vsub (t : TileNo) (last : Bool) (vd va vb : Fin 16)
  /-- VADDS (R304): VADDS adds lanes with saturation. -/
  | vadds (t : TileNo) (last : Bool) (vd va vb : Fin 16)
  /-- VSUBS (R304): VSUBS subtracts lanes with saturation. -/
  | vsubs (t : TileNo) (last : Bool) (vd va vb : Fin 16)
  /-- VMIN (R304): VMIN takes the signed minimum per lane. -/
  | vmin (t : TileNo) (last : Bool) (vd va vb : Fin 16)
  /-- VMAX (R304): VMAX takes the signed maximum per lane. -/
  | vmax (t : TileNo) (last : Bool) (vd va vb : Fin 16)
  /-- VABS (R304): VABS takes the saturated absolute value per lane. -/
  | vabs (t : TileNo) (last : Bool) (vd va : Fin 16)
  /-- VNEG (R304): VNEG negates each lane with saturation. -/
  | vneg (t : TileNo) (last : Bool) (vd va : Fin 16)
  /-- VAND (R304): VAND takes the bitwise AND per lane. -/
  | vand (t : TileNo) (last : Bool) (vd va vb : Fin 16)
  /-- VOR (R304): VOR takes the bitwise OR per lane. -/
  | vor (t : TileNo) (last : Bool) (vd va vb : Fin 16)
  /-- VXOR (R304): VXOR takes the bitwise XOR per lane. -/
  | vxor (t : TileNo) (last : Bool) (vd va vb : Fin 16)
  /-- VANDN (R304): VANDN takes va AND NOT vb per lane. -/
  | vandn (t : TileNo) (last : Bool) (vd va vb : Fin 16)
  /-- VCMPGT (R304): VCMPGT writes all ones where va is greater than vb. -/
  | vcmpgt (t : TileNo) (last : Bool) (vd va vb : Fin 16)
  /-- VCMPEQ (R304): VCMPEQ writes all ones where va equals vb. -/
  | vcmpeq (t : TileNo) (last : Bool) (vd va vb : Fin 16)
  /-- VMOV (R304): VMOV copies a v register. -/
  | vmov (t : TileNo) (last : Bool) (vd va : Fin 16)
  /-- VSHL (R305): VSHL shifts each lane left logically. -/
  | vshl (t : TileNo) (last : Bool) (vd va : Fin 16) (amt : Fin 32)
  /-- VSHR (R305): VSHR shifts each lane right logically. -/
  | vshr (t : TileNo) (last : Bool) (vd va : Fin 16) (amt : Fin 32)
  /-- VASR (R305): VASR shifts each lane right arithmetically. -/
  | vasr (t : TileNo) (last : Bool) (vd va : Fin 16) (amt : Fin 32)
  /-- VSHLS (R305): VSHLS multiplies each lane by 2^AMT with saturation. -/
  | vshls (t : TileNo) (last : Bool) (vd va : Fin 16) (amt : Fin 32)
  /-- VPERM (R306): VPERM permutes the four lanes by a selector. -/
  | vperm (t : TileNo) (last : Bool) (vd va : Fin 16) (sel : BitVec 8)
  /-- LEARNED_FLOOR (R154): Once an hour the zone gain hands its lowest noise estimate to the steward, which journals it. -/
  | learnedFloor (inst : Nat)
  /-- SCN_RECALL (R220): A write of SCN_RECALL requests a scene recall recognised in the following pass. -/
  | scnRecall (v : Word)
  /-- START_PASS (R185): In pass S0 the back program starts running the crossfade program at position 0. -/
  | startPass
  /-- AUDIBLE_START (R180): In pass S the crossfade and parameter ramps begin. -/
  | audibleStart
  /-- SWAP_PASS (R185): In pass E the instruction memory and exchange table roles swap and the new front runs alone. -/
  | swapPass
  /-- RECALL_COMPLETE (R179): The recall completes in the last pass of its crossfade or longest ramp. -/
  | recallComplete
  /-- COLD_FETCH (R193): A cold scene record fetched from flash completes and is checked against its digest. -/
  | coldFetch (scene : Nat) (errs : List (Nat × Byte))
  /-- COLD_FETCH_LATE (R193): A cold fetch not complete by the end of pass S0 − 3 moves S0 to after completion with a MAJOR record. -/
  | coldFetchLate
  /-- HOT_RECORD_REFETCH (R228): A hot scene record with an ECC error in staging is fetched again from flash. -/
  | hotRecordRefetch (scene : Nat)
  /-- DEAL (R199): A targeted engine receives a deal, computes S and S0 and starts staging. -/
  | dealMsg (h : MsgHdr) (d : DealMsg)
  /-- DEAL_DUE (R199): A staged deal is entered as a recall recognised in pass S0 − L. -/
  | dealDue
  /-- DEAL_ACK (R200): The manager receives a device's answer to a deal. -/
  | dealAck (h : MsgHdr) (id : BitVec 32) (scene status : Nat) (p : PassIx)
  /-- DEAL_ACK_DEADLINE (R202): At t − 10 ms the manager records every device that did not answer READY. -/
  | dealAckDeadline
  /-- DEAL_CANCEL (R201): A DEAL_CANCEL removes a deal not yet due, or is answered TOO_LATE. -/
  | dealCancel (h : MsgHdr) (id : BitVec 32)
  /-- CUE_PIN_EDGE (R205): A cue pin that has shown a new level at DEBOUNCE + 1 strobes recognises its edge triggers. -/
  | cuePinEdge (pin : Fin 16)
  /-- CUE_PIN_STALE (R205): A cue pin without a change for the stated count recognises its stale trigger. -/
  | cuePinStale (pin : Fin 16)
  /-- TIME_TRIGGER (R205): A time trigger is recognised in the pass of its PTP time or of each later period. -/
  | timeTrigger (ix : Fin 1024)
  /-- TIMED_CUE (R205): A timed domain cue is recognised in the pass of its time. -/
  | timedCue
  /-- CUE (R212): A domain cue message is received and recognises its triggers, or is relayed by the manager. -/
  | cueMsg (h : MsgHdr) (n level : Nat) (time : Option (Nat × Nat))
  /-- STAT_STUCK (R207): A status pin read back wrong at 8 consecutive strobes is marked stuck and recognises its trigger. -/
  | statStuck (pin : Fin 8)
  /-- PULSE_END (R209): A status pulse that has run PULSE passes drives its pin low. -/
  | pulseEnd (pin : Fin 8)
  /-- PORT_ENABLE (R355): Setting PORT_CTRL.EN starts a master port's clocks or a slave port's search. -/
  | portEnable (k : PortNo) (v : Word)
  /-- PORT_DISABLE (R356): Clearing PORT_CTRL.EN fades the port over 32 frames and then runs its clocks out. -/
  | portDisable (k : PortNo) (v : Word)
  /-- PORT_LOCK (R355): A slave port that finds 8 consecutive frames of length B locks and fixes its frame assignment. -/
  | portLock (k : PortNo) (e : Nat)
  /-- RUNIN_END (R355): After START_FRAMES zero-data frames the port enters RAMP. -/
  | runinEnd (k : PortNo)
  /-- PORT_RAMP_END (R355): After the 256-frame ramp the port data passes unchanged and the state is RUN. -/
  | portRampEnd (k : PortNo)
  /-- PORT_STOP (R356): At the end of the stop fade and STOP_FRAMES run-out the port stops and enters OFF. -/
  | portStop (k : PortNo)
  /-- TDM_FRAME (R352): A port frame is assigned to a pass and moved between the port and its hopper. -/
  | tdmFrame (k : PortNo) (out : Bool) (e len : Nat) (agree : Bool) (din : List Bool)
  /-- FRAME_LOSS (R358): A slave port with no frame reference for the stated time sets LOST and fades. -/
  | frameLoss (k : PortNo)
  /-- PORT_STUCK (R358): A master port whose clock readback is wrong at 8 consecutive frames sets STUCK and LOST and fades. -/
  | portStuck (k : PortNo) (fsync level : Bool)
  /-- PORT_RECOVERY (R357): After 64 consecutive healthy passes the port starts its recovery ramp. -/
  | portRecovery (k : PortNo)
  /-- RATE_MEASUREMENT (R360): After 1,024 frames the port writes its measured frame rate. -/
  | rateMeasurement (k : PortNo) (cycles : Nat)
  /-- NON_AUDIO_RELEASE (R364): With no preamble for the release span, the pair ramps back and NA_ACT clears. -/
  | nonAudioRelease (k : PortNo) (pair : Fin 16)
  /-- PDM_ENABLE (R390): Setting PDM_CTRL.EN starts the enabled clocks and microphones. -/
  | pdmEnable (v : Word)
  /-- PDM_DISABLE (R392): Clearing PDM_CTRL.EN fades every running microphone and stops the clocks. -/
  | pdmDisable (v : Word)
  /-- MIC_ENABLE (R390): Setting a PDM_MIC_EN bit clears the microphone's chain and starts its settling. -/
  | micEnable (v : Word)
  /-- MIC_DISABLE (R392): Clearing a PDM_MIC_EN bit fades the microphone over 32 samples and turns it off. -/
  | micDisable (v : Word)
  /-- TRIM_WRITE (R389): A TRIM write to a running microphone restarts it with the new trim. -/
  | trimWrite (ix : Fin 4) (v : Word)
  /-- SETTLE_END (R391): After S settling passes the microphone output ramps in over 256 samples. -/
  | settleEnd (m : MicNo)
  /-- PDM_DATA_STUCK (R394): A microphone holding one bit value for 1,024 bits fades and holds with STUCK set. -/
  | pdmDataStuck (m : MicNo)
  /-- PDM_DATA_RECOVERY (R394): After 64 passes with both bit values, a stuck microphone ramps back. -/
  | pdmDataRecovery (m : MicNo)
  /-- PDM_CLK_STUCK (R394): A PDM clock whose readback is wrong in 8 passes sets CLK_STUCK and fades its microphones. -/
  | pdmClkStuck (clk : Fin 2) (level : Bool)
  /-- PDM_CLK_RECOVERY (R394): After 8 passes of matching readback, each held microphone restarts. -/
  | pdmClkRecovery (clk : Fin 2)
  /-- SRC_ENABLE (R408): Setting SRC_CTRL.EN puts the converter in WAIT for an accepted rate measurement. -/
  | srcEnable (c : Fin 8) (v : Word)
  /-- SRC_DISABLE (R403): Clearing SRC_CTRL.EN fades the converter and turns it off. -/
  | srcDisable (c : Fin 8) (v : Word)
  /-- CONVERTER_LOCKED (R403): After 1,024 passes of small error the converter enters LOCKED and ramps in. -/
  | converterLocked (c : Fin 8)
  /-- REF_BLOCK_END (R416): A completed block of 256 reference periods updates the candidate's validity. -/
  | refBlockEnd (code : Fin 20) (cycles : Nat)
  /-- REF_EDGE_LOSS (R416): A candidate with no edge for 2 × D_r cycles becomes invalid. -/
  | refEdgeLoss (code : Fin 20)
  /-- WTR_EXPIRY (R419): A higher entry valid for WTR seconds becomes the current reference. -/
  | wtrExpiry (entry : Fin 8)
  /-- REF_PRIO_WRITE (R419): A write of the priority list re-selects the reference from the new list. -/
  | refPrioWrite (second : Bool) (v : Word)
  /-- CLOCK_LOCK (R422): After COUNT consecutive periods within WIN the reference state becomes LOCKED. -/
  | clockLock (e : Int)
  /-- LOCK_LOSS (R422): After four consecutive periods outside WIN the state returns to ACQUIRE. -/
  | lockLoss (e : Int)
  /-- HOLDOVER_AVERAGE (R424): At the end of each second in LOCKED the holdover average is updated. -/
  | holdoverAverage
  /-- HOLDOVER_LIMIT (R424): When holdover reaches LIMIT seconds the engine sets HEXP and writes a MAJOR record. -/
  | holdoverLimit
  /-- CLK_CTRL_WRITE (R424): A write of CLK_CTRL that changes HAVG invalidates the holdover history. -/
  | clkCtrlWrite (v : Word)
  /-- SYNC_ARM (R430): A write of CLK_SYNC.ARM arms one divider synchronisation. -/
  | syncArm (v : Word)
  /-- DIVIDER_SYNC (R430): At the synchronisation instant the selected outputs realign and DONE is set. -/
  | dividerSync
  /-- SYNC_IN_EDGE (R428): A SYNC_IN edge realigns JUMP outputs and serves an armed synchronisation. -/
  | syncInEdge (rising : Bool) (cycle : Nat)
  /-- REF_MONITOR (R434): A REF count window out of range raises a fatal clock fault. -/
  | refMonitor (count : Nat)
  /-- CORE_LOCK_LOSS (R434): A drop of the core synthesiser's lock detector raises a fatal fault. -/
  | coreLockLoss
  /-- CORE_FREQUENCY (R434): A core frequency count out of range raises a fatal fault. -/
  | coreFrequency (count : Nat)
  /-- NET_LOCK_LOSS (R434): A drop of the network synthesiser's lock raises a contained NET fault. -/
  | netLockLoss
  /-- LINK_STATUS (R443): In-band status changes an Ethernet port's link, speed and duplex state. -/
  | linkStatus (one up half : Bool) (speed : Fin 3)
  /-- ETH_FRAME (R447): A received Ethernet frame is buffered, discarded or passed to its handler. -/
  | ethFrame (one : Bool) (f : EthFrame)
  /-- MDIO_GO (R444): A write of NET_MDIO with GO starts one clause 22 frame. -/
  | mdioGo (v : Word)
  /-- MDIO_DONE (R444): An MDIO frame completes and GO reads 0 with a read result in DATA. -/
  | mdioDone (data : BitVec 16)
  /-- SYNC (R456): A received Sync forms an offset and updates the servo. -/
  | ptpSync (one : Bool) (dom : Nat) (cycle stay : Int) (seq : Nat) (sender : PtpFrom) (twoStep : Bool) (sec ns : Nat) (corr : Int)
  /-- FOLLOW_UP (R456): A received Follow_Up supplies the precise origin time of a two-step Sync. -/
  | followUp (one : Bool) (dom : Nat) (seq : PtpSeq) (sec ns : Nat) (corr : Int)
  /-- DELAY_RESP (R456): A received Delay_Resp gives a path delay sample. -/
  | delayResp (one : Bool) (dom : Nat) (seq : PtpReply) (sec ns : Nat) (corr : Int)
  /-- DELAY_REQ (R451): A master clock answers a received Delay_Req. -/
  | delayReq (one : Bool) (dom : Nat) (cycle stay : Int) (seq : PtpSeq) (corr : Int)
  /-- ANNOUNCE (R451): A received Announce feeds the best master clock algorithm. -/
  | announceMsg (one : Bool) (dom : Nat) (d : AnnData)
  /-- PTP_TIME_VALID (R458): After 16 consecutive offsets within VALID_NS, time becomes valid and the state SLAVE. -/
  | ptpTimeValid
  /-- SYNC_TIMEOUT (R458): No Sync for 4 intervals makes time invalid. -/
  | syncTimeout
  /-- ANNOUNCE_TIMEOUT (R454): announceReceiptTimeout changes port or makes time invalid and the state LISTENING. -/
  | announceTimeout
  /-- SYNC_SEND (R451): A master sends a one-step Sync at the configured interval. -/
  | syncSend (cycle : Int × Int)
  /-- ANNOUNCE_SEND (R451): A master sends Announce at the configured interval. -/
  | announceSend
  /-- DELAY_REQ_SEND (R456): A slave sends Delay_Req at the configured interval. -/
  | delayReqSend (cycle : Int)
  /-- TSET_GO (R459): A write of PTP_TSET_GO steps a grandmaster's counter and the AON clock at the next strobe. -/
  | tsetGo (v : Word)
  /-- TIME_NS_READ (R461): A read of PTP_TIME_NS latches the seconds. -/
  | timeNsRead (cycle : Nat)
  /-- CAPTURE_EDGE (R462): A CAP_IN edge stores the counter's time, or sets OVF while a capture is held. -/
  | captureEdge (k : Fin 4) (falling : Bool) (cycle : Nat)
  /-- CAP_NS_READ (R462): A read of PTP_CAPk_NS latches the seconds and clears VALID. -/
  | capNsRead (k : Fin 4)
  /-- IGMP_QUERY (R446): An IGMP query is answered with a report after a delay derived from the address. -/
  | igmpQuery (one : Bool) (group : Word) (maxMs : Nat)
  /-- ARP_REQUEST (R446): An ARP request for the engine's address is answered. -/
  | arpRequest (one : Bool) (ask : ArpAsk)
  /-- ECHO_REQUEST (R446): An ICMP echo request is answered. -/
  | echoRequest (one : Bool) (ask : EchoAsk)
  /-- STREAM_PACKET (R467): A received stream packet is matched and its samples placed by time stamp or counted late or early. -/
  | streamPacket (one : Bool) (c : Nat) (p : RtpPacket)
  /-- STREAM_RAMP (R468): After 64 complete passes the receive stream ramps back. -/
  | streamRamp (j : StreamNo)
  /-- SUPERVISION_FRAME (R471): In PRP mode a supervision frame is sent on each port every 2,000 ms. -/
  | supervisionFrame
  /-- NODE_ENTRY_EXPIRY (R473): A duplicate-table entry unused for 60 s is freed. -/
  | nodeEntryExpiry (src : Nat)
  /-- RACE_LINK_ENABLE (R488): Setting RACE_CTRLk.EN starts frames on the link from the next pass. -/
  | raceLinkEnable (k : LinkNo) (v : Word)
  /-- RACE_FRAME (R490): A received race frame is judged valid and its link cell and control cells are used. -/
  | raceFrame (k : LinkNo) (f : RaceIn)
  /-- RACE_SYNC (R489): Four consecutive good frames move a receiver from SEARCH to SYNC. -/
  | raceSync (k : LinkNo)
  /-- RACE_SYNC_LOSS (R489): Two missing comma pairs or eight invalid frames return the receiver to SEARCH. -/
  | raceSyncLoss (k : LinkNo)
  /-- COMMIT (R492): The receive block commits a pass's race channels from the first valid frames to the receive ring. -/
  | raceCommit
  /-- CHANNEL_RAMP (R493): After 64 complete passes a race channel ramps back. -/
  | channelRamp (c : Fin 1536)
  /-- JOIN (R510): The manager answers a JOIN with ADMIT or REFUSE. -/
  | joinMsg (h : MsgHdr) (own : Nat) (rate96 twin twinB : Bool) (build nTx : Nat)
  /-- ADMIT (R507): A device receives its admission to the domain. -/
  | admitMsg (h : MsgHdr) (ver : Nat) (epoch : PassIx)
  /-- REFUSE (R510): A device receives a refusal and records it. -/
  | refuseMsg (h : MsgHdr) (reason : Nat)
  /-- LEAVE (R511): The manager marks a leaving device ABSENT and withdraws its streams. -/
  | leaveMsg (h : MsgHdr)
  /-- MANAGER (R501): A MANAGER message establishes the acting manager by TERM. -/
  | managerMsg (h : MsgHdr) (term : BitVec 16) (ver : Nat) (lastDeal : BitVec 32) (used : Nat)
  /-- HEARTBEAT (R511): The manager records a device's HEARTBEAT. -/
  | heartbeatMsg (h : MsgHdr) (mode grid twin : Nat) (flt : Word)
  /-- MIRROR (R500): The standby applies roster and stream table changes from the manager. -/
  | mirrorMsg (h : MsgHdr) (cs : List MirrorChange)
  /-- STREAMS (R508): A STREAMS message schedules stream starts and withdrawals at an epoch. -/
  | streamsMsg (h : MsgHdr) (epoch : PassIx) (es : List StreamEntry)
  /-- STREAM_EPOCH (R508): At pass EPOCH the named streams are enabled or disabled. -/
  | streamEpoch
  /-- TALLY_PULL (R659): A device answers a TALLY_PULL with a TALLY_SUMMARY of its records. -/
  | tallyPull (h : MsgHdr) (fromSeq : BitVec 32) (minSev max : Nat)
  /-- TALLY_SUMMARY (R659): The manager receives a device's Tally summary. -/
  | tallySummary (h : MsgHdr) (head drops : Nat) (records : List (List Byte))
  /-- PARAM (R505): A PARAM message makes raw parameter writes. -/
  | paramMsg (h : MsgHdr) (es : List (Nat × Nat × Word))
  /-- IMAGE_OPEN (R623): An IMAGE OPEN starts a domain image write session. -/
  | imageOpen (session bytes : Nat)
  /-- IMAGE_DATA (R623): An IMAGE DATA chunk programs three pages of the other slot. -/
  | imageData (session offset : Nat) (data : List Byte)
  /-- IMAGE_CLOSE (R623): An IMAGE CLOSE verifies the written slot. -/
  | imageClose (session : Nat) (errs digErrs : List (Nat × Byte))
  /-- IMAGE_ABORT (R623): An IMAGE ABORT ends the domain session. -/
  | imageAbort (session : Nat)
  /-- MANAGER_SEND (R500): The manager sends a MANAGER message every 100 ms. -/
  | managerSend
  /-- MANAGER_TAKEOVER (R501): The standby takes over after 400 ms without a MANAGER message. -/
  | managerTakeover
  /-- HEARTBEAT_SEND (R511): Each device sends HEARTBEAT once per second in its own pass. -/
  | heartbeatSend
  /-- HEARTBEAT_EXPIRY (R511): A device without HEARTBEAT for 3 s is marked ABSENT. -/
  | heartbeatExpiry (d : Fin 2048)
  /-- JOIN_RETRY (R510): An unanswered or refused engine sends JOIN again. -/
  | joinRetry
  /-- SCRUB_ROW (R525): The scrubber reads a row, corrects and rewrites errored words, or handles an uncorrectable error. -/
  | scrubRow (memid : BitVec 10)
  /-- ECC_REWRITE (R526): A queued corrected word is rewritten in the next idle cycle of its bank. -/
  | eccRewrite
  /-- CLIP_RESTORE (R527): A clip row with an uncorrectable error is rewritten from the image's clips section. -/
  | clipRestore (addr : Nat)
  /-- TAMPER (R529): TAMPER_N low at two AON samples starts a wipe of the secure region. -/
  | tamperLow
  /-- WIPE_DONE (R529): The wipe completes its write and readback, or locks the region. -/
  | wipeDone (clean : Bool)
  /-- MARCH_GO (R544): A write of MPD_MARCH_CTRL.GO requests a March test or is refused. -/
  | marchGo (v : Word)
  /-- MARCH_ROW (R531): A preserving March test tests one row in idle cycles and restores it. -/
  | marchRow (fails : Bool)
  /-- MARCH_END (R533): A March test ends and failing rows are repaired into spares and journalled. -/
  | marchEnd
  /-- SEMAPHORE_READ (R539): A read of XBAR_SEMk takes the semaphore when free. -/
  | semaphoreRead (k : Fin 32) (m : Master)
  /-- RELEASE (R539): A RELEASE write by the owner frees the semaphore. -/
  | semRelease (k : Fin 32) (m : Master)
  /-- BUS_HANG (R541): A device-bus access without response for 2,048 cycles is ended and the master port reset. -/
  | busHang (m : Master) (addr : Word)
  /-- DOMAIN_POWER_UP (R581): A switched domain completes its power-up and fill and becomes usable. -/
  | domainPowerUp (d : Fin 80)
  /-- FAULT_REPORT (R551): The fault collector takes a report, queues or coalesces it and applies its class reaction. -/
  | faultReport (hw : Option ParityHit) (late : Bool)
  /-- QUEUE_DRAIN (R552): The steward writes the oldest queued report to the recorder and pops it. -/
  | queueDrain
  /-- INJECT (R547): A write of FLT_INJECT.ARM arms one fault injection or is refused. -/
  | injectArm (v : Word)
  /-- WATCHDOG (R546): A steward watchdog not serviced for 100 ms raises a contained STEW fault. -/
  | watchdog
  /-- STEWARD_RESTART (R548): The steward completes its restart from ROM and resumes its waiting work. -/
  | stewardRestart
  /-- SUPPLY_MONITOR (R679): A rail crossing its threshold for 1 µs asserts reset or raises a fatal supply fault. -/
  | supplyMonitor (rail : Fin 9) (crossed : Option Bool)
  /-- SLUICE_FRAME_END (R553): A slave port whose frame has not ended after 516 REF cycles ends it for the safe state. -/
  | sluiceFrameEnd (k : PortNo)
  /-- TWIN_START_WAIT (R564): Twin A's wait for twin B's STATE expires and A starts alone. -/
  | twinStartWait
  /-- START (R564): A START command names the pair's first or rejoin pass. -/
  | twinStart (p : PassIx) (g : Word)
  /-- PEER_WAIT (R564): Twin B's wait for a START expires and B starts alone or rejoins by TWIN_PEER_ACT. -/
  | peerWait (peer : Bool)
  /-- TWIN_SKEW (R562): A strobe skew above 16 cycles for 48 passes raises a twin-skew report. -/
  | twinSkew
  /-- TWIN_PIN_STUCK (R565): A twin pin read back wrong or inconsistent for 8 passes is reported stuck. -/
  | twinPinStuck (pin : Fin 3)
  /-- DIGEST_WINDOW (R566): A 48-pass digest window ends and its digest is sent in the next frame. -/
  | digestWindow
  /-- DIAGNOSIS_END (R570): After 1,024 passes of diagnosis the twins decide who yields or rejoins. -/
  | diagnosisEnd (peerFound : Bool)
  /-- TWIN_CMD_YIELD (R568): A write of TWIN_CMD.YIELD makes the active twin hand over. -/
  | twinCmdYield
  /-- TWIN_CMD_REJOIN (R575): A write of TWIN_CMD.REJOIN starts a standby's rejoin at step 2. -/
  | twinCmdRejoin
  /-- TWIN_TAKEOVER (R571): A standby reading TWIN_PEER_ACT low takes control of the shared lines. -/
  | twinTakeover
  /-- REJOIN_REQ (R572): The active twin receives REJOIN_REQ and answers START when no topology recall runs. -/
  | rejoinReq
  /-- COPY_END (R572): A COPY_END ends copying and the rejoining twin starts verification. -/
  | copyEnd (b : Machine.StewBlock)
  /-- REJOIN_LIMIT (R572): A rejoin not reaching SHADOW within LIMIT seconds restarts at step 2. -/
  | rejoinLimit
  /-- POWER_ON_RESET (R579): The AON rail rising into range resets everything and starts the boot sequence. -/
  | powerOnReset (size : Fin 33) (octal selB railHeld : Bool)
  /-- RESET_N (R579): RESET_N low for 32 samples resets the switched domains, or only STEW while LOCK is set. -/
  | resetN
  /-- IMAGE_APPLIED (R602): A valid image is applied and the engine enters SYNC in the first pass of the graph. -/
  | imageApplied (plan : LibPlan) (errsA errsB : List (Nat × Byte)) (ms : Nat) (tests : List (Nat × List Nat))
  /-- BOOT_FAILURE (R601): With no valid image in either slot the engine enters SLUICE with LOCK clear. -/
  | bootFailure
  /-- SERVICE (R592): A request for SERVICE stops ports and streams and stops the graph at pass n + 33. -/
  | serviceRequest
  /-- SERVICE_ENTRY (R592): At pass n + 33 the graph stops and SYS_MODE reads SERVICE. -/
  | serviceEntry
  /-- DORMANT (R593): A request for DORMANT fades as for SERVICE and then flushes and powers off. -/
  | dormantRequest
  /-- DORMANT_ENTRY (R593): Every switched domain is off and the engine is DORMANT. -/
  | dormantEntry
  /-- RUN (R592): A request for RUN in SERVICE restarts the engine through BOOT. -/
  | runRequest
  /-- WAKE (R594): The WAKE ball at its active level wakes the engine from DORMANT. -/
  | wakeBall (level : Bool)
  /-- RTC_ALARM (R594): The RTC alarm DELAY seconds after entry wakes the engine from DORMANT. -/
  | rtcAlarm
  /-- TEMPERATURE_READING (R595): A junction temperature reading raises or clears the warning, shuts down or resumes. -/
  | temperatureReading (reading : Int)
  /-- PFAIL (R600): PFAIL_N recognised low holds new NVM commits. -/
  | pfailLow
  /-- PFAIL_RELEASE (R600): PFAIL_N high for 100 ms releases the commit hold. -/
  | pfailRelease
  /-- REGION_GATED (R585): A region completing HOLD quiet passes enters retention from the next strobe. -/
  | regionGated (r : Fin 64)
  /-- QUIET_ENTRY (R590): After HOLD passes with every region gated the engine enters QUIET. -/
  | quietEntry
  /-- PWR_QUIET_WRITE (R604): A write of PWR_QUIET leaves QUIET and sets whether QUIET is allowed. -/
  | pwrQuietWrite (v : Word)
  /-- PAGE_PROGRAM_DONE (R611): A flash page program completes and the next waiting operation starts. -/
  | pageProgramDone (ok : Bool)
  /-- ERASE_DONE (R611): A flash erase completes. -/
  | eraseDone (ok : Bool)
  /-- FLASH_READ_DONE (R611): A flash read completes and delivers its data. -/
  | flashReadDone
  /-- FLASH_TIMEOUT (R609): A flash operation not finished within twice its maximum marks the flash failed. -/
  | flashTimeout
  /-- JOURNAL_COMMIT (R630): The steward packs queued records into the next page of the active chain. -/
  | journalCommit
  /-- COMPACTION (R632): Compaction writes the live set into the spare chain and changes chains. -/
  | compaction
  /-- COUNTERS (R629): The steward commits a COUNTERS record every hour of RUN. -/
  | countersRecord
  /-- OPEN (R622): NVM_UPD_CTRL.OP OPEN starts a service-port session and erases the other slot. -/
  | updOpen
  /-- PROGRAM (R622): NVM_UPD_CTRL.OP PROGRAM programs one page of the other slot. -/
  | updProgram
  /-- CLOSE (R622): NVM_UPD_CTRL.OP CLOSE verifies the slot and commits a SLOT record. -/
  | updClose (errs digErrs : List (Nat × Byte))
  /-- ABORT (R622): NVM_UPD_CTRL.OP ABORT ends the session. -/
  | updAbort
  /-- LC_KEY (R640): A write of the key value to NVM_LC_KEY opens a 1 s window for a transition. -/
  | lcKey (v : Word)
  /-- LIFE_CYCLE_TRANSITION (R640): A write of NVM_LC.TARGET wipes the secure region, burns fuses and restarts. -/
  | lifeCycleTransition (v : Word)
  /-- BURN_HASH (R641): KEYCMD 1 burns NVM_KEYBUF as a key hash. -/
  | burnHash (slot : Fin 4)
  /-- REVOKE (R641): KEYCMD 2 burns a revocation fuse. -/
  | revokeKey (slot : Fin 4)
  /-- SET_DOMAIN_KEY (R641): KEYCMD 3 writes a domain key into the key store and loads it. -/
  | setDomainKey (slot : Fin 4)
  /-- CLEAR_DOMAIN_KEY (R641): KEYCMD 4 invalidates a domain key slot. -/
  | clearDomainKey (slot : Fin 4)
  /-- MONITOR_ENABLE (R645): Setting TLY_MONm_CFG.EN starts the monitor's first window. -/
  | monitorEnable (m : Fin 64) (v : Word)
  /-- MONITOR_DISABLE (R645): Clearing EN closes the running window. -/
  | monitorDisable (m : Fin 64) (v : Word)
  /-- MONITOR_CLOSE (R645): A write of TLY_MONm_CTRL.CLOSE closes the running window. -/
  | monitorClose (m : Fin 64)
  /-- WINDOW_END (R647): A window of WIN passes closes and its values are copied to the held bank. -/
  | windowEnd (m : Fin 64)
  /-- WINDOW_RECORDS (R648): In the pass after a close the steward writes the window's records. -/
  | windowRecords (m : Fin 64)
  /-- TIME_RECORD (R655): A TIME record is written at alignment and every hour. -/
  | timeRecord
  /-- CURSOR_SET (R657): A write of TLY_CURSOR with MODE 0 sets SLOT directly. -/
  | cursorSet (v : Word)
  /-- CURSOR_SEARCH (R657): A write of TLY_CURSOR with MODE 1 starts a search for the oldest newer record. -/
  | cursorSearch (v : Word)
  /-- CURSOR_READY (R657): The cursor search completes, sets READY or EMPTY and raises CURSOR. -/
  | cursorReady
  /-- TLY_MARK (R664): A write of TLY_MARK places a MARK record. -/
  | tlyMark (v : Word)
  /-- READ (R661): A service-port READ request reads words and returns a response. -/
  | svcRead (i2c other : Bool) (cmd : Byte) (crc : BitVec 16) (addr : Word) (n cycle : Nat)
  /-- WRITE (R661): A service-port WRITE request writes words and returns a status. -/
  | svcWrite (i2c other : Bool) (cmd : Byte) (crc : BitVec 16) (addr : Word) (data : List Word)
  /-- SPI_ABORT (R662): SVC_CS_N rising before a transaction completes discards or aborts it. -/
  | spiAbort (req : Option SvcReq) (started : Nat)
  /-- SVC_PARAM_GO (R663): A write of SVC_PARAM_GO requests a raw parameter write and reports RESULT. -/
  | svcParamGo (v : Word)
  /-- SCRUB_SWEEP (R665): SVC_MAINT kind 2 requests a full scrub sweep at the shortest interval. -/
  | scrubSweep (arg : BitVec 10)
  /-- TILE_RESTART (R665): SVC_MAINT kind 5 clears a tile's banks and state and leaves it stopped. -/
  | tileRestart (n : TileNo)
  /-- MAINT_END (R666): A maintenance request ends and the arbiter admits the next one. -/
  | maintEnd
  /-- SLUICE_FRAME (R557): Each frame of the sluice divider, or of a slave sluice port's external clock, captures the sluice input into the 4-sample buffer and sends the newest complete sample on every sluice output slot. -/
  | sluiceFrame (port : Option PortNo) (input : List Word)
  /-- RACE_LINK_DISABLE (R513): A write that clears RACE_CTRLk.EN is recognised in the next pass; the link stops sending frames and its receiver enters OFF. -/
  | raceLinkDisable (k : LinkNo) (v : Word)
  /-- TAMPER_RELEASE (R529): TAMPER_N returning high ends the hold under which the wiped secure region ignores writes. -/
  | tamperRelease
  deriving DecidableEq, Repr

end Sys2Proof
end

