-- ==== Sys2Proof/Decode.lean ====
section
/-!
DEFINITION. Table words.  No row of the opcode table has bits: the commands of this block are writes, messages, events
and slots of a bundle, and none is spelled by a word of its own.
-/

namespace Sys2Proof

/-- The command that a word spells by the table's bits: no row gives bits, so no word spells one. -/
def decodeTableWord (_nbits _w : Nat) : Option Instr := none

end Sys2Proof
end

