-- ==== Sys2Proof/Machine/Arith.lean ====
section
/-!
DEFINITION. Exact integer arithmetic the manual's rules share: rounding half to even, saturation, integer square
root, and the exact real functions (base-2 logarithm and exponential, exponential, sine) evaluated with guard bits on
integers.  Every function recurses on a list or on a count, so that the kernel evaluates it.
-/

namespace Sys2Proof.Machine

/-- `a / b` rounded to the nearest integer, ties to even, for `b > 0` (R6, R246). -/
def divRne (a : Int) (b : Nat) : Int :=
  let q := a / (b : Int)
  let r := a % (b : Int)
  if 2 * r > (b : Int) then q + 1
  else if 2 * r = (b : Int) then (if q % 2 = 0 then q else q + 1)
  else q

/-- The arithmetic shift right by `n`: the floor of `a / 2^n`. -/
def asr (a : Int) (n : Nat) : Int := a / ((2 ^ n : Nat) : Int)

/-- `a` limited to `lo` to `hi`. -/
def clampI (lo hi a : Int) : Int := if a < lo then lo else if hi < a then hi else a

/-- Saturation to the 32-bit two's complement range (R6). -/
def sat32 (a : Int) : Int := clampI (-2147483648) 2147483647 a

/-- The magnitude of a sample, with |−1.0| taken as 1 − 2^−31 (R123, R124). -/
def magQ31 (x : Int) : Int := if x ≤ -2147483648 then 2147483647 else if x < 0 then -x else x

/-- Saturating increment of a counter of `n` bits. -/
def satAdd (n c k : Nat) : Nat := if c + k < 2 ^ n then c + k else 2 ^ n - 1

/-- The ceiling of `a / b` on naturals. -/
def ceilDiv (a b : Nat) : Nat := (a + b - 1) / b

/-- The smallest `c ≤ k` with `2^c ≥ n` (R249); `k` when there is none. -/
def ceilLog2 : Nat → Nat → Nat
  | 0, _ => 0
  | k + 1, n => let c := ceilLog2 k n; if n ≤ 2 ^ c then c else c + 1

/-- The bit position of the most significant 1 of `v`, looked for below bit `k`; 0 when there is none. -/
def msbBelow : Nat → Nat → Nat
  | 0, _ => 0
  | k + 1, v => if v.testBit k then k else msbBelow k v

/-- The integer square root, one result bit at a time from bit `k − 1` down. -/
def isqrtBits : Nat → Nat → Nat → Nat
  | 0, r, _ => r
  | k + 1, r, v =>
    let r' := r + 2 ^ k
    if r' * r' ≤ v then isqrtBits k r' v else isqrtBits k r v

/-- The integer square root of `v < 2^(2k)`. -/
def isqrt (k v : Nat) : Nat := isqrtBits k 0 v

/-- Bits of `log2 y` after the point, most significant first, for `y` in [1, 2) held with `p` fraction bits:
each squaring gives one bit. -/
def log2Bits (p : Nat) : Nat → Nat → Nat → Nat
  | 0, acc, _ => acc
  | k + 1, acc, y =>
    let z := y * y / 2 ^ p
    if 2 ^ (p + 1) ≤ z then log2Bits p k (2 * acc + 1) (z / 2) else log2Bits p k (2 * acc) z

/-- `log2 (x / 2^30)` in units of 2^−31 for x in [2^30, 2^31), rounded half to even and limited to the largest
representable value (R286). -/
def log2Q31 (x : Nat) : Nat :=
  let l := log2Bits 224 72 0 (x * 2 ^ 194)
  min ((divRne (l : Int) (2 ^ 41)).toNat) 0x7FFFFFFF

/-- The product of the roots 2^(2^−k) whose bit is set in `f`, bits from 30 down; `c` is the current root and `acc`
the product, both with `p` fraction bits. -/
def exp2Bits (p : Nat) (f : Nat) : Nat → Nat → Nat → Nat
  | 0, _, acc => acc
  | k + 1, c, acc =>
    let c' := isqrt (p + 2) (c * 2 ^ p)
    exp2Bits p f k c' (if f.testBit k then acc * c' / 2 ^ p else acc)

/-- `2^(f / 2^31)` in Q2.30 for f in [0, 2^31), rounded half to even and limited to 0x7FFF_FFFF (R244, R286). -/
def exp2Q30 (f : Nat) : Nat :=
  let v := exp2Bits 96 f 31 (2 ^ 97) (2 ^ 96)
  min ((divRne (v : Int) (2 ^ 66)).toNat) 0x7FFFFFFF

/-- Σ (−a/b)^n / n! with 96 fraction bits: terms `n`, `n + 1`, …, the current term being `t`. -/
def expSeries (a b : Nat) : Nat → Nat → Int → Int → Int
  | 0, _, _, acc => acc
  | k + 1, n, t, acc =>
    let t' := -(t * (a : Int)) / ((b * n : Nat) : Int)
    expSeries a b k (n + 1) t' (acc + t')

/-- `exp (−a/b)` with 96 fraction bits, for a/b small enough that 80 terms suffice (it is below 8 here). -/
def expNeg96 (a b : Nat) : Int := expSeries a b 80 1 (2 ^ 96) (2 ^ 96)

/-- Σ of the sine series with 128 fraction bits: `t` is the current term, `x2` the square of the angle. -/
def sinSeries (x2 : Int) : Nat → Nat → Int → Int → Int
  | 0, _, _, acc => acc
  | k + 1, n, t, acc =>
    let t' := -(t * x2 / (2 ^ 128)) / ((2 * n * (2 * n + 1) : Nat) : Int)
    sinSeries x2 k (n + 1) t' (acc + t')

/-- π with 128 fraction bits. -/
def pi128 : Nat := 1069028584064966747859680373161870783300

/-- `sin (2π i / 1024)` with 128 fraction bits for i up to 256. -/
def sinQuarter (i : Nat) : Int :=
  let x : Int := ((2 * pi128 * i / 1024 : Nat) : Int)
  sinSeries (x * x / 2 ^ 128) 30 1 x x

/-- `T[i] = round (sin (2π i / 1024) × (2^31 − 1))` for i = 0 to 1,024 (R127). -/
def sineT (i : Nat) : Int :=
  let j := i % 1024
  let q := if j ≤ 256 then sinQuarter j else if j ≤ 512 then sinQuarter (512 - j)
    else if j ≤ 768 then -(sinQuarter (j - 512)) else -(sinQuarter (1024 - j))
  divRne (q * 2147483647) (2 ^ 128)

/-- ln 2 with 128 fraction bits. -/
def ln2W : Nat := 235865763225513294137944142764154484399
/-- ln 10 with 128 fraction bits. -/
def ln10W : Nat := 783529105480883066805338482703447369892

/-- Σ x^n / n! with 128 fraction bits: terms `n`, `n + 1`, …, the current term being `t`. -/
def expTerms (x : Nat) : Nat → Nat → Nat → Nat → Nat
  | 0, _, _, acc => acc
  | k + 1, n, t, acc =>
    let t' := t * x / (2 ^ 128 * n)
    expTerms x k (n + 1) t' (acc + t')

/-- 10^(num/den) as a mantissa in [1, 2) with 128 fraction bits and a binary exponent. -/
def pow10 (num : Int) (den : Nat) : Nat × Int :=
  let x := num * (ln10W : Int) / (den : Int)
  let e := x / (ln2W : Int)
  (expTerms (x - e * ln2W).toNat 40 1 (2 ^ 128) (2 ^ 128), e)

/-- 10^(num/den) with 96 fraction bits. -/
def pow10Q96 (num : Int) (den : Nat) : Int :=
  let p := pow10 num den
  if 32 ≤ p.2 then (p.1 : Int) * 2 ^ (p.2 - 32).toNat else (p.1 : Int) / 2 ^ (32 - p.2).toNat

/-- Σ of the cosine series with 128 fraction bits: `t` is the current term, `x2` the square of the angle. -/
def cosSeries (x2 : Int) : Nat → Nat → Int → Int → Int
  | 0, _, _, acc => acc
  | k + 1, n, t, acc =>
    let t' := -(t * x2 / (2 ^ 128)) / (((2 * n - 1) * (2 * n) : Nat) : Int)
    cosSeries x2 k (n + 1) t' (acc + t')

/-- tan (π f / fs) with 96 fraction bits, for 0 < f < fs/2 (R121). -/
def tanPi (f fs : Nat) : Int :=
  let x : Int := ((pi128 * f / fs : Nat) : Int)
  let x2 := x * x / 2 ^ 128
  sinSeries x2 30 1 x x * 2 ^ 96 / cosSeries x2 30 1 (2 ^ 128) (2 ^ 128)

end Sys2Proof.Machine
end

