-- ==== Sys2Proof/Machine/Maps.lean ====
section
/-!
DEFINITION. The operations of a sparse map: read, write, and the canonical form every write keeps.
Registers, memories and the numbered units of the engine (tiles, ports, streams and so on) are all held this way,
so that equal contents are equal data.
-/

namespace Sys2Proof.Machine

/-- The value at key `k`: the listed one, else the default `d`. -/
def mget {α : Type} (d : α) : SMap α → Nat → α
  | [], _ => d
  | (j, v) :: m, k => if j = k then v else if k < j then d else mget d m k

/-- The map with key `k` removed. -/
def mdel {α : Type} : SMap α → Nat → SMap α
  | [], _ => []
  | (j, v) :: m, k => if j = k then m else if k < j then (j, v) :: m else (j, v) :: mdel m k

/-- The map with `v` listed at key `k`, whatever `v` is. -/
def mput {α : Type} : SMap α → Nat → α → SMap α
  | [], k, v => [(k, v)]
  | (j, w) :: m, k, v =>
    if j = k then (k, v) :: m else if k < j then (k, v) :: (j, w) :: m else (j, w) :: mput m k v

/-- The map with key `k` holding `v`: writing the default value removes the entry. -/
def mset {α : Type} [DecidableEq α] (d : α) (m : SMap α) (k : Nat) (v : α) : SMap α :=
  if v = d then mdel m k else mput m k v

/-- Every listed key lies above `lo`, keys rise strictly and no listed value is the default. -/
def mwfFrom {α : Type} [DecidableEq α] (d : α) (lo : Nat) : SMap α → Bool
  | [] => true
  | (j, v) :: m => decide (lo ≤ j) && decide (v ≠ d) && mwfFrom d (j + 1) m

/-- The canonical form of a sparse map. -/
def mwf {α : Type} [DecidableEq α] (d : α) (m : SMap α) : Bool := mwfFrom d 0 m

/-- The map with the value at `k` replaced by what `f` makes of it. -/
def mupd {α : Type} [DecidableEq α] (d : α) (m : SMap α) (k : Nat) (f : α → α) : SMap α :=
  mset d m k (f (mget d m k))

/-- Writes `f k` at every key `k` of the list, in order. -/
def msetAll {α : Type} [DecidableEq α] (d : α) (m : SMap α) : List (Nat × α) → SMap α
  | [] => m
  | (k, v) :: r => msetAll d (mset d m k v) r

/-- Applies `f` at every key of the list, in order. -/
def mupdAll {α : Type} [DecidableEq α] (d : α) (m : SMap α) (f : Nat → α → α) : List Nat → SMap α
  | [] => m
  | k :: r => mupdAll d (mupd d m k (f k)) f r

end Sys2Proof.Machine
end

