-- ==== Sys2Proof/Machine/RegTable.lean ====
section
/-!
DEFINITION. The register maps of every peripheral block: for each register its address (with stride and count where it
repeats) and its fields with type and reset value, as the tables of the manual give them (R43 to R48, R220 to R227,
R366 to R376, R406 to R409, R435 to R441, R475 to R479, R514, R515, R543, R544, R574, R575, R603, R604, R642, R667 to
R669).  Reserved fields are not listed: a bit of no field reads 0 and ignores writes (R12).
-/

namespace Sys2Proof.Machine

/-- The field types of R14. -/
inductive FTy where
  | rw | ro | w1c | w1s | rc | wo
  deriving DecidableEq, Repr

/-- A register field: bits [hi:lo], type, reset value. -/
structure Fld where
  hi : Nat
  lo : Nat
  ty : FTy
  rst : Nat
  name : String
  deriving DecidableEq, Repr

/-- A register, or a family of `count` registers `stride` bytes apart. -/
structure RegDef where
  name : String
  base : Nat
  stride : Nat
  count : Nat
  flds : List Fld
  deriving DecidableEq, Repr

/-- Registers of the SYS_ block (R43, R44, R45, R46, R47, R48, R603). -/
def regsSys : List RegDef := [
  ⟨"SYS_PASS_LO", 0x40000010, 0x0, 1, [⟨31, 0, .ro, 0x0, "PASS_LO"⟩]⟩,
  ⟨"SYS_PASS_HI", 0x40000014, 0x0, 1, [⟨15, 0, .ro, 0x0, "PASS_HI"⟩]⟩,
  ⟨"SYS_GCOUNT", 0x40000018, 0x0, 1, [⟨31, 0, .ro, 0x0, "GCOUNT"⟩]⟩,
  ⟨"SYS_GRID_CTRL", 0x40000020, 0x0, 1, [⟨15, 8, .rw, 0x40, "REANCHOR"⟩, ⟨7, 0, .rw, 0x64, "SLEW_PPM"⟩]⟩,
  ⟨"SYS_GRID_STAT", 0x40000024, 0x0, 1, [⟨11, 8, .ro, 0x0, "REANCHORS"⟩, ⟨2, 0, .ro, 0x0, "STATE"⟩]⟩,
  ⟨"SYS_GRID_ERR", 0x40000028, 0x0, 1, [⟨31, 0, .ro, 0x0, "ERR"⟩]⟩,
  ⟨"SYS_ID", 0x40000000, 0x0, 1, [⟨31, 0, .ro, 0x4B4D0400, "PART"⟩]⟩,
  ⟨"SYS_STEP", 0x40000004, 0x0, 1, [⟨15, 8, .ro, 0x42, "LETTER"⟩, ⟨7, 0, .ro, 0x0, "DIGIT"⟩]⟩,
  ⟨"SYS_MODE", 0x40000008, 0x0, 1, [⟨18, 16, .wo, 0x0, "REQ"⟩, ⟨9, 9, .w1c, 0x0, "REQ_ERR"⟩, ⟨8, 8, .ro, 0x0, "LOCK"⟩, ⟨2, 0, .ro, 0x0, "MODE"⟩]⟩,
  ⟨"SYS_BOOT", 0x4000000C, 0x0, 1, [⟨16, 16, .ro, 0x0, "SLOT"⟩, ⟨15, 0, .ro, 0x0, "MS"⟩]⟩]

/-- Registers of the SCN_ block (R220, R221, R222, R223). -/
def regsScn : List RegDef := [
  ⟨"SCN_RECALL", 0x40710000, 0x0, 1, [⟨29, 16, .wo, 0x0, "XF_MS"⟩, ⟨10, 10, .wo, 0x0, "LAW"⟩, ⟨9, 0, .wo, 0x0, "SCENE"⟩]⟩,
  ⟨"SCN_STATUS", 0x40710004, 0x0, 1, [⟨29, 26, .ro, 0x0, "FRONT_TOPO"⟩, ⟨25, 16, .ro, 0x0, "CURRENT"⟩, ⟨4, 4, .ro, 0x0, "COLD_BUSY"⟩, ⟨3, 3, .ro, 0x0, "PENDING"⟩, ⟨2, 0, .ro, 0x0, "STATE"⟩]⟩,
  ⟨"SCN_PEND", 0x40710008, 0x0, 1, [⟨9, 0, .ro, 0x0, "SCENE"⟩]⟩,
  ⟨"SCN_COUNTS", 0x4071000C, 0x0, 1, [⟨31, 16, .rc, 0x0, "LATE"⟩, ⟨15, 0, .rc, 0x0, "DROPPED"⟩]⟩]

/-- Registers of the CUE_ block (R224, R225, R226, R227). -/
def regsCue : List RegDef := [
  ⟨"CUE_PIN_IN", 0x40700000, 0x0, 1, [⟨31, 16, .ro, 0x0, "RAW"⟩, ⟨15, 0, .ro, 0x0, "STATE"⟩]⟩,
  ⟨"CUE_STAT_OUT", 0x40700004, 0x0, 1, [⟨7, 0, .rw, 0x0, "DRIVE"⟩]⟩,
  ⟨"CUE_STAT_FAULT", 0x40700008, 0x0, 1, [⟨7, 0, .w1c, 0x0, "STUCK"⟩]⟩,
  ⟨"CUE_DROPS", 0x4070000C, 0x0, 1, [⟨31, 0, .rc, 0x0, "DROPS"⟩]⟩]

/-- Registers of the PORT_ block (R367, R368, R369, R370, R371, R372, R373, R374, R375, R376). -/
def regsPort : List RegDef := [
  ⟨"PORT_CTRL", 0x40100000, 0x1000, 12, [⟨11, 10, .rw, 0x0, "DRV"⟩, ⟨9, 9, .rw, 0x0, "IDLE"⟩, ⟨8, 8, .rw, 0x0, "ASYNC"⟩, ⟨4, 4, .rw, 0x0, "CLK_COPY"⟩, ⟨3, 3, .rw, 0x0, "SHARE"⟩, ⟨2, 2, .rw, 0x0, "MASTER"⟩, ⟨0, 0, .rw, 0x0, "EN"⟩]⟩,
  ⟨"PORT_FRAME", 0x40100004, 0x1000, 12, [⟨21, 21, .rw, 0x0, "PACK"⟩, ⟨20, 20, .rw, 0x0, "BCLK_POL"⟩, ⟨19, 19, .rw, 0x0, "FS_DELAY"⟩, ⟨18, 18, .rw, 0x0, "FS_POL"⟩, ⟨17, 16, .rw, 0x0, "FS_FORM"⟩, ⟨15, 11, .rw, 0x0, "OFFSET"⟩, ⟨10, 9, .rw, 0x0, "DLEN"⟩, ⟨8, 7, .rw, 0x0, "SW"⟩, ⟨5, 0, .rw, 0x0, "SLOTS"⟩]⟩,
  ⟨"PORT_RXMASK", 0x40100008, 0x1000, 12, [⟨31, 0, .rw, 0x0, "MASK"⟩]⟩,
  ⟨"PORT_TXMASK", 0x4010000C, 0x1000, 12, [⟨31, 0, .rw, 0x0, "MASK"⟩]⟩,
  ⟨"PORT_HOP_RX", 0x40100010, 0x1000, 12, [⟨31, 0, .rw, 0x0, "BASE"⟩]⟩,
  ⟨"PORT_HOP_TX", 0x40100014, 0x1000, 12, [⟨31, 0, .rw, 0x0, "BASE"⟩]⟩,
  ⟨"PORT_TIMING", 0x40100018, 0x1000, 12, [⟨27, 16, .rw, 0x40, "STOP_FRAMES"⟩, ⟨11, 0, .rw, 0x40, "START_FRAMES"⟩]⟩,
  ⟨"PORT_PHASE", 0x4010001C, 0x1000, 12, [⟨29, 16, .ro, 0x0, "LOCK_PHASE"⟩, ⟨13, 0, .rw, 0x0, "FRAME_PHASE"⟩]⟩,
  ⟨"PORT_STAT", 0x40100020, 0x1000, 12, [⟨7, 7, .ro, 0x0, "CFG_ERR"⟩, ⟨6, 6, .w1c, 0x0, "CFG_WE"⟩, ⟨5, 5, .w1c, 0x0, "STUCK"⟩, ⟨4, 4, .ro, 0x0, "LOST"⟩, ⟨2, 0, .ro, 0x0, "STATE"⟩]⟩,
  ⟨"PORT_RATE", 0x40100024, 0x1000, 12, [⟨31, 28, .ro, 0x0, "CLASS"⟩, ⟨24, 0, .ro, 0x0, "RATE"⟩]⟩,
  ⟨"PORT_EVENTS", 0x40100028, 0x1000, 12, [⟨31, 16, .rc, 0x0, "SLIPS"⟩, ⟨15, 0, .rc, 0x0, "FERR"⟩]⟩,
  ⟨"PORT_NA", 0x4010002C, 0x1000, 12, [⟨31, 16, .ro, 0x0, "NA_ACT"⟩, ⟨15, 0, .rw, 0x0, "NA_EN"⟩]⟩]

/-- Registers of the PDM_ block (R406, R407). -/
def regsPdm : List RegDef := [
  ⟨"PDM_CTRL", 0x40110000, 0x0, 1, [⟨15, 8, .rw, 0x0, "WAKE"⟩, ⟨7, 6, .rw, 0x0, "DRV"⟩, ⟨5, 4, .rw, 0x0, "CLK_EN"⟩, ⟨3, 2, .rw, 0x0, "ORDER"⟩, ⟨1, 1, .rw, 0x0, "FAST"⟩, ⟨0, 0, .rw, 0x0, "EN"⟩]⟩,
  ⟨"PDM_MIC_EN", 0x40110004, 0x0, 1, [⟨15, 0, .rw, 0x0, "EN"⟩]⟩,
  ⟨"PDM_EDGE", 0x40110008, 0x0, 1, [⟨7, 0, .rw, 0x0, "SWAP"⟩]⟩,
  ⟨"PDM_HOP", 0x4011000C, 0x0, 1, [⟨31, 0, .rw, 0x0, "BASE"⟩]⟩,
  ⟨"PDM_STAT", 0x40110010, 0x0, 1, [⟨5, 4, .w1c, 0x0, "CLK_STUCK"⟩, ⟨3, 3, .w1c, 0x0, "CFG_WE"⟩, ⟨2, 2, .ro, 0x0, "CFG_ERR"⟩, ⟨1, 0, .ro, 0x0, "CLK_RUN"⟩]⟩,
  ⟨"PDM_MIC_STAT", 0x40110014, 0x0, 1, [⟨31, 16, .ro, 0x0, "STUCK"⟩, ⟨15, 0, .ro, 0x0, "LIVE"⟩]⟩,
  ⟨"PDM_TRIM", 0x40110020, 0x4, 4, [⟨31, 24, .rw, 0x0, "TRIM3"⟩, ⟨23, 16, .rw, 0x0, "TRIM2"⟩, ⟨15, 8, .rw, 0x0, "TRIM1"⟩, ⟨7, 0, .rw, 0x0, "TRIM0"⟩]⟩,
  ⟨"PDM_COEF", 0x40110100, 0x4, 19, [⟨31, 0, .rw, 0x0, "COEF"⟩]⟩]

/-- Registers of the SRC_ block (R409). -/
def regsSrc : List RegDef := [
  ⟨"SRC_CTRL", 0x40120000, 0x40, 8, [⟨23, 20, .rw, 0x0, "CHANS"⟩, ⟨16, 12, .rw, 0x0, "FIRST"⟩, ⟨11, 8, .rw, 0x0, "PORT"⟩, ⟨0, 0, .rw, 0x0, "EN"⟩]⟩,
  ⟨"SRC_RATIO_LO", 0x40120004, 0x40, 8, [⟨31, 0, .ro, 0x0, "FRAC"⟩]⟩,
  ⟨"SRC_RATIO_HI", 0x40120008, 0x40, 8, [⟨2, 0, .ro, 0x0, "INT"⟩]⟩,
  ⟨"SRC_STAT", 0x4012000C, 0x40, 8, [⟨31, 16, .rc, 0x0, "RECENTRES"⟩, ⟨7, 7, .w1c, 0x0, "CFG_WE"⟩, ⟨6, 6, .ro, 0x0, "CFG_ERR"⟩, ⟨5, 4, .ro, 0x0, "H"⟩, ⟨2, 0, .ro, 0x0, "STATE"⟩]⟩,
  ⟨"SRC_ERR", 0x40120010, 0x40, 8, [⟨31, 0, .ro, 0x0, "ERR"⟩]⟩,
  ⟨"SRC_GD", 0x40120014, 0x40, 8, [⟨23, 0, .ro, 0x0, "GD"⟩]⟩,
  ⟨"SRC_HOP", 0x40120018, 0x40, 8, [⟨31, 0, .rw, 0x0, "BASE"⟩]⟩]

/-- Registers of the CLK_ block (R435, R437, R438, R439). -/
def regsClk0 : List RegDef := [
  ⟨"CLK_CTRL", 0x40020000, 0x0, 1, [⟨31, 24, .rw, 0x0, "WTR"⟩, ⟨17, 16, .rw, 0x2, "HAVG"⟩, ⟨11, 8, .rw, 0x3, "FRAMP"⟩, ⟨5, 4, .rw, 0x1, "BW"⟩, ⟨3, 2, .rw, 0x1, "FWIN"⟩, ⟨0, 0, .rw, 0x1, "AUTO"⟩]⟩,
  ⟨"CLK_REF_STATE", 0x4002000C, 0x0, 1, [⟨20, 16, .ro, 0x1F, "SEL"⟩, ⟨10, 8, .ro, 0x0, "ENTRY"⟩, ⟨4, 4, .ro, 0x0, "HIST"⟩, ⟨3, 3, .ro, 0x1, "FALLBACK"⟩, ⟨2, 2, .ro, 0x0, "HEXP"⟩, ⟨1, 0, .ro, 0x0, "STATE"⟩]⟩,
  ⟨"CLK_REF_VALID", 0x40020010, 0x0, 1, [⟨19, 0, .ro, 0x0, "VALID"⟩]⟩,
  ⟨"CLK_LOCK", 0x40020014, 0x0, 1, [⟨28, 16, .rw, 0x100, "COUNT"⟩, ⟨7, 0, .rw, 0x10, "WIN"⟩]⟩,
  ⟨"CLK_WCLK", 0x40020018, 0x4, 2, [⟨16, 16, .rw, 0x0, "POL"⟩, ⟨15, 0, .rw, 0x2800, "DIV"⟩]⟩,
  ⟨"CLK_FREQ", 0x40020020, 0x0, 1, [⟨31, 0, .ro, 0x0, "F"⟩]⟩,
  ⟨"CLK_FHOLD", 0x40020024, 0x0, 1, [⟨31, 0, .ro, 0x0, "F_HOLD"⟩]⟩,
  ⟨"CLK_XTAL_TRIM", 0x40020028, 0x0, 1, [⟨31, 0, .rw, 0x0, "TRIM"⟩]⟩,
  ⟨"CLK_PHERR", 0x4002002C, 0x0, 1, [⟨31, 0, .ro, 0x0, "E"⟩]⟩,
  ⟨"CLK_EVENTS", 0x40020030, 0x0, 1, [⟨31, 16, .rc, 0x0, "SWITCHES"⟩, ⟨15, 0, .rc, 0x0, "LOCKLOSS"⟩]⟩,
  ⟨"CLK_HOLD", 0x40020034, 0x0, 1, [⟨31, 16, .rw, 0xE10, "LIMIT"⟩, ⟨15, 0, .ro, 0x0, "TIME"⟩]⟩,
  ⟨"CLK_OUT_STAT", 0x40020058, 0x0, 1, [⟨15, 8, .ro, 0x0, "GATED"⟩, ⟨7, 0, .ro, 0x0, "CFG_ERR"⟩]⟩,
  ⟨"CLK_SYNC", 0x40020040, 0x0, 1, [⟨31, 31, .w1s, 0x0, "ARM"⟩, ⟨30, 30, .w1c, 0x0, "DONE"⟩, ⟨29, 29, .w1c, 0x0, "LATE"⟩, ⟨27, 27, .rw, 0x0, "POL"⟩, ⟨24, 24, .rw, 0x0, "SRC"⟩, ⟨7, 0, .rw, 0x0, "MASK"⟩]⟩,
  ⟨"CLK_SYNC_TS_LO", 0x40020044, 0x0, 1, [⟨31, 0, .rw, 0x0, "SEC_LO"⟩]⟩,
  ⟨"CLK_SYNC_TS_HI", 0x40020048, 0x0, 1, [⟨15, 0, .rw, 0x0, "SEC_HI"⟩]⟩,
  ⟨"CLK_SYNC_TNS", 0x4002004C, 0x0, 1, [⟨29, 0, .rw, 0x0, "NS"⟩]⟩]

/-- Registers of the CLK_ block (R436, R439, R440, R441). -/
def regsClk1 : List RegDef := [
  ⟨"CLK_SYNC_DLY", 0x40020050, 0x0, 1, [⟨15, 0, .rw, 0x0, "SDLY"⟩]⟩,
  ⟨"CLK_MCLK", 0x40020060, 0x4, 4, [⟨29, 28, .rw, 0x0, "DRV"⟩, ⟨27, 26, .rw, 0x1, "GATE"⟩, ⟨25, 25, .rw, 0x0, "SRC"⟩, ⟨24, 24, .rw, 0x0, "EN"⟩, ⟨13, 12, .rw, 0x0, "FMT"⟩, ⟨11, 0, .rw, 0x28, "DIV"⟩]⟩,
  ⟨"CLK_REF_PRIO0", 0x40020004, 0x0, 1, [⟨28, 24, .rw, 0x1F, "ENTRY3"⟩, ⟨20, 16, .rw, 0x1F, "ENTRY2"⟩, ⟨12, 8, .rw, 0x1F, "ENTRY1"⟩, ⟨4, 0, .rw, 0x0, "ENTRY0"⟩]⟩,
  ⟨"CLK_REF_PRIO1", 0x40020008, 0x0, 1, [⟨28, 24, .rw, 0x1F, "ENTRY7"⟩, ⟨20, 16, .rw, 0x1F, "ENTRY6"⟩, ⟨12, 8, .rw, 0x1F, "ENTRY5"⟩, ⟨4, 0, .rw, 0x1F, "ENTRY4"⟩]⟩,
  ⟨"CLK_FRMO", 0x40020080, 0x20, 4, [⟨29, 28, .rw, 0x0, "DRV"⟩, ⟨27, 26, .rw, 0x1, "GATE"⟩, ⟨25, 24, .rw, 0x0, "ALIGN"⟩, ⟨23, 23, .rw, 0x0, "POL"⟩, ⟨22, 22, .rw, 0x0, "EN"⟩, ⟨15, 0, .rw, 0x64, "SLEW"⟩]⟩,
  ⟨"CLK_FRMO_PERIOD", 0x40020084, 0x20, 4, [⟨28, 0, .rw, 0x2800, "PERIOD"⟩]⟩,
  ⟨"CLK_FRMO_WIDTH", 0x40020088, 0x20, 4, [⟨28, 0, .rw, 0x1, "WIDTH"⟩]⟩,
  ⟨"CLK_FRMO_OFFSET", 0x4002008C, 0x20, 4, [⟨28, 0, .rw, 0x0, "OFFSET"⟩]⟩,
  ⟨"CLK_FRMO_M", 0x40020090, 0x20, 4, [⟨23, 0, .rw, 0x1, "M"⟩]⟩]

/-- Registers of the NET_ block (R475). -/
def regsNet : List RegDef := [
  ⟨"NET_CTRL", 0x40200000, 0x0, 1, [⟨10, 8, .rw, 0x0, "MODE"⟩, ⟨5, 4, .rw, 0x0, "IF1"⟩, ⟨3, 2, .rw, 0x0, "IF0"⟩, ⟨0, 0, .rw, 0x0, "EN"⟩]⟩,
  ⟨"NET_STAT", 0x40200004, 0x0, 1, [⟨16, 16, .w1c, 0x0, "CFG_WE"⟩, ⟨11, 11, .ro, 0x0, "HDX1"⟩, ⟨10, 10, .ro, 0x0, "LINK1"⟩, ⟨9, 8, .ro, 0x0, "SPEED1"⟩, ⟨3, 3, .ro, 0x0, "HDX0"⟩, ⟨2, 2, .ro, 0x0, "LINK0"⟩, ⟨1, 0, .ro, 0x0, "SPEED0"⟩]⟩,
  ⟨"NET_IP", 0x40200008, 0x0, 1, [⟨31, 0, .rw, 0x0, "ADDR"⟩]⟩,
  ⟨"NET_IPCFG", 0x4020000C, 0x0, 1, [⟨7, 0, .rw, 0x20, "TTL"⟩]⟩,
  ⟨"NET_MAC_LO", 0x40200010, 0x8, 2, [⟨31, 0, .rw, 0x0, "MAC_LO"⟩]⟩,
  ⟨"NET_MAC_HI", 0x40200014, 0x8, 2, [⟨15, 0, .rw, 0x0, "MAC_HI"⟩]⟩,
  ⟨"NET_RXDROP", 0x40200020, 0x4, 2, [⟨31, 16, .rc, 0x0, "FULL"⟩, ⟨15, 0, .rc, 0x0, "CRC"⟩]⟩,
  ⟨"NET_DUP", 0x40200028, 0x0, 1, [⟨31, 16, .rc, 0x0, "DUP"⟩, ⟨15, 0, .rc, 0x0, "NOSLOT"⟩]⟩,
  ⟨"NET_MDIO", 0x4020002C, 0x0, 1, [⟨31, 31, .w1s, 0x0, "GO"⟩, ⟨30, 30, .rw, 0x0, "WRITE"⟩, ⟨29, 25, .rw, 0x0, "PHYAD"⟩, ⟨24, 20, .rw, 0x0, "REGAD"⟩, ⟨15, 0, .rw, 0x0, "DATA"⟩]⟩,
  ⟨"NET_MDIO_CFG", 0x40200030, 0x0, 1, [⟨7, 0, .rw, 0x31, "DIV"⟩]⟩]

/-- Registers of the PTP_ block (R476). -/
def regsPtp0 : List RegDef := [
  ⟨"PTP_CTRL", 0x40210000, 0x0, 1, [⟨30, 24, .rw, 0x0, "DOMAIN"⟩, ⟨15, 15, .rw, 0x1, "TC_EN"⟩, ⟨12, 12, .rw, 0x0, "PORT"⟩, ⟨8, 8, .rw, 0x0, "TRANSPORT"⟩, ⟨1, 0, .rw, 0x0, "ROLE"⟩]⟩,
  ⟨"PTP_INTV", 0x40210004, 0x0, 1, [⟨23, 20, .rw, 0x3, "ANN_TO"⟩, ⟨15, 12, .rw, 0xD, "LOG_DREQ"⟩, ⟨11, 8, .rw, 0x0, "LOG_ANN"⟩, ⟨3, 0, .rw, 0xD, "LOG_SYNC"⟩]⟩,
  ⟨"PTP_GM", 0x40210008, 0x0, 1, [⟨31, 24, .rw, 0x80, "PRIORITY1"⟩, ⟨23, 16, .rw, 0x80, "PRIORITY2"⟩, ⟨15, 8, .rw, 0xF8, "CLASS"⟩, ⟨7, 0, .rw, 0xFE, "ACCURACY"⟩]⟩,
  ⟨"PTP_UTC", 0x4021000C, 0x0, 1, [⟨16, 16, .rw, 0x0, "VALID"⟩, ⟨15, 0, .rw, 0x25, "OFFSET"⟩]⟩,
  ⟨"PTP_COR", 0x40210010, 0x4, 2, [⟨31, 16, .rw, 0x0, "TX_LAT"⟩, ⟨15, 0, .rw, 0x0, "RX_LAT"⟩]⟩,
  ⟨"PTP_ASYM", 0x40210018, 0x4, 2, [⟨31, 0, .rw, 0x0, "ASYM"⟩]⟩,
  ⟨"PTP_SERVO", 0x40210020, 0x0, 1, [⟨31, 16, .rw, 0x897, "KP"⟩, ⟨15, 0, .rw, 0x89, "KI"⟩]⟩,
  ⟨"PTP_LIMITS", 0x40210024, 0x0, 1, [⟨31, 16, .rw, 0x64, "STEP"⟩, ⟨15, 0, .rw, 0xFA, "VALID_NS"⟩]⟩,
  ⟨"PTP_STAT", 0x40210028, 0x0, 1, [⟨31, 24, .ro, 0x0, "STEPS"⟩, ⟨23, 16, .ro, 0x0, "SWITCHES"⟩, ⟨6, 6, .w1c, 0x0, "STEPPED"⟩, ⟨5, 5, .ro, 0x0, "PORT_USE"⟩, ⟨4, 4, .ro, 0x0, "VALID"⟩, ⟨3, 0, .ro, 0x0, "STATE"⟩]⟩,
  ⟨"PTP_OFFSET", 0x4021002C, 0x0, 1, [⟨31, 0, .ro, 0x0, "O"⟩]⟩,
  ⟨"PTP_MPD", 0x40210030, 0x0, 1, [⟨31, 0, .ro, 0x0, "D"⟩]⟩,
  ⟨"PTP_W", 0x40210034, 0x0, 1, [⟨31, 0, .ro, 0x0, "W"⟩]⟩,
  ⟨"PTP_GMID_LO", 0x40210038, 0x0, 1, [⟨31, 0, .ro, 0x0, "ID_LO"⟩]⟩,
  ⟨"PTP_GMID_HI", 0x4021003C, 0x0, 1, [⟨31, 0, .ro, 0x0, "ID_HI"⟩]⟩,
  ⟨"PTP_CLKID_LO", 0x40210040, 0x0, 1, [⟨31, 0, .rw, 0x0, "ID_LO"⟩]⟩,
  ⟨"PTP_CLKID_HI", 0x40210044, 0x0, 1, [⟨31, 0, .rw, 0x0, "ID_HI"⟩]⟩]

/-- Registers of the PTP_ block (R476, R477). -/
def regsPtp1 : List RegDef := [
  ⟨"PTP_TIME_NS", 0x40210050, 0x0, 1, [⟨29, 0, .ro, 0x0, "NS"⟩]⟩,
  ⟨"PTP_TIME_S_LO", 0x40210054, 0x0, 1, [⟨31, 0, .ro, 0x0, "S_LO"⟩]⟩,
  ⟨"PTP_TIME_S_HI", 0x40210058, 0x0, 1, [⟨15, 0, .ro, 0x0, "S_HI"⟩]⟩,
  ⟨"PTP_TSET_NS", 0x40210060, 0x0, 1, [⟨29, 0, .rw, 0x0, "NS"⟩]⟩,
  ⟨"PTP_TSET_S_LO", 0x40210064, 0x0, 1, [⟨31, 0, .rw, 0x0, "S_LO"⟩]⟩,
  ⟨"PTP_TSET_S_HI", 0x40210068, 0x0, 1, [⟨15, 0, .rw, 0x0, "S_HI"⟩]⟩,
  ⟨"PTP_TSET_GO", 0x4021006C, 0x0, 1, [⟨0, 0, .w1s, 0x0, "GO"⟩]⟩,
  ⟨"PTP_CAP", 0x40210080, 0x10, 4, [⟨3, 3, .w1c, 0x0, "OVF"⟩, ⟨2, 2, .ro, 0x0, "VALID"⟩, ⟨1, 1, .rw, 0x0, "POL"⟩, ⟨0, 0, .rw, 0x0, "EN"⟩]⟩,
  ⟨"PTP_CAP_NS", 0x40210084, 0x10, 4, [⟨29, 0, .ro, 0x0, "NS"⟩]⟩,
  ⟨"PTP_CAP_S_LO", 0x40210088, 0x10, 4, [⟨31, 0, .ro, 0x0, "S_LO"⟩]⟩,
  ⟨"PTP_CAP_S_HI", 0x4021008C, 0x10, 4, [⟨15, 0, .ro, 0x0, "S_HI"⟩]⟩]

/-- Registers of the RACE_ block (R514). -/
def regsRace : List RegDef := [
  ⟨"RACE_CTRL", 0x40300000, 0x40, 4, [⟨23, 16, .rw, 0x0, "DLY"⟩, ⟨11, 10, .rw, 0x0, "PINV"⟩, ⟨9, 9, .rw, 0x0, "LSWAP"⟩, ⟨0, 0, .rw, 0x0, "EN"⟩]⟩,
  ⟨"RACE_STAT", 0x40300004, 0x40, 4, [⟨26, 16, .ro, 0x0, "NBR"⟩, ⟨15, 12, .ro, 0x0, "SKEW"⟩, ⟨8, 8, .w1c, 0x0, "CFG_WE"⟩, ⟨7, 7, .w1c, 0x0, "MAP_ERR"⟩, ⟨6, 6, .w1c, 0x0, "DST_ERR"⟩, ⟨5, 5, .ro, 0x0, "ALN"⟩, ⟨4, 4, .w1c, 0x0, "LOSS"⟩, ⟨1, 0, .ro, 0x0, "STATE"⟩]⟩,
  ⟨"RACE_ERR", 0x40300008, 0x40, 4, [⟨31, 16, .rc, 0x0, "CRC"⟩, ⟨15, 0, .rc, 0x0, "CODE"⟩]⟩,
  ⟨"RACE_LATE", 0x4030000C, 0x40, 4, [⟨31, 16, .rc, 0x0, "LATE"⟩, ⟨15, 0, .rc, 0x0, "PASS"⟩]⟩,
  ⟨"RACE_MAP", 0x40300010, 0x40, 4, [⟨31, 0, .rw, 0x0, "MAP_ID"⟩]⟩,
  ⟨"RACE_TX", 0x40300014, 0x40, 4, [⟨31, 16, .rc, 0x0, "TXDROP"⟩, ⟨10, 0, .rw, 0x0, "N_SLOTS"⟩]⟩,
  ⟨"RACE_TXRING", 0x40300018, 0x40, 4, [⟨31, 0, .rw, 0x0, "BASE"⟩]⟩,
  ⟨"RACE_RXMAP", 0x4030001C, 0x40, 4, [⟨31, 0, .rw, 0x0, "BASE"⟩]⟩,
  ⟨"RACE_RXRING", 0x40300100, 0x0, 1, [⟨31, 0, .rw, 0x0, "BASE"⟩]⟩,
  ⟨"RACE_NCH", 0x40300104, 0x0, 1, [⟨10, 0, .rw, 0x0, "NCH"⟩]⟩,
  ⟨"RACE_VALID", 0x40300108, 0x0, 1, [⟨3, 0, .ro, 0x0, "VALID"⟩]⟩]

/-- Registers of the DOM_ block (R515). -/
def regsDom : List RegDef := [
  ⟨"DOM_ID", 0x40600000, 0x0, 1, [⟨31, 16, .ro, 0x0, "DOMAIN"⟩, ⟨12, 11, .ro, 0x0, "ROLE"⟩, ⟨10, 0, .ro, 0x0, "DEVICE"⟩]⟩,
  ⟨"DOM_STAT", 0x40600004, 0x0, 1, [⟨26, 16, .ro, 0x0, "MGR"⟩, ⟨15, 8, .ro, 0x0, "REASON"⟩, ⟨2, 0, .ro, 0x0, "STATE"⟩]⟩,
  ⟨"DOM_TERM", 0x40600008, 0x0, 1, [⟨15, 0, .ro, 0x0, "TERM"⟩]⟩,
  ⟨"DOM_TABLES", 0x4060000C, 0x0, 1, [⟨28, 16, .ro, 0x0, "USED"⟩, ⟨11, 0, .ro, 0x0, "PRESENT"⟩]⟩,
  ⟨"DOM_ROSTER_VER", 0x40600010, 0x0, 1, [⟨31, 0, .ro, 0x0, "VER"⟩]⟩,
  ⟨"DOM_SEQ", 0x40600014, 0x0, 1, [⟨31, 0, .ro, 0x0, "SEQ"⟩]⟩,
  ⟨"DOM_CNT_AUTH", 0x40600018, 0x0, 1, [⟨31, 16, .rc, 0x0, "AUTH"⟩, ⟨15, 0, .rc, 0x0, "STALE"⟩]⟩,
  ⟨"DOM_CNT_DUP", 0x4060001C, 0x0, 1, [⟨31, 16, .rc, 0x0, "DUP"⟩, ⟨15, 0, .rc, 0x0, "PARTIAL"⟩]⟩,
  ⟨"DOM_CNT_MGR", 0x40600020, 0x0, 1, [⟨31, 16, .rc, 0x0, "REFUSED"⟩, ⟨15, 0, .rc, 0x0, "ABSENT"⟩]⟩]

/-- Registers of the XBAR_ block (R543). -/
def regsXbar : List RegDef := [
  ⟨"XBAR_QOS", 0x40500000, 0x0, 1, [⟨11, 8, .rw, 0x4, "SVC"⟩, ⟨7, 4, .rw, 0x8, "STEW"⟩, ⟨3, 0, .rw, 0x6, "SDMA"⟩]⟩,
  ⟨"XBAR_ERR", 0x40500004, 0x0, 1, [⟨31, 16, .rc, 0x0, "COUNT"⟩, ⟨10, 8, .ro, 0x0, "CLUSTER"⟩, ⟨5, 4, .ro, 0x0, "LEVEL"⟩, ⟨3, 0, .ro, 0x0, "MASTER"⟩]⟩,
  ⟨"XBAR_ERR_ADDR", 0x40500008, 0x0, 1, [⟨31, 0, .ro, 0x0, "ADDR"⟩]⟩,
  ⟨"XBAR_HANG", 0x4050000C, 0x0, 1, [⟨31, 16, .rc, 0x0, "COUNT"⟩, ⟨3, 0, .ro, 0x0, "MASTER"⟩]⟩,
  ⟨"XBAR_HANG_ADDR", 0x40500010, 0x0, 1, [⟨31, 0, .ro, 0x0, "ADDR"⟩]⟩,
  ⟨"XBAR_SEM", 0x40500100, 0x4, 32, [⟨31, 31, .wo, 0x0, "RELEASE"⟩, ⟨11, 8, .ro, 0x0, "OWNER"⟩, ⟨0, 0, .rc, 0x1, "FREE"⟩]⟩]

/-- Registers of the MPD_ block (R544). -/
def regsMpd : List RegDef := [
  ⟨"MPD_SCRUB", 0x40800000, 0x0, 1, [⟨7, 4, .rw, 0x8, "INTERVAL"⟩, ⟨0, 0, .rw, 0x1, "EN"⟩]⟩,
  ⟨"MPD_SWEEP", 0x40800004, 0x0, 1, [⟨31, 0, .ro, 0x0, "PASSES"⟩]⟩,
  ⟨"MPD_ECC_CE", 0x40800008, 0x0, 1, [⟨31, 0, .rc, 0x0, "COUNT"⟩]⟩,
  ⟨"MPD_ECC_UE", 0x4080000C, 0x0, 1, [⟨15, 0, .rc, 0x0, "COUNT"⟩]⟩,
  ⟨"MPD_ECC_LAST", 0x40800010, 0x0, 1, [⟨31, 31, .ro, 0x0, "UE"⟩, ⟨25, 16, .ro, 0x0, "MEMID"⟩, ⟨5, 0, .ro, 0x0, "BIT"⟩]⟩,
  ⟨"MPD_ECC_ADDR", 0x40800014, 0x0, 1, [⟨31, 0, .ro, 0x0, "ADDR"⟩]⟩,
  ⟨"MPD_MARCH_CTRL", 0x40800020, 0x0, 1, [⟨31, 31, .w1s, 0x0, "GO"⟩, ⟨25, 16, .rw, 0x0, "MEMID"⟩, ⟨0, 0, .rw, 0x0, "MODE"⟩]⟩,
  ⟨"MPD_MARCH_STAT", 0x40800024, 0x0, 1, [⟨31, 15, .ro, 0x0, "ROW"⟩, ⟨7, 4, .ro, 0x0, "FAILS"⟩, ⟨3, 3, .w1c, 0x0, "REFUSED"⟩, ⟨2, 0, .ro, 0x0, "STATE"⟩]⟩,
  ⟨"MPD_MARCH_FAIL", 0x40800030, 0x4, 4, [⟨31, 31, .ro, 0x0, "VALID"⟩, ⟨16, 0, .ro, 0x0, "ROW"⟩]⟩,
  ⟨"MPD_REPAIR_SEL", 0x40800040, 0x0, 1, [⟨9, 0, .rw, 0x0, "MEMID"⟩]⟩,
  ⟨"MPD_REPAIR", 0x40800044, 0x4, 2, [⟨31, 31, .ro, 0x0, "VALID"⟩, ⟨30, 30, .ro, 0x0, "SPARE_BAD"⟩, ⟨16, 0, .ro, 0x0, "ROW"⟩]⟩,
  ⟨"MPD_SEC_STAT", 0x40800050, 0x0, 1, [⟨31, 31, .w1c, 0x0, "TAMPER"⟩, ⟨1, 1, .ro, 0x0, "LOCK"⟩, ⟨0, 0, .ro, 0x0, "WIPING"⟩]⟩]

/-- Registers of the FLT_ block (R574). -/
def regsFlt : List RegDef := [
  ⟨"FLT_STATUS", 0x40030000, 0x0, 1, [⟨31, 31, .ro, 0x0, "LOCK"⟩, ⟨30, 30, .ro, 0x0, "SAFE"⟩, ⟨29, 29, .ro, 0x0, "SLUICE_ACT"⟩, ⟨23, 16, .ro, 0x0, "LAST_SRC"⟩, ⟨12, 8, .ro, 0x0, "QCOUNT"⟩, ⟨2, 2, .ro, 0x0, "FATAL"⟩, ⟨1, 1, .w1c, 0x0, "CONTAINED"⟩, ⟨0, 0, .w1c, 0x0, "CORRECTED"⟩]⟩,
  ⟨"FLT_INJECT", 0x40030004, 0x0, 1, [⟨31, 31, .w1s, 0x0, "ARM"⟩, ⟨30, 30, .w1c, 0x0, "REFUSED"⟩, ⟨27, 20, .rw, 0x0, "SRC"⟩, ⟨19, 16, .rw, 0x0, "MODE"⟩, ⟨15, 10, .rw, 0x0, "BIT"⟩, ⟨9, 0, .rw, 0x0, "UNIT"⟩]⟩,
  ⟨"FLT_INJ_ARG", 0x40030008, 0x0, 1, [⟨31, 0, .rw, 0x0, "ARG"⟩]⟩,
  ⟨"FLT_LOST", 0x4003000C, 0x0, 1, [⟨31, 0, .rc, 0x0, "LOST"⟩]⟩,
  ⟨"FLT_Q0", 0x40030010, 0x0, 1, [⟨31, 24, .ro, 0x0, "SRC"⟩, ⟨23, 22, .ro, 0x0, "CLASS"⟩, ⟨21, 21, .ro, 0x0, "INJ"⟩, ⟨9, 0, .ro, 0x0, "UNIT"⟩]⟩,
  ⟨"FLT_Q1", 0x40030014, 0x0, 1, [⟨31, 0, .ro, 0x0, "PASS"⟩]⟩,
  ⟨"FLT_Q2", 0x40030018, 0x0, 1, [⟨31, 16, .ro, 0x0, "REPEAT"⟩, ⟨15, 0, .ro, 0x0, "DETAIL"⟩]⟩,
  ⟨"FLT_COUNTS", 0x40030020, 0x0, 1, [⟨31, 16, .rc, 0x0, "CONTAINED"⟩, ⟨15, 0, .rc, 0x0, "CORRECTED"⟩]⟩,
  ⟨"FLT_SLUICE_IN", 0x40030100, 0x0, 1, [⟨10, 8, .rw, 0x0, "ATT"⟩, ⟨5, 4, .rw, 0x0, "LINK"⟩, ⟨3, 2, .rw, 0x0, "MIX"⟩, ⟨1, 0, .rw, 0x3, "SRC"⟩]⟩,
  ⟨"FLT_SLUICE_OUT", 0x40030104, 0x0, 1, [⟨19, 16, .rw, 0xF, "RACE"⟩, ⟨15, 0, .rw, 0xFFFF, "PORTS"⟩]⟩,
  ⟨"FLT_SLUICE_CLK", 0x40030108, 0x0, 1, [⟨3, 0, .rw, 0x0, "MCLK"⟩]⟩,
  ⟨"FLT_SLUICE_STAT", 0x4003010C, 0x0, 1, [⟨15, 8, .rw, 0x0, "DRIVE"⟩, ⟨7, 0, .rw, 0x0, "LEVEL"⟩]⟩,
  ⟨"FLT_SLUICE_SLOT", 0x40030110, 0x4, 4, [⟨31, 0, .rw, 0x0, "MASK"⟩]⟩]

/-- Registers of the TWIN_ block (R575). -/
def regsTwin : List RegDef := [
  ⟨"TWIN_STATE", 0x40900000, 0x0, 1, [⟨31, 16, .ro, 0x0, "MATCH"⟩, ⟨11, 11, .ro, 0x0, "PEER_READY"⟩, ⟨10, 10, .ro, 0x0, "PEER_ACT"⟩, ⟨9, 9, .ro, 0x0, "ACT"⟩, ⟨8, 8, .ro, 0x0, "SEL"⟩, ⟨2, 0, .ro, 0x0, "STATE"⟩]⟩,
  ⟨"TWIN_CTRL", 0x40900004, 0x0, 1, [⟨31, 20, .rw, 0x258, "LIMIT"⟩, ⟨19, 8, .rw, 0x30, "WAIT"⟩, ⟨1, 1, .rw, 0x1, "YIELD_ON"⟩, ⟨0, 0, .rw, 0x1, "REVERT"⟩]⟩,
  ⟨"TWIN_CMD", 0x40900008, 0x0, 1, [⟨1, 1, .wo, 0x0, "REJOIN"⟩, ⟨0, 0, .wo, 0x0, "YIELD"⟩]⟩,
  ⟨"TWIN_DIGEST_LO", 0x4090000C, 0x0, 1, [⟨31, 0, .ro, 0x0, "D_LO"⟩]⟩,
  ⟨"TWIN_DIGEST_HI", 0x40900010, 0x0, 1, [⟨31, 0, .ro, 0x0, "D_HI"⟩]⟩,
  ⟨"TWIN_PEER_LO", 0x40900014, 0x0, 1, [⟨31, 0, .ro, 0x0, "D_LO"⟩]⟩,
  ⟨"TWIN_PEER_HI", 0x40900018, 0x0, 1, [⟨31, 0, .ro, 0x0, "D_HI"⟩]⟩,
  ⟨"TWIN_WINDOW", 0x4090001C, 0x0, 1, [⟨31, 0, .ro, 0x0, "K"⟩]⟩,
  ⟨"TWIN_EVENTS", 0x40900020, 0x0, 1, [⟨31, 24, .rc, 0x0, "YIELDS"⟩, ⟨23, 16, .rc, 0x0, "TAKES"⟩, ⟨15, 8, .rc, 0x0, "MISMATCHES"⟩, ⟨7, 0, .rc, 0x0, "REJOINS"⟩]⟩,
  ⟨"TWIN_SKEW", 0x40900024, 0x0, 1, [⟨31, 0, .ro, 0x0, "SKEW"⟩]⟩,
  ⟨"TWIN_COPY", 0x40900028, 0x0, 1, [⟨31, 16, .ro, 0x0, "SWEEP"⟩, ⟨15, 0, .ro, 0x0, "DIRTY"⟩]⟩]

/-- Registers of the PWR_ block (R604). -/
def regsPwr : List RegDef := [
  ⟨"PWR_DOM_STATE0", 0x40010000, 0x0, 1, [⟨31, 0, .ro, 0x0, "ON"⟩]⟩,
  ⟨"PWR_DOM_STATE1", 0x40010004, 0x0, 1, [⟨31, 0, .ro, 0x0, "ON"⟩]⟩,
  ⟨"PWR_DOM_STATE2", 0x40010008, 0x0, 1, [⟨31, 0, .ro, 0x8000, "ON"⟩]⟩,
  ⟨"PWR_DOM_RET", 0x4001000C, 0x4, 3, [⟨31, 0, .ro, 0x0, "RET"⟩]⟩,
  ⟨"PWR_RST_CAUSE", 0x40010018, 0x0, 1, [⟨5, 5, .w1c, 0x0, "SVC"⟩, ⟨4, 4, .w1c, 0x0, "WAKE"⟩, ⟨3, 3, .w1c, 0x0, "THERM"⟩, ⟨2, 2, .w1c, 0x0, "PIN"⟩, ⟨0, 0, .w1c, 0x1, "POR"⟩]⟩,
  ⟨"PWR_THERM", 0x4001001C, 0x0, 1, [⟨17, 17, .ro, 0x0, "SHUT"⟩, ⟨16, 16, .ro, 0x0, "WARN"⟩, ⟨15, 0, .ro, 0x0, "TEMP"⟩]⟩,
  ⟨"PWR_TMAX", 0x40010020, 0x0, 1, [⟨15, 0, .ro, 0x8000, "MAX"⟩]⟩,
  ⟨"PWR_WAKE", 0x40010024, 0x0, 1, [⟨31, 16, .rw, 0x0, "DELAY"⟩, ⟨1, 1, .rw, 0x1, "POL"⟩, ⟨0, 0, .rw, 0x1, "PIN_EN"⟩]⟩,
  ⟨"PWR_QUIET", 0x40010028, 0x0, 1, [⟨31, 16, .rw, 0x1E00, "HOLD"⟩, ⟨0, 0, .rw, 0x0, "EN"⟩]⟩,
  ⟨"PWR_PFAIL", 0x4001002C, 0x0, 1, [⟨31, 16, .rc, 0x0, "COUNT"⟩, ⟨0, 0, .ro, 0x0, "ACTIVE"⟩]⟩,
  ⟨"PWR_GATED", 0x40010030, 0x4, 2, [⟨31, 0, .ro, 0x0, "GATED"⟩]⟩,
  ⟨"PWR_GATECNT", 0x40010038, 0x0, 1, [⟨31, 16, .rc, 0x0, "WAKES"⟩, ⟨15, 0, .rc, 0x0, "GATES"⟩]⟩,
  ⟨"PWR_GATE", 0x40010100, 0x4, 64, [⟨31, 16, .rw, 0x8000, "THRESH"⟩, ⟨15, 0, .rw, 0x0, "HOLD"⟩]⟩]

/-- Registers of the NVM_ block (R642). -/
def regsNvm0 : List RegDef := [
  ⟨"NVM_CFG", 0x40050000, 0x0, 1, [⟨12, 8, .ro, 0x0, "SIZE"⟩, ⟨1, 0, .ro, 0x0, "BUS"⟩]⟩,
  ⟨"NVM_SLOT_BYTES", 0x40050004, 0x0, 1, [⟨31, 0, .ro, 0x0, "Z"⟩]⟩,
  ⟨"NVM_STAT", 0x40050008, 0x0, 1, [⟨10, 10, .ro, 0x0, "NEXT_SLOT"⟩, ⟨9, 9, .ro, 0x0, "FALLBACK"⟩, ⟨8, 8, .ro, 0x0, "FAILED"⟩, ⟨7, 7, .ro, 0x0, "WARN_HOLD"⟩, ⟨6, 6, .ro, 0x0, "PFAIL_HOLD"⟩, ⟨2, 0, .ro, 0x0, "OP"⟩]⟩,
  ⟨"NVM_JRN", 0x4005000C, 0x0, 1, [⟨31, 31, .ro, 0x0, "ACTIVE"⟩, ⟨30, 30, .ro, 0x0, "COMPACTING"⟩, ⟨29, 29, .ro, 0x0, "ERASING"⟩, ⟨19, 0, .ro, 0x0, "USED"⟩]⟩,
  ⟨"NVM_JRN_GEN", 0x40050010, 0x0, 1, [⟨31, 0, .ro, 0x0, "GEN"⟩]⟩,
  ⟨"NVM_JRN_SEQ", 0x40050014, 0x0, 1, [⟨31, 0, .ro, 0x0, "SEQ"⟩]⟩,
  ⟨"NVM_JRN_CNT", 0x40050018, 0x0, 1, [⟨31, 16, .rc, 0x0, "TORN"⟩, ⟨15, 0, .rc, 0x0, "DROPPED"⟩]⟩,
  ⟨"NVM_UPD_CTRL", 0x40050020, 0x0, 1, [⟨15, 8, .ro, 0x0, "ERR"⟩, ⟨7, 7, .ro, 0x0, "PATH"⟩, ⟨6, 4, .ro, 0x0, "STATE"⟩, ⟨2, 0, .wo, 0x0, "OP"⟩]⟩,
  ⟨"NVM_UPD_BYTES", 0x40050024, 0x0, 1, [⟨31, 0, .rw, 0x0, "BYTES"⟩]⟩,
  ⟨"NVM_UPD_OFFSET", 0x40050028, 0x0, 1, [⟨31, 0, .rw, 0x0, "OFFSET"⟩]⟩,
  ⟨"NVM_UPD_MISS", 0x4005002C, 0x0, 1, [⟨31, 0, .ro, 0x0, "MISS"⟩]⟩,
  ⟨"NVM_LC", 0x40050040, 0x0, 1, [⟨17, 16, .wo, 0x0, "TARGET"⟩, ⟨9, 9, .w1c, 0x0, "ERR"⟩, ⟨8, 8, .ro, 0x0, "BUSY"⟩, ⟨1, 0, .ro, 0x0, "STATE"⟩]⟩,
  ⟨"NVM_LC_KEY", 0x40050044, 0x0, 1, [⟨31, 0, .wo, 0x0, "KEY"⟩]⟩,
  ⟨"NVM_FUSE", 0x40050048, 0x0, 1, [⟨8, 8, .ro, 0x0, "WRAP"⟩, ⟨7, 4, .ro, 0x0, "REVOKED"⟩, ⟨3, 0, .ro, 0x0, "BURNED"⟩]⟩,
  ⟨"NVM_KEYCMD", 0x4005004C, 0x0, 1, [⟨17, 16, .ro, 0x0, "DSLOT"⟩, ⟨8, 8, .w1c, 0x0, "ERR"⟩, ⟨5, 4, .wo, 0x0, "ARG"⟩, ⟨2, 0, .wo, 0x0, "CMD"⟩]⟩,
  ⟨"NVM_KEYGEN", 0x40050050, 0x0, 1, [⟨31, 0, .ro, 0x0, "GEN"⟩]⟩]

/-- Registers of the NVM_ block (R642). -/
def regsNvm1 : List RegDef := [
  ⟨"NVM_PAGE", 0x40050100, 0x4, 64, [⟨31, 0, .rw, 0x0, "DATA"⟩]⟩,
  ⟨"NVM_KEYBUF", 0x40050200, 0x4, 8, [⟨31, 0, .wo, 0x0, "DATA"⟩]⟩]

/-- Registers of the TLY_ block (R667). -/
def regsTly : List RegDef := [
  ⟨"TLY_HEAD", 0x40040000, 0x0, 1, [⟨10, 0, .ro, 0x0, "SLOT"⟩]⟩,
  ⟨"TLY_HEAD_SEQ", 0x40040004, 0x0, 1, [⟨31, 0, .ro, 0x0, "SEQ"⟩]⟩,
  ⟨"TLY_DROP", 0x40040008, 0x0, 1, [⟨31, 0, .rc, 0x0, "DROPS"⟩]⟩,
  ⟨"TLY_COUNT", 0x4004000C, 0x0, 1, [⟨11, 0, .ro, 0x0, "USED"⟩]⟩,
  ⟨"TLY_CURSOR", 0x40040010, 0x0, 1, [⟨31, 31, .wo, 0x0, "MODE"⟩, ⟨30, 30, .ro, 0x1, "READY"⟩, ⟨29, 29, .ro, 0x0, "EMPTY"⟩, ⟨10, 0, .rw, 0x0, "SLOT"⟩]⟩,
  ⟨"TLY_CURSEQ", 0x40040014, 0x0, 1, [⟨31, 0, .rw, 0x0, "SEQ"⟩]⟩,
  ⟨"TLY_MARK", 0x40040018, 0x0, 1, [⟨17, 16, .wo, 0x0, "SEV"⟩, ⟨15, 0, .wo, 0x0, "CODE"⟩]⟩,
  ⟨"TLY_WINDOW", 0x40040100, 0x4, 64, [⟨31, 0, .ro, 0x0, "DATA"⟩]⟩]

/-- Registers of the TLY_MON block (R668). -/
def regsMon0 : List RegDef := [
  ⟨"TLY_MON_CFG", 0x40041000, 0x80, 64, [⟨31, 31, .rw, 0x0, "EN"⟩, ⟨29, 24, .rw, 0x0, "SRC"⟩, ⟨23, 23, .rw, 0x0, "FIELD"⟩, ⟨21, 16, .rw, 0x0, "SUB"⟩, ⟨12, 0, .rw, 0x0, "ARG"⟩]⟩,
  ⟨"TLY_MON_WIN", 0x40041004, 0x80, 64, [⟨31, 0, .rw, 0x0, "PASSES"⟩]⟩,
  ⟨"TLY_MON_LO", 0x40041008, 0x80, 64, [⟨31, 0, .rw, 0x0, "LO"⟩]⟩,
  ⟨"TLY_MON_HCFG", 0x4004100C, 0x80, 64, [⟨31, 31, .rw, 0x0, "LOG"⟩, ⟨27, 26, .rw, 0x1, "LIM_SEV"⟩, ⟨25, 24, .rw, 0x0, "SEV"⟩, ⟨21, 20, .rw, 0x0, "REC"⟩, ⟨15, 0, .rw, 0x0, "WIDTH"⟩]⟩,
  ⟨"TLY_MON_LIM_LO", 0x40041010, 0x80, 64, [⟨31, 0, .rw, 0x80000000, "LIM_LO"⟩]⟩,
  ⟨"TLY_MON_LIM_HI", 0x40041014, 0x80, 64, [⟨31, 0, .rw, 0x7FFFFFFF, "LIM_HI"⟩]⟩,
  ⟨"TLY_MON_CTRL", 0x40041018, 0x80, 64, [⟨9, 9, .w1c, 0x0, "CFG_WE"⟩, ⟨8, 8, .ro, 0x0, "CFG_ERR"⟩, ⟨1, 1, .ro, 0x0, "RUN"⟩, ⟨0, 0, .wo, 0x0, "CLOSE"⟩]⟩,
  ⟨"TLY_HELD_WIN", 0x40041020, 0x80, 64, [⟨31, 0, .ro, 0x0, "WIN"⟩]⟩,
  ⟨"TLY_HELD_MIN", 0x40041024, 0x80, 64, [⟨31, 0, .ro, 0x7FFFFFFF, "MIN"⟩]⟩,
  ⟨"TLY_HELD_MAX", 0x40041028, 0x80, 64, [⟨31, 0, .ro, 0x80000000, "MAX"⟩]⟩,
  ⟨"TLY_HELD_COUNT", 0x4004102C, 0x80, 64, [⟨31, 0, .ro, 0x0, "COUNT"⟩]⟩,
  ⟨"TLY_HELD_SUM_LO", 0x40041030, 0x80, 64, [⟨31, 0, .ro, 0x0, "SUM_LO"⟩]⟩,
  ⟨"TLY_HELD_SUM_HI", 0x40041034, 0x80, 64, [⟨31, 0, .ro, 0x0, "SUM_HI"⟩]⟩,
  ⟨"TLY_HELD_BIN0", 0x40041038, 0x80, 64, [⟨31, 0, .ro, 0x0, "COUNT"⟩]⟩,
  ⟨"TLY_HELD_BIN1", 0x4004103C, 0x80, 64, [⟨31, 0, .ro, 0x0, "COUNT"⟩]⟩,
  ⟨"TLY_HELD_BIN2", 0x40041040, 0x80, 64, [⟨31, 0, .ro, 0x0, "COUNT"⟩]⟩]

/-- Registers of the TLY_MON block (R668). -/
def regsMon1 : List RegDef := [
  ⟨"TLY_HELD_BIN3", 0x40041044, 0x80, 64, [⟨31, 0, .ro, 0x0, "COUNT"⟩]⟩,
  ⟨"TLY_HELD_BIN4", 0x40041048, 0x80, 64, [⟨31, 0, .ro, 0x0, "COUNT"⟩]⟩,
  ⟨"TLY_HELD_BIN5", 0x4004104C, 0x80, 64, [⟨31, 0, .ro, 0x0, "COUNT"⟩]⟩,
  ⟨"TLY_HELD_BIN6", 0x40041050, 0x80, 64, [⟨31, 0, .ro, 0x0, "COUNT"⟩]⟩,
  ⟨"TLY_HELD_BIN7", 0x40041054, 0x80, 64, [⟨31, 0, .ro, 0x0, "COUNT"⟩]⟩,
  ⟨"TLY_HELD_BIN8", 0x40041058, 0x80, 64, [⟨31, 0, .ro, 0x0, "COUNT"⟩]⟩,
  ⟨"TLY_HELD_BIN9", 0x4004105C, 0x80, 64, [⟨31, 0, .ro, 0x0, "COUNT"⟩]⟩,
  ⟨"TLY_HELD_BIN10", 0x40041060, 0x80, 64, [⟨31, 0, .ro, 0x0, "COUNT"⟩]⟩,
  ⟨"TLY_HELD_BIN11", 0x40041064, 0x80, 64, [⟨31, 0, .ro, 0x0, "COUNT"⟩]⟩,
  ⟨"TLY_HELD_BIN12", 0x40041068, 0x80, 64, [⟨31, 0, .ro, 0x0, "COUNT"⟩]⟩,
  ⟨"TLY_HELD_BIN13", 0x4004106C, 0x80, 64, [⟨31, 0, .ro, 0x0, "COUNT"⟩]⟩,
  ⟨"TLY_HELD_BIN14", 0x40041070, 0x80, 64, [⟨31, 0, .ro, 0x0, "COUNT"⟩]⟩,
  ⟨"TLY_HELD_BIN15", 0x40041074, 0x80, 64, [⟨31, 0, .ro, 0x0, "COUNT"⟩]⟩,
  ⟨"TLY_HELD_WIN_END", 0x40041078, 0x80, 64, [⟨31, 0, .ro, 0x0, "WIN"⟩]⟩]

/-- Registers of the SVC_ block (R669). -/
def regsSvc : List RegDef := [
  ⟨"SVC_CFG", 0x40060000, 0x0, 1, [⟨9, 9, .rw, 0x1, "I2C_EN"⟩, ⟨8, 8, .rw, 0x1, "SPI_EN"⟩, ⟨6, 0, .rw, 0x4B, "I2C_ADDR"⟩]⟩,
  ⟨"SVC_STAT", 0x40060004, 0x0, 1, [⟨31, 16, .rc, 0x0, "CRCERR"⟩, ⟨2, 2, .w1c, 0x0, "ABORT"⟩, ⟨1, 1, .ro, 0x0, "LAST_IF"⟩]⟩,
  ⟨"SVC_IRQ", 0x40060008, 0x0, 1, [⟨5, 5, .w1c, 0x0, "CURSOR"⟩, ⟨4, 4, .w1c, 0x0, "UPD"⟩, ⟨3, 3, .w1c, 0x0, "MAINT"⟩, ⟨2, 2, .w1c, 0x0, "MODE"⟩, ⟨1, 1, .w1c, 0x0, "FAULT"⟩, ⟨0, 0, .w1c, 0x0, "TLY"⟩]⟩,
  ⟨"SVC_IRQ_EN", 0x4006000C, 0x0, 1, [⟨9, 8, .rw, 0x2, "SEV"⟩, ⟨5, 0, .rw, 0x0, "EN"⟩]⟩,
  ⟨"SVC_PARAM_ID", 0x40060010, 0x0, 1, [⟨28, 16, .rw, 0x0, "INSTANCE"⟩, ⟨15, 0, .rw, 0x0, "PARAM"⟩]⟩,
  ⟨"SVC_PARAM_VAL", 0x40060014, 0x0, 1, [⟨31, 0, .rw, 0x0, "VALUE"⟩]⟩,
  ⟨"SVC_PARAM_GO", 0x40060018, 0x0, 1, [⟨10, 8, .ro, 0x0, "RESULT"⟩, ⟨1, 1, .wo, 0x0, "PERSIST"⟩, ⟨0, 0, .wo, 0x0, "GO"⟩]⟩,
  ⟨"SVC_MAINT", 0x40060020, 0x0, 1, [⟨26, 24, .wo, 0x0, "KIND"⟩, ⟨9, 0, .wo, 0x0, "ARG"⟩]⟩,
  ⟨"SVC_MAINT_STAT", 0x40060024, 0x0, 1, [⟨31, 24, .ro, 0x0, "ERRORS"⟩, ⟨21, 20, .ro, 0x0, "RESULT"⟩, ⟨18, 16, .ro, 0x0, "LAST"⟩, ⟨8, 8, .ro, 0x0, "COMPACT_PEND"⟩, ⟨6, 4, .ro, 0x0, "QUEUED"⟩, ⟨2, 0, .ro, 0x0, "RUN"⟩]⟩]

/-- Registers of the STRM_ block (R478, R479). -/
def regsStrm : List RegDef := [
  ⟨"STRM_TX", 0x40221000, 0x20, 128, [⟨31, 31, .rw, 0x0, "EN"⟩, ⟨30, 30, .rw, 0x0, "PORT"⟩, ⟨27, 27, .rw, 0x0, "FMT"⟩, ⟨26, 24, .rw, 0x0, "PTIME"⟩, ⟨22, 16, .rw, 0x0, "CHANS"⟩, ⟨15, 13, .rw, 0x0, "PCP"⟩, ⟨12, 12, .rw, 0x0, "VLAN"⟩, ⟨11, 0, .rw, 0x0, "VID"⟩]⟩,
  ⟨"STRM_TX_DST_IP", 0x40221004, 0x20, 128, [⟨31, 0, .rw, 0x0, "DST_IP"⟩]⟩,
  ⟨"STRM_TX_PORTS", 0x40221008, 0x20, 128, [⟨31, 16, .rw, 0x0, "DST_PORT"⟩, ⟨15, 0, .rw, 0x0, "SRC_PORT"⟩]⟩,
  ⟨"STRM_TX_PT", 0x4022100C, 0x20, 128, [⟨6, 0, .rw, 0x0, "PT"⟩]⟩,
  ⟨"STRM_TX_SSRC", 0x40221010, 0x20, 128, [⟨31, 0, .ro, 0x0, "SSRC"⟩]⟩,
  ⟨"STRM_TX_RTP_OFFSET", 0x40221014, 0x20, 128, [⟨31, 0, .rw, 0x0, "RTP_OFFSET"⟩]⟩,
  ⟨"STRM_TX_RING", 0x40221018, 0x20, 128, [⟨31, 0, .rw, 0x0, "RING"⟩]⟩,
  ⟨"STRM_TX_STAT", 0x4022101C, 0x20, 128, [⟨1, 1, .w1c, 0x0, "CFG_WE"⟩, ⟨0, 0, .ro, 0x0, "CFG_ERR"⟩]⟩,
  ⟨"STRM_RX", 0x40222000, 0x20, 128, [⟨31, 31, .rw, 0x0, "EN"⟩, ⟨30, 30, .rw, 0x0, "PORT"⟩, ⟨29, 29, .rw, 0x0, "SSRC_CHK"⟩, ⟨27, 27, .rw, 0x0, "FMT"⟩, ⟨26, 24, .rw, 0x0, "PTIME"⟩, ⟨22, 16, .rw, 0x0, "CHANS"⟩, ⟨13, 0, .rw, 0x0, "LNET"⟩]⟩,
  ⟨"STRM_RX_GROUP", 0x40222004, 0x20, 128, [⟨31, 0, .rw, 0x0, "GROUP"⟩]⟩,
  ⟨"STRM_RX_PORT_PT", 0x40222008, 0x20, 128, [⟨31, 16, .rw, 0x0, "DST_PORT"⟩, ⟨6, 0, .rw, 0x0, "PT"⟩]⟩,
  ⟨"STRM_RX_SSRC", 0x4022200C, 0x20, 128, [⟨31, 0, .rw, 0x0, "SSRC"⟩]⟩,
  ⟨"STRM_RX_RTP_OFFSET", 0x40222010, 0x20, 128, [⟨31, 0, .rw, 0x0, "RTP_OFFSET"⟩]⟩,
  ⟨"STRM_RX_RING", 0x40222014, 0x20, 128, [⟨31, 0, .rw, 0x0, "RING"⟩]⟩,
  ⟨"STRM_RX_STATE", 0x40222018, 0x20, 128, [⟨31, 29, .ro, 0x0, "STATE"⟩, ⟨2, 2, .w1c, 0x0, "CFG_WE"⟩, ⟨1, 1, .ro, 0x0, "CFG_ERR"⟩]⟩,
  ⟨"STRM_RX_EVENTS", 0x4022201C, 0x20, 128, [⟨31, 16, .rc, 0x0, "LATE"⟩, ⟨15, 8, .rc, 0x0, "FMT_ERR"⟩, ⟨7, 0, .rc, 0x0, "EARLY"⟩]⟩]

/-- Every register of the engine that lies in a peripheral window. -/
def allRegs : List RegDef :=
  regsSys ++ regsScn ++ regsCue ++ regsPort ++ regsPdm ++ regsSrc ++ regsClk0 ++ regsClk1 ++ regsNet ++ regsPtp0 ++ regsPtp1 ++ regsRace ++ regsDom ++ regsXbar ++ regsMpd ++ regsFlt ++ regsTwin ++ regsPwr ++ regsNvm0 ++ regsNvm1 ++ regsTly ++ regsMon0 ++ regsMon1 ++ regsSvc ++ regsStrm

/-- Address of SYS_PASS_LO (R43). -/
abbrev aSysPassLo : Nat := 0x40000010
/-- Address of SYS_PASS_HI (R44). -/
abbrev aSysPassHi : Nat := 0x40000014
/-- Address of SYS_GCOUNT (R45). -/
abbrev aSysGcount : Nat := 0x40000018
/-- Address of SYS_GRID_CTRL (R46). -/
abbrev aSysGridCtrl : Nat := 0x40000020
/-- Address of SYS_GRID_STAT (R47). -/
abbrev aSysGridStat : Nat := 0x40000024
/-- Address of SYS_GRID_ERR (R48). -/
abbrev aSysGridErr : Nat := 0x40000028
/-- Address of SCN_RECALL (R220). -/
abbrev aScnRecall : Nat := 0x40710000
/-- Address of SCN_STATUS (R221). -/
abbrev aScnStatus : Nat := 0x40710004
/-- Address of SCN_PEND (R222). -/
abbrev aScnPend : Nat := 0x40710008
/-- Address of SCN_COUNTS (R223). -/
abbrev aScnCounts : Nat := 0x4071000C
/-- Address of CUE_PIN_IN (R224). -/
abbrev aCuePinIn : Nat := 0x40700000
/-- Address of CUE_STAT_OUT (R225). -/
abbrev aCueStatOut : Nat := 0x40700004
/-- Address of CUE_STAT_FAULT (R226). -/
abbrev aCueStatFault : Nat := 0x40700008
/-- Address of CUE_DROPS (R227). -/
abbrev aCueDrops : Nat := 0x4070000C
/-- Address of PORT_CTRL number k (R367). -/
abbrev aPortCtrl (k : Nat) : Nat := 0x40100000 + 0x1000 * k
/-- Address of PORT_FRAME number k (R368). -/
abbrev aPortFrame (k : Nat) : Nat := 0x40100004 + 0x1000 * k
/-- Address of PORT_RXMASK number k (R369). -/
abbrev aPortRxmask (k : Nat) : Nat := 0x40100008 + 0x1000 * k
/-- Address of PORT_TXMASK number k (R369). -/
abbrev aPortTxmask (k : Nat) : Nat := 0x4010000C + 0x1000 * k
/-- Address of PORT_HOP_RX number k (R370). -/
abbrev aPortHopRx (k : Nat) : Nat := 0x40100010 + 0x1000 * k
/-- Address of PORT_HOP_TX number k (R370). -/
abbrev aPortHopTx (k : Nat) : Nat := 0x40100014 + 0x1000 * k
/-- Address of PORT_TIMING number k (R371). -/
abbrev aPortTiming (k : Nat) : Nat := 0x40100018 + 0x1000 * k
/-- Address of PORT_PHASE number k (R372). -/
abbrev aPortPhase (k : Nat) : Nat := 0x4010001C + 0x1000 * k
/-- Address of PORT_STAT number k (R373). -/
abbrev aPortStat (k : Nat) : Nat := 0x40100020 + 0x1000 * k
/-- Address of PORT_RATE number k (R374). -/
abbrev aPortRate (k : Nat) : Nat := 0x40100024 + 0x1000 * k
/-- Address of PORT_EVENTS number k (R375). -/
abbrev aPortEvents (k : Nat) : Nat := 0x40100028 + 0x1000 * k
/-- Address of PORT_NA number k (R376). -/
abbrev aPortNa (k : Nat) : Nat := 0x4010002C + 0x1000 * k
/-- Address of PDM_CTRL (R406). -/
abbrev aPdmCtrl : Nat := 0x40110000
/-- Address of PDM_MIC_EN (R407). -/
abbrev aPdmMicEn : Nat := 0x40110004
/-- Address of PDM_EDGE (R407). -/
abbrev aPdmEdge : Nat := 0x40110008
/-- Address of PDM_HOP (R407). -/
abbrev aPdmHop : Nat := 0x4011000C
/-- Address of PDM_STAT (R407). -/
abbrev aPdmStat : Nat := 0x40110010
/-- Address of PDM_MIC_STAT (R407). -/
abbrev aPdmMicStat : Nat := 0x40110014
/-- Address of PDM_TRIM number k (R407). -/
abbrev aPdmTrim (k : Nat) : Nat := 0x40110020 + 0x4 * k
/-- Address of PDM_COEF number k (R407). -/
abbrev aPdmCoef (k : Nat) : Nat := 0x40110100 + 0x4 * k
/-- Address of SRC_CTRL number k (R409). -/
abbrev aSrcCtrl (k : Nat) : Nat := 0x40120000 + 0x40 * k
/-- Address of SRC_RATIO_LO number k (R409). -/
abbrev aSrcRatioLo (k : Nat) : Nat := 0x40120004 + 0x40 * k
/-- Address of SRC_RATIO_HI number k (R409). -/
abbrev aSrcRatioHi (k : Nat) : Nat := 0x40120008 + 0x40 * k
/-- Address of SRC_STAT number k (R409). -/
abbrev aSrcStat (k : Nat) : Nat := 0x4012000C + 0x40 * k
/-- Address of SRC_ERR number k (R409). -/
abbrev aSrcErr (k : Nat) : Nat := 0x40120010 + 0x40 * k
/-- Address of SRC_GD number k (R409). -/
abbrev aSrcGd (k : Nat) : Nat := 0x40120014 + 0x40 * k
/-- Address of SRC_HOP number k (R409). -/
abbrev aSrcHop (k : Nat) : Nat := 0x40120018 + 0x40 * k
/-- Address of CLK_CTRL (R435). -/
abbrev aClkCtrl : Nat := 0x40020000
/-- Address of CLK_REF_STATE (R437). -/
abbrev aClkRefState : Nat := 0x4002000C
/-- Address of CLK_REF_VALID (R438). -/
abbrev aClkRefValid : Nat := 0x40020010
/-- Address of CLK_LOCK (R438). -/
abbrev aClkLock : Nat := 0x40020014
/-- Address of CLK_WCLK number k (R438). -/
abbrev aClkWclk (k : Nat) : Nat := 0x40020018 + 0x4 * k
/-- Address of CLK_FREQ (R438). -/
abbrev aClkFreq : Nat := 0x40020020
/-- Address of CLK_FHOLD (R438). -/
abbrev aClkFhold : Nat := 0x40020024
/-- Address of CLK_XTAL_TRIM (R438). -/
abbrev aClkXtalTrim : Nat := 0x40020028
/-- Address of CLK_PHERR (R438). -/
abbrev aClkPherr : Nat := 0x4002002C
/-- Address of CLK_EVENTS (R438). -/
abbrev aClkEvents : Nat := 0x40020030
/-- Address of CLK_HOLD (R438). -/
abbrev aClkHold : Nat := 0x40020034
/-- Address of CLK_OUT_STAT (R438). -/
abbrev aClkOutStat : Nat := 0x40020058
/-- Address of CLK_SYNC (R439). -/
abbrev aClkSync : Nat := 0x40020040
/-- Address of CLK_SYNC_TS_LO (R439). -/
abbrev aClkSyncTsLo : Nat := 0x40020044
/-- Address of CLK_SYNC_TS_HI (R439). -/
abbrev aClkSyncTsHi : Nat := 0x40020048
/-- Address of CLK_SYNC_TNS (R439). -/
abbrev aClkSyncTns : Nat := 0x4002004C
/-- Address of CLK_SYNC_DLY (R439). -/
abbrev aClkSyncDly : Nat := 0x40020050
/-- Address of CLK_MCLK number k (R440). -/
abbrev aClkMclk (k : Nat) : Nat := 0x40020060 + 0x4 * k
/-- Address of NET_CTRL (R475). -/
abbrev aNetCtrl : Nat := 0x40200000
/-- Address of NET_STAT (R475). -/
abbrev aNetStat : Nat := 0x40200004
/-- Address of NET_IP (R475). -/
abbrev aNetIp : Nat := 0x40200008
/-- Address of NET_IPCFG (R475). -/
abbrev aNetIpcfg : Nat := 0x4020000C
/-- Address of NET_MAC_LO number k (R475). -/
abbrev aNetMacLo (k : Nat) : Nat := 0x40200010 + 0x8 * k
/-- Address of NET_MAC_HI number k (R475). -/
abbrev aNetMacHi (k : Nat) : Nat := 0x40200014 + 0x8 * k
/-- Address of NET_RXDROP number k (R475). -/
abbrev aNetRxdrop (k : Nat) : Nat := 0x40200020 + 0x4 * k
/-- Address of NET_DUP (R475). -/
abbrev aNetDup : Nat := 0x40200028
/-- Address of NET_MDIO (R475). -/
abbrev aNetMdio : Nat := 0x4020002C
/-- Address of NET_MDIO_CFG (R475). -/
abbrev aNetMdioCfg : Nat := 0x40200030
/-- Address of PTP_CTRL (R476). -/
abbrev aPtpCtrl : Nat := 0x40210000
/-- Address of PTP_INTV (R476). -/
abbrev aPtpIntv : Nat := 0x40210004
/-- Address of PTP_GM (R476). -/
abbrev aPtpGm : Nat := 0x40210008
/-- Address of PTP_UTC (R476). -/
abbrev aPtpUtc : Nat := 0x4021000C
/-- Address of PTP_COR number k (R476). -/
abbrev aPtpCor (k : Nat) : Nat := 0x40210010 + 0x4 * k
/-- Address of PTP_ASYM number k (R476). -/
abbrev aPtpAsym (k : Nat) : Nat := 0x40210018 + 0x4 * k
/-- Address of PTP_SERVO (R476). -/
abbrev aPtpServo : Nat := 0x40210020
/-- Address of PTP_LIMITS (R476). -/
abbrev aPtpLimits : Nat := 0x40210024
/-- Address of PTP_STAT (R476). -/
abbrev aPtpStat : Nat := 0x40210028
/-- Address of PTP_OFFSET (R476). -/
abbrev aPtpOffset : Nat := 0x4021002C
/-- Address of PTP_MPD (R476). -/
abbrev aPtpMpd : Nat := 0x40210030
/-- Address of PTP_W (R476). -/
abbrev aPtpW : Nat := 0x40210034
/-- Address of PTP_GMID_LO (R476). -/
abbrev aPtpGmidLo : Nat := 0x40210038
/-- Address of PTP_GMID_HI (R476). -/
abbrev aPtpGmidHi : Nat := 0x4021003C
/-- Address of PTP_CLKID_LO (R476). -/
abbrev aPtpClkidLo : Nat := 0x40210040
/-- Address of PTP_CLKID_HI (R476). -/
abbrev aPtpClkidHi : Nat := 0x40210044
/-- Address of PTP_TIME_NS (R476). -/
abbrev aPtpTimeNs : Nat := 0x40210050
/-- Address of PTP_TIME_S_LO (R476). -/
abbrev aPtpTimeSLo : Nat := 0x40210054
/-- Address of PTP_TIME_S_HI (R476). -/
abbrev aPtpTimeSHi : Nat := 0x40210058
/-- Address of PTP_TSET_NS (R476). -/
abbrev aPtpTsetNs : Nat := 0x40210060
/-- Address of PTP_TSET_S_LO (R476). -/
abbrev aPtpTsetSLo : Nat := 0x40210064
/-- Address of PTP_TSET_S_HI (R476). -/
abbrev aPtpTsetSHi : Nat := 0x40210068
/-- Address of PTP_TSET_GO (R476). -/
abbrev aPtpTsetGo : Nat := 0x4021006C
/-- Address of RACE_CTRL number k (R514). -/
abbrev aRaceCtrl (k : Nat) : Nat := 0x40300000 + 0x40 * k
/-- Address of RACE_STAT number k (R514). -/
abbrev aRaceStat (k : Nat) : Nat := 0x40300004 + 0x40 * k
/-- Address of RACE_ERR number k (R514). -/
abbrev aRaceErr (k : Nat) : Nat := 0x40300008 + 0x40 * k
/-- Address of RACE_LATE number k (R514). -/
abbrev aRaceLate (k : Nat) : Nat := 0x4030000C + 0x40 * k
/-- Address of RACE_MAP number k (R514). -/
abbrev aRaceMap (k : Nat) : Nat := 0x40300010 + 0x40 * k
/-- Address of RACE_TX number k (R514). -/
abbrev aRaceTx (k : Nat) : Nat := 0x40300014 + 0x40 * k
/-- Address of RACE_TXRING number k (R514). -/
abbrev aRaceTxring (k : Nat) : Nat := 0x40300018 + 0x40 * k
/-- Address of RACE_RXMAP number k (R514). -/
abbrev aRaceRxmap (k : Nat) : Nat := 0x4030001C + 0x40 * k
/-- Address of RACE_RXRING (R514). -/
abbrev aRaceRxring : Nat := 0x40300100
/-- Address of RACE_NCH (R514). -/
abbrev aRaceNch : Nat := 0x40300104
/-- Address of RACE_VALID (R514). -/
abbrev aRaceValid : Nat := 0x40300108
/-- Address of DOM_ID (R515). -/
abbrev aDomId : Nat := 0x40600000
/-- Address of DOM_STAT (R515). -/
abbrev aDomStat : Nat := 0x40600004
/-- Address of DOM_TERM (R515). -/
abbrev aDomTerm : Nat := 0x40600008
/-- Address of DOM_TABLES (R515). -/
abbrev aDomTables : Nat := 0x4060000C
/-- Address of DOM_ROSTER_VER (R515). -/
abbrev aDomRosterVer : Nat := 0x40600010
/-- Address of DOM_SEQ (R515). -/
abbrev aDomSeq : Nat := 0x40600014
/-- Address of DOM_CNT_AUTH (R515). -/
abbrev aDomCntAuth : Nat := 0x40600018
/-- Address of DOM_CNT_DUP (R515). -/
abbrev aDomCntDup : Nat := 0x4060001C
/-- Address of DOM_CNT_MGR (R515). -/
abbrev aDomCntMgr : Nat := 0x40600020
/-- Address of XBAR_QOS (R543). -/
abbrev aXbarQos : Nat := 0x40500000
/-- Address of XBAR_ERR (R543). -/
abbrev aXbarErr : Nat := 0x40500004
/-- Address of XBAR_ERR_ADDR (R543). -/
abbrev aXbarErrAddr : Nat := 0x40500008
/-- Address of XBAR_HANG (R543). -/
abbrev aXbarHang : Nat := 0x4050000C
/-- Address of XBAR_HANG_ADDR (R543). -/
abbrev aXbarHangAddr : Nat := 0x40500010
/-- Address of XBAR_SEM number k (R543). -/
abbrev aXbarSem (k : Nat) : Nat := 0x40500100 + 0x4 * k
/-- Address of MPD_SCRUB (R544). -/
abbrev aMpdScrub : Nat := 0x40800000
/-- Address of MPD_SWEEP (R544). -/
abbrev aMpdSweep : Nat := 0x40800004
/-- Address of MPD_ECC_CE (R544). -/
abbrev aMpdEccCe : Nat := 0x40800008
/-- Address of MPD_ECC_UE (R544). -/
abbrev aMpdEccUe : Nat := 0x4080000C
/-- Address of MPD_ECC_LAST (R544). -/
abbrev aMpdEccLast : Nat := 0x40800010
/-- Address of MPD_ECC_ADDR (R544). -/
abbrev aMpdEccAddr : Nat := 0x40800014
/-- Address of MPD_MARCH_CTRL (R544). -/
abbrev aMpdMarchCtrl : Nat := 0x40800020
/-- Address of MPD_MARCH_STAT (R544). -/
abbrev aMpdMarchStat : Nat := 0x40800024
/-- Address of MPD_MARCH_FAIL number k (R544). -/
abbrev aMpdMarchFail (k : Nat) : Nat := 0x40800030 + 0x4 * k
/-- Address of MPD_REPAIR_SEL (R544). -/
abbrev aMpdRepairSel : Nat := 0x40800040
/-- Address of MPD_REPAIR number k (R544). -/
abbrev aMpdRepair (k : Nat) : Nat := 0x40800044 + 0x4 * k
/-- Address of MPD_SEC_STAT (R544). -/
abbrev aMpdSecStat : Nat := 0x40800050
/-- Address of FLT_STATUS (R574). -/
abbrev aFltStatus : Nat := 0x40030000
/-- Address of FLT_INJECT (R574). -/
abbrev aFltInject : Nat := 0x40030004
/-- Address of FLT_INJ_ARG (R574). -/
abbrev aFltInjArg : Nat := 0x40030008
/-- Address of FLT_LOST (R574). -/
abbrev aFltLost : Nat := 0x4003000C
/-- Address of FLT_Q0 (R574). -/
abbrev aFltQ0 : Nat := 0x40030010
/-- Address of FLT_Q1 (R574). -/
abbrev aFltQ1 : Nat := 0x40030014
/-- Address of FLT_Q2 (R574). -/
abbrev aFltQ2 : Nat := 0x40030018
/-- Address of FLT_COUNTS (R574). -/
abbrev aFltCounts : Nat := 0x40030020
/-- Address of FLT_SLUICE_IN (R574). -/
abbrev aFltSluiceIn : Nat := 0x40030100
/-- Address of FLT_SLUICE_OUT (R574). -/
abbrev aFltSluiceOut : Nat := 0x40030104
/-- Address of FLT_SLUICE_CLK (R574). -/
abbrev aFltSluiceClk : Nat := 0x40030108
/-- Address of FLT_SLUICE_STAT (R574). -/
abbrev aFltSluiceStat : Nat := 0x4003010C
/-- Address of FLT_SLUICE_SLOT number k (R574). -/
abbrev aFltSluiceSlot (k : Nat) : Nat := 0x40030110 + 0x4 * k
/-- Address of TWIN_STATE (R575). -/
abbrev aTwinState : Nat := 0x40900000
/-- Address of TWIN_CTRL (R575). -/
abbrev aTwinCtrl : Nat := 0x40900004
/-- Address of TWIN_CMD (R575). -/
abbrev aTwinCmd : Nat := 0x40900008
/-- Address of TWIN_DIGEST_LO (R575). -/
abbrev aTwinDigestLo : Nat := 0x4090000C
/-- Address of TWIN_DIGEST_HI (R575). -/
abbrev aTwinDigestHi : Nat := 0x40900010
/-- Address of TWIN_PEER_LO (R575). -/
abbrev aTwinPeerLo : Nat := 0x40900014
/-- Address of TWIN_PEER_HI (R575). -/
abbrev aTwinPeerHi : Nat := 0x40900018
/-- Address of TWIN_WINDOW (R575). -/
abbrev aTwinWindow : Nat := 0x4090001C
/-- Address of TWIN_EVENTS (R575). -/
abbrev aTwinEvents : Nat := 0x40900020
/-- Address of TWIN_SKEW (R575). -/
abbrev aTwinSkew : Nat := 0x40900024
/-- Address of TWIN_COPY (R575). -/
abbrev aTwinCopy : Nat := 0x40900028
/-- Address of SYS_ID (R603). -/
abbrev aSysId : Nat := 0x40000000
/-- Address of SYS_STEP (R603). -/
abbrev aSysStep : Nat := 0x40000004
/-- Address of SYS_MODE (R603). -/
abbrev aSysMode : Nat := 0x40000008
/-- Address of SYS_BOOT (R603). -/
abbrev aSysBoot : Nat := 0x4000000C
/-- Address of PWR_DOM_STATE0 (R604). -/
abbrev aPwrDomState0 : Nat := 0x40010000
/-- Address of PWR_DOM_STATE1 (R604). -/
abbrev aPwrDomState1 : Nat := 0x40010004
/-- Address of PWR_DOM_STATE2 (R604). -/
abbrev aPwrDomState2 : Nat := 0x40010008
/-- Address of PWR_DOM_RET number k (R604). -/
abbrev aPwrDomRet (k : Nat) : Nat := 0x4001000C + 0x4 * k
/-- Address of PWR_RST_CAUSE (R604). -/
abbrev aPwrRstCause : Nat := 0x40010018
/-- Address of PWR_THERM (R604). -/
abbrev aPwrTherm : Nat := 0x4001001C
/-- Address of PWR_TMAX (R604). -/
abbrev aPwrTmax : Nat := 0x40010020
/-- Address of PWR_WAKE (R604). -/
abbrev aPwrWake : Nat := 0x40010024
/-- Address of PWR_QUIET (R604). -/
abbrev aPwrQuiet : Nat := 0x40010028
/-- Address of PWR_PFAIL (R604). -/
abbrev aPwrPfail : Nat := 0x4001002C
/-- Address of PWR_GATED number k (R604). -/
abbrev aPwrGated (k : Nat) : Nat := 0x40010030 + 0x4 * k
/-- Address of PWR_GATECNT (R604). -/
abbrev aPwrGatecnt : Nat := 0x40010038
/-- Address of PWR_GATE number k (R604). -/
abbrev aPwrGate (k : Nat) : Nat := 0x40010100 + 0x4 * k
/-- Address of NVM_CFG (R642). -/
abbrev aNvmCfg : Nat := 0x40050000
/-- Address of NVM_SLOT_BYTES (R642). -/
abbrev aNvmSlotBytes : Nat := 0x40050004
/-- Address of NVM_STAT (R642). -/
abbrev aNvmStat : Nat := 0x40050008
/-- Address of NVM_JRN (R642). -/
abbrev aNvmJrn : Nat := 0x4005000C
/-- Address of NVM_JRN_GEN (R642). -/
abbrev aNvmJrnGen : Nat := 0x40050010
/-- Address of NVM_JRN_SEQ (R642). -/
abbrev aNvmJrnSeq : Nat := 0x40050014
/-- Address of NVM_JRN_CNT (R642). -/
abbrev aNvmJrnCnt : Nat := 0x40050018
/-- Address of NVM_UPD_CTRL (R642). -/
abbrev aNvmUpdCtrl : Nat := 0x40050020
/-- Address of NVM_UPD_BYTES (R642). -/
abbrev aNvmUpdBytes : Nat := 0x40050024
/-- Address of NVM_UPD_OFFSET (R642). -/
abbrev aNvmUpdOffset : Nat := 0x40050028
/-- Address of NVM_UPD_MISS (R642). -/
abbrev aNvmUpdMiss : Nat := 0x4005002C
/-- Address of NVM_LC (R642). -/
abbrev aNvmLc : Nat := 0x40050040
/-- Address of NVM_LC_KEY (R642). -/
abbrev aNvmLcKey : Nat := 0x40050044
/-- Address of NVM_FUSE (R642). -/
abbrev aNvmFuse : Nat := 0x40050048
/-- Address of NVM_KEYCMD (R642). -/
abbrev aNvmKeycmd : Nat := 0x4005004C
/-- Address of NVM_KEYGEN (R642). -/
abbrev aNvmKeygen : Nat := 0x40050050
/-- Address of NVM_PAGE number k (R642). -/
abbrev aNvmPage (k : Nat) : Nat := 0x40050100 + 0x4 * k
/-- Address of NVM_KEYBUF number k (R642). -/
abbrev aNvmKeybuf (k : Nat) : Nat := 0x40050200 + 0x4 * k
/-- Address of TLY_HEAD (R667). -/
abbrev aTlyHead : Nat := 0x40040000
/-- Address of TLY_HEAD_SEQ (R667). -/
abbrev aTlyHeadSeq : Nat := 0x40040004
/-- Address of TLY_DROP (R667). -/
abbrev aTlyDrop : Nat := 0x40040008
/-- Address of TLY_COUNT (R667). -/
abbrev aTlyCount : Nat := 0x4004000C
/-- Address of TLY_CURSOR (R667). -/
abbrev aTlyCursor : Nat := 0x40040010
/-- Address of TLY_CURSEQ (R667). -/
abbrev aTlyCurseq : Nat := 0x40040014
/-- Address of TLY_MARK (R667). -/
abbrev aTlyMark : Nat := 0x40040018
/-- Address of TLY_WINDOW number k (R667). -/
abbrev aTlyWindow (k : Nat) : Nat := 0x40040100 + 0x4 * k
/-- Address of TLY_MON_CFG number k (R668). -/
abbrev aTlyMonCfg (k : Nat) : Nat := 0x40041000 + 0x80 * k
/-- Address of TLY_MON_WIN number k (R668). -/
abbrev aTlyMonWin (k : Nat) : Nat := 0x40041004 + 0x80 * k
/-- Address of TLY_MON_LO number k (R668). -/
abbrev aTlyMonLo (k : Nat) : Nat := 0x40041008 + 0x80 * k
/-- Address of TLY_MON_HCFG number k (R668). -/
abbrev aTlyMonHcfg (k : Nat) : Nat := 0x4004100C + 0x80 * k
/-- Address of TLY_MON_LIM_LO number k (R668). -/
abbrev aTlyMonLimLo (k : Nat) : Nat := 0x40041010 + 0x80 * k
/-- Address of TLY_MON_LIM_HI number k (R668). -/
abbrev aTlyMonLimHi (k : Nat) : Nat := 0x40041014 + 0x80 * k
/-- Address of TLY_MON_CTRL number k (R668). -/
abbrev aTlyMonCtrl (k : Nat) : Nat := 0x40041018 + 0x80 * k
/-- Address of TLY_HELD_WIN number k (R668). -/
abbrev aTlyHeldWin (k : Nat) : Nat := 0x40041020 + 0x80 * k
/-- Address of TLY_HELD_MIN number k (R668). -/
abbrev aTlyHeldMin (k : Nat) : Nat := 0x40041024 + 0x80 * k
/-- Address of TLY_HELD_MAX number k (R668). -/
abbrev aTlyHeldMax (k : Nat) : Nat := 0x40041028 + 0x80 * k
/-- Address of TLY_HELD_COUNT number k (R668). -/
abbrev aTlyHeldCount (k : Nat) : Nat := 0x4004102C + 0x80 * k
/-- Address of TLY_HELD_SUM_LO number k (R668). -/
abbrev aTlyHeldSumLo (k : Nat) : Nat := 0x40041030 + 0x80 * k
/-- Address of TLY_HELD_SUM_HI number k (R668). -/
abbrev aTlyHeldSumHi (k : Nat) : Nat := 0x40041034 + 0x80 * k
/-- Address of TLY_HELD_BIN0 number k (R668). -/
abbrev aTlyHeldBin0 (k : Nat) : Nat := 0x40041038 + 0x80 * k
/-- Address of TLY_HELD_BIN1 number k (R668). -/
abbrev aTlyHeldBin1 (k : Nat) : Nat := 0x4004103C + 0x80 * k
/-- Address of TLY_HELD_BIN2 number k (R668). -/
abbrev aTlyHeldBin2 (k : Nat) : Nat := 0x40041040 + 0x80 * k
/-- Address of TLY_HELD_BIN3 number k (R668). -/
abbrev aTlyHeldBin3 (k : Nat) : Nat := 0x40041044 + 0x80 * k
/-- Address of TLY_HELD_BIN4 number k (R668). -/
abbrev aTlyHeldBin4 (k : Nat) : Nat := 0x40041048 + 0x80 * k
/-- Address of TLY_HELD_BIN5 number k (R668). -/
abbrev aTlyHeldBin5 (k : Nat) : Nat := 0x4004104C + 0x80 * k
/-- Address of TLY_HELD_BIN6 number k (R668). -/
abbrev aTlyHeldBin6 (k : Nat) : Nat := 0x40041050 + 0x80 * k
/-- Address of TLY_HELD_BIN7 number k (R668). -/
abbrev aTlyHeldBin7 (k : Nat) : Nat := 0x40041054 + 0x80 * k
/-- Address of TLY_HELD_BIN8 number k (R668). -/
abbrev aTlyHeldBin8 (k : Nat) : Nat := 0x40041058 + 0x80 * k
/-- Address of TLY_HELD_BIN9 number k (R668). -/
abbrev aTlyHeldBin9 (k : Nat) : Nat := 0x4004105C + 0x80 * k
/-- Address of TLY_HELD_BIN10 number k (R668). -/
abbrev aTlyHeldBin10 (k : Nat) : Nat := 0x40041060 + 0x80 * k
/-- Address of TLY_HELD_BIN11 number k (R668). -/
abbrev aTlyHeldBin11 (k : Nat) : Nat := 0x40041064 + 0x80 * k
/-- Address of TLY_HELD_BIN12 number k (R668). -/
abbrev aTlyHeldBin12 (k : Nat) : Nat := 0x40041068 + 0x80 * k
/-- Address of TLY_HELD_BIN13 number k (R668). -/
abbrev aTlyHeldBin13 (k : Nat) : Nat := 0x4004106C + 0x80 * k
/-- Address of TLY_HELD_BIN14 number k (R668). -/
abbrev aTlyHeldBin14 (k : Nat) : Nat := 0x40041070 + 0x80 * k
/-- Address of TLY_HELD_BIN15 number k (R668). -/
abbrev aTlyHeldBin15 (k : Nat) : Nat := 0x40041074 + 0x80 * k
/-- Address of TLY_HELD_WIN_END number k (R668). -/
abbrev aTlyHeldWinEnd (k : Nat) : Nat := 0x40041078 + 0x80 * k
/-- Address of SVC_CFG (R669). -/
abbrev aSvcCfg : Nat := 0x40060000
/-- Address of SVC_STAT (R669). -/
abbrev aSvcStat : Nat := 0x40060004
/-- Address of SVC_IRQ (R669). -/
abbrev aSvcIrq : Nat := 0x40060008
/-- Address of SVC_IRQ_EN (R669). -/
abbrev aSvcIrqEn : Nat := 0x4006000C
/-- Address of SVC_PARAM_ID (R669). -/
abbrev aSvcParamId : Nat := 0x40060010
/-- Address of SVC_PARAM_VAL (R669). -/
abbrev aSvcParamVal : Nat := 0x40060014
/-- Address of SVC_PARAM_GO (R669). -/
abbrev aSvcParamGo : Nat := 0x40060018
/-- Address of SVC_MAINT (R669). -/
abbrev aSvcMaint : Nat := 0x40060020
/-- Address of SVC_MAINT_STAT (R669). -/
abbrev aSvcMaintStat : Nat := 0x40060024
/-- Address of CLK_REF_PRIO0 (R436). -/
abbrev aClkRefPrio0 : Nat := 0x40020004
/-- Address of CLK_REF_PRIO1 (R436). -/
abbrev aClkRefPrio1 : Nat := 0x40020008
/-- Address of CLK_FRMO number k (R441). -/
abbrev aClkFrmo (k : Nat) : Nat := 0x40020080 + 0x20 * k
/-- Address of CLK_FRMO_PERIOD number k (R441). -/
abbrev aClkFrmoPeriod (k : Nat) : Nat := 0x40020084 + 0x20 * k
/-- Address of CLK_FRMO_WIDTH number k (R441). -/
abbrev aClkFrmoWidth (k : Nat) : Nat := 0x40020088 + 0x20 * k
/-- Address of CLK_FRMO_OFFSET number k (R441). -/
abbrev aClkFrmoOffset (k : Nat) : Nat := 0x4002008C + 0x20 * k
/-- Address of CLK_FRMO_M number k (R441). -/
abbrev aClkFrmoM (k : Nat) : Nat := 0x40020090 + 0x20 * k
/-- Address of PTP_CAP number k (R477). -/
abbrev aPtpCap (k : Nat) : Nat := 0x40210080 + 0x10 * k
/-- Address of PTP_CAP_NS number k (R477). -/
abbrev aPtpCapNs (k : Nat) : Nat := 0x40210084 + 0x10 * k
/-- Address of PTP_CAP_S_LO number k (R477). -/
abbrev aPtpCapSLo (k : Nat) : Nat := 0x40210088 + 0x10 * k
/-- Address of PTP_CAP_S_HI number k (R477). -/
abbrev aPtpCapSHi (k : Nat) : Nat := 0x4021008C + 0x10 * k
/-- Address of STRM_TX number k (R478). -/
abbrev aStrmTx (k : Nat) : Nat := 0x40221000 + 0x20 * k
/-- Address of STRM_TX_DST_IP number k (R478). -/
abbrev aStrmTxDstIp (k : Nat) : Nat := 0x40221004 + 0x20 * k
/-- Address of STRM_TX_PORTS number k (R478). -/
abbrev aStrmTxPorts (k : Nat) : Nat := 0x40221008 + 0x20 * k
/-- Address of STRM_TX_PT number k (R478). -/
abbrev aStrmTxPt (k : Nat) : Nat := 0x4022100C + 0x20 * k
/-- Address of STRM_TX_SSRC number k (R478). -/
abbrev aStrmTxSsrc (k : Nat) : Nat := 0x40221010 + 0x20 * k
/-- Address of STRM_TX_RTP_OFFSET number k (R478). -/
abbrev aStrmTxRtpOffset (k : Nat) : Nat := 0x40221014 + 0x20 * k
/-- Address of STRM_TX_RING number k (R478). -/
abbrev aStrmTxRing (k : Nat) : Nat := 0x40221018 + 0x20 * k
/-- Address of STRM_TX_STAT number k (R478). -/
abbrev aStrmTxStat (k : Nat) : Nat := 0x4022101C + 0x20 * k
/-- Address of STRM_RX number k (R479). -/
abbrev aStrmRx (k : Nat) : Nat := 0x40222000 + 0x20 * k
/-- Address of STRM_RX_GROUP number k (R479). -/
abbrev aStrmRxGroup (k : Nat) : Nat := 0x40222004 + 0x20 * k
/-- Address of STRM_RX_PORT_PT number k (R479). -/
abbrev aStrmRxPortPt (k : Nat) : Nat := 0x40222008 + 0x20 * k
/-- Address of STRM_RX_SSRC number k (R479). -/
abbrev aStrmRxSsrc (k : Nat) : Nat := 0x4022200C + 0x20 * k
/-- Address of STRM_RX_RTP_OFFSET number k (R479). -/
abbrev aStrmRxRtpOffset (k : Nat) : Nat := 0x40222010 + 0x20 * k
/-- Address of STRM_RX_RING number k (R479). -/
abbrev aStrmRxRing (k : Nat) : Nat := 0x40222014 + 0x20 * k
/-- Address of STRM_RX_STATE number k (R479). -/
abbrev aStrmRxState (k : Nat) : Nat := 0x40222018 + 0x20 * k
/-- Address of STRM_RX_EVENTS number k (R479). -/
abbrev aStrmRxEvents (k : Nat) : Nat := 0x4022201C + 0x20 * k

end Sys2Proof.Machine
end

