-- ==== Sys2Proof/Machine/IoTypes.lean ====
section
/-!
DEFINITION. The state of the audio inputs and outputs and of the clocks as plain data: serial ports, PDM microphones,
rate converters, reference selection, holdover and output clocks (chapters Serial Audio Ports, PDM Inputs, and Clock
References).
-/

namespace Sys2Proof.Machine

/-- A fade or ramp schedule of one audio path, in graph passes (R355 to R357, R391, R392).  The sample of pass `p` is
scaled by the held ramp factor, then by the ramp, then by the fade. -/
structure Env where
  /-- Last pass of zero data before a ramp: pass h + k carries k/256 (R355).  None: the path carries zero. -/
  ramp : Option Nat := none
  /-- First pass of a fade: pass n + k − 1 carries (32 − k)/32 (R356, R357). -/
  fade : Option Nat := none
  /-- Ramp factor in use when a fade began in a ramp, in 256ths (R357). -/
  held : Nat := 256
  deriving DecidableEq, Repr

/-- The port states of PORT_STAT.STATE (R373). -/
inductive PortSt where
  | off | search | runin | ramp | run | fade | hold | stopping
  deriving DecidableEq, Repr

/-- The non-audio detector of an input slot pair (R363, R364). -/
structure NaPair where
  /-- Frames since the latest preamble. -/
  since : Nat := 0
  /-- Pa and Pb came in the latest frame: Pc is due in this one. -/
  pcDue : Bool := false
  /-- Type of the latest preamble and frames between it and the one before it. -/
  type : Option Nat := none
  gap : Nat := 0
  /-- Equal preambles in a row at that interval. -/
  count : Nat := 0
  /-- Muted; the span without a preamble that releases it. -/
  act : Bool := false
  span : Nat := 0
  /-- Ramp after a release. -/
  env : Env := { ramp := some 0 }
  deriving DecidableEq, Repr

/-- One serial audio port. -/
structure Port where
  st : PortSt := .off
  /-- Last pass of zero data, while RUNIN. -/
  zeroTo : Nat := 0
  env : Env := {}
  /-- Consecutive healthy passes since a slip or loss (R357). -/
  healthy : Nat := 0
  /-- Pass at the end of whose frame the port stops (R356). -/
  stopAt : Nat := 0
  /-- EN was set again during STOPPING (R377). -/
  restart : Bool := false
  /-- A SHARE member whose lead stops enters SEARCH after its fade (R350). -/
  toSearch : Bool := false
  /-- Pass of the next input and output frame; none: the next frame fixes it (R352). -/
  nextIn : Option Nat := none
  nextOut : Option Nat := none
  /-- Consecutive frames of length B found in SEARCH (R355). -/
  found : Nat := 0
  lost : Bool := false
  /-- Consecutive frames with a wrong, and with an agreeing, clock readback (R358). -/
  bad : Nat := 0
  good : Nat := 0
  /-- Measured rate in 0.01 Hz and its class; class of the measurement before (R360, R361). -/
  rate : Nat := 0
  cls : Nat := 0
  lastCls : Nat := 0
  lockPhase : Nat := 0
  na : SMap NaPair := []
  /-- Sample words of the latest output frame as sent, slot by slot (R349). -/
  sent : List Word := []
  /-- DOUT was driven in that frame, by PORT_CTRL.DRV (R366, R568). -/
  driven : Bool := false
  /-- The levels of DOUT and of FSYNC in the bit periods of that frame, none where the ball is high-impedance; DOUT from bit
  period FS_DELAY on, FSYNC from 0 on (R344, R345, R349, R350). -/
  dout : List (Option Bool) := []
  fsync : List (Option Bool) := []
  /-- The level of BCLK in the half bit periods of that frame, launch half first, by BCLK_POL; the one level at which a
  stopped master holds it; none where the ball is an input (R345, R350, R356). -/
  bclk : List Bool := []
  /-- 1 + the cycle count of the latest reference edge, input and output (R352, R358). -/
  refIn : Nat := 0
  refOut : Nat := 0
  deriving DecidableEq, Repr

/-- The states of a microphone (R390 to R394). -/
inductive MicSt where
  | off | settle | ramp | run | fade | hold
  deriving DecidableEq, Repr

/-- One PDM microphone and its decimation chain (R381 to R394). -/
structure Mic where
  st : MicSt := .off
  /-- Last pass of settling. -/
  settleTo : Nat := 0
  env : Env := {}
  /-- A stop fade runs, after which the microphone is OFF (R392). -/
  stopping : Bool := false
  /-- Bits in the trim delay, newest first: true is +1. -/
  trim : List Bool := []
  /-- Integrators and comb delays of the CIC filter, modulo 2^28, and its bit count. -/
  integ : List Nat := []
  comb : List Nat := []
  bits : Nat := 0
  /-- Delay lines of HB1, HB2 and COMP, newest first. -/
  hb1 : List Int := []
  hb2 : List Int := []
  comp : List Int := []
  /-- The latest bit and how long it has been held (R394). -/
  last : Bool := false
  run : Nat := 0
  stuck : Bool := false
  clkHeld : Bool := false
  healthy : Nat := 0
  /-- Output sample of the latest pass. -/
  out : Int := 0
  deriving DecidableEq, Repr

/-- The PDM block. -/
structure Pdm where
  /-- EN is recognised. -/
  en : Bool := false
  /-- Pass in which the clocks start; their WAKE counts from it (R391). -/
  clkFrom : Nat := 0
  clkRun : BitVec 2 := 0
  /-- The stop fade runs until this pass. -/
  stopAt : Option Nat := none
  mics : SMap Mic := []
  /-- Passes with a wrong, and an agreeing, readback per clock (R394). -/
  clkBad : SMap Nat := []
  clkGood : SMap Nat := []
  /-- Clocks whose stuck condition has been found and has not ended (R394). -/
  clkStuck : BitVec 2 := 0
  deriving DecidableEq, Repr

/-- The converter states (R403). -/
inductive SrcSt where
  | off | wait | acquire | locked
  deriving DecidableEq, Repr

/-- What a converter interpolates: its ratio, phase and error, its frame count and its rings (R399 to R401). -/
structure SrcPath where
  rho : Int := 0
  phi : Int := 0
  e : Int := 0
  h : Nat := 0
  /-- No step has run since acquisition started. -/
  first : Bool := true
  /-- N: frames taken. -/
  n : Nat := 0
  /-- Decimated samples written per channel, and channel ch's last 128 of them, newest first. -/
  count : Nat := 0
  ring : SMap (List Int) := []
  /-- Input lines of the two pre-decimation stages, newest first: stage 1 at key ch, stage 2 at 8 + ch. -/
  line : SMap (List Int) := []
  /-- Samples that entered stage 2, whose odd outputs are kept. -/
  stage2 : Nat := 0
  deriving DecidableEq, Repr

/-- One asynchronous rate converter (R397 to R405). -/
structure Converter extends SrcPath where
  st : SrcSt := .off
  /-- LOCKED fades, to take this state when the fade has ended (R403, R410). -/
  after : Option SrcSt := none
  env : Env := {}
  /-- An acquisition or a re-centring left LOCKED: the path whose output fades, and N of it less N of the new one. -/
  old : Option SrcPath := none
  oldN : Nat := 0
  /-- Pass of the acquisition: frame 0 is the first whose reference edge follows its strobe (R398). -/
  frame0 : Nat := 0
  /-- The pass and cycle of the latest reference edge. -/
  edgePass : Nat := 0
  edgeCyc : Nat := 0
  good : Nat := 0
  lastRate : Nat := 0
  /-- Twin pair: N and c of earlier passes, newest first; R400 runs on those of two passes before (R405). -/
  lag : List (Nat × Nat) := []
  /-- In a standby, the active twin's N and c of two passes before (R405). -/
  heard : Option (Nat × Nat) := none
  /-- The latest frames: pass, cycle of the reference edge, slots (R398, R405). -/
  recent : List (Nat × Nat × List Word) := []
  deriving DecidableEq, Repr

/-- The reference states (R421). -/
inductive RefSt where
  | free | acquire | locked | holdover
  deriving DecidableEq, Repr

/-- A reference candidate's monitor (R416). -/
structure Cand where
  /-- Consecutive good blocks. -/
  blocks : Nat := 0
  valid : Bool := false
  /-- Pass in which it became valid. -/
  since : Nat := 0
  deriving DecidableEq, Repr

/-- An output clock or frame pulse (R427 to R432).  Its times are cycles of its source: core cycles since reset, or the REF
cycles of an MCLK that runs on REF. -/
structure OutClk where
  run : Bool := false
  /-- Gated; a gated output has no leading edge after the time of gating. -/
  gated : Bool := true
  gateAt : Option Int := none
  /-- The ball is driven, by DRV (R433). -/
  drive : Bool := true
  /-- The output runs on REF. -/
  onRef : Bool := false
  /-- Its period and active time. -/
  per : Nat := 0
  wid : Nat := 0
  /-- Its leading edges lie at `lead` + j × `per`; the latest one before `lead`, of the edges before a realignment. -/
  lead : Int := 0
  last : Option Int := none
  /-- SLEW: cycles that count towards its next one-cycle move (R428). -/
  slewAcc : Nat := 0
  deriving DecidableEq, Repr

/-- References, holdover and output clocks. -/
structure Clk where
  cands : SMap Cand := []
  /-- Current reference code, none when there is none, and its list position. -/
  sel : Option Nat := none
  entry : Nat := 0
  st : RefSt := .free
  /-- F_ref as the states set it, its ramped value in use, and F (R412, R413). -/
  goal : Int := 0
  fref : Int := 0
  f : Int := 0
  /-- Remainder of the per-pass ramp step. -/
  rampRem : Nat := 0
  /-- Consecutive periods within and outside WIN (R422). -/
  good : Nat := 0
  bad : Nat := 0
  pherr : Int := 0
  /-- The next edge or update is the phase origin (R420). -/
  origin : Bool := false
  /-- A list has taken effect since reset (R426). -/
  listed : Bool := false
  /-- Pass in which ACQUIRE or LOCKED was entered or the reference taken: periods are counted from there (R422). -/
  since : Nat := 0
  /-- Strobes since reset; the strobe of a pass lies at that many passes of core cycles. -/
  pass : Nat := 0
  /-- Sum of F_ref over the passes of the current second and its passes; the sum over the second that has ended, whose average is
  due; the means of past seconds, newest first. -/
  sum : Int := 0
  passes : Nat := 0
  second : Option Int := none
  /-- Passes of the current holdover. -/
  held : Nat := 0
  means : List Int := []
  hist : Bool := false
  fhold : Int := 0
  hexp : Bool := false
  /-- Outputs: 0 to 3 MCLKO, 4 to 7 FRMO. -/
  outs : SMap OutClk := []
  armed : Bool := false
  /-- Pass in which the armed synchronisation is recognised (R435). -/
  syncFrom : Nat := 0
  /-- Instant of the armed synchronisation once it is fixed: pass, cycle, and whether it is late (R430). -/
  syncAt : Option (Nat × Nat × Bool) := none
  deriving DecidableEq, Repr

end Sys2Proof.Machine
end

