-- ==== Sys2Proof/Machine/NetTypes.lean ====
section
/-!
DEFINITION. The state of the network, time, streams, race links and the domain as plain data (chapters Ethernet,
Precision Time and Audio Streams, and Race Links, Segments and Domains).  PTP quantities are integers in 2^−16 ns, the
time counter in 2^−32 ns (R455, R456).
-/

namespace Sys2Proof.Machine

/-- A foreign master: its latest Announce, the port it came on, the passes of its latest two Announces (R451). -/
structure Foreign where
  data : AnnData
  port : Nat
  last : Nat
  prev : Option Nat
  deriving DecidableEq, Repr

/-- The latest Sync on the port in use: t1 is absent until a two-step Sync's Follow_Up comes (R456). -/
structure SyncRec where
  seq : Nat
  src : PortId
  t1 : Option Int
  t2 : Int
  c1 : Int
  deriving DecidableEq, Repr

/-- The latest Delay_Req: t3 and t2 − t1 − c1 of the latest Sync before it, absent while that Sync's Follow_Up is. -/
structure ReqRec where
  seq : Nat
  t3 : Int
  basis : Option Int
  waits : Option Nat
  /-- Its Delay_Resp came while that Follow_Up was due: receiveTimestamp and correctionField. -/
  resp : Option (Int × Int) := none
  deriving DecidableEq, Repr

/-- The PTP clock (R450 to R459). -/
structure Ptp where
  /-- The time counter at the strobe of the current pass. -/
  t : Nat := 0
  /-- Servo word in use, the one to use from the next strobe, and the integral. -/
  w : Int := 0
  wNext : Option Int := none
  i : Int := 0
  /-- Steps to take at the next strobe: by an amount, or to a written time. -/
  step : Option Int := none
  setTo : Option (Nat × Nat) := none
  /-- portState. -/
  st : Nat := 0
  /-- Consecutive offsets within VALID_NS. -/
  ok : Nat := 0
  port : Nat := 0
  d : Option Int := none
  samples : List Int := []
  off : Int := 0
  sync : Option SyncRec := none
  req : Option ReqRec := none
  foreigns : List Foreign := []
  gm : Option AnnData := none
  /-- Passes of the latest Sync and, per port as 1 + pass, of the latest Announce, with its grandmaster. -/
  lastSync : Nat := 0
  lastAnn : SMap Nat := []
  annGm : SMap Nat := []
  /-- Passes of the latest messages sent, and their sequence numbers. -/
  sentSync : Nat := 0
  sentAnn : Nat := 0
  sentReq : Nat := 0
  seqSync : Nat := 0
  seqAnn : Nat := 0
  seqReq : Nat := 0
  deriving DecidableEq, Repr

/-- The states of a receive stream and of a race channel (R468, R493). -/
inductive StrmSt where
  | off | idle | run | fade | hold | ramp
  deriving DecidableEq, Repr

/-- A receive stream or race channel: state, consecutive complete passes, and its fade or ramp. -/
structure Chan where
  st : StrmSt := .off
  good : Nat := 0
  env : Env := {}
  deriving DecidableEq, Repr

/-- A receive stream: the channel states and the delivery passes whose samples are written. -/
structure RxStream where
  ch : Chan := {}
  have_ : List Nat := []
  /-- Delivery passes found complete two passes ahead, in a twin (R470). -/
  ownOk : List Nat := []
  deriving DecidableEq, Repr

/-- A domain message as it is sent (R502). -/
structure DomMsg where
  src : Nat
  dst : MsgDst
  own : Bool
  seq : BitVec 32
  sec : Nat
  ms : Nat
  key1 : Bool
  body : MsgBody
  /-- Header, payload and MAC (R502, R503). -/
  bytes : List Byte := []
  deriving DecidableEq, Repr

/-- What the engine sends over Ethernet in a pass. -/
inductive NetMsg where
  | sync (seq : Nat) (origin : Int)
  | announce (seq : Nat) (d : AnnData) (utc : Nat)
  | delayReq (seq : Nat)
  | delayResp (seq : Nat) (req : PortId) (rx corr : Int)
  | igmp (group : Word) (answer : Bool)
  | arp (a : ArpAsk)
  | echo (a : EchoAsk)
  | stream (i seq : Nat) (ts : Word) (ssrc : Nat) (payload : List Byte)
  | domain (m : DomMsg)
  | supervision (seq : Nat)
  /-- A frame forwarded unchanged. -/
  | forward (f : EthFrame)
  /-- A PTP event message forwarded by the transparent clock after a residence (R453). -/
  | transit (raw : List Byte) (residence : Int)
  deriving DecidableEq, Repr

/-- A frame as it leaves a port: what it carries, its bytes from the destination address to the byte before the check sequence,
and whether the check sequence that follows is right (R443 to R447, R546). -/
structure NetTx where
  port : Nat
  msg : NetMsg
  bytes : List Byte
  fcsOk : Bool := true
  deriving DecidableEq, Repr

/-- An entry of the duplicate check's node table: the newest number of the window, the numbers recorded within it, those already
forwarded, by direction as 2 seq + port (R472, R473). -/
structure NodeEntry where
  src : Nat
  h : BitVec 16
  seqs : List (BitVec 16)
  fwd : List Nat
  last : Nat
  deriving DecidableEq, Repr

/-- Ethernet ports, PTP time and audio streams. -/
structure Net where
  /-- PTP time is valid (R458, R459). -/
  timeValid : Bool := false
  ptp : Ptp := {}
  rx : SMap RxStream := []
  /-- Lengths of the frames each port's receive buffer holds, oldest first. -/
  buf0 : List Nat := []
  buf1 : List Nat := []
  /-- Frames queued for sending in the current pass, oldest first. -/
  out : List NetTx := []
  /-- Membership reports to send: port, group, pass, whether it answers a query. -/
  reports : List (Nat × Word × Nat × Bool) := []
  nodes : List NodeEntry := []
  /-- Sequence counter of PRP and HSR. -/
  redSeq : Nat := 0
  /-- Supervision frames: pass of the latest sent, how many were sent, how many received (R471). -/
  sentSup : Nat := 0
  supSeq : Nat := 0
  supSeen : Nat := 0
  deriving DecidableEq, Repr

/-- The frame a link has sent (R483 to R487): 16 bytes of header, 8 or 4 control cells of 32 bytes, the slot area, the
CRC; the running disparity of its lanes as it begins, positive as `true` (R481). -/
structure RaceTx where
  rd0 : Bool := false
  rd1 : Bool := false
  header : List Byte := []
  cells : List (List Byte) := []
  area : List Byte := []
  crc : Nat := 0
  deriving DecidableEq, Repr

/-- A message in a reassembly buffer: cells still missing, bytes received (R486). -/
structure RacePart where
  left : Nat := 0
  bytes : List Byte := []
  deriving DecidableEq, Repr

/-- One race link. -/
structure RaceLink where
  /-- EN is recognised; the pass of its first frame. -/
  on : Bool := false
  first : Nat := 0
  /-- 0 OFF; 1 SEARCH; 2 SYNC. -/
  st : Nat := 0
  good : Nat := 0
  missing : Nat := 0
  bad : Nat := 0
  /-- Message queue: messages with the cells still to send. -/
  queue : List (DomMsg × Nat) := []
  /-- Reassembly buffers. -/
  part : SMap RacePart := []
  /-- Reassembled messages that have not been handled yet, oldest first. -/
  inbox : List (List Byte) := []
  /-- Pass of the latest valid frame, as 1 + graph pass (RXOK). -/
  validAt : Nat := 0
  /-- The latest valid frame's link cell PASS, the graph pass and cycle its comma pair arrived in. -/
  cell : Option (PassIx × Nat × Int) := none
  tx : RaceTx := {}
  /-- Running disparity of the two lanes behind the latest frame (R481). -/
  rd0 : Bool := false
  rd1 : Bool := false
  /-- Blocks to copy in the next frame of the twin link (R572). -/
  copy : List Nat := []
  deriving DecidableEq, Repr

/-- A valid frame held for its commit: link, graph pass f, slots that may be used, twin block (R490, R492, R563). -/
structure RaceRec where
  link : Nat
  f : Int
  /-- Cycle in which its CRC completed, since the graph's first strobe. -/
  done : Int := 0
  usable : Bool
  slots : List Word
  twin : Option TwinIn := none
  deriving DecidableEq, Repr

/-- The race links and channels. -/
structure Race where
  links : SMap RaceLink := []
  /-- Valid frames, in the order their CRC completed. -/
  frames : List RaceRec := []
  /-- The peer's validity bits by graph pass, in a twin pair: 16 + bits (R494). -/
  peerOk : SMap Nat := []
  chans : SMap Chan := []
  /-- Pass in which the latest commit ran, as 1 + pass, and RACE_VALID. -/
  committed : Nat := 0
  valid : Nat := 0
  deriving DecidableEq, Repr

/-- A roster entry (R500). -/
structure RosterE where
  present : Bool := false
  twin : Bool := false
  /-- Graph pass of the latest HEARTBEAT, or of the admission. -/
  heard : Nat := 0
  deriving DecidableEq, Repr

/-- A source's window of accepted messages (R504): H and the numbers recorded within 1,023 of it. -/
structure SeqWindow where
  h : BitVec 32
  seen : List (BitVec 32)
  deriving DecidableEq, Repr

/-- The domain (R499 to R512). -/
structure Dom where
  /-- 0 none; 1 joining; 2 member; 3 refused; 4 acting manager. -/
  st : Nat := 0
  mgr : Nat := 0
  term : BitVec 16 := 0
  /-- Graph pass of the latest MANAGER message of the acting manager. -/
  lastMgr : Nat := 0
  /-- A MANAGER message has been received or sent. -/
  mgrSeen : Bool := false
  reason : Nat := 0
  roster : SMap RosterE := []
  table : List StreamRow := []
  ver : Nat := 0
  /-- Next SEQ with OWN 0 and with OWN 1. -/
  seq : BitVec 32 := 0
  seqOwn : BitVec 32 := 0
  windows : SMap (Option SeqWindow) := []
  /-- Graph passes of the latest JOIN sent, and of the latest refusal as 1 + pass. -/
  joinAt : Option Nat := none
  refusedAt : Option Nat := none
  /-- Stream changes that wait for their epoch. -/
  epochs : List (PassIx × List StreamEntry) := []
  /-- A JOIN accepted and answered in the next pass. -/
  joins : List (Nat × Bool × Bool × Bool × Nat) := []
  /-- Domain cues the manager relays in the next pass. -/
  relays : List (Nat × Nat × Option (Nat × Nat)) := []
  /-- Second of the latest NOTICE record for a failed check, as 1 + pass. -/
  authRec : Nat := 0
  deriving DecidableEq, Repr

end Sys2Proof.Machine
end

