-- ==== Sys2Proof/Machine/SysTypes.lean ====
section
/-!
DEFINITION. The state of the system blocks as plain data: modes and power, memories and interconnect, the fault
collector and the sluice path, the twin, the non-volatile memory, the recorder and the service port (chapters
Millpond, Memories and Interconnect to Tally Monitors, Recorder and Service Port).
-/

namespace Sys2Proof.Machine

/-- The eight operating modes (R577). -/
inductive Mode where
  | boot | sync | run | quiet | shadow | sluice | service | dormant
  deriving DecidableEq, Repr

/-- The states of a switched power domain (R581). -/
inductive PState where
  | off | retention | on
  deriving DecidableEq, Repr

/-- A region wake in progress: the region and the pass its tiles run again in (R586). -/
structure WakeRun where
  region : Nat
  due : Nat
  deriving DecidableEq, Repr

/-- Modes, power domains, gating, temperature and power-fail. -/
structure Power where
  mode : Mode := .boot
  /-- Power domain d of R581; an unlisted domain is off. -/
  dom : SMap PState := [(79, .on)]
  /-- Gated regions, ascending (R585). -/
  gated : List Nat := []
  /-- Consecutive quiet passes per region. -/
  quiet : SMap Nat := []
  /-- A region's input was not quiet in the current pass. -/
  loud : List Nat := []
  /-- A region's output descriptors wrote a word that is not 0 in the current pass. -/
  outWords : List Nat := []
  waking : List WakeRun := []
  /-- Consecutive passes in which the conditions of R590 held. -/
  quietRun : Nat := 0
  /-- Pass n in which a request for SERVICE or DORMANT was recognised (R592, R593). -/
  leaving : Option Nat := none
  /-- The recognised request is for DORMANT. -/
  toDormant : Bool := false
  /-- A request for RUN waits for an image write or maintenance request to end (R592). -/
  runReq : Bool := false
  /-- SLUICE was entered by a boot failure or a strap conflict (R578, R601). -/
  bootFailed : Bool := false
  /-- SLUICE was entered by a thermal shutdown (R598). -/
  thermal : Bool := false
  /-- Consecutive readings below 110.00 °C while SHUT is set (R595). -/
  cool : Nat := 0
  /-- A wake source was recognised during the entry to DORMANT (R605). -/
  wakeHeld : Bool := false
  /-- Boot stages 1 to 10 are over up to this one; 0 right after a reset (R601). -/
  bootStage : Nat := 0
  /-- The status pins as SERVICE holds them, drive in bits 15 to 8 and level in bits 7 to 0 (R674). -/
  statHeld : Word := 0
  /-- The supply classes that the banks took at power-on reset: bit 0 VDDIO_N, 1 VDDIO_W, 2 VDDIO_E, 3 VDDIO_AON; set for the
  higher class (R676). -/
  bankCls : BitVec 4 := 0
  deriving DecidableEq, Repr

/-- A bank's repair table (R533): the row each spare replaces, and whether the spare failed. -/
structure RepairTab where
  row0 : Option Nat := none
  row1 : Option Nat := none
  bad0 : Bool := false
  bad1 : Bool := false
  deriving DecidableEq, Repr

/-- A March test in progress or over (R531). -/
structure March where
  memid : Nat
  destructive : Bool
  /-- Next row. -/
  row : Nat := 0
  fails : List Nat := []
  deriving DecidableEq, Repr

/-- Memories: errors, scrubbing, tests, secure region. -/
structure Memories where
  /-- Words in error by device-bus address: 1 + bit for a single-bit error, 64 for an uncorrectable one (R524). -/
  ecc : SMap Nat := []
  /-- Queued rewrites of corrected words, oldest first (R526). -/
  rewrites : List Nat := []
  /-- Clip words that read 0 until their row is restored (R527). -/
  clipBad : List Nat := []
  /-- Tile words that wait for their rewrite from flash (R334). -/
  tileBad : List Nat := []
  /-- Next row of each memory's scrubber, and its pass of starting, by MEMID. -/
  scrubRow : SMap Nat := []
  sweepFrom : SMap Nat := []
  sweepTook : SMap Nat := []
  repair : SMap RepairTab := []
  march : Option March := none
  /-- STATE of MPD_MARCH_STAT of the latest test, and its failing rows (R544). -/
  marchSt : Nat := 0
  marchFails : List Nat := []
  marchRow : Nat := 0
  /-- Secure region: wipe in progress, locked, TAMPER_N low (R529). -/
  wiping : Bool := false
  secLock : Bool := false
  tamperLow : Bool := false
  /-- The running wipe was started by TAMPER_N. -/
  wipeTamper : Bool := false
  deriving DecidableEq, Repr

/-- A fault report (R551). -/
structure Report where
  src : Nat
  unit : Nat
  /-- 0 corrected, 1 contained, 2 fatal. -/
  cls : Nat
  detail : Nat
  pass : Nat
  inj : Bool := false
  deriving DecidableEq, Repr

/-- An armed injection (R547). -/
structure Injection where
  src : Nat
  mode : Nat
  unit : Nat
  bit : Nat
  arg : Nat
  deriving DecidableEq, Repr

/-- The fault collector, the safe state and the sluice path. -/
structure Faults where
  lock : Bool := false
  safe : Bool := false
  lastSrc : Nat := 0
  fatal : Bool := false
  /-- Queued reports with their REPEAT, oldest first, at most 16. -/
  queue : List (Report × Nat) := []
  /-- Reports detectors have raised and the collector has not taken yet, oldest first. -/
  raised : List Report := []
  armed : Option Injection := none
  /-- The sluice buffer, newest sample first, at most 4 (R554). -/
  slBuf : List Word := []
  /-- Output frames of each sluice port since the safe state, and the sample its current frame carries. -/
  slOut : SMap Word := []
  slRace : Word := 0
  /-- A fault has disabled every sluice output port (R558). -/
  slDead : Bool := false
  /-- Ports whose current frame has ended for the safe state (R553). -/
  slEnded : List Nat := []
  /-- Sluice input CIC of R554, integrators and combs. -/
  slCic : SMap Int := []
  deriving DecidableEq, Repr

/-- The twin states of TWIN_STATE (R575). -/
inductive TwinSt where
  | none_ | start | active | shadow | copy | verify | diag | failed
  deriving DecidableEq, Repr

/-- The twin mechanism (R559 to R573). -/
structure Twin where
  /-- The image's domain settings set FLAGS.TWIN. -/
  on : Bool := false
  /-- TWIN_SEL latched at power-on: true for twin B. -/
  selB : Bool := false
  st : TwinSt := .none_
  act : Bool := false
  yieldPin : Bool := false
  peerAct : Bool := false
  peerReady : Bool := false
  /-- The peer's STATE has been received; its state code, flags GRAPH and B, its G. -/
  peerSeen : Bool := false
  peerSt : Nat := 0
  peerGraph : Bool := false
  peerG : Nat := 0
  /-- READY is held clear after an inconsistent TWIN_PEER_ACT (R565). -/
  notReady : Bool := false
  matches_ : Nat := 0
  /-- Digests of the open window, by cluster, each XOR its initial value (R566). -/
  crcs : SMap (BitVec 64) := []
  own : BitVec 64 := 0
  peer : BitVec 64 := 0
  /-- Index of the latest compared window, and own digests not yet compared: window and digest. -/
  window : Nat := 0
  /-- Digest to send in the next frame: WINDOW and value. -/
  toSend : Option (Nat × BitVec 64) := none
  /-- First window whose comparison counts after COPY_END (R572 step 6). -/
  verifyFrom : Nat := 0
  windowDigests : SMap (BitVec 64) := []
  /-- Passes left of the wait for the peer (R564); 0 when it does not run. -/
  wait : Nat := 0
  /-- The graph pass a START names, as the pass index P and G (R564, R572). -/
  startP : Option PassIx := none
  startG : Nat := 0
  /-- CMD to send in the next frame: 0 none, 1 START, 2 REJOIN_REQ, 3 COPY_END. -/
  cmd : Nat := 0
  /-- A REJOIN_REQ waits for the end of a topology recall. -/
  rejoinHeld : Bool := false
  /-- Yield decided: the pass of the decision and whether it is a revert (R568). -/
  yielding : Option (Nat × Bool) := none
  /-- Takeover under way: the pass in which TWIN_ACT rises. -/
  taking : Option Nat := none
  /-- Whether the twin drives the shared lines from pass `linesFrom` on; before it the opposite held (R561, R568). -/
  lines : Bool := false
  linesFrom : Nat := 0
  /-- Consecutive passes with a skew above, and within, 16 cycles (R562, R572). -/
  skewBad : Nat := 0
  skewGood : Nat := 0
  /-- Consecutive wrong readbacks of TWIN_ACT, TWIN_YIELD and TWIN_PEER_ACT (R565). -/
  stuck : SMap Nat := []
  /-- Diagnosis: pass q of the mismatch (R570). -/
  diagFrom : Option Nat := none
  /-- Contained and uncorrectable reports of this twin since q − 144. -/
  ownFaults : List Nat := []
  /-- RTC second of the latest diagnosis that found nothing in either twin. -/
  cleanAt : Option Nat := none
  /-- Copying (R572): its first pass; ranges of addresses still to send in the sweep, from and up to; blocks written
  since they were sent, ascending; sweeps over, and dirty blocks the latest one found. -/
  copyFrom : Option Nat := none
  copyLeft : List (Nat × Nat) := []
  dirty : List Nat := []
  sweeps : Nat := 0
  dirtyFound : Nat := 0
  /-- This sweep is the last (R572 step 5). -/
  lastSweep : Bool := false
  /-- Successive returns to step 2, and the pass step 2 began in. -/
  returns : Nat := 0
  /-- Pass of step 2 of a rejoin, none in step 1. -/
  rejoinFrom : Option Nat := none
  /-- Relayed events that wait for a frame, oldest first, and how many of them have missed the frame of their pass. -/
  out : List TwinEv := []
  held : Nat := 0
  /-- Pass of the loss of the twin link (R571). -/
  lostAt : Option Nat := none
  /-- Receive-stream completeness of the peer, committed for the current pass. -/
  peerStrmOk : BitVec 128 := 0
  deriving DecidableEq, Repr

/-- Flash operations (R611), with what each is for. -/
inductive FlashFor where
  | coldScene (scene : Nat)
  | restore (addr : Nat)
  | tileWord (addr : Nat)
  | commit
  | keyStore (copy : Nat)
  | verify
  | page (addr : Nat)
  | compact
  | slotErase (block : Nat)
  | spareErase (block : Nat)
  | keyErase (copy : Nat)
  deriving DecidableEq, Repr

/-- Kinds of flash operation, with the codes of NVM_STAT.OP. -/
inductive FlashKind where
  | read | program | erase
  deriving DecidableEq, Repr

/-- One flash operation: its kind, priority (R611), purpose, address and the bytes a program writes. -/
structure FlashOp where
  kind : FlashKind
  prio : Nat
  use : FlashFor
  addr : Nat
  data : List Byte := []
  deriving DecidableEq, Repr

/-- A journal record (R627): type, sequence number, payload. -/
structure JRec where
  type : Nat
  seq : Nat := 0
  data : List Byte
  deriving DecidableEq, Repr

/-- The update session states of NVM_UPD_CTRL (R642). -/
inductive UpdSt where
  | idle | erasing | open_ | verifying | done | failed
  deriving DecidableEq, Repr

/-- An image write session (R622, R623). -/
structure Session where
  st : UpdSt := .idle
  domain : Bool := false
  id : Nat := 0
  bytes : Nat := 0
  err : Nat := 0
  /-- Pages programmed in this session, ascending. -/
  pages : List Nat := []
  deriving DecidableEq, Repr

/-- The fuses (R636). -/
structure Fuses where
  /-- Fuses burned of pair 1, 2 and 3, as 0, 1 or 2. -/
  pair1 : Nat := 0
  pair2 : Nat := 0
  pair3 : Nat := 0
  /-- Key hash k, by number. -/
  hash : SMap (Option Nat) := []
  revoked : List Nat := []
  wrap : Bool := false
  /-- The device wrap key, once it is burned; no register shows it. -/
  wrapKey : Nat := 0
  identity : Nat := 0
  deriving DecidableEq, Repr

/-- A compaction, or the formatting of an empty journal, at work (R631, R632): the chain that is written and its generation, the
records that wait for a page, those of the pages programmed, the next page and the next SEQ. -/
structure Compaction where
  chain : Nat
  gen : Nat
  rest : List JRec
  recs : List JRec := []
  page : Nat := 0
  seq : Nat := 0
  deriving DecidableEq, Repr

/-- The flash, the journal, the update session, fuses and keys. -/
structure Nvm where
  /-- log2 of the flash density, 0 for no flash; 0 none, 1 quad, 2 octal. -/
  size : Nat := 0
  bus : Nat := 0
  /-- Flash contents that differ from 0xFF. -/
  flash : SMap Byte := []
  failed : Bool := false
  /-- Consecutive failed programs or erases (R609). -/
  failRun : Nat := 0
  op : Option FlashOp := none
  /-- The running erase is suspended; another operation may run meanwhile (R611). -/
  suspended : Option FlashOp := none
  waiting : List FlashOp := []
  chain : Nat := 0
  gen : Nat := 0
  seq : Nat := 0
  /-- Used pages of the active chain: the next page to program. -/
  used : Nat := 0
  /-- Records taken from the active chain, in order. -/
  recs : List JRec := []
  /-- The commit queue, at most 64 (R630). -/
  queue : List JRec := []
  /-- Records of the page that is being programmed. -/
  committing : List JRec := []
  compacting : Bool := false
  work : Option Compaction := none
  /-- No chain is complete: the journal waits to be formatted (R631, R643). -/
  format : Bool := false
  spareErased : Bool := true
  booted : Bool := false
  fallback : Bool := false
  sess : Session := {}
  /-- The session a request that waits in the arbiter will open. -/
  want : Option Session := none
  /-- The totals of the COUNTERS record (R629). -/
  hours : Nat := 0
  boots : Nat := 0
  fatals : Nat := 0
  shutdowns : Nat := 0
  pfails : Nat := 0
  fuses : Fuses := {}
  /-- Domain key slots of the secure region (R637). -/
  slot0 : Option Nat := none
  slot1 : Option Nat := none
  /-- GEN of the key store copy loaded. -/
  keyGen : Nat := 0
  /-- NVM_KEYBUF (write only). -/
  keybuf : SMap Word := []
  /-- Pass in which the life-cycle window opened (R640). -/
  lcOpen : Option Nat := none
  lcBusy : Bool := false
  deriving DecidableEq, Repr

/-- A Tally record (R649); `sev` and `inj` are FLAGS, `body` the bytes at offsets 10 to 27. -/
structure TRec where
  seq : Nat
  kind : Nat
  sev : Nat
  inj : Bool := false
  rep : Nat := 0
  source : Nat
  body : List Byte
  deriving DecidableEq, Repr

/-- The values of a monitor's window (R646, R647). -/
structure MonVals where
  min : Int := 2147483647
  max : Int := -2147483648
  count : Nat := 0
  sum : Int := 0
  bins : SMap Nat := []
  deriving DecidableEq, Repr

/-- One monitor. -/
structure Mon where
  /-- EN has been recognised. -/
  on : Bool := false
  /-- A window is open. -/
  run : Bool := false
  /-- First pass of window 0, and the passes the open window has still to run. -/
  first : Nat := 0
  left : Nat := 0
  ix : Nat := 0
  cur : MonVals := {}
  held : MonVals := {}
  heldIx : Nat := 0
  /-- A closed window's records are due: the pass of the close. -/
  due : Option Nat := none
  /-- Passes at whose end the window closes by hand, and whether the next one opens then (R645). -/
  stop : List (Nat × Bool) := []
  deriving DecidableEq, Repr

/-- The recorder and the monitors. -/
structure Tally where
  /-- Slot to record; an unlisted slot is empty. -/
  store : SMap (Option TRec) := []
  /-- Slot of the newest record, when there is one. -/
  head : Option Nat := none
  seq : Nat := 0
  /-- REPEAT of the newest record when it last entered the commit queue (R654). -/
  repAt : Nat := 0
  mons : SMap Mon := []
  slot : Nat := 0
  ready : Bool := true
  empty : Bool := false
  deriving DecidableEq, Repr

/-- A maintenance request (R665): kind code and unit. -/
structure Maint where
  kind : Nat
  arg : Nat
  deriving DecidableEq, Repr

/-- The responses of a bus access (R517 to R541, R662). -/
inductive Resp where
  | ok | error | hang | busy
  deriving DecidableEq, Repr

/-- The service port and the maintenance arbiter. -/
structure Svc where
  /-- Response of the latest device-bus access and its read data. -/
  resp : Resp := .ok
  rdata : Word := 0
  /-- Status, DONE and words of the latest service-port response (R662). -/
  status : Nat := 0
  done : Nat := 0
  data : List Word := []
  running : Option Maint := none
  /-- The admitted request starts at this pass (R665). -/
  startAt : Option Nat := none
  queued : Option Maint := none
  compactPend : Bool := false
  /-- LAST and RESULT of SVC_MAINT_STAT, and errors of the latest sweep. -/
  last : Nat := 0
  result : Nat := 0
  errors : Nat := 0
  /-- The running request's work is over, with this RESULT; its end is a step of its own (R666). -/
  ended : Option Nat := none
  /-- Memories a running sweep has still to finish. -/
  sweep : List Nat := []
  /-- RESULT of SVC_PARAM_GO. -/
  goResult : Nat := 0
  /-- The steward restarts: its work waits (R548). -/
  stewDown : Bool := false
  /-- Received domain messages that wait for it, and messages to send, oldest first. -/
  waitMsgs : List (MsgHdr × MsgBody) := []
  waitSends : List (Bool × MsgDst × MsgBody) := []
  /-- Raw writes of an active twin that both twins queue in their acting pass (R663): pass, instance, index, value,
  PERSIST. -/
  rawDue : List (Nat × Nat × Nat × Word × Bool) := []
  deriving DecidableEq, Repr

end Sys2Proof.Machine
end

