-- ==== Sys2Proof/Machine/Flags.lean ====
section
/-!
DEFINITION. The scalar flags of STAT (R236) and how each scalar operation sets them (R275, R276), and the branch
conditions that test them (R281).
-/

namespace Sys2Proof.Machine

/-- Bit positions of STAT (R236): signed overflow. -/
def statV : Nat := 0
/-- Carry out, or no borrow. -/
def statC : Nat := 1
/-- Result zero. -/
def statZ : Nat := 2
/-- Result negative. -/
def statN : Nat := 3
/-- First of the four sticky conversion bits. -/
def statSat : Nat := 8
/-- First of the four sticky accumulation bits. -/
def statAov : Nat := 12
/-- Function-unit operand out of range, sticky. -/
def statFur : Nat := 16

/-- The bits of STAT that hold a defined field (R236): every other bit reads 0. -/
def statDefined : Word := 0x0001FF0F#32

/-- A change of the scalar flags: the bits it replaces and their new values. -/
structure FlagWrite where
  mask : Word := 0
  bits : Word := 0
  deriving DecidableEq, Repr

/-- STAT after a flag write: bits outside the mask keep their values (R276). -/
def applyFlags (f : FlagWrite) (st : Word) : Word := (st &&& ~~~f.mask) ||| (f.bits &&& f.mask)

/-- One bit as a word. -/
def bitWord (n : Nat) (b : Bool) : Word := if b then BitVec.ofNat 32 (2 ^ n) else 0

/-- N and Z of a result (R276). -/
def flagsNZ (r : Word) : FlagWrite :=
  { mask := 0x0000000C#32, bits := bitWord statN r.msb ||| bitWord statZ (r == 0) }

/-- N, Z and one further flag. -/
def flagsWith (r : Word) (n : Nat) (b : Bool) : FlagWrite :=
  { mask := (flagsNZ r).mask ||| bitWord n true, bits := (flagsNZ r).bits ||| bitWord n b }

/-- N, Z, C and V. -/
def flagsNZCV (r : Word) (c v : Bool) : FlagWrite :=
  { mask := 0x0000000F#32, bits := (flagsNZ r).bits ||| bitWord statC c ||| bitWord statV v }

/-- The flags of a + b: C is the carry out of bit 31, V the signed overflow (R276). -/
def flagsAdd (a b : Word) : FlagWrite :=
  flagsNZCV (a + b) (decide (2 ^ 32 ≤ a.toNat + b.toNat))
    (decide (a.toInt + b.toInt ≠ (a + b).toInt))

/-- The flags of a − b: C is 1 when no borrow occurs, V the signed overflow (R276). -/
def flagsSub (a b : Word) : FlagWrite :=
  flagsNZCV (a - b) (decide (b.toNat ≤ a.toNat)) (decide (a.toInt - b.toInt ≠ (a - b).toInt))

/-- The flags of a shift: C is the last bit shifted out, and an amount of 0 leaves C unchanged (R276). -/
def flagsShift (r : Word) (amt : Nat) (last : Bool) : FlagWrite :=
  if amt = 0 then flagsNZ r else flagsWith r statC last

/-- The flags of a saturating operation: V is 1 when the result was saturated (R276). -/
def flagsSat (r : Word) (v : Bool) : FlagWrite := flagsWith r statV v

/-- Whether a condition is taken on the STAT visible at issue (R281). -/
def condHolds (c : Cond) (st : Word) : Bool :=
  let n := st.getLsbD statN
  let z := st.getLsbD statZ
  let cf := st.getLsbD statC
  let v := st.getLsbD statV
  match c with
  | .al => true
  | .eq => z
  | .ne => !z
  | .lt => n != v
  | .ge => n == v
  | .le => z || (n != v)
  | .gt => !z && (n == v)
  | .lo => !cf
  | .hs => cf
  | .ls => !cf || z
  | .hi => cf && !z
  | .mi => n
  | .pl => !n
  | .vs => v
  | .vc => !v
  | .nv => false

end Sys2Proof.Machine
end

