-- ==== Sys2Proof/Machine/TileTypes.lean ====
section
/-!
DEFINITION. The state of one tile as plain data: two register banks, the flow of each context, results in flight, the
function unit, the exception record and the restart (chapters Tile Datapath and Memory, and Tile Program Flow,
Contexts and Exceptions).
-/

namespace Sys2Proof.Machine

/-- One level of the loop stack (R283, R312). -/
structure Level where
  lcount : Word := 0
  lstart : Nat := 0
  lend   : Nat := 0
  deriving DecidableEq, Repr

/-- One register bank (R230): the sample bank or the control bank. -/
structure Bank where
  /-- s0 to s15. -/
  s : SMap Word := []
  /-- p0 to p7. -/
  p : SMap (BitVec 17) := []
  /-- m0 to m7. -/
  m : SMap (BitVec 17) := []
  /-- n0 to n7. -/
  n : SMap (BitVec 17) := []
  /-- Lane l of v_r at key 4r + l. -/
  v : SMap Word := []
  /-- Lane l of a_r at key 4r + l. -/
  a : SMap Acc := []
  /-- The loop stack, the outermost level first; LDEPTH is its length. -/
  loops : List Level := []
  /-- What the registers of level L hold while level L is not in use: the values it had when it was popped, or those a
  write of the register window left (R233). -/
  old : SMap Level := []
  /-- MODE[1:0]: NOSAT, TRUNC (R235). -/
  mode : BitVec 2 := 0
  /-- STAT (R236). -/
  stat : Word := 0
  deriving DecidableEq, Repr

/-- One register write in flight. -/
inductive RegWrite where
  | s (i : Fin 16) (x : Word)
  | p (i : Fin 8) (x : BitVec 17)
  | m (i : Fin 8) (x : BitVec 17)
  | n (i : Fin 8) (x : BitVec 17)
  | v (r : Fin 16) (l : Fin 4) (x : Word)
  | a (r : Fin 2) (l : Fin 4) (x : Acc)
  | flags (f : FlagWrite)
  | stat (x : Word)
  | sticky (bits : Word)
  | mode (x : BitVec 2)
  deriving DecidableEq, Repr

/-- A result in flight: visible to the bundle of its context with issue number `due` and to later ones (R237). -/
structure Pend where
  due : Nat
  w   : RegWrite
  deriving DecidableEq, Repr

/-- A branch whose delay slots are issuing (R282). -/
structure Branch where
  /-- Bundle index of the branch. -/
  at_ : Nat
  /-- Delay slots already issued, 0 or 1. -/
  slot : Nat
  taken : Bool
  /-- Target index, or the full s_a value of BR. -/
  target : Nat
  /-- The delay slots issue annulled. -/
  annulled : Bool
  deriving DecidableEq, Repr

/-- Bundles a LOOP with count 0 skips: still to issue annulled, and the bundle after them (R283). -/
structure Skip where
  left : Nat
  next : Nat
  /-- The bundle right after the LOOP is next (R307). -/
  first : Bool := true
  deriving DecidableEq, Repr

/-- A repeat in progress: repetitions done and the count; count 0 issues once, annulled (R284, R315). -/
structure Rpt where
  done  : Nat
  count : Nat
  deriving DecidableEq, Repr

/-- The flow of one context. -/
structure Flow where
  /-- Index of the next bundle. -/
  pc : Nat := 0
  /-- Bundles issued, the number of the bundle that is issuing. -/
  issued : Nat := 0
  /-- The next bundle is the target of a taken branch (R313). -/
  atTarget : Bool := false
  br   : Option Branch := none
  skip : Option Skip := none
  rpt  : Option Rpt := none
  /-- WAITS issues again until the schedule-cycle counter reaches this value (R287); `pc` names the WAITS bundle. -/
  wait : Option Nat := none
  /-- Results in flight, in issue order. -/
  pend : List Pend := []
  deriving DecidableEq, Repr

/-- What a bundle's C slot does to the flow. -/
inductive Ctl where
  | none
  | yield
  | cret
  | waits (cycle : Nat)
  | gang (sec : Nat)
  | branch (taken : Bool) (target : Nat) (annul : Bool) (link : Bool)
  | loop (count : Nat) (lend : Nat)
  | rpt (count : Nat)
  deriving DecidableEq, Repr

/-- The function-unit operations, with the codes of R285. -/
inductive FuOp where
  | rcp | rsq | log2 | exp2 | div
  deriving DecidableEq, Repr

/-- A destination a slot names, for the rule that no two slots name one (R241, R272). -/
inductive Dest where
  | s (i : Fin 16)
  | p (i : Fin 8)
  | m (i : Fin 8)
  | n (i : Fin 8)
  | v (r : Fin 16)
  | a (r : Fin 2)
  | stat
  deriving DecidableEq, Repr

/-- An exception a bundle raises: CAUSE, DETAIL and the data address recorded (R326, R338). -/
structure Exc where
  cause  : Nat
  detail : Nat
  addr   : Nat := 0
  deriving DecidableEq, Repr

/-- The three slots of a bundle (R269). -/
inductive SlotKind where
  | c | m | l
  deriving DecidableEq, Repr

/-- What one slot of a bundle does, held until the bundle's last slot arrives (R270, R327). -/
structure SlotEffect where
  kind   : SlotKind := .c
  /-- Register writes: the tile, the hazard distance, the write. -/
  writes : List (Nat × Nat × RegWrite) := []
  /-- Bytes stored: device-bus address and values. -/
  stores : List (Nat × List Byte) := []
  /-- Words of tile data memory read: their corrected errors are reported at issue (R258, R526). -/
  reads  : List Nat := []
  dests  : List Dest := []
  /-- Exception of the slot's access, with the member that raises it. -/
  exc    : Option (Exc × Nat) := none
  /-- An illegal encoding is raised even in an annulled bundle. -/
  illegal : Option Exc := none
  ctl    : Ctl := .none
  /-- Function-unit operation started, with its destination. -/
  fu     : Option (FuOp × Fin 16) := none
  /-- Stall cycles of the slot's own making (R255). -/
  stall  : Nat := 0
  /-- The slot is a control-transfer instruction (R307). -/
  transfer : Bool := false
  /-- An STS, whose value a ganged bundle carries to its members (R326). -/
  gangSts : Bool := false
  deriving DecidableEq, Repr

/-- The function unit: cycles of occupancy left and the operation that occupies it (R245, R318, R325). -/
structure FuState where
  left   : Nat := 0
  op     : FuOp := .rcp
  dest   : Nat := 0
  cancel : Bool := false
  ctx    : Bool := false
  deriving DecidableEq, Repr

/-- A pending handler run: the instance and the G of the pass it was released in (R319, R321). -/
structure HRun where
  inst : Nat
  due  : Nat
  /-- Pass cycle of its release. -/
  at_  : Nat := 0
  /-- Counted once as deferred (R321). -/
  deferred : Bool := false
  deriving DecidableEq, Repr

/-- What the tile's clock does: running a program, stopped after YIELD, or halted by an exception. -/
inductive TileRun where
  | idle | running | halted
  deriving DecidableEq, Repr

/-- One tile. -/
structure Tile where
  run   : TileRun := .idle
  /-- The control context is active (R320). -/
  ctx   : Bool := false
  smp   : Bank := {}
  ctl   : Bank := {}
  sf    : Flow := {}
  cf    : Flow := {}
  fu    : FuState := {}
  /-- Slots of the bundle that is being issued. -/
  buf   : List SlotEffect := []
  /-- A bundle is open: its issue has begun. -/
  bufOpen : Bool := false
  /-- Schedule-cycle counter (R287). -/
  scyc  : Nat := 0
  /-- Library calls of the pass already run, for a program of library calls only (assumption 8). -/
  libNext : Nat := 0
  /-- Control cycles used in the pass, switch cycles included (R321, R341). -/
  ctlCyc : Nat := 0
  /-- Schedule cycle of this pass's YIELD; 0 before it (R341). -/
  yieldScyc : Nat := 0
  /-- The sample program has issued YIELD in this pass. -/
  yielded : Bool := true
  /-- Waits at a GANG rendezvous, or is a member other than tile 0 in a running section (R288, R331). -/
  waiting : Bool := false
  /-- Pass cycle at which the drain after YIELD ends (R289, R310). -/
  drainEnd : Nat := 0
  /-- A CRET came after the last sample bundle, so no switch may follow at once (R322). -/
  afterCret : Bool := false
  /-- Instance of the running handler, when the control context is active. -/
  handler : Nat := 0
  /-- Pending handler runs, in starting order (R321). -/
  runs  : List HRun := []
  /-- TILE_CTRLCNT counters (R341). -/
  merged : Nat := 0
  deferred : Nat := 0
  /-- Which of the two instruction memories is the front: a role (R260). -/
  frontIsB : Bool := false
  /-- The sample program fetches from the back memory: a crossfade program runs (R262, R310). -/
  onBack : Bool := false
  /-- Exception record: register offset within the window's +0x3_0800 range to word (R336 to R340). -/
  xrec  : SMap Word := []
  /-- Words read from the tile by an exchange are delivered as 0 (R332). -/
  muted : Bool := false
  /-- An injection made the tile treat its YIELD as absent (R546). -/
  injYield : Bool := false
  /-- Strobes until the restart: 0 none due (R331, R332). -/
  restartIn : Nat := 0
  /-- k of the ramp-in of R333 in the current pass, 1 to 64; 0: no ramp runs. -/
  rampK : Nat := 0
  deriving DecidableEq, Repr

end Sys2Proof.Machine
end

