-- ==== Sys2Proof/Machine/State.lean ====
section
/-!
DEFINITION. The state of the engine, the reasons a step can stop, and the state after a power-on reset.
-/

namespace Sys2Proof.Machine

/-- The state of the block: every register, memory, queue and counter the manual gives it, and the queue of commands
that wait, first in, first out. -/
structure State where
  /-- Commands that wait, oldest first. -/
  pending : List Instr := []
  /-- Peripheral registers by device-bus address: the stored value XOR the reset value (assumption 1). -/
  regs : SMap Word := []
  /-- Latched _HI parts by the address of the _HI register (R15). -/
  latch : SMap Word := []
  /-- Byte memory by device-bus address: Millpond, tile data memories, the secure region.  An unlisted byte reads 0
  (assumption 2). -/
  mem : List Host.Cell := []
  /-- Instruction memories: byte b of physical memory x of tile n at key 32768 n + 16384 x + b (R260). -/
  imem : List Host.Cell := []
  /-- The image runs at 96 kHz (R29). -/
  rate96 : Bool := false
  /-- The image that has been applied. -/
  image : Option Image := none
  grid : Grid := {}
  clusters : SMap Cluster := []
  tiles : SMap Tile := []
  nodes : SMap NodeSt := []
  scn : Scenes := {}
  cue : Cues := {}
  ports : SMap Port := []
  pdm : Pdm := {}
  srcs : SMap Converter := []
  clk : Clk := {}
  net : Net := {}
  race : Race := {}
  dom : Dom := {}
  pwr : Power := {}
  ms : Memories := {}
  flt : Faults := {}
  twin : Twin := {}
  nvm : Nvm := {}
  tly : Tally := {}
  svc : Svc := {}
  /-- Seconds of the real-time clock of AON (R459). -/
  rtc : Nat := 0
  /-- Free values drawn so far: the model's own counter (assumption 5). -/
  draws : Nat := 0
  deriving DecidableEq, Repr

/-- Reasons a step stops with a fault.  The manual stops no command of this block: every fault of the engine is a report
or a record, so no meaning raises this one.  It is safe. -/
inductive Fault where
  /-- Raised by nobody. -/
  | none_
  deriving DecidableEq, Repr

/-- Reasons a command has no meaning. -/
inductive Refusal where
  /-- The command of this mnemonic has no meaning in the model yet; raised by its arm of `exec` only.  Safe: the block
  stops. -/
  | notModelled (mnemonic : String)
  deriving DecidableEq, Repr

/-- The state right after a power-on reset (R579, R13): every register at its reset value, memory with nothing listed,
mode BOOT, the steward's power domain on, no command waiting. -/
def State.reset : State := {}

end Sys2Proof.Machine
end

