-- ==== Sys2Proof/Machine/Ops.lean ====
section
/-!
DEFINITION. The named operations every family uses: registers and their fields, byte memory, passes, fault reports,
records of the recorder and journal records.
-/

namespace Sys2Proof.Machine

/-! ## Passes and rates -/

/-- Core cycles per pass, C (R29). -/
def State.cyc (s : State) : Nat := if s.rate96 then 5120 else 10240

/-- The domain rate in Hz (R29). -/
def State.fs (s : State) : Nat := if s.rate96 then 96000 else 48000

/-- Low 32 bits of the pass index P. -/
def State.p32 (s : State) : Nat := s.grid.p.toNat % 2 ^ 32

/-- The graph runs: the modes of R577 in which it does. -/
def State.graphRuns (s : State) : Bool :=
  match s.pwr.mode with
  | .sync | .run | .quiet | .shadow => true
  | _ => false

/-- The acting pass of a decision recognised in the current pass: two passes later in a twin pair (R354), and later when
16 events wait before it (R563). -/
def State.acting (s : State) : Nat :=
  let f := frameOf s.twin.out 1
  if s.twin.on then s.grid.tick + 2 + (if f = 0 then 0 else f + 1) else s.grid.tick

/-- BUILD of the image that runs. -/
def State.build (s : State) : Nat := match s.image with | some im => im.build | none => 0

/-! ## Registers -/

/-- The registers of the peripheral window with number `w`, the address divided by 64 Ki (R518). -/
def windowRegs (w : Nat) : List RegDef :=
  match w with
  | 0x4000 => regsSys
  | 0x4001 => regsPwr
  | 0x4002 => regsClk0 ++ regsClk1
  | 0x4003 => regsFlt
  | 0x4004 => regsTly ++ regsMon0 ++ regsMon1
  | 0x4005 => regsNvm0 ++ regsNvm1
  | 0x4006 => regsSvc
  | 0x4010 => regsPort
  | 0x4011 => regsPdm
  | 0x4012 => regsSrc
  | 0x4020 => regsNet
  | 0x4021 => regsPtp0 ++ regsPtp1
  | 0x4022 => regsStrm
  | 0x4030 => regsRace
  | 0x4050 => regsXbar
  | 0x4060 => regsDom
  | 0x4070 => regsCue
  | 0x4071 => regsScn
  | 0x4080 => regsMpd
  | 0x4090 => regsTwin
  | _ => []

/-- Whether a register, or one of its repeats, lies at address `a`. -/
def RegDef.at_ (r : RegDef) (a : Nat) : Bool :=
  if r.count = 1 then a == r.base
  else decide (r.base ≤ a) && decide ((a - r.base) % r.stride = 0) && decide ((a - r.base) / r.stride < r.count)

/-- The register at an address. -/
def regAt (a : Nat) : Option RegDef := (windowRegs (a / 65536)).find? (fun r => r.at_ a)

/-- The reset value of a register (R13). -/
def RegDef.reset (r : RegDef) : Word := BitVec.ofNat 32 (r.flds.foldl (fun x f => x + f.rst * 2 ^ f.lo) 0)

/-- The reset value of the register at an address; 0 where there is none. -/
def resetOf (a : Nat) : Word :=
  match regAt a with
  | some r => r.reset
  | none => 0

/-- The mask of bits [hi:lo]. -/
def fmask (hi lo : Nat) : Word := BitVec.ofNat 32 (2 ^ (hi + 1) - 2 ^ lo)

/-- The mask of the fields of one type. -/
def RegDef.mask (r : RegDef) (t : FTy) : Word :=
  r.flds.foldl (fun x f => if f.ty = t then x ||| fmask f.hi f.lo else x) 0

/-- The stored value of the register at an address. -/
def State.reg (s : State) (a : Nat) : Word := mget 0 s.regs a ^^^ resetOf a

/-- The state with a register's stored value replaced. -/
def State.setReg (s : State) (a : Nat) (v : Word) : State :=
  { s with regs := mset 0 s.regs a (v ^^^ resetOf a) }

/-- Bits [hi:lo] of a word, as a number. -/
def bits (v : Word) (hi lo : Nat) : Nat := v.toNat / 2 ^ lo % 2 ^ (hi + 1 - lo)

/-- Bits [hi:lo] of a word as a two's complement number. -/
def sbits (v : Word) (hi lo : Nat) : Int :=
  let n := bits v hi lo
  if n < 2 ^ (hi - lo) then n else (n : Int) - 2 ^ (hi + 1 - lo)

/-- A word with bits [hi:lo] replaced. -/
def putBits (v : Word) (hi lo : Nat) (x : Nat) : Word :=
  (v &&& ~~~fmask hi lo) ||| (BitVec.ofNat 32 (x * 2 ^ lo) &&& fmask hi lo)

/-- Field [hi:lo] of the register at an address. -/
def State.fld (s : State) (a hi lo : Nat) : Nat := bits (s.reg a) hi lo

/-- One bit of the register at an address. -/
def State.flag (s : State) (a n : Nat) : Bool := (s.reg a).getLsbD n

/-- The state with a register field replaced. -/
def State.setFld (s : State) (a hi lo : Nat) (x : Nat) : State := s.setReg a (putBits (s.reg a) hi lo x)

/-- The state with a register bit set or cleared. -/
def State.setFlag (s : State) (a n : Nat) (b : Bool) : State := s.setFld a n n (if b then 1 else 0)

/-- The state with a saturating counter field raised by `k`. -/
def State.count (s : State) (a hi lo : Nat) (k : Nat) : State :=
  s.setFld a hi lo (satAdd (hi + 1 - lo) (s.fld a hi lo) k)

/-! ## Byte memory -/

/-- The byte at a device-bus address. -/
def State.rdB (s : State) (a : Nat) : Byte := mget 0 s.mem a

/-- The state with one byte of memory written. -/
def State.wrB (s : State) (a : Nat) (b : Byte) : State := { s with mem := mset 0 s.mem a b }

/-- `n` bytes from an address up. -/
def State.rdBytes (s : State) (a : Nat) : Nat → List Byte
  | 0 => []
  | n + 1 => s.rdB a :: s.rdBytes (a + 1) n

/-- The memory with bytes written from an address up. -/
def memPut (m : List Host.Cell) (a : Nat) : List Byte → List Host.Cell
  | [] => m
  | b :: bs => memPut (mset 0 m a b) (a + 1) bs

/-- The error mark a write leaves on the word at `w`: an armed injection for that word stores it wrong, any other write
stores it right (R546, R526). -/
def eccMark (inj : Option Injection) (w : Nat) : Nat :=
  match inj with
  | some i =>
    if (i.src = 1 ∨ i.src = 2) ∧ i.arg / 4 * 4 = w then (if i.src = 1 then 1 + i.bit else 64) else 0
  | none => 0

/-- The words a write of `n` bytes at `a` touches. -/
def wordsOf (a n : Nat) : List Nat := (List.range ((a % 4 + n + 3) / 4)).map (fun i => a / 4 * 4 + 4 * i)

/-- Error marks after a write: a written word is right again and leaves the rewrite queue, unless an injection was armed
for it (R526, R547). -/
def State.eccWrite (s : State) : List Nat → State
  | [] => s
  | w :: ws =>
    let m := eccMark s.flt.armed w
    let ms := { s.ms with ecc := mset 0 s.ms.ecc w m, rewrites := s.ms.rewrites.filter (· ≠ w) }
    let flt := if m = 0 then s.flt else { s.flt with armed := none }
    ({ s with ms := ms, flt := flt } : State).eccWrite ws

/-- A block in its place in an ascending list. -/
def insertBlock (b : Nat) : List Nat → List Nat
  | [] => [b]
  | x :: l => if b < x then b :: x :: l else if b = x then x :: l else x :: insertBlock b l

/-- While a copy runs, the 64-byte blocks a write touches are dirty (R572). -/
def State.markDirty (s : State) (a n : Nat) : State :=
  if s.twin.copyFrom.isNone then s
  else
    let bs := (List.range ((a % 64 + n + 63) / 64)).map (fun i => a / 64 * 64 + 64 * i)
    { s with twin := { s.twin with dirty := bs.foldl (fun l b => insertBlock b l) s.twin.dirty } }

/-- The state with bytes written from an address up. -/
def State.wrBytes (s : State) (a : Nat) (bs : List Byte) : State :=
  let s := ({ s with mem := memPut s.mem a bs } : State).markDirty a bs.length
  if s.ms.ecc.isEmpty && s.flt.armed.isNone then s else s.eccWrite (wordsOf a bs.length)

/-- A number from bytes, least significant first (R2). -/
def leNat : List Byte → Nat
  | [] => 0
  | b :: bs => b.toNat + 256 * leNat bs

/-- The low `n` bytes of a number, least significant first (R2). -/
def leBytes : Nat → Nat → List Byte
  | 0, _ => []
  | n + 1, x => BitVec.ofNat 8 x :: leBytes n (x / 256)

/-- A number from bytes, most significant first (R3). -/
def beNat (bs : List Byte) : Nat := leNat bs.reverse

/-- The low `n` bytes of a number, most significant first (R3). -/
def beBytes (n x : Nat) : List Byte := (leBytes n x).reverse

/-- A value in a unit `n` times as coarse; the manual names no rounding (assumption 42). -/
def coarse (x : Int) (n : Nat) : Int :=
  if x % n = 0 then x / n else x / n + (if Config.roundsUp x n then 1 else 0)

/-- The word at an address, least significant byte first. -/
def State.rd32 (s : State) (a : Nat) : Word := BitVec.ofNat 32 (leNat (s.rdBytes a 4))

/-- The state with a word written. -/
def State.wr32 (s : State) (a : Nat) (v : Word) : State := s.wrBytes a (leBytes 4 v.toNat)

/-- Base address of tile n's window (R517). -/
def tileBase (n : Nat) : Nat := 0x20000000 + 0x40000 * n

/-- Base address of Millpond (R517). -/
def mpdBase : Nat := 0x10000000

/-- An address lies in Millpond. -/
def inMpd (a : Nat) : Bool := decide (0x10000000 ≤ a) && decide (a < 0x11800000)

/-- Millpond quadrant of an address. -/
def quadOf (a : Nat) : Nat := (a - mpdBase) / 0x00600000

/-! ## Power domains -/

/-- The state of a power domain (R581). -/
def State.domSt (s : State) (d : Nat) : PState := mget .off s.pwr.dom d

/-- A power domain is on. -/
def State.domOn (s : State) (d : Nat) : Bool := s.domSt d == .on

/-- The state with a power domain's state replaced. -/
def State.setDom (s : State) (d : Nat) (x : PState) : State :=
  { s with pwr := { s.pwr with dom := mset .off s.pwr.dom d x } }

/-! ## Tiles, clusters, ports -/

/-- Tile 8c + t. -/
def State.tile (s : State) (n : Nat) : Tile := mget {} s.tiles n
/-- The state with a tile replaced. -/
def State.setTile (s : State) (n : Nat) (t : Tile) : State := { s with tiles := mset {} s.tiles n t }
/-- The program of a tile's front (R79, R184). -/
def State.prog (s : State) (n : Nat) : TileProg := mget {} s.scn.progs n
/-- Cluster c. -/
def State.cluster (s : State) (c : Nat) : Cluster := mget {} s.clusters c
/-- The state with a cluster replaced. -/
def State.setCluster (s : State) (c : Nat) (x : Cluster) : State := { s with clusters := mset {} s.clusters c x }
/-- Port k. -/
def State.port (s : State) (k : Nat) : Port := mget {} s.ports k
/-- The state with a port replaced. -/
def State.setPort (s : State) (k : Nat) (x : Port) : State := { s with ports := mset {} s.ports k x }
/-- Converter c. -/
def State.src (s : State) (c : Nat) : Converter := mget {} s.srcs c
/-- The state with a converter replaced. -/
def State.setSrc (s : State) (c : Nat) (x : Converter) : State := { s with srcs := mset {} s.srcs c x }
/-- Microphone m. -/
def State.mic (s : State) (m : Nat) : Mic := mget {} s.pdm.mics m
/-- The state with a microphone replaced. -/
def State.setMic (s : State) (m : Nat) (x : Mic) : State :=
  { s with pdm := { s.pdm with mics := mset {} s.pdm.mics m x } }
/-- Race link k. -/
def State.link (s : State) (k : Nat) : RaceLink := mget {} s.race.links k
/-- The state with a race link replaced. -/
def State.setLink (s : State) (k : Nat) (l : RaceLink) : State :=
  { s with race := { s.race with links := mset {} s.race.links k l } }
/-- Monitor m. -/
def State.mon (s : State) (m : Nat) : Mon := mget {} s.tly.mons m
/-- The state with a monitor replaced. -/
def State.setMon (s : State) (m : Nat) (x : Mon) : State :=
  { s with tly := { s.tly with mons := mset {} s.tly.mons m x } }

/-- Applies `f` to the state for each element of a list, in order. -/
def forAll {α : Type} (l : List α) (s : State) (f : α → State → State) : State := l.foldl (fun s k => f k s) s

/-- The numbers 0 to n − 1. -/
def upto (n : Nat) : List Nat := List.range n

/-! ## Interrupt bits -/

/-- Sets an SVC_IRQ bit (R664): 0 TLY, 1 FAULT, 2 MODE, 3 MAINT, 4 UPD, 5 CURSOR. -/
def State.irq (s : State) (n : Nat) : State := s.setFlag aSvcIrq n true

/-! ## Fault reports -/

/-- A detector raises a report; the collector takes it in its own step (R551). -/
def State.raise (s : State) (src unit cls detail : Nat) : State :=
  { s with flt := { s.flt with raised := s.flt.raised ++
      [{ src := src, unit := unit, cls := cls, detail := detail, pass := s.p32 }] } }

/-- A report that an injection caused (R547). -/
def State.raiseInj (s : State) (src unit cls detail : Nat) : State :=
  { s with flt := { s.flt with raised := s.flt.raised ++
      [{ src := src, unit := unit, cls := cls, detail := detail, pass := s.p32, inj := true }] } }

/-! ## The recorder -/

/-- A journal record enters the commit queue, or is dropped and counted when the queue of 64 is full (R630). -/
def State.journal (s : State) (type : Nat) (data : List Byte) : State :=
  if s.nvm.queue.length < 64 then
    { s with nvm := { s.nvm with queue := s.nvm.queue ++ [{ type := type, data := data }] } }
  else s.count aNvmJrnCnt 15 0 1

/-- The 32 bytes of a Tally record (R649). -/
def TRec.bytes (r : TRec) : List Byte :=
  leBytes 4 r.seq ++ [BitVec.ofNat 8 r.kind, BitVec.ofNat 8 (r.sev + (if r.inj then 4 else 0))] ++ leBytes 2 r.rep ++
    leBytes 2 r.source ++ r.body ++ leBytes 4 r.seq

/-- Two records have one SOURCE, and for EVENT records one ADDR, LOW and HIGH (R653). -/
def sameSubject (a b : TRec) : Bool :=
  a.kind == b.kind && a.source == b.source &&
    (a.kind != 2 || (a.body.take 2 == b.body.take 2 && (a.body.drop 6).take 4 == (b.body.drop 6).take 4))

/-- The signed difference of two sequence numbers (R652). -/
def seqDiff (a b : Nat) : Int := (BitVec.ofNat 32 a - BitVec.ofNat 32 b).toInt

/-- The newest record. -/
def State.newest (s : State) : Option TRec :=
  match s.tly.head with
  | some k => mget none s.tly.store k
  | none => none

/-- The lowest slot of 0 to 2,047 that is empty, when there is one, looked for from `k` up. -/
def emptySlot : SMap (Option TRec) → Nat → Option Nat
  | [], k => if k < 2048 then some k else none
  | (j, _) :: m, k => if j = k then emptySlot m (k + 1) else some k

/-- The slot of the oldest record of severity at most `sev`, by the signed difference from the newest SEQ (R652). -/
def oldestSlot (newest sev : Nat) (m : SMap (Option TRec)) : Option Nat :=
  (m.foldl (fun (b : Option (Nat × Int)) e =>
    match e.2 with
    | some r =>
      if r.sev ≤ sev then
        let d := seqDiff r.seq newest
        match b with
        | some (_, d') => if d < d' then some (e.1, d) else b
        | none => some (e.1, d)
      else b
    | none => b) none).map (·.1)

/-- SVC_IRQ.TLY is set when a record of severity at or above SVC_IRQ_EN.SEV is placed or coalesced (R664). -/
def State.tlyIrq (s : State) (sev : Nat) : State :=
  if s.fld aSvcIrqEn 9 8 ≤ sev then s.irq 0 else s

/-- When the newest record is about to stop being the newest and its REPEAT has risen since it last entered the commit
queue, it enters it again (R654). -/
def State.requeueNewest (s : State) : State :=
  match s.newest with
  | some r => if 2 ≤ r.sev ∧ s.tly.repAt < r.rep then s.journal 7 r.bytes else s
  | none => s

/-- Places a record in a slot, as the newest record; a MAJOR or CRITICAL one enters the commit queue (R652, R654). -/
def State.placeAt (s : State) (slot : Nat) (r : TRec) : State :=
  let s := s.requeueNewest
  let s := { s with tly := { s.tly with store := mset none s.tly.store slot (some r), head := some slot, seq := (r.seq + 1) % 2 ^ 32, repAt := 0 } }
  let s := if 2 ≤ r.sev then s.journal 7 r.bytes else s
  s.tlyIrq r.sev

/-- A new record is coalesced into the newest record, takes a slot or is dropped (R652, R653). -/
def State.record (s : State) (kind sev : Nat) (inj : Bool) (source : Nat) (body : List Byte) : State :=
  let r : TRec := { seq := s.tly.seq, kind := kind, sev := sev, inj := inj, source := source % 65536, body := body }
  let co := match s.newest with
    | some n => sameSubject n r && decide (sev ≤ n.sev) && kind != 6
    | none => false
  if co then
    match s.tly.head, s.newest with
    | some k, some n =>
      let n' := { n with rep := satAdd 16 n.rep 1 }
      ({ s with tly := { s.tly with store := mset none s.tly.store k (some n') } } : State).tlyIrq sev
    | _, _ => s
  else
    match emptySlot s.tly.store 0 with
    | some k => s.placeAt k r
    | none =>
      match oldestSlot ((s.tly.seq + 2 ^ 32 - 1) % 2 ^ 32) sev s.tly.store with
      | some k => s.placeAt k r
      | none => s.count aTlyDrop 31 0 1

/-- Severities of records (R649). -/
abbrev sevInfo : Nat := 0
/-- NOTICE. -/
abbrev sevNotice : Nat := 1
/-- MAJOR. -/
abbrev sevMajor : Nat := 2
/-- CRITICAL. -/
abbrev sevCritical : Nat := 3

/-- An EVENT record (R650): the field [high:low] of the register at `addr`, its value after the event, the rule's
subject. -/
def State.event (s : State) (sev addr low high value detail : Nat) : State :=
  s.record 2 sev false (addr / 4096 % 65536)
    ([BitVec.ofNat 8 low, BitVec.ofNat 8 high] ++ leBytes 4 s.p32 ++ leBytes 4 addr ++ leBytes 4 value ++ leBytes 4 detail)

/-- A MARK record (R650, R209, R664): ORIGIN, LEVEL, RULE. -/
def State.mark (s : State) (sev code origin level rule : Nat) : State :=
  s.record 3 sev false code
    ([BitVec.ofNat 8 origin, BitVec.ofNat 8 level] ++ leBytes 4 s.p32 ++ leBytes 2 rule ++ List.replicate 10 0)

/-- A TIME record (R650, R655): LOCAL, the pass index, seconds and nanoseconds. -/
def State.timeRec (s : State) (isLocal : Bool) (sec ns : Nat) : State :=
  s.record 6 sevNotice false 0
    ([if isLocal then 1 else 0, 0] ++ leBytes 6 s.grid.p.toNat ++ leBytes 6 sec ++ leBytes 4 ns)

/-! ## The operating mode -/

/-- The code of a mode (R577). -/
def Mode.code : Mode → Nat
  | .boot => 0 | .sync => 1 | .run => 2 | .quiet => 3 | .shadow => 4 | .sluice => 5 | .service => 6 | .dormant => 7

/-- The status pins: STATk is driven where bit 8 + k is set, at the level of bit k (R225, R550, R674). -/
def State.statPins (s : State) : Word :=
  match s.pwr.mode with
  | .boot => 0xFF00#32
  | .sync | .run | .quiet | .shadow => 0xFF00#32 ||| (s.reg aCueStatOut &&& 0xFF#32)
  | .sluice => if s.image.isNone then 0xFF00#32 else s.reg aFltSluiceStat
  | .service => s.pwr.statHeld
  | .dormant => 0

/-- The mode changes; SVC_IRQ.MODE is set; SERVICE holds the status pins at their last levels (R578, R669, R674). -/
def State.setMode (s : State) (m : Mode) : State :=
  if s.pwr.mode = m then s
  else ({ s with pwr := { s.pwr with mode := m, statHeld := if m = .service then s.statPins else s.pwr.statHeld } } : State).irq 2

end Sys2Proof.Machine
end

