-- ==== Sys2Proof/Machine/Hash.lean ====
section
/-!
DEFINITION. The check sums and the hash that frames, requests and messages carry: the CRC-32 of a race frame (R485), the
CRC-16 of the service port (R661), SHA-256 (FIPS 180-4) and HMAC-SHA-256 (R503, FIPS 198-1).
-/

namespace Sys2Proof.Machine

/-- `f n`, with `n` evaluated first. -/
def strictly {α : Type} (n : Nat) (f : Nat → α) : α :=
  match n with
  | 0 => f 0
  | k + 1 => f (k + 1)

/-! ## Cyclic redundancy checks -/

/-- One bit of a reflected CRC of 32 bits with the reflected polynomial `p`. -/
def crcBit (p x : Nat) : Nat := (x / 2) ^^^ (p * (x % 2))

/-- The register of a reflected CRC of 32 bits after a list of bytes. -/
def crcRun (p : Nat) : List Byte → Nat → Nat
  | [], c => c
  | b :: bs, c =>
    strictly (crcBit p (crcBit p (crcBit p (crcBit p (crcBit p (crcBit p (crcBit p (crcBit p (c ^^^ b.toNat)))))))))
      (fun c => crcRun p bs c)

/-- The CRC-32 of IEEE 802.3 of a list of bytes: initial value and final XOR 0xFFFF_FFFF (R485). -/
def crc32 (bs : List Byte) : Nat := crcRun 0xEDB88320 bs 0xFFFFFFFF ^^^ 0xFFFFFFFF

/-- CRC-32C of a list of bytes: polynomial 0x1EDC_6F41, initial value and final XOR 0xFFFF_FFFF (R627, R638). -/
def crc32c (bs : List Byte) : Nat := crcRun 0x82F63B78 bs 0xFFFFFFFF ^^^ 0xFFFFFFFF

/-- One bit of the CRC-16 of the service port: polynomial 0x1021, not reflected (R661). -/
def crc16Bit (x : Nat) : Nat := (2 * x % 0x10000) ^^^ (0x1021 * (x / 0x8000))

/-- The register of the CRC-16 after a list of bytes (R661). -/
def crc16Run : List Byte → Nat → Nat
  | [], c => c
  | b :: bs, c =>
    strictly (crc16Bit (crc16Bit (crc16Bit (crc16Bit (crc16Bit (crc16Bit (crc16Bit (crc16Bit (c ^^^ (b.toNat * 256))))))))))
      (fun c => crc16Run bs c)

/-- The CRC-16 of a list of bytes: initial value 0xFFFF, no final XOR (R661). -/
def crc16 (bs : List Byte) : Nat := crc16Run bs 0xFFFF

/-! ## SHA-256 -/

/-- Rotation of a 32-bit word to the right. -/
def rotr (n x : Nat) : Nat := x / 2 ^ n + x % 2 ^ n * 2 ^ (32 - n)

/-- The 64 round constants of FIPS 180-4 as one number, the constant of round 0 in its highest 32 bits: the constant of the
round after which `n` rounds are left stands from bit 32 n on. -/
def shaTable : Nat :=
  0x428a2f9871374491b5c0fbcfe9b5dba53956c25b59f111f1923f82a4ab1c5ed5d807aa9812835b01243185be550c7dc372be5d7480deb1fe9bdc06a7c19bf174e49b69c1efbe47860fc19dc6240ca1cc2de92c6f4a7484aa5cb0a9dc76f988da983e5152a831c66db00327c8bf597fc7c6e00bf3d5a7914706ca63511429296727b70a852e1b21384d2c6dfc53380d13650a7354766a0abb81c2c92e92722c85a2bfe8a1a81a664bc24b8b70c76c51a3d192e819d6990624f40e3585106aa07019a4c1161e376c082748774c34b0bcb5391c0cb34ed8aa4a5b9cca4f682e6ff3748f82ee78a5636f84c878148cc7020890befffaa4506cebbef9a3f7c67178f2

/-- The eight working words of SHA-256. -/
structure ShaWords where
  (a b c d e f g h : Nat)
  deriving DecidableEq, Repr

/-- 32 bits of a number, from bit 32 `i` on. -/
def word32 (x i : Nat) : Nat := x / 2 ^ (32 * i) % 2 ^ 32

/-- The eight words of a 256-bit number, the highest first. -/
def ShaWords.ofNat (x : Nat) : ShaWords :=
  { h := word32 x 0, g := word32 x 1, f := word32 x 2, e := word32 x 3
    d := word32 x 4, c := word32 x 5, b := word32 x 6, a := word32 x 7 }

/-- The initial hash value of FIPS 180-4. -/
def shaInit : ShaWords :=
  ShaWords.ofNat 0x6a09e667bb67ae853c6ef372a54ff53a510e527f9b05688c1f83d9ab5be0cd19

/-- The next schedule word, from the sixteen before it, oldest first. -/
def shaNext (w : List Nat) : Nat :=
  let g (i : Nat) : Nat := (w[i]?).getD 0
  let s0 := rotr 7 (g 1) ^^^ rotr 18 (g 1) ^^^ (g 1 / 2 ^ 3)
  let s1 := rotr 17 (g 14) ^^^ rotr 19 (g 14) ^^^ (g 14 / 2 ^ 10)
  (g 0 + s0 + g 9 + s1) % 2 ^ 32

/-- `t1` of a round: `k` is its constant, `w` its schedule word. -/
def ShaWords.mixE (x : ShaWords) (k w : Nat) : Nat :=
  let sum := rotr 6 x.e ^^^ rotr 11 x.e ^^^ rotr 25 x.e
  let choice := (x.e &&& x.f) ^^^ ((2 ^ 32 - 1 ^^^ x.e) &&& x.g)
  k + w + x.h + choice + sum

/-- `t2` of a round. -/
def ShaWords.mixA (x : ShaWords) : Nat :=
  let majority := (x.a &&& (x.b ||| x.c)) ||| (x.b &&& x.c)
  majority + (rotr 2 x.a ^^^ rotr 13 x.a ^^^ rotr 22 x.a)

/-- The last `left` rounds of one block: `sched` holds the schedule words from this round on. -/
def shaRounds : (left : Nat) → (sched : List Nat) → ShaWords → ShaWords
  | 0, _, x => x
  | left + 1, sched, x =>
    strictly (x.mixE (word32 shaTable left) (sched.headD 0)) (fun t =>
      strictly ((t + x.mixA) % 2 ^ 32) (fun a => strictly ((x.d + t) % 2 ^ 32) (fun e => strictly (shaNext sched) (fun n =>
        shaRounds left (sched.drop 1 ++ [n]) { a := a, b := x.a, c := x.b, d := x.c, e := e, f := x.e, g := x.f, h := x.g }))))

/-- The 32-bit words of a block of bytes, most significant byte first. -/
def shaWordsOf : Nat → List Byte → List Nat
  | 0, _ => []
  | n + 1, bs => beNat (bs.take 4) :: shaWordsOf n (bs.drop 4)

/-- The hash after `n` blocks. -/
def shaBlocks : Nat → List Byte → ShaWords → ShaWords
  | 0, _, x => x
  | n + 1, bs, x =>
    let y := shaRounds 64 (shaWordsOf 16 (bs.take 64)) x
    strictly ((x.a + y.a) % 2 ^ 32) (fun a => strictly ((x.b + y.b) % 2 ^ 32) (fun b => strictly ((x.c + y.c) % 2 ^ 32) (fun c =>
      strictly ((x.d + y.d) % 2 ^ 32) (fun d => strictly ((x.e + y.e) % 2 ^ 32) (fun e => strictly ((x.f + y.f) % 2 ^ 32) (fun f =>
        strictly ((x.g + y.g) % 2 ^ 32) (fun g => strictly ((x.h + y.h) % 2 ^ 32) (fun h =>
          shaBlocks n (bs.drop 64) ⟨a, b, c, d, e, f, g, h⟩))))))))

/-- The SHA-256 digest, 32 bytes. -/
def sha256 (bs : List Byte) : List Byte :=
  let n := (bs.length + 9 + 63) / 64
  let padded := bs ++ [0x80] ++ List.replicate (64 * n - 9 - bs.length) 0 ++ beBytes 8 (8 * bs.length)
  let x := shaBlocks n padded shaInit
  [x.a, x.b, x.c, x.d, x.e, x.f, x.g, x.h].flatMap (beBytes 4)

/-- HMAC-SHA-256 under a key of at most 64 bytes (R503). -/
def hmac (key msg : List Byte) : List Byte :=
  let k := key ++ List.replicate (64 - key.length) 0
  sha256 (k.map (· ^^^ 0x5C#8) ++ sha256 (k.map (· ^^^ 0x36#8) ++ msg))

end Sys2Proof.Machine
end

