-- ==== Sys2Proof/Machine/Coding.lean ====
section
/-!
DEFINITION. The characters of a race link: the 8b/10b code of IEEE 802.3 clause 36 with its running disparity (R481), the
distribution of a frame's characters over the two lanes (R482).  A character is a number of 10 bits, bit a lowest, bit j highest.
The code tables are the standard's (PRESUMED, log entry 171).
-/

namespace Sys2Proof

/-- A character before coding: a data byte, K28.5, K28.0 (R483). -/
inductive RaceChar where
  | data (b : Byte)
  | comma
  | fill
  deriving DecidableEq, Repr

/-- The numbers EDCBA and HGF of a character, and whether it is a special one. -/
def RaceChar.parts : RaceChar → Nat × Nat × Bool
  | .data b => (b.toNat % 32, b.toNat / 32, false)
  | .comma => (28, 5, true)
  | .fill => (28, 0, true)

/-- The 5b/6b code for negative running disparity, abcdei with a lowest: D.0 to D.31. -/
def code6 : List Nat :=
  [0b111001, 0b101110, 0b101101, 0b100011, 0b101011, 0b100101, 0b100110, 0b000111,
   0b100111, 0b101001, 0b101010, 0b001011, 0b101100, 0b001101, 0b001110, 0b111010,
   0b110110, 0b110001, 0b110010, 0b010011, 0b110100, 0b010101, 0b010110, 0b010111,
   0b110011, 0b011001, 0b011010, 0b011011, 0b011100, 0b011101, 0b011110, 0b110101]

/-- The 3b/4b code for negative running disparity, fghj with f lowest: D.x.0 to D.x.6 and D.x.P7. -/
def code4 : List Nat := [0b1101, 0b1001, 0b1010, 0b0011, 0b1011, 0b0101, 0b0110, 0b0111]

/-- Bits that are 1 among the lowest `n`. -/
def onesIn : Nat → Nat → Nat
  | 0, _ => 0
  | n + 1, x => x % 2 + onesIn n (x / 2)

/-- The group abcdei of number `x`, and whether it changes the running disparity, positive as `true`. -/
def group6 (rd : Bool) (x : Nat) (k : Bool) : Nat × Bool :=
  let v := if k then 0b111100 else (code6[x]?).getD 0
  let odd := onesIn 6 v != 3
  (if rd && (odd || x == 7) then 63 - v else v, rd != odd)

/-- The group fghj of number `y` behind the group of `x`, and the running disparity after it. -/
def group4 (rd : Bool) (x y : Nat) (k : Bool) : Nat × Bool :=
  let alt := !k && y == 7 && (if rd then x == 11 || x == 13 || x == 14 else x == 17 || x == 18 || x == 20)
  let v := if alt then 0b1110 else (code4[y]?).getD 0
  let odd := onesIn 4 v != 2
  -- K28.5 alternates with the disparity as its group is balanced
  let flip := if k && y == 5 then !rd else rd && (odd || y == 3)
  (if flip then 15 - v else v, rd != odd)

/-- A character's code for a running disparity, and the running disparity after it. -/
def encode10 (rd : Bool) (c : RaceChar) : Nat × Bool :=
  let (x, y, k) := c.parts
  let (a, rd) := group6 rd x k
  let (b, rd) := group4 rd x y k
  (a + 64 * b, rd)

/-- The codes of one lane's characters, and the running disparity after them. -/
def encodeLane : Bool → List RaceChar → List (BitVec 10) × Bool
  | rd, [] => ([], rd)
  | rd, c :: cs =>
    let (w, rd) := encode10 rd c
    let (ws, rd) := encodeLane rd cs
    (BitVec.ofNat 10 w :: ws, rd)

/-- The number that a group of six stands for, 32 for none; the special group of K28 is not in it. -/
def ungroup6 : List Nat :=
  [32, 32, 32, 32, 32, 15, 0, 7, 32, 16, 31, 11, 24, 13, 14, 32,
   32, 1, 2, 19, 4, 21, 22, 23, 8, 25, 26, 27, 28, 29, 30, 32,
   32, 30, 29, 3, 27, 5, 6, 8, 23, 9, 10, 4, 12, 2, 1, 32,
   32, 17, 18, 24, 20, 31, 16, 32, 7, 0, 15, 32, 32, 32, 32, 32]

/-- The number that a group of four stands for, 8 for none. -/
def ungroup4 : List Nat := [8, 7, 0, 3, 4, 5, 6, 7, 7, 1, 2, 4, 3, 0, 7, 8]

/-- The one character whose code a number of 10 bits may be. -/
def likely10 (w : Nat) : Option RaceChar :=
  let a := w % 64
  let b := w / 64
  if a = 0b111100 ∨ a = 0b000011 then
    (if b = 0b0101 ∨ b = 0b1010 then some .comma else if b = 0b0010 ∨ b = 0b1101 then some .fill else none)
  else
    let x := (ungroup6[a]?).getD 32
    let y := (ungroup4[b]?).getD 8
    if x < 32 ∧ y < 8 then some (.data (BitVec.ofNat 8 (x + 32 * y))) else none

/-- A received code for a running disparity: the character, none for an invalid code, and the running disparity after it. -/
def decode10 (rd : Bool) (w : Nat) : Option RaceChar × Bool :=
  let n := onesIn 10 w
  let after : Bool := if n = 5 then rd else decide (5 < n)
  match likely10 w with
  | some c => (if (encode10 rd c).1 = w then some c else none, after)
  | none => (none, after)

/-- The characters of one lane from its codes. -/
def decodeLane : Bool → List (BitVec 10) → List (Option RaceChar)
  | _, [] => []
  | rd, w :: ws =>
    let (c, rd) := decode10 rd w.toNat
    c :: decodeLane rd ws

/-- The running disparity in which a lane's frame begins, told by the form of its first comma. -/
def laneStart (ws : List (BitVec 10)) : Bool := (ws[0]?).getD 0 == 0b1010000011#10

/-- The characters of a frame on one lane: those with numbers of its parity (R482). -/
def laneOf {α : Type} : Bool → List α → List α
  | _, [] => []
  | true, _ :: cs => laneOf false cs
  | false, c :: cs => c :: laneOf true cs

/-- The characters of a frame from its two lanes: character b is on lane b mod 2 (R482). -/
def fromLanes {α : Type} : List α → List α → List α
  | a :: l0, b :: l1 => a :: b :: fromLanes l0 l1
  | l0, [] => l0
  | [], l1 => l1

/-- The data byte of a character, 0 for any other. -/
def RaceChar.byte : Option RaceChar → Byte
  | some (.data b) => b
  | _ => 0

/-- It is a data character. -/
def RaceChar.isData : Option RaceChar → Bool
  | some (.data _) => true
  | _ => false

end Sys2Proof
end

