-- ==== Sys2Proof/Machine/Wire.lean ====
section
/-!
DEFINITION. The bytes that race frames and domain messages have on the wire: domain messages and their MAC (R502 to R508),
the frame of a race link with its header, cells, slots and CRC (R483 to R487), the twin cell and the twin block (R563).
Fields go most significant byte first (R3).
-/

namespace Sys2Proof.Machine

/-- The field of `n` bytes at offset `o`. -/
def beAt (bs : List Byte) (o n : Nat) : Nat := beNat ((bs.drop o).take n)

/-- A list of bytes filled with zeros to `n`. -/
def padTo (n : Nat) (bs : List Byte) : List Byte := (bs ++ List.replicate (n - bs.length) 0).take n

/-- A bit as a number. -/
def bit01 (b : Bool) : Nat := if b then 1 else 0

/-! ## Domain messages -/

/-- DST of the header (R502). -/
def MsgDst.word : MsgDst → Nat
  | .all => 0
  | .segment n => 0x4000 + n.toNat
  | .device n => 0x8000 + n.toNat
  | .manager => 0xC000

/-- TYPE of the header (R505). -/
def msgType : MsgBody → Nat
  | .join .. => 0x01
  | .admission .. => 0x02
  | .refuse _ => 0x03
  | .leave => 0x04
  | .manager .. => 0x05
  | .heartbeat .. => 0x06
  | .mirror _ => 0x07
  | .deal _ => 0x10
  | .dealAck .. => 0x11
  | .dealCancel _ => 0x12
  | .cue .. => 0x20
  | .streams .. => 0x30
  | .tallyPull .. => 0x40
  | .tallySummary .. => 0x41
  | .param _ => 0x50
  | .image _ => 0x60
  | .other t _ => t

/-- An entry of a STREAMS message (R508). -/
def StreamEntry.bytes (e : StreamEntry) : List Byte :=
  beBytes 2 e.sender ++ beBytes 1 e.tx ++ beBytes 1 e.action ++ beBytes 2 (e.receiver.getD 0xFFFF) ++ beBytes 1 e.rx ++ [0]

/-- A change record of a MIRROR message: a stream entry as in R508; a roster entry as 0x8000 + device, PRESENT and TWIN; the
last DEAL_ID as 0xC000 and its four bytes.  DESIGN CHOICE (log entry 36). -/
def MirrorChange.bytes : MirrorChange → List Byte
  | .stream sender tx receiver rx used =>
    StreamEntry.bytes { sender := sender, tx := tx, action := if used then 0 else 1, receiver := some receiver, rx := rx }
  | .device n present twin => beBytes 2 (0x8000 + n) ++ beBytes 1 (bit01 present + 2 * bit01 twin) ++ List.replicate 5 0
  | .deal last => beBytes 2 0xC000 ++ [0, 0] ++ beBytes 4 last.toNat

/-- TARGET: the set of segments as one number of 16 bytes, or the device number in its first two (R198). -/
def DealMsg.targetBytes (d : DealMsg) : List Byte :=
  match d.segments, d.device with
  | some x, _ => beBytes 16 x.toNat
  | none, some n => beBytes 2 n.toNat ++ List.replicate 14 0
  | none, none => List.replicate 16 0

/-- The payload of a deal (R198). -/
def DealMsg.bytes (d : DealMsg) : List Byte :=
  let (ms, law) := d.xf.getD (0, 0)
  beBytes 4 d.id.toNat ++ beBytes 2 d.scene ++ beBytes 1 d.prio ++ beBytes 1 (bit01 d.xf.isSome + 2 * law) ++ beBytes 2 ms ++ [0, 0]
    ++ beBytes 6 d.sec ++ beBytes 4 d.ns
    ++ beBytes 1 (if d.segments.isSome then 1 else if d.device.isSome then 2 else 0) ++ [0] ++ DealMsg.targetBytes d

/-- The payload of a message (R198 to R201, R212, R505, R507, R508, R659). -/
def msgPayload : MsgBody → List Byte
  | .join own rate96 twin twinB build nTx =>
    beBytes 2 own ++ beBytes 1 (bit01 rate96) ++ beBytes 1 (bit01 twin + 2 * bit01 twinB) ++ beBytes 8 build ++ beBytes 1 nTx ++ [0, 0, 0]
  | .admission ver epoch => beBytes 4 ver ++ beBytes 6 epoch.toNat ++ [0, 0]
  | .refuse reason => beBytes 1 reason ++ [0, 0, 0]
  | .leave => []
  | .manager term ver last used => beBytes 2 term.toNat ++ beBytes 4 ver ++ beBytes 4 last.toNat ++ beBytes 2 used
  | .heartbeat mode grid twin flt => beBytes 1 mode ++ beBytes 1 grid ++ beBytes 1 twin ++ [0] ++ beBytes 4 flt.toNat
  | .mirror cs => cs.flatMap MirrorChange.bytes
  | .deal d => DealMsg.bytes d
  | .dealAck id scene status p => beBytes 4 id.toNat ++ beBytes 2 scene ++ beBytes 1 status ++ [0] ++ beBytes 8 p.toNat
  | .dealCancel id => beBytes 4 id.toNat
  | .cue n level time =>
    beBytes 2 n ++ beBytes 1 level ++ beBytes 1 (bit01 time.isSome) ++ beBytes 6 (time.getD (0, 0)).1 ++ beBytes 4 (time.getD (0, 0)).2 ++ [0, 0]
  | .streams epoch es => beBytes 6 epoch.toNat ++ beBytes 2 es.length ++ es.flatMap StreamEntry.bytes
  | .tallyPull q sev n => beBytes 4 q.toNat ++ beBytes 1 sev ++ beBytes 1 n ++ [0, 0]
  | .tallySummary head drops rs =>
    beBytes 4 head ++ beBytes 4 drops ++ beBytes 1 rs.length ++ [0, 0, 0] ++ rs.flatMap (padTo 32)
  | .param es => beBytes 2 es.length ++ es.flatMap (fun e => beBytes 2 e.1 ++ beBytes 2 e.2.1 ++ beBytes 4 e.2.2.toNat)
  | .image p => p
  | .other _ p => p

/-- LENGTH: the payload bytes of a message. -/
def msgLen (b : MsgBody) : Nat := (msgPayload b).length

/-- Header and payload of a message (R502). -/
def msgBytes (h : MsgHdr) (b : MsgBody) : List Byte :=
  beBytes 1 h.version ++ beBytes 1 (msgType b) ++ beBytes 2 (msgLen b) ++ beBytes 2 h.domain ++ beBytes 2 h.src.toNat
    ++ beBytes 2 (MsgDst.word h.dst) ++ beBytes 1 (bit01 h.key1) ++ beBytes 1 (bit01 h.own) ++ beBytes 4 h.seq.toNat
    ++ beBytes 6 h.sec ++ beBytes 2 h.ms ++ msgPayload b

/-- DST of a header (R502); the manager's kind has no number. -/
def dstOf (w : Nat) : MsgDst :=
  match w / 0x4000 % 4 with
  | 0 => .all
  | 1 => .segment (BitVec.ofNat 7 w)
  | 2 => .device (BitVec.ofNat 11 w)
  | _ => .manager

/-- A message whose TYPE is none of R505: its header and payload (R502). -/
def unknownMsg (bs : List Byte) : Option (MsgHdr × MsgBody) :=
  let t := beAt bs 1 1
  let n := beAt bs 2 2
  if t ∈ [0x01, 0x02, 0x03, 0x04, 0x05, 0x06, 0x07, 0x10, 0x11, 0x12, 0x20, 0x30, 0x40, 0x41, 0x50, 0x60] then none
  else some
    ({ version := beAt bs 0 1, domain := beAt bs 4 2, src := BitVec.ofNat 11 (beAt bs 6 2), dst := dstOf (beAt bs 8 2), key1 := beAt bs 10 1 == 1,
       own := beAt bs 11 1 % 2 == 1, seq := BitVec.ofNat 32 (beAt bs 12 4), sec := beAt bs 16 6, ms := beAt bs 22 2,
       mac := (bs.drop (24 + n)).take 16 }, .other t ((bs.drop 24).take n))

/-- The domain key in the secure region's slot that KEY_ID names (R503). -/
def State.domKey (s : State) (key1 : Bool) : Option Nat := if key1 then s.nvm.slot1 else s.nvm.slot0

/-- The MAC of a message: the first 16 bytes of HMAC-SHA-256 over header and payload (R503). -/
def State.msgMac (s : State) (h : MsgHdr) (b : MsgBody) : List Byte :=
  match s.domKey h.key1 with
  | some k => (hmac (leBytes 32 k) (msgBytes h b)).take 16
  | none => []

/-- The MAC of a received message verifies (R504). -/
def State.macOk (s : State) (h : MsgHdr) (b : MsgBody) : Bool := h.mac == s.msgMac h b

/-! ## The twin cell and the twin block -/

/-- KIND, UNIT and ARG of the records of a relayed event (R563, R663).  KIND 0x20 and 0x21 are the manual's; the other
codes, and bit 7 of KIND for an event that missed its pass's frame, are a DESIGN CHOICE (log entry 37). -/
def TwinEv.parts : TwinEv → List (Nat × Nat × Nat)
  | .trigger i => [(0x01, 0, i)]
  | .level p up => [(0x11, p, bit01 up)]
  | .recall v => [(0x02, 0, v.toNat)]
  | .lock k e => [(0x03, k, e)]
  | .slip k => [(0x04, k, 0)]
  | .loss k => [(0x05, k, 0)]
  | .recovery k => [(0x06, k, 0)]
  | .cls k c => [(0x07, k, c)]
  | .naOn k j span => [(0x08, k, j * 2 ^ 32 + span)]
  | .naOff k j => [(0x09, k, j * 2 ^ 32)]
  | .rate k r prev => [(0x0A, k + 16 * (r / 2 ^ 24) + 32 * (prev / 2 ^ 24), r % 2 ^ 24 * 2 ^ 24 + prev % 2 ^ 24)]
  | .frame0 c pass cyc => [(0x0B, c, pass % 2 ^ 32 * 2 ^ 16 + cyc)]
  | .micStuck m => [(0x0C, m, 0)]
  | .micBack m => [(0x0D, m, 0)]
  | .clkStuck c => [(0x0E, c, 0)]
  | .clkBack c => [(0x0F, c, 0)]
  | .write a v => [(0x10, a / 2 ^ 16 % 256, a % 2 ^ 16 * 2 ^ 32 + v.toNat)]
  | .param inst k v persist => [(0x20, bit01 persist, inst * 2 ^ 32 + k * 2 ^ 16), (0x21, 0, v.toNat * 2 ^ 16)]

/-- A record of EVENTS (R563). -/
def evRecord (late : Bool) (p : Nat × Nat × Nat) : List Byte := beBytes 1 (p.1 + 128 * bit01 late) ++ beBytes 1 p.2.1 ++ beBytes 6 p.2.2

/-- The event that a record, and for a raw parameter write the record after it, spells. -/
def evOf (kind unit arg : Nat) (next : Nat × Nat × Nat) : Option TwinEv :=
  match kind with
  | 0x01 => some (.trigger arg)
  | 0x02 => some (.recall (BitVec.ofNat 32 arg))
  | 0x03 => some (.lock unit arg)
  | 0x04 => some (.slip unit)
  | 0x05 => some (.loss unit)
  | 0x06 => some (.recovery unit)
  | 0x07 => some (.cls unit arg)
  | 0x08 => some (.naOn unit (arg / 2 ^ 32) (arg % 2 ^ 32))
  | 0x09 => some (.naOff unit (arg / 2 ^ 32))
  | 0x0A => some (.rate (unit % 16) (arg / 2 ^ 24 + unit / 16 % 2 * 2 ^ 24) (arg % 2 ^ 24 + unit / 32 % 2 * 2 ^ 24))
  | 0x0B => some (.frame0 unit (arg / 2 ^ 16) (arg % 2 ^ 16))
  | 0x0C => some (.micStuck unit)
  | 0x0D => some (.micBack unit)
  | 0x0E => some (.clkStuck unit)
  | 0x0F => some (.clkBack unit)
  | 0x10 => some (.write (0x40000000 + unit * 2 ^ 16 + arg / 2 ^ 32) (BitVec.ofNat 32 arg))
  | 0x11 => some (.level unit (arg == 1))
  | 0x20 => if next.1 % 128 = 0x21 then
      some (.param (arg / 2 ^ 32) (arg / 2 ^ 16 % 2 ^ 16) (BitVec.ofNat 32 (next.2.2 / 2 ^ 16)) (unit % 2 == 1)) else none
  | _ => none

/-- The events of a list of records, each with whether it missed its pass's frame. -/
def evsOf : List (Nat × Nat × Nat) → List (TwinEv × Bool)
  | [] => []
  | r :: rs =>
    match evOf (r.1 % 128) r.2.1 r.2.2 ((rs.head?).getD (0, 0, 0)) with
    | some e => (e, decide (128 ≤ r.1)) :: evsOf rs
    | none => evsOf rs

/-- `n` records of a size cut from a list of bytes. -/
def cut (size : Nat) : Nat → List Byte → List (List Byte)
  | 0, _ => []
  | n + 1, bs => bs.take size :: cut size n (bs.drop size)

/-- What the STATE record of a twin cell and a twin block bring (R563).  A digest is there when the pass before was the last
of its window (R566). -/
def twinIn (rate96 : Bool) (cell area : List Byte) : TwinIn :=
  let f := beAt cell 1 1
  let g := beAt cell 4 4
  let n := min (beAt area 272 2) (if rate96 then 41 else 86)
  { tstate := beAt cell 0 1, b := f % 2 == 1, ready := f / 2 % 2 == 1, graph := f / 4 % 2 == 1, match_ := beAt cell 2 2,
    g := BitVec.ofNat 32 g, p := BitVec.ofNat 48 (beAt cell 8 6),
    strmOk := BitVec.ofNat 128 (beAt area 0 16),
    srcs := (cut 8 8 (area.drop 16)).map (fun r => (beAt r 0 4, beAt r 4 2)),
    events := evsOf ((cut 8 16 (area.drop 80)).map (fun r => (beAt r 0 1, beAt r 1 1, beAt r 2 6))),
    digest := if f / 4 % 2 = 1 ∧ g % 48 = 47 then some (BitVec.ofNat 32 (beAt area 208 4), BitVec.ofNat 64 (beAt area 216 8)) else none,
    copy := (cut 68 n (area.drop 280)).map (fun r => (beAt r 0 4, r.drop 4)) }

/-! ## The frame of a race link -/

/-- A frame as it leaves: header, control cells, slot area and CRC, the CRC's least significant byte first (R483, R485). -/
def RaceTx.bytes (t : RaceTx) : List Byte := t.header ++ t.cells.flatten ++ t.area ++ leBytes 4 t.crc

/-- The characters of a frame (R483): four K28.5, the bytes, K28.0 to the frame's end. -/
def RaceTx.chars (t : RaceTx) (rate96 : Bool) : List RaceChar :=
  let bs := RaceTx.bytes t
  List.replicate 4 .comma ++ bs.map .data ++ List.replicate ((if rate96 then 4092 else 8188) - bs.length) .fill

/-- The codes of a lane of the frame, and the running disparity behind them (R481, R482). -/
def RaceTx.lane (t : RaceTx) (rate96 one : Bool) : List (BitVec 10) × Bool :=
  encodeLane (if one then t.rd1 else t.rd0) (laneOf one (RaceTx.chars t rate96))

/-- The level of a lane in bit time `n` of the frame, a quarter of a core cycle each: bit a of each character first (R481, R482). -/
def RaceTx.level (t : RaceTx) (rate96 one : Bool) (n : Nat) : Bool :=
  (((RaceTx.lane t rate96 one).1[n / 10]?).getD 0).getLsbD (n % 10)

/-- A control cell of 32 bytes (R486). -/
def cell (ctype tag : Nat) (data : List Byte) : List Byte := [BitVec.ofNat 8 ctype, BitVec.ofNat 8 tag] ++ padTo 30 data

/-- The cells of a message of which `left` cells are still to go, at most `n` of them: a start, then continuations, all in
reassembly buffer 0. -/
def msgCells (bytes : List Byte) (left n : Nat) : List (List Byte) :=
  let total := ceilDiv bytes.length 30
  ((cut 30 total bytes).zipIdx.drop (total - left)).take n |>.map (fun c => cell (if c.2 = 0 then 2 else 3) 0 c.1)

end Sys2Proof.Machine

namespace Sys2Proof

/-- Cells of a frame (R483). -/
def cellsOf (rate96 : Bool) : Nat := if rate96 then 4 else 8

/-- Slots of a frame at a rate (R483). -/
def slotsOf (rate96 : Bool) : Nat := if rate96 then 768 else 1536

/-- Characters of a frame (R482). -/
def charsOf (rate96 : Bool) : Nat := if rate96 then 4096 else 8192

/-- Bytes from the header through the CRC (R483). -/
def bytesOf (rate96 : Bool) : Nat := 16 + 32 * cellsOf rate96 + 4 * slotsOf rate96 + 4

/-- The characters of a received frame; none is an invalid code. -/
def RaceIn.chars (f : RaceIn) : List (Option RaceChar) :=
  fromLanes (decodeLane (laneStart f.lane0) f.lane0) (decodeLane (laneStart f.lane1) f.lane1)
/-- Comma pairs stand on both lanes, at the spacing of one frame (R489). -/
def RaceIn.commas (f : RaceIn) : Bool := f.spaced && f.chars.take 4 == List.replicate 4 (some .comma)
/-- The bytes from the header through the CRC, by the frame's length (R483). -/
def RaceIn.bytes (f : RaceIn) : List Byte :=
  ((f.chars.drop 4).take (bytesOf (f.lane0.length == 2048))).map RaceChar.byte
/-- No character is an invalid 10-bit code, and none but data stands from the header through the CRC (R490). -/
def RaceIn.codeOk (f : RaceIn) : Bool :=
  f.chars.all Option.isSome && ((f.chars.drop 4).take (bytesOf (f.lane0.length == 2048))).all RaceChar.isData
/-- VERSION (R484). -/
def RaceIn.version (f : RaceIn) : Nat := Machine.beAt f.bytes 0 1
/-- FLAGS.ALIGNED. -/
def RaceIn.aligned (f : RaceIn) : Bool := Machine.beAt f.bytes 1 1 % 2 == 1
/-- FLAGS.SLUICE. -/
def RaceIn.sluice (f : RaceIn) : Bool := Machine.beAt f.bytes 1 1 / 2 % 2 == 1
/-- PASS_LO. -/
def RaceIn.passLo (f : RaceIn) : BitVec 16 := BitVec.ofNat 16 (Machine.beAt f.bytes 2 2)
/-- SRC. -/
def RaceIn.src (f : RaceIn) : BitVec 11 := BitVec.ofNat 11 (Machine.beAt f.bytes 4 2)
/-- DST: the device number. -/
def RaceIn.dst (f : RaceIn) : BitVec 11 := BitVec.ofNat 11 (Machine.beAt f.bytes 6 2)
/-- DST.ANY. -/
def RaceIn.any (f : RaceIn) : Bool := Machine.beAt f.bytes 6 2 / 2 ^ 15 == 1
/-- MAP_ID. -/
def RaceIn.mapId (f : RaceIn) : Word := BitVec.ofNat 32 (Machine.beAt f.bytes 12 4)
/-- Cell i with its CTYPE and TAG. -/
def RaceIn.cellAt (f : RaceIn) (i : Nat) : List Byte := (f.bytes.drop (16 + 32 * i)).take 32
/-- PASS of the link cell (R487). -/
def RaceIn.pass (f : RaceIn) : PassIx := BitVec.ofNat 48 (Machine.beAt f.bytes 18 6)
/-- RXOK of the link cell. -/
def RaceIn.rxok (f : RaceIn) : BitVec 4 := BitVec.ofNat 4 (Machine.beAt f.bytes 25 1)
/-- The cells that carry parts of domain messages (R486). -/
def RaceIn.msgs (f : RaceIn) (rate96 : Bool) : List (List Byte) :=
  (Machine.cut 32 (cellsOf rate96 - 1) (f.bytes.drop 48)).filter (fun c => Machine.beAt c 0 1 == 2 || Machine.beAt c 0 1 == 3)
/-- The slot area. -/
def RaceIn.area (f : RaceIn) (rate96 : Bool) : List Byte := (f.bytes.drop (16 + 32 * cellsOf rate96)).take (4 * slotsOf rate96)
/-- The audio slots; those at and above N_SLOTS are 0 as sent. -/
def RaceIn.slots (f : RaceIn) (rate96 : Bool) : List Word :=
  (Machine.cut 4 (slotsOf rate96) (f.area rate96)).map (fun w => BitVec.ofNat 32 (Machine.beNat w))
/-- The received CRC is that of the bytes from the header through the last slot (R485). -/
def RaceIn.crcOk (f : RaceIn) (rate96 : Bool) : Bool :=
  let n := 16 + 32 * cellsOf rate96 + 4 * slotsOf rate96
  f.bytes.length == n + 4 && Machine.leNat (f.bytes.drop n) == Machine.crc32 (f.bytes.take n)
/-- The twin cell and the twin block (R563). -/
def RaceIn.twin (f : RaceIn) (rate96 : Bool) : Option TwinIn :=
  let c := f.cellAt 1
  if Machine.beAt c 0 1 = 4 then some (Machine.twinIn rate96 (c.drop 2) (f.area rate96)) else none

end Sys2Proof
end

