-- ==== Sys2Proof/Machine/Frames.lean ====
section
/-!
DEFINITION. The bytes of the Ethernet frames that the engine sends: Ethernet with VLAN tag, PRP trailer and HSR tag, ARP, IPv4,
ICMP, IGMP, UDP, RTP and PTP.  Fields that a published standard defines go in the order of that standard (R3); for them all that
is most significant byte first.  The layouts are the standards' (PRESUMED, log entry 168).
-/

namespace Sys2Proof.Machine

/-! ## The internet checksum -/

/-- The 16-bit words of a list of bytes, the last filled with zeros. -/
def words16 : List Byte → List Nat
  | [] => []
  | [a] => [a.toNat * 256]
  | a :: b :: r => (a.toNat * 256 + b.toNat) :: words16 r

/-- The ones' complement sum of numbers below 2^16, in the range 0 to 65,535. -/
def onesSum (l : List Nat) : Nat := let x := l.foldl (· + ·) 0; if x = 0 then 0 else (x - 1) % 65535 + 1

/-- The internet checksum. -/
def inetSum (bs : List Byte) : Nat := 65535 - onesSum (words16 bs)

/-! ## IPv4 and what it carries -/

/-- A datagram's header fields that the manual and the standard leave to the sender: type of service, identification, the flag
that forbids fragments (FREE VALUES, log entry 168). -/
structure IpOpen where
  tos : Nat
  ident : Nat
  df : Bool
  deriving DecidableEq, Repr

/-- The free fields from a free word. -/
def IpOpen.of (w : Word) : IpOpen := { tos := w.toNat % 256, ident := w.toNat / 256 % 65536, df := w.getLsbD 24 }

/-- An IPv4 datagram without options, not fragmented (R446, R475). -/
def ipv4 (o : IpOpen) (ttl proto : Nat) (src dst : Word) (data : List Byte) : List Byte :=
  let a := [0x45] ++ beBytes 1 o.tos ++ beBytes 2 (20 + data.length) ++ beBytes 2 o.ident ++ beBytes 2 (0x4000 * bit01 o.df)
    ++ beBytes 1 ttl ++ beBytes 1 proto
  let b := beBytes 4 src.toNat ++ beBytes 4 dst.toNat
  a ++ beBytes 2 (inetSum (a ++ b)) ++ b ++ data

/-- A UDP datagram; `zero` writes the checksum as 0x0000 (R452). -/
def udp (zero : Bool) (src dst : Word) (from_ to_ : Nat) (data : List Byte) : List Byte :=
  let h := beBytes 2 from_ ++ beBytes 2 to_ ++ beBytes 2 (8 + data.length)
  let pseudo := beBytes 4 src.toNat ++ beBytes 4 dst.toNat ++ [0, 17] ++ beBytes 2 (8 + data.length)
  let x := inetSum (pseudo ++ h ++ data)
  h ++ beBytes 2 (if zero then 0 else if x = 0 then 65535 else x) ++ data

/-- An RTP packet of version 2 without padding, extension or CSRC (R463, R464). -/
def rtp (pt seq : Nat) (ts : Word) (ssrc : Nat) (payload : List Byte) : List Byte :=
  [0x80] ++ beBytes 1 pt ++ beBytes 2 seq ++ beBytes 4 ts.toNat ++ beBytes 4 ssrc ++ payload

/-- An IGMP version 3 membership report for one group without source filtering: a change to it when the engine joins, or the
answer to a query (R446). -/
def igmpReport (group : Word) (answer : Bool) : List Byte :=
  let r := [0, 0, 0, 1] ++ [if answer then 2 else 4, 0, 0, 0] ++ beBytes 4 group.toNat
  let h : List Byte := [0x22, 0]
  h ++ beBytes 2 (inetSum (h ++ r)) ++ r

/-- An ICMP echo reply with the request's identifier, sequence number and data (R446). -/
def echoReply (data : List Byte) : List Byte := [0, 0] ++ beBytes 2 (inetSum ([0, 0] ++ data)) ++ data

/-- An ARP reply (R446). -/
def arpReply (mac : Nat) (ip : Word) (to_ : Nat) (toIp : Word) : List Byte :=
  beBytes 2 1 ++ beBytes 2 0x0800 ++ [6, 4] ++ beBytes 2 2 ++ beBytes 6 mac ++ beBytes 4 ip.toNat ++ beBytes 6 to_ ++ beBytes 4 toIp.toNat

/-- The content of a PRP supervision frame: version 1, its sequence number, the sender's address (R471). -/
def supervisionData (seq mac : Nat) : List Byte := [0, 1] ++ beBytes 2 seq ++ [20, 6] ++ beBytes 6 mac ++ [0, 0]

/-! ## PTP messages -/

/-- What differs between the headers of PTP messages: messageType, the flag octets, correctionField, controlField,
logMessageInterval. -/
structure PtpHead where
  type : Nat
  flags : Nat := 0
  corr : Int := 0
  control : Nat
  log : Nat
  deriving DecidableEq, Repr

/-- A port identity: clockIdentity and portNumber (R450). -/
def PortId.bytes (p : PortId) : List Byte := beBytes 8 p.clock ++ beBytes 2 p.port

/-- A PTP message of version 2.1 without TLVs (R450). -/
def ptpMessage (h : PtpHead) (dom : Nat) (src : PortId) (seq : Nat) (body : List Byte) : List Byte :=
  beBytes 1 h.type ++ [0x12] ++ beBytes 2 (34 + body.length) ++ beBytes 1 dom ++ [0] ++ beBytes 2 h.flags
    ++ beBytes 8 (h.corr % 2 ^ 64).toNat ++ [0, 0, 0, 0] ++ PortId.bytes src ++ beBytes 2 seq ++ beBytes 1 h.control ++ beBytes 1 h.log ++ body

/-- A PTP time stamp of a time in 2^−16 ns: 48-bit seconds and 32-bit nanoseconds.  The manual names no rounding to
nanoseconds (assumption 42). -/
def ptpStamp (t : Int) : List Byte :=
  let n := coarse t 65536
  beBytes 6 (n / 1000000000).toNat ++ beBytes 4 (n % 1000000000).toNat

/-- The body of an Announce: dataset, currentUtcOffset, timeSource 0xA0, the internal oscillator (R451).  originTimestamp is
an estimate that the standard leaves to the sender. -/
def announceBody (stamp : List Byte) (utc : Nat) (d : AnnData) : List Byte :=
  stamp ++ beBytes 2 utc ++ [0] ++ beBytes 1 d.prio1 ++ beBytes 1 d.cls ++ beBytes 1 d.acc ++ beBytes 2 d.var ++ beBytes 1 d.prio2
    ++ beBytes 8 d.gm ++ beBytes 2 d.steps ++ [0xA0]

/-- Event messages go to UDP port 319, general messages to 320 (R450). -/
def ptpUdpPort (type : Nat) : Nat := if type < 8 then 319 else 320

/-! ## Frames -/

/-- The Ethernet address of an IPv4 multicast group; of a unicast address the one that the stream tables resolve it to (R446). -/
def macFor (ip : Word) : Nat :=
  if ip.toNat / 2 ^ 28 = 14 then 0x01005E000000 + ip.toNat % 2 ^ 23 else Config.macFor ip % 2 ^ 48

/-- At least `n` bytes, filled with zeros. -/
def atLeast (n : Nat) (bs : List Byte) : List Byte := bs ++ List.replicate (n - bs.length) 0

/-- A frame before it is laid out: destination and source, VLAN tag, EtherType, content. -/
structure EthParts where
  dst : Nat
  src : Nat
  /-- The 16 bits of the tag control field (R478). -/
  vlan : Option Nat := none
  type : Nat
  data : List Byte
  deriving DecidableEq, Repr

/-- The addresses and the VLAN tag. -/
def EthParts.head (p : EthParts) : List Byte :=
  beBytes 6 p.dst ++ beBytes 6 p.src ++ (match p.vlan with | some t => [0x81, 0x00] ++ beBytes 2 t | none => [])

/-- A frame without redundancy, from the destination address to the byte before the check sequence. -/
def EthParts.plain (p : EthParts) : List Byte := atLeast 60 (EthParts.head p ++ beBytes 2 p.type ++ p.data)

/-- A frame with the PRP trailer: sequence number, LAN identifier A or B, size, suffix 0x88FB (R471). -/
def EthParts.prp (p : EthParts) (port seq : Nat) : List Byte :=
  let b := EthParts.plain p
  b ++ beBytes 2 seq ++ beBytes 2 ((0xA + port) * 4096 + (b.length - (EthParts.head p).length - 2 + 6) % 4096) ++ [0x88, 0xFB]

/-- A frame with an HSR tag, EtherType 0x892F (R472). -/
def EthParts.hsr (p : EthParts) (port seq : Nat) : List Byte :=
  atLeast 60 (EthParts.head p ++ [0x89, 0x2F] ++ beBytes 2 (port * 4096 + (p.data.length + 6) % 4096) ++ beBytes 2 seq ++ beBytes 2 p.type ++ p.data)

/-! ## Messages in transit -/

/-- A list with the bytes at an offset replaced. -/
def splice (bs : List Byte) (o : Nat) (new : List Byte) : List Byte := bs.take o ++ new ++ bs.drop (o + new.length)

/-- A PTP event message that the transparent clock forwards: residence `r` added to correctionField, the UDP checksum of an IPv4
message zeroed (R453). -/
def transitBytes (bs : List Byte) (r : Int) : List Byte :=
  let o := if beAt bs 12 2 = 0x8100 then 18 else 14
  let ip := beAt bs (o - 2) 2 == 0x0800
  let bs := if ip then splice bs (o + 26) [0, 0] else bs
  let m := if ip then o + 28 else o
  splice bs (m + 8) (beBytes 8 (((beAt bs (m + 8) 8 : Int) + r) % 2 ^ 64).toNat)

end Sys2Proof.Machine
end

