-- ==== Sys2Proof/Machine/Aes.lean ====
section
/-!
DEFINITION. AES-256 (FIPS 197) on blocks of 128 bits, and the key wrap of RFC 3394 for a key of 256 bits, by which the key store
holds domain keys (R638).
-/

namespace Sys2Proof.Machine

/-! ## Bytes of a block -/

/-- Byte `i` of a block, byte 0 the most significant. -/
def blockByte (x i : Nat) : Nat := x / 2 ^ (8 * (15 - i)) % 256

/-- The number whose `n` bytes, the most significant first, are `f 0` to `f (n - 1)`. -/
def packBytes (f : Nat → Nat) : Nat → Nat
  | 0 => 0
  | n + 1 => packBytes f n * 256 + f n

/-- The substitution table of FIPS 197, the image of 0 in its highest byte. -/
def aesTable : Nat :=
  0x637c777bf26b6fc53001672bfed7ab76ca82c97dfa5947f0add4a2af9ca472c0b7fd9326363ff7cc34a5e5f171d8311504c723c31896059a071280e2eb27b27509832c1a1b6e5aa0523bd6b329e32f8453d100ed20fcb15b6acbbe394a4c58cfd0efaafb434d338545f9027f503c9fa851a3408f929d38f5bcb6da2110fff3d2cd0c13ec5f974417c4a77e3d645d197360814fdc222a908846eeb814de5e0bdbe0323a0a4906245cc2d3ac629195e479e7c8376d8dd54ea96c56f4ea657aae08ba78252e1ca6b4c6e8dd741f4bbd8b8a703eb5664803f60e613557b986c11d9ee1f8981169d98e949b1e87e9ce5528df8ca1890dbfe6426841992d0fb054bb16

/-- The table's inverse. -/
def aesTableInv : Nat :=
  0x52096ad53036a538bf40a39e81f3d7fb7ce339829b2fff87348e4344c4dee9cb547b9432a6c2233dee4c950b42fac34e082ea16628d924b2765ba2496d8bd12572f8f66486689816d4a45ccc5d65b6926c704850fdedb9da5e154657a78d9d8490d8ab008cbcd30af7e45805b8b34506d02c1e8fca3f0f02c1afbd0301138a6b3a9111414f67dcea97f2cfcef0b4e67396ac7422e7ad3585e2f937e81c75df6e47f11a711d29c5896fb7620eaa18be1bfc563e4bc6d279209adbc0fe78cd5af41fdda8338807c731b11210592780ec5f60517fa919b54a0d2de57a9f93c99cefa0e03b4dae2af5b0c8ebbb3c83539961172b047eba77d626e169146355210c7d

/-- Entry `b` of a table of 256 bytes. -/
def tableByte (t b : Nat) : Nat := t / 2 ^ (8 * (255 - b)) % 256

/-! ## The field of 256 elements -/

/-- The product with x, modulo x^8 + x^4 + x^3 + x + 1. -/
def timesX (b : Nat) : Nat := if b < 128 then 2 * b else (2 * b) ^^^ 0x11B

/-- The product with a polynomial `c` of degree 3 at most. -/
def timesC (c b : Nat) : Nat :=
  c % 2 * b ^^^ c / 2 % 2 * timesX b ^^^ c / 4 % 2 * timesX (timesX b) ^^^ c / 8 * timesX (timesX (timesX b))

/-- A product of every column with the circulant matrix whose first row is `c0` to `c3`. -/
def mixBy (c0 c1 c2 c3 x : Nat) : Nat :=
  packBytes (fun i =>
    let a (k : Nat) : Nat := blockByte x (i / 4 * 4 + (i + k) % 4)
    timesC c0 (a 0) ^^^ timesC c1 (a 1) ^^^ timesC c2 (a 2) ^^^ timesC c3 (a 3)) 16

/-! ## Rounds -/

/-- Substitution and row shift: row r moves r columns to the left. -/
def subShift (x : Nat) : Nat := packBytes (fun i => tableByte aesTable (blockByte x ((i + 4 * (i % 4)) % 16))) 16

/-- The inverse of `subShift`. -/
def subShiftInv (x : Nat) : Nat := packBytes (fun i => tableByte aesTableInv (blockByte x ((i + 12 * (i % 4)) % 16))) 16

/-- The rounds under the keys after the first; the last round mixes no columns. -/
def aesRounds : List Nat → Nat → Nat
  | [], x => x
  | [k], x => subShift x ^^^ k
  | k :: ks, x => strictly (mixBy 2 3 1 1 (subShift x) ^^^ k) (fun y => aesRounds ks y)

/-- The inverse rounds, under the keys from the last but one back to the first. -/
def aesRoundsInv : List Nat → Nat → Nat
  | [], x => x
  | [k], x => subShiftInv x ^^^ k
  | k :: ks, x => strictly (mixBy 14 11 13 9 (subShiftInv x ^^^ k)) (fun y => aesRoundsInv ks y)

/-! ## The key schedule -/

/-- The substitution of the four bytes of a word. -/
def subWord (w : Nat) : Nat := packBytes (fun i => tableByte aesTable (w / 2 ^ (8 * (3 - i)) % 256)) 4

/-- The next eight words of the schedule, from the eight before them as one number; `rc` is the round constant. -/
def aesNextKey (k rc : Nat) : Nat :=
  let w (i : Nat) : Nat := word32 k (7 - i)
  let turned := w 7 % 2 ^ 24 * 256 + w 7 / 2 ^ 24
  strictly (w 0 ^^^ subWord turned ^^^ rc * 2 ^ 24) (fun a =>
    let b := a ^^^ w 1
    let c := b ^^^ w 2
    strictly (c ^^^ w 3) (fun d => strictly (w 4 ^^^ subWord d) (fun e =>
      let f := e ^^^ w 5
      let g := f ^^^ w 6
      [a, b, c, d, e, f, g, g ^^^ w 7].foldl (fun x y => x * 2 ^ 32 + y) 0)))

/-- Two round keys for each step of the schedule. -/
def aesSchedule : Nat → Nat → Nat → List Nat
  | 0, _, k => [k / 2 ^ 128]
  | n + 1, rc, k => k / 2 ^ 128 :: k % 2 ^ 128 :: strictly (aesNextKey k rc) (fun k => aesSchedule n (timesX rc) k)

/-- The 15 round keys of a key of 256 bits. -/
def aesKeys (key : Nat) : List Nat := aesSchedule 7 1 key

/-- A block enciphered under round keys. -/
def aesEncrypt : List Nat → Nat → Nat
  | [], x => x
  | k :: ks, x => strictly (x ^^^ k) (fun y => aesRounds ks y)

/-- A block deciphered; the round keys come with the last one first. -/
def aesDecrypt : List Nat → Nat → Nat
  | [], x => x
  | k :: ks, x => strictly (x ^^^ k) (fun y => aesRoundsInv ks y)

/-! ## Key wrap -/

/-- Steps `t` to `t + n - 1` of the wrap: check value `a`, and the four blocks of the key as one number that turns. -/
def wrapSteps (ks : List Nat) : Nat → Nat → Nat → Nat → Nat
  | 0, _, a, r => a * 2 ^ 256 + r
  | n + 1, t, a, r =>
    strictly (aesEncrypt ks (a * 2 ^ 64 + r / 2 ^ 192)) (fun b =>
      strictly (b / 2 ^ 64 ^^^ t) (fun a => strictly (r % 2 ^ 192 * 2 ^ 64 + b % 2 ^ 64) (fun r => wrapSteps ks n (t + 1) a r)))

/-- The steps undone, from step `t` down. -/
def unwrapSteps (ks : List Nat) : Nat → Nat → Nat → Nat × Nat
  | 0, a, r => (a, r)
  | t + 1, a, r =>
    strictly (aesDecrypt ks ((a ^^^ (t + 1)) * 2 ^ 64 + r % 2 ^ 64)) (fun b =>
      strictly (b % 2 ^ 64 * 2 ^ 192 + r / 2 ^ 64) (fun r => unwrapSteps ks t (b / 2 ^ 64) r))

/-- The initial value of RFC 3394. -/
def wrapCheck : Nat := 0xA6A6A6A6A6A6A6A6

/-- A key of 256 bits wrapped under `kek`: 320 bits. -/
def aesWrap (kek key : Nat) : Nat := wrapSteps (aesKeys kek) 24 1 wrapCheck key

/-- A wrapped key; none where the integrity check fails. -/
def aesUnwrap (kek x : Nat) : Option Nat :=
  let r := unwrapSteps (aesKeys kek).reverse 24 (x / 2 ^ 256) (x % 2 ^ 256)
  if r.1 = wrapCheck then some r.2 else none

end Sys2Proof.Machine
end

