-- ==== Sys2Proof/Machine/Ecdsa.lean ====
section
/-!
DEFINITION. ECDSA over the curve P-256 (FIPS 186-4), by which an image is signed (R615).
-/

namespace Sys2Proof.Machine

/-- The prime of the field of P-256. -/
def p256P : Nat := 0xffffffff00000001000000000000000000000000ffffffffffffffffffffffff
/-- The coefficient b of P-256; a is −3. -/
def p256B : Nat := 0x5ac635d8aa3a93e7b3ebbd55769886bc651d06b0cc53b0f63bce3c3e27d2604b
/-- The order of the base point. -/
def p256N : Nat := 0xffffffff00000000ffffffffffffffffbce6faada7179e84f3b9cac2fc632551
/-- The base point. -/
def p256Gx : Nat := 0x6b17d1f2e12c4247f8bce6e563a440f277037d812deb33a0f4a13945d898c296
/-- The base point. -/
def p256Gy : Nat := 0x4fe342e2fe1a7f9b8ee7eb4a7c0f9e162bce33576b315ececbb6406837bf51f5

/-- A point with x = X / Z² and y = Y / Z³; Z 0 is the point at infinity. -/
structure Point where
  (x y z : Nat)
  deriving DecidableEq, Repr

/-- A difference in the field. -/
def p256Sub (a b : Nat) : Nat := (a + p256P - b) % p256P

/-- Twice a point. -/
def Point.double (q : Point) : Point :=
  if q.z = 0 ∨ q.y = 0 then ⟨1, 1, 0⟩
  else
    strictly (q.z * q.z % p256P) (fun d => strictly (q.y * q.y % p256P) (fun g => strictly (q.x * g % p256P) (fun b =>
      strictly (3 * p256Sub q.x d * (q.x + d) % p256P) (fun a =>
        strictly (p256Sub (a * a % p256P) (8 * b % p256P)) (fun x =>
          strictly (p256Sub (a * p256Sub (4 * b % p256P) x % p256P) (8 * g * g % p256P)) (fun y =>
            strictly (2 * q.y * q.z % p256P) (fun z => ⟨x, y, z⟩)))))))

/-- The sum of two points. -/
def Point.add (q r : Point) : Point :=
  if q.z = 0 then r
  else if r.z = 0 then q
  else
    strictly (q.z * q.z % p256P) (fun qq => strictly (r.z * r.z % p256P) (fun rr =>
      strictly (q.x * rr % p256P) (fun u => strictly (p256Sub (r.x * qq % p256P) u) (fun h =>
        strictly (q.y * r.z * rr % p256P) (fun v => strictly (p256Sub (r.y * q.z * qq % p256P) v) (fun k =>
          if h = 0 then (if k = 0 then q.double else ⟨1, 1, 0⟩)
          else
            strictly (h * h % p256P) (fun h2 => strictly (h * h2 % p256P) (fun h3 => strictly (u * h2 % p256P) (fun t =>
              strictly (p256Sub (k * k % p256P) ((h3 + 2 * t) % p256P)) (fun x =>
                strictly (p256Sub (k * p256Sub t x % p256P) (v * h3 % p256P)) (fun y =>
                  strictly (h * q.z * r.z % p256P) (fun z => ⟨x, y, z⟩))))))))))))

/-- The sum of `u` times one point and `v` times another, over the low `k` bits of both, from the top down. -/
def Point.sum2 (q r qr : Point) (u v : Nat) : Nat → Point → Point
  | 0, a => a
  | k + 1, a =>
    let b := u / 2 ^ k % 2
    let c := v / 2 ^ k % 2
    let d := a.double
    Point.sum2 q r qr u v k (if b = 1 then (if c = 1 then d.add qr else d.add q) else if c = 1 then d.add r else d)

/-- `x` to the power `e` modulo `m`, over the low `k` bits of the exponent, from the top down. -/
def powMod (x m e : Nat) : Nat → Nat → Nat
  | 0, a => a
  | k + 1, a => strictly (a * a % m) (fun a => strictly (if e / 2 ^ k % 2 = 1 then a * x % m else a) (fun a => powMod x m e k a))

/-- The inverse of `x` modulo a prime. -/
def invMod (x m : Nat) : Nat := powMod x m (m - 2) 256 1

/-- A point lies on the curve: y² = x³ − 3x + b. -/
def onCurve (x y : Nat) : Bool :=
  decide (x < p256P) && decide (y < p256P) && y * y % p256P == (x * x * x + p256P * x - 3 * x + p256B) % p256P

/-- The signature (r, s) of a digest verifies under the public key (x, y) (R615). -/
def ecdsaOk (digest : List Byte) (x y r s : Nat) : Bool :=
  onCurve x y && decide (1 ≤ r) && decide (r < p256N) && decide (1 ≤ s) && decide (s < p256N) &&
    strictly (invMod s p256N) (fun w =>
      strictly (beNat digest * w % p256N) (fun u => strictly (r * w % p256N) (fun v =>
        let g : Point := ⟨p256Gx, p256Gy, 1⟩
        let q : Point := ⟨x, y, 1⟩
        let a := Point.sum2 g q (g.add q) u v 256 ⟨1, 1, 0⟩
        a.z != 0 && strictly (invMod a.z p256P) (fun i => (a.x * (i * i % p256P) % p256P) % p256N == r))))

end Sys2Proof.Machine
end

