-- ==== Sys2Proof/Machine/ImageBytes.lean ====
section
/-!
DEFINITION. The compiled formats of an image, from its bytes: sample programs (R76 to R103), node instances (R93), scenes
(R215 to R218), cue rules (R204, R208, R219), register lists, stream tables and clips (R616 to R618) and domain settings
(R499).  A reader answers nothing for bytes that break a range its table states (R85).
-/

namespace Sys2Proof.Machine

/-! ## Bytes -/

/-- The `k` bytes at offset `o` as a number, least significant byte first (R2). -/
def leAt (b : List Byte) (o k : Nat) : Nat := leNat ((b.drop o).take k)

/-- The `k` bytes at offset `o` are 0: reserved bytes. -/
def zerosAt (b : List Byte) (o k : Nat) : Bool := ((b.drop o).take k).all (· == 0)

/-- The `k` bytes at offset `o`, when they lie inside; a part of no bytes lies anywhere. -/
def partAt (b : List Byte) (o k : Nat) : Option (List Byte) :=
  if k = 0 then some [] else if o + k ≤ b.length then some ((b.drop o).take k) else none

/-- A list of bytes cut into `n` entries of `k` bytes. -/
def entriesOf (k : Nat) : Nat → List Byte → List (List Byte)
  | 0, _ => []
  | n + 1, b => b.take k :: entriesOf k n (b.drop k)

/-- The `n` entries of `k` bytes at offset `o`, when they lie inside. -/
def tableAt (b : List Byte) (o k n : Nat) : Option (List (List Byte)) := (partAt b o (k * n)).map (entriesOf k n)

/-- Every element of a list that is there in full. -/
def allSome {α : Type} : List (Option α) → Option (List α)
  | [] => some []
  | none :: _ => none
  | some x :: l => (allSome l).map (x :: ·)

/-- `x`, when a condition holds. -/
def given {α : Type} (c : Bool) (x : α) : Option α := if c then some x else none

/-- A 16-bit number as a signed one. -/
def signed16 (x : Nat) : Int := if x < 0x8000 then x else (x : Int) - 0x10000

/-- A gateable region: 0xFF is none (R79). -/
def regionByte (x : Nat) : Option Nat := if x = 0xFF then none else some x

/-- A region byte is 0 to 63 or 0xFF. -/
def regionOk (x : Nat) : Bool := decide (x < 64) || x == 0xFF

/-- Cycles of a pass (R29). -/
def passCycles (rate96 : Bool) : Nat := if rate96 then 5120 else 10240

/-- The sample program budget and the control-context allowance of a pass (R49). -/
def progBudget (rate96 : Bool) : Nat := if rate96 then 4096 else 8192
/-- The control-context allowance (R49). -/
def ctrlBudget (rate96 : Bool) : Nat := if rate96 then 1024 else 2048

/-! ## Sample programs -/

/-- An exchange descriptor (R86, R91); the source element of a ZERO_SRC descriptor is not in use. -/
def readDesc (rate96 : Bool) (b : List Byte) : Option XDesc :=
  let f := leAt b 3 1
  let bit (k : Nat) : Bool := f / 2 ^ k % 2 == 1
  let d : XDesc :=
    { mark := leAt b 0 2, kind := leAt b 2 1, srcRing := bit 0, dstRing := bit 1, unpack3 := bit 2, pack3 := bit 3,
      zeroSrc := bit 4, src := leAt b 4 4, dst := leAt b 8 4, count := leAt b 12 2, srcLen := leAt b 16 2,
      dstLen := leAt b 18 2, srcFrame := leAt b 20 2, dstFrame := leAt b 22 2, srcPhase := signed16 (leAt b 24 2),
      dstPhase := signed16 (leAt b 26 2), srcElem := leAt b 28 1, dstElem := leAt b 29 1 }
  given (decide (d.mark < passCycles rate96) && decide (d.kind ≤ 2) && decide (f < 32) && decide (d.count ≤ 4096)
    && zerosAt b 14 2 && zerosAt b 30 2 && (!d.srcRing || d.srcLen != 0) && (!d.dstRing || d.dstLen != 0)
    && (d.zeroSrc || d.srcElem != 0) && d.dstElem != 0) d

/-- A table of descriptors. -/
def readDescs (rate96 : Bool) (b : List Byte) (o n : Nat) : Option (List XDesc) :=
  (tableAt b o 32 n).bind (fun l => allSome (l.map (readDesc rate96)))

/-- A ganged section record of cluster c (R99). -/
def readGang (rate96 : Bool) (c : Nat) (b : List Byte) : Option GangRec :=
  let g : GangRec := { start := leAt b 2 2, length := leAt b 4 2, leadBundle := leAt b 6 2, dataAddr := leAt b 8 4,
                       dataBytes := leAt b 12 4 }
  given (leAt b 0 1 == c && zerosAt b 1 1 && decide (1 ≤ g.length) && decide (g.start + g.length ≤ progBudget rate96)
    && decide (g.leadBundle < 2048) && decide (g.dataAddr + g.dataBytes ≤ 0x20000)) g

/-- The bundles at an offset, each as its low and high word (R260). -/
def readCode (b : List Byte) (o n : Nat) : Option (List (Word × Word)) :=
  (tableAt b o 8 n).map (fun l => l.map (fun e => (BitVec.ofNat 32 (leAt e 0 4), BitVec.ofNat 32 (leAt e 4 4))))

/-- The chunks of an initialisation list (R80): an offset, a length and data padded with zeros; one of length 0 is skipped.
Every chunk lies in tile data memory (R85). -/
def readChunks : Nat → List Byte → Option (List InitChunk)
  | _, [] => some []
  | 0, _ => none
  | fuel + 1, b =>
    let o := leAt b 0 4
    let n := leAt b 4 4
    let p := (n + 3) / 4 * 4
    if b.length < 8 + p ∨ (n ≠ 0 ∧ 0x20000 < o + n) ∨ zerosAt b (8 + n) (p - n) = false then none
    else (readChunks fuel (b.drop (8 + p))).map (fun l => if n = 0 then l else (o, (b.drop 8).take n) :: l)

/-- An initialisation list (R80). -/
def readInit (b : List Byte) (o n : Nat) : Option (List InitChunk) := (partAt b o n).bind (fun l => readChunks (l.length / 8 + 1) l)

/-- A state area is a multiple of 4 at a multiple of 4 inside tile data memory (R79). -/
def stateAreaOk (a n : Nat) : Bool := decide (a % 4 = 0) && decide (n % 4 = 0) && decide (a + n ≤ 0x20000)

/-- A tile record, with the code and initialisation list it points to in section `b` (R79, R80). -/
def readTile (rate96 : Bool) (b e : List Byte) : Option TileProg :=
  let n := leAt e 4 2
  let f := leAt e 11 1
  match readCode b (leAt e 0 4) n, readInit b (leAt e 12 4) (leAt e 16 4) with
  | some code, some init =>
    let t : TileProg := { code := code, entry := leAt e 6 2, schedCycles := leAt e 8 2, region := regionByte (leAt e 10 1),
                          gang := f % 2 == 1, init := init, stateBase := leAt e 20 4, stateBytes := leAt e 24 4 }
    given (decide (n ≤ 2048) && decide (t.entry < 2048) && (n == 0 || (decide (1 ≤ t.schedCycles) && decide (t.schedCycles ≤ progBudget rate96)))
      && regionOk (leAt e 10 1) && decide (f < 2) && zerosAt e 28 4 && stateAreaOk t.stateBase t.stateBytes) t
  | _, _ => none

/-- A tile record powers its tile (R82). -/
def tileUsed (p : TileProg) : Bool := p.code != [] || p.gang || p.lib

/-- A cluster and its tiles, from its directory entry and block (R77, R78): OUTPUT_MARK is the mark of its first output
descriptor. -/
def readCluster (rate96 : Bool) (b : List Byte) (c : Nat) (e : List Byte) : Option (ClusterProg × List (Nat × TileProg)) :=
  let o := leAt e 0 4
  let nx := leAt e 8 2
  let ng := leAt e 10 1
  match partAt b o (leAt e 4 4) with
  | none => none
  | some k =>
    match tableAt k 0 32 8, readDescs rate96 k 256 nx, tableAt k (256 + 32 * nx) 16 ng with
    | some ts, some ds, some gs =>
      match allSome (ts.map (readTile rate96 b)), allSome (gs.map (readGang rate96 c)) with
      | some ts, some gs =>
        let p : ClusterProg := { descs := ds, gangs := gs, inputDone := leAt e 12 2, outputMark := leAt e 14 2 }
        given (o != 0 && decide (nx ≤ 512) && decide (ng ≤ 16) && zerosAt e 11 1
            && p.outputMark == (((ds.find? (fun d => d.kind == 2)).map (·.mark)).getD 0))
          (p, ts.zipIdx.map (fun t => (8 * c + t.2, t.1)))
      | _, _ => none
    | _, _, _ => none

/-- A Millpond map entry (R102). -/
def readMapEntry (e : List Byte) : Option MapEntry :=
  let m : MapEntry := { area := leAt e 0 1, base := leAt e 4 4, bytes := leAt e 8 4 }
  given (decide (m.area ≤ 4) && zerosAt e 1 3 && zerosAt e 12 4 && decide (m.base % 0x10000 = 0) && decide (m.bytes % 0x10000 = 0)
    && inMpd m.base && decide (m.base + m.bytes ≤ 0x11800000)) m

/-- Ranges, each a start and a length, of which no two overlap. -/
def apart : List (Nat × Nat) → Bool
  | [] => true
  | x :: l => l.all (fun y => decide (x.1 + x.2 ≤ y.1) || decide (y.1 + y.2 ≤ x.1) || x.2 == 0 || y.2 == 0) && apart l

/-- What the sample programs section holds. -/
structure Programs where
  clusters : List (Nat × ClusterProg)
  tiles : List (Nat × TileProg)
  map : List MapEntry
  deriving DecidableEq, Repr

/-- The directory entry of a cluster without a schedule: BLOCK_OFFSET is 0 and the other fields keep their ranges (R77, R85). -/
def dirClear (rate96 : Bool) (e : List Byte) : Bool :=
  leAt e 0 4 == 0 && decide (leAt e 8 2 ≤ 512) && decide (leAt e 10 1 ≤ 16) && zerosAt e 11 1
    && decide (leAt e 12 2 < passCycles rate96) && leAt e 14 2 == 0

/-- The sample programs section (R76 to R80, R82, R102): CLUSTER_MASK names the clusters with a schedule, TILE_MASK the tiles
that run. -/
def readPrograms (rate96 : Bool) (b : List Byte) : Option Programs :=
  let cm := leAt b 3 1
  let tm := leAt b 4 8
  let n := leAt b 16 2
  match tableAt b 32 16 8, (tableAt b (leAt b 12 4) 16 n).bind (fun l => allSome (l.map readMapEntry)) with
  | some dir, some map =>
    let on := dir.zipIdx.filter (fun e => cm / 2 ^ e.2 % 2 == 1)
    match allSome (on.map (fun e => (readCluster rate96 b e.2 e.1).map (fun r => (e.2, r)))) with
    | some cs =>
      let ts := (cs.flatMap (fun c => c.2.2)).filter (fun t => tileUsed t.2)
      given (leAt b 0 2 == 1 && leAt b 2 1 == (if rate96 then 1 else 0) && decide (n ≤ 16) && zerosAt b 18 14
          && (upto 64).all (fun t => (tm / 2 ^ t % 2 == 1) == ts.any (fun e => e.1 == t))
          && dir.zipIdx.all (fun e => cm / 2 ^ e.2 % 2 == 1 || dirClear rate96 e.1)
          && apart (map.map (fun m => (m.base, m.bytes))))
        { clusters := cs.map (fun c => (c.1, c.2.1)), tiles := ts, map := map }
    | none => none
  | _, _ => none

/-- The Millpond area an address lies in, by a map, or by the default partition when it has no entry (R102, R103). -/
def areaOf (map : List MapEntry) (a : Nat) : Option Nat :=
  if map.isEmpty then
    if a < 0x10000000 then none else if a < 0x11000000 then some 0 else if a < 0x11400000 then some 1
    else if a < 0x11600000 then some 2 else if a < 0x11700000 then some 3 else if a < 0x11800000 then some 4 else none
  else (map.find? (fun e => decide (e.base ≤ a) && decide (a < e.base + e.bytes))).map (·.area)

/-- The ranges of an area (R102, R103). -/
def areaRanges (map : List MapEntry) (k : Nat) : List (Nat × Nat) :=
  if map.isEmpty then
    ([(0, 0x10000000, 0x1000000), (1, 0x11000000, 0x400000), (2, 0x11400000, 0x200000), (3, 0x11600000, 0x100000),
      (4, 0x11700000, 0x100000)].filter (fun e => e.1 == k)).map (·.2)
  else (map.filter (fun e => e.area == k)).map (fun e => (e.base, e.bytes))

/-- `n` bytes from `a` lie in one range of an area. -/
def inArea (map : List MapEntry) (k a n : Nat) : Bool :=
  (areaRanges map k).any (fun r => decide (r.1 ≤ a) && decide (a + n ≤ r.1 + r.2))

/-! ## Node instances -/

/-- A node instance record; its parameter words are the tile's initialised data (R93, R95, assumption 137). -/
def readNode (b : List Byte) : Option NodeRec :=
  let f := leAt b 41 1
  let k := leAt b 40 1
  let t := leAt b 5 1
  let z := leAt b 34 1
  let r : NodeRec :=
    { inst := leAt b 0 2, type := leAt b 2 2, cluster := leAt b 4 1, tile := if t = 0xFF then none else some t,
      nIn := leAt b 6 1, nOut := leAt b 7 1, stateAddr := leAt b 8 4, stateBytes := leAt b 12 4, paramAddr := leAt b 16 4,
      paramWords := leAt b 20 2, cost := leAt b 22 2, coefAddr := leAt b 24 4, coefBytes := leAt b 28 4,
      latency := leAt b 32 2 + 65536 * (f / 16), zone := if f / 4 % 2 = 1 then some z else none,
      region := regionByte (leAt b 35 1), ctrlCost := leAt b 36 2, ctrlEntry := leAt b 38 2, ctrlPeriodLog2 := k,
      custom := decide (0x8000 ≤ leAt b 2 2), noGate := f / 2 % 2 == 1, ctrlPhase := leAt b 42 2,
      scratchBytes := leAt b 44 4 }
  given (decide (r.inst < 8192) && ((decide (1 ≤ r.type) && decide (r.type ≤ 0x15)) || (decide (0x8000 ≤ r.type) && decide (r.type ≤ 0x8FFF)))
    && decide (r.cluster < 8) && (decide (t < 8) || t == 0xFF) && decide (r.stateAddr + r.stateBytes ≤ 0x20000) && decide (r.stateBytes % 4 = 0)
    && decide (r.coefAddr + r.coefBytes ≤ 0x20000) && (f / 4 % 2 == 1 || z == 0) && regionOk (leAt b 35 1)
    && decide (r.ctrlEntry < 2048) && decide (k ≤ 15) && f / 8 % 2 == 0 && decide (r.ctrlPhase < 2 ^ k)
    && decide (r.scratchBytes % 4 = 0) && decide (r.scratchBytes ≤ 0x20000)) r

/-- The node instances section: header and records in ascending INSTANCE order (R93). -/
def readNodes (b : List Byte) : Option (List NodeRec) :=
  let n := leAt b 2 2
  match tableAt b 16 48 n with
  | some l =>
    (allSome (l.map readNode)).bind (fun rs =>
      given (decide (16 ≤ b.length) && leAt b 0 2 == 1 && decide (n ≤ 8192) && zerosAt b 4 12
        && (rs.zip (rs.drop 1)).all (fun p => decide (p.1.inst < p.2.inst))) rs)
  | none => none

/-- Device-bus address of a node's parameter word (R95, R146). -/
def paramAddr (r : NodeRec) (k : Nat) : Nat :=
  if r.type = 0x08 ∧ r.custom = false then
    let o := k % max 1 r.nOut
    let i := k / max 1 r.nOut
    let t := o % 32 / 4
    tileBase (8 * r.cluster + t) + r.paramAddr + 4 * ((i * ceilDiv r.nOut 32 + o / 32) * 4 + o % 4)
  else tileBase (8 * r.cluster + r.tile.getD 0) + r.paramAddr + 4 * k

/-- The tile that holds a node's parameter word. -/
def paramTile (r : NodeRec) (k : Nat) : Nat := (paramAddr r k - 0x20000000) / 0x40000

/-- Every parameter word of a node lies in tile data memory (R85). -/
def paramsInside (r : NodeRec) : Bool :=
  (upto r.paramWords).all (fun k => decide ((paramAddr r k - 0x20000000) % 0x40000 + 4 ≤ 0x20000) && decide (paramTile r k / 8 = r.cluster))

/-- The byte of an initialisation list at a tile data offset; 0 where it names none (R80). -/
def initByte (l : List InitChunk) (o : Nat) : Byte :=
  match (l.reverse).find? (fun c => decide (c.1 ≤ o) && decide (o < c.1 + c.2.length)) with
  | some c => (c.2[o - c.1]?).getD 0
  | none => 0

/-- The word of an initialisation list at a tile data offset. -/
def initWord (l : List InitChunk) (o : Nat) : Word := BitVec.ofNat 32 (leNat ((upto 4).map (fun i => initByte l (o + i))))

/-- A node with the parameter words that the initialised data of the tiles gives it (R80, R95, R177). -/
def withParams (init : Nat → List InitChunk) (r : NodeRec) : NodeRec :=
  { r with params := (upto r.paramWords).map (fun k =>
      initWord (init (paramTile r k)) ((paramAddr r k - 0x20000000) % 0x40000)) }

/-- The initialisation list of a tile of the base topology. -/
def initOf (ts : List (Nat × TileProg)) (n : Nat) : List InitChunk :=
  match ts.find? (fun t => t.1 == n) with
  | some t => t.2.init
  | none => []

/-! ## Scenes -/

/-- A parameter entry of a scene (R176, R217). -/
def readEntry (b : List Byte) : Option SceneEntry :=
  let ms := leAt b 10 2
  let e : SceneEntry := { inst := leAt b 0 2, param := leAt b 2 2, value := BitVec.ofNat 32 (leAt b 4 4), mode := leAt b 8 1,
                          rampMs := if ms = 0xFFFF then none else some ms }
  given (decide (e.mode ≤ 2) && zerosAt b 9 1 && (decide (ms ≤ 60000) || ms == 0xFFFF)) e

/-- A tile program element, with the code and initialisation list it points to in record `b` (R218). -/
def readTilePart (rate96 : Bool) (b e : List Byte) : Option TilePart :=
  let f := leAt e 2 1
  let n := leAt e 8 2
  match readCode b (leAt e 4 4) n, readInit b (leAt e 20 4) (leAt e 24 4) with
  | some code, some init =>
    let p : TilePart :=
      { cluster := leAt e 0 1, tile := leAt e 1 1, powerUp := f % 2 == 1, powerDown := f / 2 % 2 == 1,
        region := regionByte (leAt e 3 1), code := code, entry := leAt e 10 2, xfEntry := leAt e 12 2,
        schedCycles := leAt e 14 2, xfCycles := leAt e 16 2, init := init, stateBase := leAt e 28 4, stateBytes := leAt e 32 4 }
    given (decide (p.cluster < 8) && decide (p.tile < 8) && decide (f < 4) && regionOk (leAt e 3 1) && decide (1 ≤ n) && decide (n ≤ 2048)
      && decide (p.entry < 2048) && decide (p.xfEntry < 2048) && decide (1 ≤ p.schedCycles) && decide (p.schedCycles ≤ progBudget rate96)
      && decide (p.xfCycles ≤ progBudget rate96) && zerosAt e 18 2 && zerosAt e 36 4 && stateAreaOk p.stateBase p.stateBytes) p
  | _, _ => none

/-- An exchange element, with its descriptors (R218). -/
def readXchgPart (rate96 : Bool) (b e : List Byte) : Option XchgPart :=
  let nx := leAt e 2 2
  let nn := leAt e 4 2
  match readDescs rate96 b (leAt e 20 4) nx, readDescs rate96 b (leAt e 20 4 + 32 * nx) nn with
  | some xf, some new =>
    let p : XchgPart := { cluster := leAt e 0 1, xf := xf, new := new, inputDoneXf := leAt e 6 2, outputMarkXf := leAt e 8 2,
                          inputDoneNew := leAt e 10 2, outputMarkNew := leAt e 12 2 }
    let out (l : List XDesc) : Nat := ((l.find? (fun d => d.kind == 2)).map (·.mark)).getD 0
    given (decide (p.cluster < 8) && zerosAt e 1 1 && decide (nx ≤ 512) && decide (nn ≤ 512) && zerosAt e 14 6
      && p.outputMarkXf == out xf && p.outputMarkNew == out new) p
  | _, _ => none

/-- One entry of a record's part table (R217). -/
structure PartEntry where
  kind : Nat
  from_ : Nat
  count : Nat
  offset : Nat
  deriving DecidableEq, Repr

/-- The entries of a record's part table: KIND 1 to 7; FROM is 0xFF for kinds 1 and 2, and an identity for the others. -/
def readPart (b : List Byte) : Option PartEntry :=
  let p : PartEntry := { kind := leAt b 0 1, from_ := leAt b 1 1, count := leAt b 2 2, offset := leAt b 4 4 }
  given (decide (1 ≤ p.kind) && decide (p.kind ≤ 7) && (if p.kind ≤ 2 then p.from_ == 0xFF else decide (p.from_ < 16))
    && (p.kind != 7 || (decide (p.count ≤ 1024) && p.offset == 0))) p

/-- The elements of the parts of one kind and FROM, in the order of the table. -/
def readElems {α : Type} (b : List Byte) (ps : List PartEntry) (kind from_ size : Nat) (f : List Byte → Option α) :
    Option (List α) :=
  (allSome ((ps.filter (fun p => p.kind == kind && p.from_ == from_)).map (fun p =>
    (tableAt b p.offset size p.count).bind (fun l => allSome (l.map f))))).map List.flatten

/-- The delta set of one FROM (R183, R217). -/
def readDelta (rate96 : Bool) (b : List Byte) (ps : List PartEntry) (k : Nat) : Option DeltaSet :=
  match readElems b ps 3 k 40 (readTilePart rate96 b), readElems b ps 4 k 24 (readXchgPart rate96 b),
      readElems b ps 5 k 48 readNode, readElems b ps 6 k 2 (fun e => some (leAt e 0 2)) with
  | some ts, some xs, some ns, some rs =>
    some { from_ := k, tiles := ts, xchg := xs, added := ns, removed := rs,
           preroll := ((ps.find? (fun p => p.kind == 7 && p.from_ == k)).map (·.count)).getD 0 }
  | _, _, _, _ => none

/-- A scene, from its directory entry and its record (R216, R217). -/
def readRecord (rate96 : Bool) (scene : Nat) (e b : List Byte) : Option SceneRec :=
  let f := leAt e 8 2
  let topo := f / 2 % 2 == 1
  let np := leAt b 4 2
  match (tableAt b 16 8 np).bind (fun l => allSome (l.map readPart)) with
  | none => none
  | some ps =>
    let froms := ((ps.filter (fun p => decide (3 ≤ p.kind))).map (·.from_)).eraseDups
    match readElems b ps 1 0xFF 4 (fun x => some (leAt x 0 2, leAt x 2 2)), readElems b ps 2 0xFF 12 readEntry,
        allSome (froms.map (readDelta rate96 b ps)) with
    | some scope, some entries, some deltas =>
      let c : SceneRec :=
        { scene := scene, hot := f % 2 == 1, full := f / 4 % 2 == 1, priority := leAt e 10 1, law := leAt e 11 1,
          xfMs := leAt e 12 2, rampMs := leAt e 14 2, topo := if topo then some (leAt b 2 1) else none, scope := scope,
          entries := entries, deltas := deltas, offset := leAt e 0 4, digest := (e.drop 16).take 32, bytes := b }
      given (decide (16 ≤ b.length) && leAt b 0 2 == scene && (topo || leAt b 2 1 == 0xFF) && zerosAt b 3 1 && zerosAt b 6 10
        && decide (np ≤ 255) && decide (f < 8) && decide (c.priority ≤ 7) && decide (c.law ≤ 1) && decide (c.xfMs ≤ 10000)
        && decide (c.rampMs ≤ 60000)) c
    | _, _, _ => none

/-- What the scenes section holds: BOOT_SCENE, N_TOPO and the scenes that are present. -/
structure SceneSection where
  boot : Option Nat := none
  nTopo : Nat := 1
  scenes : List SceneRec := []
  deriving DecidableEq, Repr

/-- The scenes section (R175, R215, R216): header, 1,024 directory entries, records. -/
def readScenes (rate96 : Bool) (b : List Byte) : Option SceneSection :=
  let boot := leAt b 2 2
  match tableAt b 16 48 1024 with
  | none => none
  | some dir =>
    let here := dir.zipIdx.filter (fun e => leAt e.1 0 4 != 0)
    match allSome (here.map (fun e => (partAt b (leAt e.1 0 4) (leAt e.1 4 4)).bind (readRecord rate96 e.2 e.1))) with
    | some l =>
      let x : SceneSection := { boot := if boot = 0xFFFF then none else some boot, nTopo := leAt b 4 1, scenes := l }
      given (leAt b 0 2 == 1 && (decide (boot < 1024) || boot == 0xFFFF) && decide (1 ≤ x.nTopo) && decide (x.nTopo ≤ 16)
        && leAt b 5 1 == (l.filter (fun c => c.hot)).length && decide (leAt b 5 1 ≤ 16) && zerosAt b 6 10) x
    | none => none

/-! ## Cue rules -/

/-- A trigger entry (R204). -/
def readTrigger (b : List Byte) : Option Trigger :=
  let a0 := leAt b 4 2
  let a1 := leAt b 6 2
  let a2 := leAt b 8 4
  let kind : Option TrigKind := match leAt b 0 1 with
    | 0 => some .disabled
    | 1 => given (decide (a0 < 16) && decide (a1 ≤ 2) && decide (a2 ≤ 65535)) (.pinEdge a0 a1 a2)
    | 2 => given (decide (a0 < 16) && decide (1 ≤ a2) && decide (a2 ≤ 16777215)) (.pinStale a0 a2)
    | 3 => given (decide (a2 ≤ 2)) (.silence a0 a1 a2)
    | 4 => given (decide (a0 < 256) && decide (a1 < 8) && decide (a2 ≤ 1)) (.trump a0 a1 (a2 == 1))
    | 5 => given (decide (a1 ≤ 1)) (.thermal (a1 == 1))
    | 6 => given (decide (a0 < 12)) (.rateClass a0)
    | 7 => given (decide (a0 < 4096)) (.domainCue a0)
    | 8 => some (.time (a0 * 2 ^ 32 + a2) (leAt b 12 4))
    | 9 => given (decide (a0 < 8)) (.statStuck a0)
    | _ => none
  kind.bind (fun k => given (decide (leAt b 1 1 ≤ 7) && decide (leAt b 2 2 < 512)) { kind := k, level := leAt b 1 1, rule := leAt b 2 2 })

/-- A rule entry (R208). -/
def readRule (b : List Byte) : Option CueRule :=
  let a := (b.drop 4).take 10
  let m := leAt a 2 1
  let ch := leAt b 14 2
  let act : Option RuleAction := match leAt b 0 1 with
    | 0 => some .none
    | 1 => given (decide (leAt a 0 2 < 1024) && decide (m < 8) && zerosAt a 3 1 && decide (leAt a 4 2 ≤ 10000) && zerosAt a 6 4)
        (.recall (leAt a 0 2) (m % 2 == 1) (m / 2 % 2 == 1) (m / 4) (leAt a 4 2))
    | 2 => given (decide (leAt a 0 2 < 8192) && decide (leAt a 8 2 ≤ 60000))
        (.ramp (leAt a 0 2) (leAt a 2 2) (BitVec.ofNat 32 (leAt a 4 4)) (leAt a 8 2))
    | 3 => given (decide (leAt a 0 1 < 8) && decide (leAt a 1 1 ≤ 3) && (leAt a 1 1 != 3 || decide (1 ≤ leAt a 2 2)) && zerosAt a 4 6)
        (.statusPin (leAt a 0 1) (leAt a 1 1) (leAt a 2 2))
    | 4 => given (decide (m ≤ 3) && zerosAt a 3 7) (.mark (leAt a 0 2) m)
    | _ => none
  act.bind (fun x => given (decide (leAt b 1 1 < 2) && decide (leAt b 2 2 < 4096) && (decide (ch < 512) || ch == 0xFFFF))
    { action := x, relay := leAt b 1 1 == 1, relayCue := leAt b 2 2, chain := if ch = 0xFFFF then none else some ch })

/-- What the cue rules section holds. -/
structure CueSection where
  triggers : List Trigger := []
  rules : List CueRule := []
  dealLeadMs : Nat := 50
  deriving DecidableEq, Repr

/-- The cue rules section (R197, R219). -/
def readCues (b : List Byte) : Option CueSection :=
  let nt := leAt b 2 2
  let nr := leAt b 4 2
  match (tableAt b 16 16 nt).bind (fun l => allSome (l.map readTrigger)),
      (tableAt b (16 + 16 * nt) 16 nr).bind (fun l => allSome (l.map readRule)) with
  | some ts, some rs =>
    let x : CueSection := { triggers := ts, rules := rs, dealLeadMs := leAt b 6 2 }
    given (decide (16 ≤ b.length) && leAt b 0 2 == 1 && decide (nt ≤ 1024) && decide (nr ≤ 512) && zerosAt b 8 8
      && decide (50 ≤ x.dealLeadMs) && decide (x.dealLeadMs ≤ 1000)) x
  | _, _ => none

/-! ## Register lists, streams, clips and domain settings -/

/-- A 4-byte COUNT and as many entries of `k` bytes: the entries and the bytes after them (R616, R617). -/
def countedAt (b : List Byte) (k : Nat) : Option (List (List Byte) × List Byte) :=
  if b.length < 4 then none
  else (tableAt b 4 k (leAt b 0 4)).map (fun l => (l, b.drop (4 + k * leAt b 0 4)))

/-- A register list (R616), and the bytes after it. -/
def readRegs (b : List Byte) : Option (List (Nat × Word) × List Byte) :=
  (countedAt b 8).map (fun x => (x.1.map (fun e => (leAt e 0 4, BitVec.ofNat 32 (leAt e 4 4))), x.2))

/-- The entries of a blob list (R617), and the bytes after them. -/
def readBlobs : Nat → List Byte → Option (List (Nat × List Byte) × List Byte)
  | 0, b => some ([], b)
  | n + 1, b =>
    let k := leAt b 4 4
    let p := (k + 3) / 4 * 4
    if b.length < 8 + p ∨ zerosAt b (8 + k) (p - k) = false then none
    else (readBlobs n (b.drop (8 + p))).map (fun x => ((leAt b 0 4, (b.drop 8).take k) :: x.1, x.2))

/-- What the stream and route tables section holds. -/
structure StreamSection where
  regs : List (Nat × Word) := []
  blobs : List (Nat × List Byte) := []
  latencies : List (Word × Nat) := []
  rows : List StreamRow := []
  deriving DecidableEq, Repr

/-- The stream and route tables section: four parts in order (R617). -/
def readStreams (b : List Byte) : Option StreamSection :=
  match readRegs b with
  | none => none
  | some (regs, b) =>
    if b.length < 4 then none
    else match readBlobs (min (leAt b 0 4) b.length) (b.drop 4) with
      | none => none
      | some (blobs, b) =>
        match countedAt b 8 with
        | none => none
        | some (lats, b) =>
          match countedAt b 8 with
          | none => none
          | some (rows, _) =>
            given (lats.all (fun e => decide (leAt e 3 1 ≤ 3)) && decide (rows.length ≤ 4096)
                && rows.all (fun e => zerosAt e 3 1 && zerosAt e 7 1 && decide (leAt e 0 2 < 2048) && decide (leAt e 4 2 < 2048)
                    && decide (leAt e 2 1 < 128) && decide (leAt e 6 1 < 128)))
              { regs := regs, blobs := blobs, latencies := lats.map (fun e => (BitVec.ofNat 32 (leAt e 0 4), leAt e 4 4)),
                rows := rows.map (fun e => { sender := leAt e 0 2, tx := leAt e 2 1, receiver := leAt e 4 2, rx := leAt e 6 1 }) }

/-- The 32-byte header of a clip or recording is one of R163. -/
def clipHeaderOk (h : List Byte) : Bool :=
  (leAt h 0 1 == 3 || leAt h 0 1 == 4) && decide (1 ≤ leAt h 1 1) && decide (leAt h 1 1 ≤ 8) && decide (leAt h 2 1 ≤ 1) && decide (leAt h 3 1 < 2)
    && zerosAt h 28 4

/-- An entry of the clips directory (R618): the data of a clip is its BYTES bytes, that of a recording its header. -/
def readClip (b : List Byte) (i : Nat) (e : List Byte) : Option ClipRec :=
  let f := leAt e 12 2
  let n := leAt e 4 4
  (partAt b (leAt e 0 4) (if f = 1 then 32 else n)).bind (fun d =>
    given (decide (f < 2) && zerosAt e 14 2 && decide (32 ≤ n) && clipHeaderOk d
        && (f == 1 || decide (32 + leAt d 4 4 * leAt d 1 1 * leAt d 0 1 ≤ n)))
      { index := i, addr := leAt e 8 4, bytes := n, recording := f == 1, data := d })

/-- The clips section: a directory of 1,024 entries, those with OFFSET 0 absent (R618). -/
def readClips (b : List Byte) : Option (List ClipRec) :=
  (tableAt b 0 16 1024).bind (fun dir =>
    allSome ((dir.zipIdx.filter (fun e => leAt e.1 0 4 != 0)).map (fun e => readClip b e.2 e.1)))

/-- The domain settings record (R499). -/
def readDomain (b : List Byte) : Option DomainSettings :=
  let f := leAt b 18 1
  let d : DomainSettings :=
    { rate96 := leAt b 2 1 == 1, role := leAt b 3 1, device := leAt b 4 2, domain := leAt b 6 2, manager := leAt b 8 2,
      standby := leAt b 10 2, group := BitVec.ofNat 32 (leAt b 12 4), udpPort := leAt b 16 2, gate := f % 2 == 1,
      grandmaster := f / 2 % 2 == 1, twin := f / 4 % 2 == 1, keyId := leAt b 19 1, build := leAt b 20 8 }
  given (decide (32 ≤ b.length) && leAt b 0 2 == 1 && decide (leAt b 2 1 ≤ 1) && decide (1 ≤ d.role) && decide (d.role ≤ 3)
    && decide (d.device < 2048) && decide (1 ≤ d.domain) && decide (d.manager < 2048) && decide (d.standby < 2048) && d.standby != d.manager
    && decide (f < 8) && decide (d.keyId ≤ 1) && zerosAt b 28 4) d

/-! ## The container (R613, R614, R621) -/

/-- The entries of the section table, from the bytes of header and table. -/
def sectionTable (h : List Byte) : List (List Byte) := entriesOf 48 (leAt h 6 2) (h.drop 64)

/-- Offset and bytes of the section of one TYPE; none when it is absent.  `h` holds the header and the section table, and `get`
reads bytes of the slot. -/
def sectionOf (h : List Byte) (get : Nat → Nat → List Byte) (type : Nat) : Option (Nat × List Byte) :=
  ((sectionTable h).find? (fun e => leAt e 0 1 == type)).map (fun e => (leAt e 4 4, get (leAt e 4 4) (leAt e 8 4)))

/-- What an absent optional section stands for, or what its reader makes of a present one. -/
def readOptional {α : Type} (x : Option (Nat × List Byte)) (d : α) (f : List Byte → Option α) : Option α :=
  match x with
  | some s => f s.2
  | none => some d

/-- The delta sets of a scene with the parameter words of the instances they add (R177, R184). -/
def sceneParams (ts : List (Nat × TileProg)) (c : SceneRec) : SceneRec :=
  { c with deltas := c.deltas.map (fun d =>
      { d with added := d.added.map (withParams (fun n =>
          initOf ts n ++ (d.tiles.filter (fun p => 8 * p.cluster + p.tile == n)).flatMap (fun p => p.init))) }) }

/-- The domain settings section: the record and the register list after it (R499, R616). -/
def readDomainPart (b : List Byte) : Option (Option DomainSettings × List (Nat × Word)) :=
  match readDomain b, readRegs (b.drop 32) with
  | some d, some l => some (some d, l.1)
  | _, _ => none

/-- The image of a container whose header and section table `h` are right; `get` reads bytes of the slot (R613, R614). -/
def readImage (h : List Byte) (get : Nat → Nat → List Byte) : Option Image :=
  let part := sectionOf h get
  let rate := leAt h 27 1 == 1
  let build := leAt h 16 8
  match (part 8).bind (fun x => readRegs x.2), (part 1).bind (fun x => readRegs x.2),
      readOptional (part 9) (none, []) readDomainPart, readOptional (part 6) {} readStreams,
      (part 2).bind (fun x => readPrograms rate x.2), (part 3).bind (fun x => readNodes x.2),
      readOptional (part 7) [] readClips, readOptional (part 4) {} (readScenes rate),
      readOptional (part 5) {} readCues with
  | some setup, some init, some dom, some strm, some prog, some nodes, some clips, some scenes, some cues =>
    given ((match dom.1 with | some d => d.rate96 == rate && d.build == build | none => true))
      { build := build, rate96 := rate, march := leAt h 24 2 % 2 == 1, setupRegs := setup.1, initRegs := init.1,
        domainRegs := dom.2, streamRegs := strm.regs, domain := dom.1, clusters := prog.clusters, tiles := prog.tiles,
        mpdMap := prog.map, nodes := nodes.map (withParams (initOf prog.tiles)), bootScene := scenes.boot, nTopo := scenes.nTopo,
        scenes := scenes.scenes.map (sceneParams prog.tiles), scenesAt := ((part 4).map (·.1)).getD 0,
        triggers := cues.triggers, rules := cues.rules, dealLeadMs := cues.dealLeadMs, blobs := strm.blobs,
        latencies := strm.latencies, streamTable := strm.rows, clips := clips }
  | _, _, _, _, _, _, _, _, _ => none

/-- An image with the library calls of a plan in the tiles and tile parts it names (assumption 8). -/
def planned (im : Image) (p : LibPlan) : Image :=
  let lib (n : Nat) : LibTile := ((p.tiles.find? (fun e => e.1 == n)).map (·.2)).getD {}
  let part (c : SceneRec) (d : DeltaSet) (t : TilePart) : TilePart :=
    match p.parts.find? (fun x => x.scene == c.scene && x.from_ == d.from_ && x.cluster == t.cluster && x.tile == t.tile) with
    | some x => { t with callsN := x.callsN, callsX := x.callsX, lib := x.lib }
    | none => t
  { im with
    tiles := im.tiles.map (fun t => (t.1, { t.2 with calls := (lib t.1).calls, lib := (lib t.1).lib })),
    scenes := im.scenes.map (fun c => { c with deltas := c.deltas.map (fun d => { d with tiles := d.tiles.map (part c d) }) }) }

end Sys2Proof.Machine
end

