-- ==== Sys2Proof/Machine/Injects.lean ====
section
/-!
DEFINITION. Fault injection as the detectors see it (R546, R547): an armed injection acts once, at the next event its
row names; and free values.
-/

namespace Sys2Proof.Machine

/-- The armed injection, when it names this detector, mode and unit (a detector without units passes 0). -/
def State.injFor (s : State) (src mode unit : Nat) : Bool :=
  match s.flt.armed with
  | some i => i.src == src && i.mode == mode && i.unit == unit
  | none => false

/-- The injection has acted: ARM reads 0 (R547). -/
def State.disarm (s : State) : State := { s with flt := { s.flt with armed := none } }

/-- A detector reports, by an injection when one is armed for it, otherwise when its own condition holds. -/
def State.detect (s : State) (src mode unit cls detail : Nat) (cond : Bool) : State :=
  if s.injFor src mode unit then s.disarm.raiseInj src unit cls detail
  else if cond then s.raise src unit cls detail else s

/-- A free word (assumption 5), and the state with the draw counted. -/
def State.drawWord (s : State) : Word × State := (Config.freeWord s.draws, { s with draws := s.draws + 1 })

/-- A free choice (assumption 5). -/
def State.drawBool (s : State) : Bool × State := (Config.freeBool s.draws, { s with draws := s.draws + 1 })

end Sys2Proof.Machine
end

