-- ==== Sys2Proof/Machine/CueOps.lean ====
section
/-!
DEFINITION. Triggers: recognising a trigger of an image's cue rules.
-/

namespace Sys2Proof.Machine

/-- The engine takes port and microphone decisions itself: it is no standby twin (R354, R396). -/
def State.decides (s : State) : Bool := !s.twin.on || s.twin.st == .active

/-- An event waits for the twin link; the seventeenth of a pass writes a NOTICE record (R563). -/
def State.twinOut (s : State) (e : TwinEv) : State :=
  let first := frameOf s.twin.out e.records == 1 && (frameEvents 16 s.twin.out).2.isEmpty
  let s := if first then s.event sevNotice 0x40900000 0 0 0 16 else s
  { s with twin := { s.twin with out := s.twin.out ++ [e] } }

/-- `x` acts at the strobe of pass `n`. -/
def State.later (s : State) (n : Nat) (x : Act) : State := { s with grid := { s.grid with acts := s.grid.acts ++ [(n, x)] } }

/-- A decision recognised in pass `p`, the current one or a later one, takes the effect `f`: at its acting pass, which in a
single engine is `p` itself; a standby's own decision has none, an active twin relays it and acts with its peer (R352, R354,
R396). -/
def State.relayIn (s : State) (p : Nat) (e : TwinEv) (f : Nat → State → State) : State :=
  if !s.decides then s
  else if s.twin.on then (s.later (s.acting + (p - s.grid.tick)) (.ev e)).twinOut e
  else if s.grid.tick < p then s.later p (.ev e)
  else f s.grid.tick s

/-- A decision recognised in the current pass (R354, R396). -/
def State.relay (s : State) (e : TwinEv) (f : Nat → State → State) : State := s.relayIn s.grid.tick e f

/-- A decision whose effect `f` waits for its acting pass by itself (R206). -/
def State.relayNow (s : State) (e : TwinEv) (f : Nat → State → State) : State :=
  if !s.decides then s else if s.twin.on then (f s.acting s).twinOut e else f s.acting s

/-- The indexes of the image's triggers whose kind satisfies `p`. -/
def State.trigsOf (s : State) (p : TrigKind → Bool) : List Nat :=
  match s.image with
  | some im => (im.triggers.zipIdx.filter (fun e => p e.1.kind)).map (·.2)
  | none => []

/-- A trigger of a kind that twins do not share is recognised (R205, R206): an active twin relays it and it acts in the
acting pass; a standby's own detection fires nothing. -/
def State.hitTrig (s : State) (i : Nat) : State :=
  if s.twin.on then
    if s.decides then
      let n := s.acting
      let s := { s with cue := { s.cue with relayed := s.cue.relayed ++ [(n, i)] } }
      s.twinOut (.trigger i)
    else s
  else { s with cue := { s.cue with hits := s.cue.hits ++ [{ trig := i }] } }

/-- Recognises every trigger whose kind satisfies `p` (R205). -/
def State.recognise (s : State) (p : TrigKind → Bool) : State := forAll (s.trigsOf p) s (fun i s => s.hitTrig i)

/-- Cue state with `f` applied. -/
def State.updCue (s : State) (f : Cues → Cues) : State := { s with cue := f s.cue }

/-- A recognised level of a pin (R224). -/
def State.setPinState (s : State) (pin : Nat) (level : Bool) : State :=
  s.updCue (fun c => { c with state := if level then c.state ||| (1#16 <<< pin) else c.state &&& ~~~(1#16 <<< pin) })

/-- A recognised level of a pin acts in pass `n`. -/
def State.levelAct (s : State) (pin : Nat) (level : Bool) (n : Nat) : State :=
  if n ≤ s.grid.tick then s.setPinState pin level
  else s.updCue (fun c => { c with stateDue := c.stateDue ++ [(n, pin, level)] })

end Sys2Proof.Machine
end

