-- ==== Sys2Proof/Machine/Ports.lean ====
section
/-!
DEFINITION. The serial audio ports: framing, hoppers, start and stop, slips and losses, rate measurement and non-audio
detection (chapter Serial Audio Ports).
-/

namespace Sys2Proof.Machine

/-! ## Fades and ramps of one audio path -/

/-- Ramp factor of pass `p` in 256ths: 0 up to the last pass of zero data, then k/256 (R355). -/
def rampK (ramp : Option Nat) (p : Nat) : Nat :=
  match ramp with
  | none => 0
  | some h => if p ≤ h then 0 else min 256 (p - h)

/-- A sample times k/256, the division rounding half to even (R355). -/
def scale256 (k : Nat) (w : Int) : Int := if k = 256 then w else divRne (w * k) 256

/-- The sample of pass `p` after the path's ramp and fade (R355 to R357). -/
def Env.scale (e : Env) (p : Nat) (w : Int) : Int :=
  match e.fade with
  | none => scale256 (rampK e.ramp p) w
  | some n =>
    if p < n then scale256 (rampK e.ramp p) w
    else if n + 31 ≤ p then 0
    else divRne (scale256 e.held w * (32 - ((p + 1 - n : Nat) : Int))) 32

/-- A fade begins in pass `n`; the ramp factor in use is held (R357).  A fade that runs continues. -/
def Env.startFade (e : Env) (n : Nat) : Env :=
  match e.fade with
  | some _ => e
  | none => { e with fade := some n, held := rampK e.ramp (n - 1) }

/-- A ramp from zero whose last pass of zero data is `h` (R355). -/
def Env.restart (h : Nat) : Env := { ramp := some h }

/-- The pass in which a write made now is recognised: the next pass, or the first pass of the graph (R355). -/
def State.nextPass (s : State) : Nat := if s.pwr.mode = .boot then s.grid.tick else s.grid.tick + 1

/-- What a written value brings, recognised in the pass after the write; in BOOT, where no pass comes, at the write. -/
def State.nextly (s : State) (x : Act) (f : State → State) : State := if s.pwr.mode = .boot then f s else s.later s.nextPass x

/-- The pass in which both twins treat a relayed register write made now as recognised: its acting pass (R396). -/
def State.writePass (s : State) : Nat :=
  if s.twin.on && s.twin.st == .active && s.graphRuns then s.acting + 1 else s.nextPass

/-- The RW fields of the register at `a` hold the values that `v` carries. -/
def State.holds (s : State) (a : Nat) (v : Word) : Bool :=
  match regAt a with
  | some r => (s.reg a ^^^ v) &&& r.mask .rw == 0
  | none => true

/-- A write of a register that R396 names: an active twin relays it when it was accepted, a standby takes none of its
own. -/
def State.relayWrite (s : State) (a : Nat) (v : Word) (f : State → State) : State :=
  if !s.decides then s
  else
    let t := f s
    if s.twin.on && t.holds a v then t.twinOut (.write a v) else t

/-! ## Shared lines -/

/-- The twin drives the shared lines in pass `a`: while it holds them, and as twin B while TWIN_PEER_ACT read low at its
latest sample (R561, R568).  A single engine keeps TWIN_ACT low (R560). -/
def State.twinLines (s : State) (a : Nat) : Bool :=
  s.twin.on && (if s.twin.linesFrom ≤ a then s.twin.lines else !s.twin.lines) && !(s.twin.selB && s.twin.peerAct)

/-- A line with drive setting `drv` is driven in pass `a`: 0 driven, 1 and 3 high-impedance, 2 twin-controlled (R366,
R395, R433). -/
def State.lineDriven (s : State) (drv a : Nat) : Bool := if drv = 0 then true else if drv = 2 then s.twinLines a else false

/-! ## Port fields -/

/-- The widths that SW and DLEN code (R368). -/
def widthOf (c : Nat) : Nat := if c = 0 then 16 else if c = 1 then 20 else if c = 2 then 24 else 32

/-- PORT_FRAME.SLOTS. -/
def State.pSlots (s : State) (k : Nat) : Nat := s.fld (aPortFrame k) 5 0
/-- Slot width SW in bits. -/
def State.pSw (s : State) (k : Nat) : Nat := widthOf (s.fld (aPortFrame k) 8 7)
/-- Data length DLEN in bits. -/
def State.pDlen (s : State) (k : Nat) : Nat := widthOf (s.fld (aPortFrame k) 10 9)
/-- Data offset in the slot. -/
def State.pOffset (s : State) (k : Nat) : Nat := s.fld (aPortFrame k) 15 11
/-- Bytes of a hopper sample: 4 − PACK. -/
def State.pBytes (s : State) (k : Nat) : Nat := 4 - s.fld (aPortFrame k) 21 21
/-- B, the bit periods of a frame (R344). -/
def State.pB (s : State) (k : Nat) : Nat := s.pSlots k * s.pSw k
/-- PORT_CTRL.ASYNC. -/
def State.pAsync (s : State) (k : Nat) : Bool := s.flag (aPortCtrl k) 8
/-- SHARE of a member; a lead has none (R350). -/
def State.pMember (s : State) (k : Nat) : Bool := decide (k % 4 ≠ 0) && s.flag (aPortCtrl k) 3
/-- PORT_CTRL.MASTER, which a member ignores (R350). -/
def State.pMaster (s : State) (k : Nat) : Bool := s.flag (aPortCtrl k) 2 && !s.pMember k
/-- The lead of a port's group (R350). -/
def leadOf (k : Nat) : Nat := k / 4 * 4
/-- The frame stride of a hopper (R351). -/
def State.pStride (s : State) (k : Nat) : Nat :=
  let n := s.pSlots k * s.pBytes k
  if n ≤ 16 then 16 else if n ≤ 32 then 32 else if n ≤ 64 then 64 else 128

/-- The Millpond area an address lies in, by the image's map or the default partition (R102, R103). -/
def State.areaAt (s : State) (a : Nat) : Option Nat :=
  match s.image with
  | some im => areaOf im.mpdMap a
  | none => none

/-- `n` bytes from `a` lie in the hoppers and broadcast area (R347). -/
def State.inHoppers (s : State) (a n : Nat) : Bool :=
  s.areaAt a == some 4 && s.areaAt (a + n - 1) == some 4

/-- A hopper base is allowed: 0, or aligned and inside the area (R347). -/
def State.hopOk (s : State) (k base : Nat) : Bool :=
  base == 0 || (decide (base % max 64 (s.pStride k) = 0) && s.inHoppers base (4 * s.pStride k))

/-- The frame fields a member must share with its lead: FS_FORM, FS_POL, FS_DELAY, BCLK_POL, and B (R350). -/
def State.sharesFrame (s : State) (k : Nat) : Bool :=
  let l := leadOf k
  s.fld (aPortFrame k) 20 16 == s.fld (aPortFrame l) 20 16 && s.pB k == s.pB l

/-- A combination of R347 holds. -/
def State.portCombo (s : State) (k : Nat) : Bool :=
  decide (32 < s.pSlots k) || decide (s.pSw k < s.pDlen k) || decide (s.pSw k < s.pOffset k + s.pDlen k)
    || s.fld (aPortFrame k) 17 16 == 3
    || decide ((if s.rate96 then 512 else 1024) < s.pB k)
    || (s.fld (aPortFrame k) 21 21 == 1 && s.pDlen k == 32)
    || (s.pMaster k && decide (s.cyc ≤ s.fld (aPortPhase k) 13 0))
    || !s.hopOk k (s.reg (aPortHopRx k)).toNat || !s.hopOk k (s.reg (aPortHopTx k)).toNat
    || (s.pMember k && (!s.sharesFrame k || s.pSlots (leadOf k) == 0))

/-- A combination of R347 holds, or R362 forbids the port. -/
def State.portCfgErr (s : State) (k : Nat) : Bool :=
  s.portCombo k || (s.pAsync k && (s.pMaster k || (s.reg (aPortHopRx k)).toNat != 0))

/-! ## Start and stop -/

/-- A port whose EN is recognised in pass `n` starts: a master's clocks, from the frame of pass n + 1 on, or a slave's or
member's search (R355). -/
def State.portStart (s : State) (k n : Nat) : State :=
  let p := s.port k
  if p.st = .stopping then s.setPort k { p with restart := true }
  else if p.st ≠ .off ∨ s.pSlots k = 0 ∨ s.portCfgErr k ∨ !s.domOn 76 then s
  else if s.pMaster k && !s.pMember k then
    let h := n + s.fld (aPortTiming k) 11 0
    s.setPort k { p with st := .runin, zeroTo := h, env := Env.restart h, nextIn := none, nextOut := none,
                         healthy := 0, restart := false, bad := 0, good := 0 }
  else s.setPort k { p with st := .search, env := {}, found := 0, nextIn := none, nextOut := none, healthy := 0,
                            restart := false, bclk := [], fsync := [], refIn := s.grid.tick * s.cyc }

/-- A fade from pass `n` on a running port; members follow their lead (R350, R357). -/
def State.portFadeOne (s : State) (k n : Nat) : State :=
  let p := s.port k
  match p.st with
  | .off | .search | .stopping => s
  | .fade | .hold => s.setPort k { p with healthy := 0, nextIn := none, nextOut := none }
  | _ => s.setPort k { p with st := .fade, env := p.env.startFade n, healthy := 0, nextIn := none, nextOut := none }

/-- The SHARE members of a lead (R350). -/
def State.members (s : State) (k : Nat) : List Nat :=
  if k % 4 = 0 then [k + 1, k + 2, k + 3].filter (fun j => s.pMember j) else []

/-- A slip or a loss of port `k` with acting pass `n` (R357). -/
def State.portFade (s : State) (k n : Nat) : State :=
  forAll (s.members k) (s.portFadeOne k n) (fun j s => s.portFadeOne j n)

/-- STOP_FRAMES of a port (R371). -/
def State.stopFrames (s : State) (k : Nat) : Nat := s.fld (aPortTiming k) 27 16

/-- A port whose EN is cleared, recognised in pass `n`, fades and runs its clocks out for STOP_FRAMES frames; its members fade
and search again (R356, R350). -/
def State.portStop (s : State) (k n : Nat) : State :=
  let p := s.port k
  let run := s.stopFrames k
  let s := match p.st with
    | .off => s
    | .stopping => s.setPort k { p with restart := false }
    | .search | .runin => s.setPort k { p with st := .stopping, env := {}, stopAt := n + run }
    | _ => s.setPort k { p with st := .stopping, env := p.env.startFade (n + 1), stopAt := n + 32 + run }
  forAll (s.members k) s (fun j s =>
    let m := s.port j
    match m.st with
    | .off | .search | .stopping => s
    | _ => s.setPort j { m with st := .fade, env := m.env.startFade (n + 1), toSearch := true })

/-- A write of PORT_CTRL: refused as a whole when it changes a field other than EN and DRV outside OFF; otherwise
written, and a change of EN is recognised in the next pass (R355, R356, R366, R697). -/
def State.writePortCtrl (s : State) (k : Nat) (v : Word) : State :=
  let old := s.reg (aPortCtrl k)
  let m : Word := if k % 4 = 0 then 0x00000F15#32 else 0x00000F1D#32
  let v := v &&& m
  if (s.port k).st ≠ .off ∧ (v ^^^ old) &&& ~~~(0x00000C01#32) ≠ 0 then s.setFlag (aPortStat k) 6 true
  else
    let s := s.setReg (aPortCtrl k) v
    if v.getLsbD 0 && !old.getLsbD 0 then s.later s.nextPass (.portOn k)
    else if !v.getLsbD 0 && old.getLsbD 0 then s.later s.nextPass (.portOff k)
    else s

/-! ## Frames -/

/-- Bit period of data bit `j` of slot `i` (R344). -/
def State.bitAt (s : State) (k i j : Nat) : Nat := s.fld (aPortFrame k) 19 19 + i * s.pSw k + s.pOffset k + j

/-- The words of an input frame from the levels of DIN in bit periods 0, 1, …: data bit j of a slot at bit 31 − j (R344,
R348). -/
def State.frameSlots (s : State) (k : Nat) (l : List Bool) : List Word :=
  (upto (s.pSlots k)).map (fun i => BitVec.ofNat 32 (((upto (s.pDlen k)).map (fun j =>
    if (l[s.bitAt k i j]?).getD false then 2 ^ (31 - j) else 0)).foldl (· + ·) 0))

/-- DOUT in the bit periods from FS_DELAY on: data bits of the slots in use, IDLE elsewhere and in a direction that is off,
high-impedance throughout where the line is not driven (R344, R349, R350, R366). -/
def State.doutBits (s : State) (k : Nat) (driven : Bool) (w : List Word) : List (Option Bool) :=
  let idle : Option Bool := if s.flag (aPortCtrl k) 9 then none else some false
  let off := s.reg (aPortHopTx k) == 0
  (upto (s.pB k)).map (fun q =>
    let i := q / max 1 (s.pSw k)
    let r := q % max 1 (s.pSw k)
    if !driven then none
    else if off || !s.flag (aPortTxmask k) i || decide (r < s.pOffset k) || decide (s.pOffset k + s.pDlen k ≤ r) then idle
    else some (((w[i]?).getD 0).getLsbD (31 - (r - s.pOffset k))))

/-- FSYNC is active in bit period `q` of a frame (R345). -/
def fsyncActive (form sw b q : Nat) : Bool :=
  if form = 0 then q == 0 else if form = 1 then decide (q < sw) else if form = 2 then decide (2 * q < b) else false

/-- The port whose clock a port follows: its lead's when it is a member (R350). -/
def State.clockOf (s : State) (k : Nat) : Nat := if s.pMember k then leadOf k else k

/-- A port whose balls carry its frame clock: a master, or a member that copies a master lead's (R345, R350). -/
def State.drivesClock (s : State) (k : Nat) : Bool :=
  s.pMaster k || (s.pMember k && s.pMaster (leadOf k) && s.flag (aPortCtrl k) 4)

/-- FSYNC in the bit periods of a frame: the form selected with the polarity of FS_POL, a member's being its lead's, or a
high-impedance input (R345, R350). -/
def State.fsyncBits (s : State) (k : Nat) : List (Option Bool) :=
  let m := s.clockOf k
  if s.drivesClock k then
    (upto (s.pB m)).map (fun q => some (fsyncActive (s.fld (aPortFrame m) 17 16) (s.pSw m) (s.pB m) q != s.flag (aPortFrame m) 18))
  else []

/-- BCLK in the half bit periods of a frame: with BCLK_POL 0 it falls at the launch edge and rises at the capture edge of
each bit period, with 1 the reverse (R345, R346). -/
def State.bclkBits (s : State) (k : Nat) : List Bool :=
  let m := s.clockOf k
  let pol := s.flag (aPortFrame m) 20
  if s.drivesClock k then (upto (2 * s.pB m)).map (fun i => if i % 2 = 0 then pol else !pol) else []

/-- Cycle of BCLK edge `i` of a master's frame after the strobe (R346). -/
def State.bclkEdge (s : State) (k i : Nat) : Nat := s.fld (aPortPhase k) 13 0 + i * s.cyc / (2 * s.pB k)

/-- Position of a frame's reference edge after a strobe: a master's clock fixes it, a slave's comes as it is measured (R346,
R352). -/
def State.refOf (s : State) (k : Nat) (out : Bool) (e : Nat) : Nat :=
  let m := s.clockOf k
  if s.pMaster m then s.bclkEdge m (if out then 0 else 2 * (s.pB m - 1 + s.fld (aPortFrame m) 19 19) + 1) % s.cyc else e

/-- Length of a frame in bit periods: a master's is B. -/
def State.lenOf (s : State) (k len : Nat) : Nat := if s.pMaster (s.clockOf k) then s.pB k else len

/-- The sample word of an input slot: its data bits at the top, the rest 0; 0 where RXMASK is clear (R348). -/
def slotWord (dlen : Nat) (used : Bool) (w : Word) : Word :=
  if used then putBits 0 31 (32 - dlen) (bits w 31 (32 - dlen)) else 0

/-- The low `n` bits of a word the port sends in a slot: the rounding and saturation of R349. -/
def slotOut (dlen : Nat) (w : Int) : Word :=
  let q := clampI (-(2 ^ (dlen - 1))) (2 ^ (dlen - 1) - 1) (divRne w (2 ^ (32 - dlen)))
  BitVec.ofInt 32 (q * 2 ^ (32 - dlen))

/-- The repetition period of a data type (R363). -/
def naPeriod (t : Nat) : Option Nat :=
  match t with
  | 1 => some 1536 | 4 => some 384 | 5 => some 1152 | 7 => some 1024 | 11 => some 512 | 12 => some 1024
  | 13 => some 2048 | 21 => some 6144 | _ => none

/-- Pc has arrived: the preamble's type is known, and the pair may be confirmed (R363). -/
def NaPair.preamble (n : NaPair) (t : Nat) : NaPair × Bool :=
  let gap := n.since
  let same := n.type == some t
  let cnt := if same && (n.count == 1 || gap == n.gap) then n.count + 1 else if same then 2 else 1
  let ok := match naPeriod t with
    | some p => same && gap == p
    | none => decide (3 ≤ cnt) && decide (64 ≤ gap) && decide (gap ≤ 65536)
  let n' := { n with type := some t, gap := gap, count := cnt, since := 0, pcDue := false }
  if ok && !n.act then
    ({ n' with act := true, span := match naPeriod t with | some p => 2 * p | none => 4096 }, true)
  else (n', false)

/-- One input frame seen by a pair's detector: the words of slots 2j and 2j + 1.  Answers whether it confirms. -/
def NaPair.frame (n : NaPair) (w0 w1 : Word) : NaPair × Bool :=
  let a := bits w0 31 16
  let b := bits w1 31 16
  let (n, c) := if n.pcDue then ({ n with since := n.since } : NaPair).preamble (a % 32) else (n, false)
  let n := { n with since := n.since + 1 }
  (if a == 0xF872 && b == 0x4E1F then { n with pcDue := true } else n, c)

/-- A confirmed pair is muted (R363, R364). -/
def State.naOn (s : State) (k j span : Nat) : State :=
  let p := s.port k
  let n := mget {} p.na j
  (s.setPort k { p with na := mset {} p.na j { n with act := true, span := span } }).event sevNotice (aPortNa k) (16 + j) (16 + j) 1 k

/-- The detectors of a port look at one input frame; confirmations mute their pair (R363, R364). -/
def State.naFrame (s : State) (k : Nat) (slots : List Word) : State :=
  if s.pDlen k < 16 then s
  else
    forAll (upto 16) s (fun j s =>
      if s.flag (aPortNa k) j then
        let p := s.port k
        let old := mget {} p.na j
        let (n, c) := old.frame ((slots[2 * j]?).getD 0) ((slots[2 * j + 1]?).getD 0)
        let s := s.setPort k { p with na := mset {} p.na j { n with act := old.act, span := if old.act then old.span else n.span } }
        if c then s.relay (.naOn k j n.span) (fun _ s => s.naOn k j n.span) else s
      else
        -- a pair that is muted and no longer watched sees frames without a preamble
        let p := s.port k
        let old := mget {} p.na j
        if old.act then s.setPort k { p with na := mset {} p.na j { old with since := old.since + 1, pcDue := false } } else s)

/-- A slot's sample after the pair's non-audio mute and ramp, in pass `p` (R364). -/
def State.naScale (s : State) (k slot p : Nat) (w : Int) : Int :=
  let n := mget {} (s.port k).na (slot / 2)
  if n.act then 0 else n.env.scale p w

/-- A pair with no release behind it passes its samples unchanged. -/
def NaPair.passes (n : NaPair) : Bool := !n.act && n.env.ramp == some 0

/-- Writes a sample word into a hopper, as 4 bytes or as bits [31:8] in 3 bytes (R348). -/
def State.putSample (s : State) (bytes a : Nat) (w : Word) : State :=
  if bytes = 4 then s.wr32 a w else s.wrBytes a (leBytes 3 (w.toNat / 256))

/-- Reads a sample word from a hopper (R349). -/
def State.getSample (s : State) (bytes a : Nat) : Word :=
  if bytes = 4 then s.rd32 a else BitVec.ofNat 32 (256 * leNat (s.rdBytes a 3))

/-- Writes the input frame of pass `p` into the port's hopper, scaled (R348, R351, R355 to R357). -/
def State.putFrame (s : State) (k p : Nat) (slots : List Word) : State :=
  let base := (s.reg (aPortHopRx k)).toNat
  if base = 0 then s
  else
    let fr := base + s.pStride k * (p % 4)
    forAll (upto (s.pSlots k)) s (fun i s =>
      let w := slotWord (s.pDlen k) (s.flag (aPortRxmask k) i) ((slots[i]?).getD 0)
      let n := mget {} (s.port k).na (i / 2)
      let x := if n.passes then w.toInt else s.naScale k i p w.toInt
      s.putSample (s.pBytes k) (fr + i * s.pBytes k) (BitVec.ofInt 32 ((s.port k).env.scale p x)))

/-- The words of the output frame of pass `p` (R349, R355 to R357); a slot outside TXMASK carries no data. -/
def State.outFrame (s : State) (k p : Nat) : List Word :=
  let base := (s.reg (aPortHopTx k)).toNat
  (upto (s.pSlots k)).map (fun i =>
    if base = 0 ∨ !s.flag (aPortTxmask k) i then 0
    else slotOut (s.pDlen k)
      ((s.port k).env.scale p (s.getSample (s.pBytes k) (base + s.pStride k * (p % 4) + i * s.pBytes k)).toInt))

/-- The pass a frame belongs to, when its reference lies in the window; none is a slip (R352).  `e` is the position
of the reference after the strobe of the current pass. -/
def State.framePass (s : State) (next : Option Nat) (e : Nat) : Option Nat :=
  match next with
  | none => some (if 2 * e < s.cyc then s.grid.tick else s.grid.tick + 1)
  | some a =>
    let d : Int := ((s.grid.tick : Int) - a) * s.cyc + e
    if -(3 * (s.cyc : Int) / 4) ≤ d ∧ d ≤ 3 * (s.cyc : Int) / 4 - 1 then some a else none

/-- A slip of port `k` acts in pass `n`: counted, the fade begins (R352, R357). -/
def State.slipAct (s : State) (k n : Nat) : State := (s.count (aPortEvents k) 31 16 1).portFade k n

/-- A port runs: it moves frames between its hopper and its balls. -/
def State.portRuns (s : State) (k : Nat) : Bool :=
  match (s.port k).st with
  | .off | .search => false
  | _ => true

/-- A slip of port `k` by the frame of pass `p`: a wrong length is counted, a ring frame left without its input frame is zero,
in each member's ring too, and the next frame locks again; the decision is recognised in pass `p` (R352, R354, R357). -/
def State.slip (s : State) (k : Nat) (out badLen : Bool) (p : Nat) : State :=
  let s := if badLen then s.count (aPortEvents k) 15 0 1 else s
  let s := if out then s
    else forAll ((s.members k).filter (fun j => s.portRuns j)) (s.putFrame k p []) (fun j s => s.putFrame j p [])
  let s := s.setPort k { s.port k with nextIn := none, nextOut := none }
  s.relayIn p (.slip k) (fun n s => s.slipAct k n)

/-- The clock readback of a master port at a reference edge (R358). -/
def Port.readback (p : Port) (agree : Bool) : Port :=
  if agree then
    let g := p.good + 1
    { p with bad := 0, good := g, lost := if 8 ≤ g then false else p.lost }
  else { p with bad := p.bad + 1, good := 0 }

/-- The pass that a frame belongs to: a member's is its lead's, whose frame with the same edge may have come before (R350,
R352).  None is a slip. -/
def State.assign (s : State) (k : Nat) (out : Bool) (e len : Nat) : Option Nat :=
  let p := s.port k
  if s.pMember k then
    let l := s.port (leadOf k)
    match if out then l.nextOut else l.nextIn with
    | some a => some (if (if out then l.refOut else l.refIn) = s.grid.tick * s.cyc + e + 1 then a - 1 else a)
    | none => s.framePass none e
  else if len ≠ s.pB k then none
  else s.framePass (if out then p.nextOut else p.nextIn) e

/-- A frame's words leave on DOUT (R349, R366). -/
def State.sendFrame (s : State) (k a : Nat) (w : List Word) : State :=
  let dr := s.lineDriven (s.fld (aPortCtrl k) 11 10) a
  s.setPort k { s.port k with sent := w, driven := dr, dout := s.doutBits k dr w, fsync := s.fsyncBits k, bclk := s.bclkBits k }

/-- One frame of a running port, in one direction (R352, R353). -/
def State.runFrame (s : State) (k : Nat) (out : Bool) (e len : Nat) (agree : Bool) (slots : List Word) : State :=
  let s := if s.pMaster k && !out then s.setPort k ((s.port k).readback agree) else s
  let p := s.port k
  match s.assign k out e len with
  | none => s.slip k out (len != s.pB k) ((if out then p.nextOut else p.nextIn).getD s.grid.tick)
  | some a =>
    -- a master's clocks start with the frame of the pass after recognition
    if p.st = .runin ∧ s.pMaster k ∧ a + s.fld (aPortTiming k) 11 0 ≤ p.zeroTo then s
    -- a slave leaves its hoppers alone after its stop fade
    else if p.st = .stopping ∧ !s.pMaster k ∧ p.stopAt < a + s.stopFrames k then (if out then s.sendFrame k a (List.replicate (s.pSlots k) 0) else s)
    else if out then
      let s := s.sendFrame k a (s.outFrame k a)
      s.setPort k { s.port k with nextOut := some (a + 1) }
    else
      let s := s.naFrame k slots
      let s := s.putFrame k a slots
      let p := s.port k
      let h := if p.st = .hold ∨ p.st = .fade then p.healthy + 1 else p.healthy
      let e := if p.nextIn.isNone ∧ !s.pMaster k then e % 2 ^ 14 else p.lockPhase
      s.setPort k { p with nextIn := some (a + 1), healthy := h, lockPhase := e }

/-- A port frame: a port that searches counts frames of length B and sends zero data; a running port moves the frame. -/
def State.portFrame (s : State) (k : Nat) (out : Bool) (e len : Nat) (agree : Bool) (slots : List Word) : State :=
  let p := s.port k
  if !s.domOn 76 then s
  else match p.st with
    | .off => s
    | .search =>
      if out then s.sendFrame k s.grid.tick (List.replicate (s.pSlots k) 0)
      else s.setPort k { p with found := if len = s.pB k then p.found + 1 else 0 }
    | _ =>
      let s := if p.lost && !out && !s.pMaster k then
          s.setPort k { p with found := if len = s.pB k then p.found + 1 else 0 } else s
      s.runFrame k out e len agree slots

/-- The reference edge of a frame passes (R352, R358). -/
def State.seenRef (s : State) (k : Nat) (out : Bool) (e : Nat) : State :=
  let n := s.grid.tick * s.cyc + e + 1
  let p := s.port k
  if p.st = .off then s else s.setPort k (if out then { p with refOut := n } else { p with refIn := n })

/-- The fade of a port that has ended: HOLD, or SEARCH for a member whose lead stopped (R350, R357). -/
def State.portFadeEnd (s : State) (k : Nat) : State :=
  let p := s.port k
  match p.st, p.env.fade with
  | .fade, some n =>
    if n + 32 ≤ s.grid.tick then
      if p.toSearch then s.setPort k { p with st := .search, toSearch := false, found := 0, env := {}, nextIn := none, nextOut := none }
      else s.setPort k { p with st := .hold }
    else s
  | _, _ => s

/-! ## Rate classes -/

/-- The nominal rates of R361 in 0.01 Hz, with their classes. -/
def rateClasses : List (Nat × Nat) :=
  [(1, 800000), (2, 1102500), (3, 1600000), (4, 2205000), (5, 3200000), (6, 4410000), (7, 4800000), (8, 8820000),
   (9, 9600000), (10, 17640000), (11, 19200000)]

/-- The class of a measured rate: within 1,000 ppm of a nominal rate, else 15 (R361). -/
def rateClass (r : Nat) : Nat :=
  match rateClasses.find? (fun e => decide (e.2 * 999 ≤ r * 1000) && decide (r * 1000 ≤ e.2 * 1001)) with
  | some e => e.1
  | none => 15

/-- CLASS takes a new value: a NOTICE record and the rate-class trigger of the port (R361). -/
def State.setClass (s : State) (k c : Nat) : State :=
  let p := s.port k
  if p.cls = c then s
  else
    let s := s.setPort k { p with cls := c }
    let s := s.event sevNotice (aPortRate k) 28 31 c k
    s.recognise (fun t => t == .rateClass k)

end Sys2Proof.Machine
end

