-- ==== Sys2Proof/Machine/Filters.lean ====
section
/-!
DEFINITION. The arithmetic of the decimators and converters: half-band and compensation filters, the CIC filter and
the interpolation table (R381 to R383, R399 to R401).
-/

namespace Sys2Proof.Machine

/-- Element `i` of a delay line, 0 beyond it. -/
def tap (l : List Int) (i : Nat) : Int := (l[i]?).getD 0

/-- A delay line of `n` elements, newest first, with one pushed. -/
def push (n : Nat) (l : List Int) (x : Int) : List Int := (x :: l).take n

/-- The Sample conversion of an exact sum of coefficient-form products (R247, R383): half to even, saturating. -/
def firStore (sum : Int) : Int := sat32 (divRne sum (2 ^ 30))

/-- Σ coef_k × (line[c − d_k] + line[c + d_k]) for the listed coefficients, distances from `d` up in steps of 2. -/
def halfSum (line : List Int) (c : Nat) : List Int → Nat → Int
  | [], _ => 0
  | k :: ks, d => k * (tap line (c - d) + tap line (c + d)) + halfSum line c ks (d + 2)

/-- A half-band filter with its centre tap of 0.5 at index `c` (R383). -/
def halfBand (line : List Int) (c : Nat) (coefs : List Int) : Int :=
  firStore (tap line c * 0x20000000 + halfSum line c coefs 1)

/-- Σ of the compensation filter, distances from `d` up in steps of 1. -/
def compSum (line : List Int) : List Int → Nat → Int
  | [], _ => 0
  | k :: ks, d => k * (tap line (7 - d) + tap line (7 + d)) + compSum line ks (d + 1)

/-- The compensation filter; the first coefficient is the centre (R383). -/
def compFilter (line : List Int) (coefs : List Int) : Int :=
  match coefs with
  | [] => 0
  | c :: ks => firStore (c * tap line 7 + compSum line ks 1)

/-- PDM_COEF words `from_` to `from_ + n − 1` as integers (R383, R384). -/
def State.coefs (s : State) (from_ n : Nat) : List Int :=
  (upto n).map (fun k => (s.reg (aPdmCoef (from_ + k))).toInt)

/-! ## The CIC filter -/

/-- One bit through the integrators, each modulo 2^28 (R381). -/
def cicInteg : List Nat → Nat → List Nat
  | [], _ => []
  | i :: is, x => let y := (i + x) % 2 ^ 28; y :: cicInteg is y

/-- One value through the combs: the new comb memories and the output modulo 2^28. -/
def cicComb : List Nat → Nat → List Nat × Nat
  | [], x => ([], x)
  | c :: cs, x => let (cs', y) := cicComb cs ((x + 2 ^ 28 - c) % 2 ^ 28); (x :: cs', y)

/-- A 28-bit value as a two's complement number. -/
def signed28 (x : Nat) : Int := if x < 2 ^ 27 then x else (x : Int) - 2 ^ 28

/-! ## The interpolation table of R401 -/

/-- sin (π j / 320) with 128 fraction bits, for any j. -/
def sin320 (j : Nat) : Int :=
  let k := j % 640
  let q (i : Nat) : Int := let x : Int := ((pi128 * i / 320 : Nat) : Int); sinSeries (x * x / 2 ^ 128) 34 1 x x
  if k ≤ 160 then q k else if k ≤ 320 then q (320 - k) else if k ≤ 480 then -(q (k - 320)) else -(q (640 - k))

/-- Σ z^k / (k!)² with 128 fraction bits, z = num / den: term `n` on, the current term being `t`. -/
def besselSeries (num den : Nat) : Nat → Nat → Nat → Nat → Nat
  | 0, _, _, acc => acc
  | k + 1, n, t, acc =>
    let t' := t * num / (den * (n * n))
    besselSeries num den k (n + 1) t' (acc + t')

/-- I0 (8.6 √(1 − (t/8192)²)) with 128 fraction bits. -/
def bessel86 (t : Nat) : Nat :=
  besselSeries (1849 * (67108864 - t * t)) (100 * 67108864) 80 1 (2 ^ 128) (2 ^ 128)

/-- T[p][j]: round (2^30 × h (p/256 + 31 − j)) (R401). -/
def interpT (p j : Nat) : Int :=
  let t := ((p : Int) + 256 * (31 - (j : Int))).natAbs
  if t = 0 then divRne (2 ^ 30 * 4) 5
  else divRne (sin320 t * bessel86 t * 256 * 2 ^ 30) (pi128 * t * bessel86 0)

/-- c_j of R401. -/
def interpC (p a j : Nat) : Int :=
  let t0 := interpT p j
  t0 + asr ((interpT (p + 1) j - t0) * a) 16

end Sys2Proof.Machine
end

