-- ==== Sys2Proof/Machine/PdmOps.lean ====
section
/-!
DEFINITION. The PDM microphones: configuration, decimation chain, start, settling and stop (R378 to R396).
-/

namespace Sys2Proof.Machine

/-- CIC decimation factor R (R379). -/
def State.pdmR (s : State) : Nat := if !s.rate96 && s.flag aPdmCtrl 1 then 32 else 16

/-- CIC order N (R381). -/
def State.pdmN (s : State) : Nat := s.fld aPdmCtrl 3 2 + 3

/-- A combination of R393 holds. -/
def State.pdmCfgErr (s : State) : Bool :=
  let b := (s.reg aPdmHop).toNat
  s.fld aPdmCtrl 3 2 == 3 || (s.rate96 && !s.flag aPdmCtrl 1)
    || (b != 0 && (decide (b % 64 ≠ 0) || !s.inHoppers b 256))

/-- TRIM of microphone m (R407). -/
def State.micTrim (s : State) (m : Nat) : Nat :=
  s.fld (aPdmTrim (m / 4)) (8 * (m % 4) + 7) (8 * (m % 4))

/-- Settling passes S without WAKE (R391). -/
def State.settleS (s : State) (m : Nat) : Nat :=
  ceilDiv ((s.pdmN + 133) * s.pdmR + s.micTrim m) (4 * s.pdmR)

/-- The clock that microphone m uses (R378). -/
def micClk (m : Nat) : Nat := m / 8

/-- A start of microphone m is recognised in pass `n`: its chain is cleared at the strobe of pass n + 1, a WAKE longer when its
clock starts in the same pass (R390, R391). -/
def State.micStart (s : State) (m n : Nat) : State :=
  if !s.flag aPdmMicEn m || !s.pdm.en || s.pdm.stopAt.isSome || !s.flag aPdmCtrl (4 + micClk m) || s.pdmCfgErr then s
  else s.later (n + 1) (.micGo m (if n = s.pdm.clkFrom then 16 * s.fld aPdmCtrl 15 8 else 0))

/-- The chain of microphone m is cleared at the strobe of the current pass, the one after recognition, and settles S passes from
recognition and `wake` more (R390, R391). -/
def State.micGo (s : State) (m wake : Nat) : State :=
  if !s.flag aPdmMicEn m || !s.pdm.en || s.pdm.stopAt.isSome then s
  else
    let h := s.grid.tick - 1 + s.settleS m + wake
    s.setMic m { st := .settle, settleTo := h, env := Env.restart h,
                 trim := List.replicate (s.micTrim m) false, integ := List.replicate s.pdmN 0,
                 comb := List.replicate s.pdmN 0 }

/-- A microphone stops, recognised in pass `n`: a fade of 32 passes, or at once in SETTLE (R392, R410). -/
def State.micStop (s : State) (m n : Nat) : State :=
  let c := s.mic m
  match c.st with
  | .off => s
  | .settle | .hold => s.setMic m {}
  | _ => s.setMic m { c with stopping := true, env := c.env.startFade (n + 1) }

/-- A microphone fades and holds, acting in pass `n` (R394). -/
def State.micHold (s : State) (m n : Nat) : State :=
  let c := s.mic m
  if c.stopping then s
  else match c.st with
    | .off | .fade | .hold => s
    | _ => s.setMic m { c with st := .fade, env := c.env.startFade n, healthy := 0 }

/-- One captured bit enters a microphone's chain; the fourth CIC output of a pass ends in a COMP output (R381 to
R383). -/
def micBit (r n : Nat) (c0 c1 c2 : List Int) (c : Mic) (b : Bool) : Mic :=
  let run := if c.run = 0 ∨ b ≠ c.last then 1 else c.run + 1
  let tr := b :: c.trim
  let d := (tr.getLast?).getD b
  let integ := cicInteg c.integ (if d then 1 else 2 ^ 28 - 1)
  let k := c.bits + 1
  let c := { c with last := b, run := run, trim := tr.dropLast, integ := integ, bits := if k = 4 * r then 0 else k }
  if k % r = 0 then
    let (comb, y) := cicComb c.comb ((integ.getLast?).getD 0)
    let x := sat32 (signed28 y * 2 ^ (31 - n * (if r = 32 then 5 else 4)))
    let c := { c with comb := comb, hb1 := push 11 c.hb1 x }
    if k % (2 * r) = 0 then
      let c := { c with hb2 := push 31 c.hb2 (halfBand c.hb1 5 c0) }
      if k = 4 * r then
        let c := { c with comp := push 15 c.comp (halfBand c.hb2 15 c1) }
        { c with out := compFilter c.comp c2 }
      else c
    else c
  else c

/-- The bits of one pass through a microphone's chain. -/
def micBits (r n : Nat) (c0 c1 c2 : List Int) : Mic → List Bool → Mic
  | c, [] => c
  | c, b :: bs => micBits r n c0 c1 c2 (micBit r n c0 c1 c2 c b) bs

/-- Stuck data of microphone `m` acts in pass `n` (R394). -/
def State.micStuckAct (s : State) (m n : Nat) : State := (s.setMic m { s.mic m with stuck := true }).micHold m n

/-- A microphone's bits have held one value for 1,024 bits: recognised in the pass of the 1,024th, with a MAJOR record (R394,
R698). -/
def State.micStuckSeen (s : State) (m : Nat) : State :=
  let c := s.mic m
  if 1024 ≤ c.run ∧ c.stuck = false ∧ c.st ≠ .off ∧ s.decides ∧ s.grid.acts.any (fun e => e.2 == .ev (.micStuck m)) = false then
    (s.relay (.micStuck m) (fun n s => s.micStuckAct m n)).raise 0x0F (0x40 + m) 0 (if c.last then 1 else 0)
  else s

/-- Recovered data of microphone `m` acts in pass `n`: the ramp runs from the next pass (R394). -/
def State.micBackAct (s : State) (m n : Nat) : State :=
  s.setMic m { s.mic m with st := .ramp, stuck := false, healthy := 0, env := Env.restart n }

/-- A stuck microphone's bits have taken both values in 64 consecutive passes: recognised in the 64th (R394). -/
def State.micBackSeen (s : State) (m : Nat) : State :=
  let c := s.mic m
  if c.stuck ∧ c.clkHeld = false ∧ 64 ≤ c.healthy ∧ s.grid.acts.any (fun e => e.2 == .ev (.micBack m)) = false then
    s.relay (.micBack m) (fun n s => s.micBackAct m n)
  else s

/-- The word of microphone m in pass `p`: 0 while it is off, settles or is held (R386, R391, R392, R394). -/
def State.micWord (s : State) (m p : Nat) : Word :=
  let c := s.mic m
  match c.st with
  | .ramp | .run | .fade => BitVec.ofInt 32 (c.env.scale p c.out)
  | _ => 0

/-- End of pass `p` for one microphone: its 4R bits are in, its health is counted, and what its bits show is recognised (R390,
R394). -/
def State.micPass (s : State) (m : Nat) (bs : List Bool) : State :=
  let c := s.mic m
  if c.st = .off then s
  else
    let c := micBits s.pdmR s.pdmN (s.coefs 0 3) (s.coefs 3 8) (s.coefs 11 8) c bs
    let both := bs.contains true && bs.contains false
    let c := { c with healthy := if c.st = .hold ∨ c.st = .fade then (if both then c.healthy + 1 else 0) else c.healthy }
    ((s.setMic m c).micStuckSeen m).micBackSeen m

/-- A fade that has ended: OFF after a stop, HOLD after a stuck line (R392, R394). -/
def State.micFadeEnd (s : State) (m : Nat) : State :=
  let c := s.mic m
  match c.env.fade with
  | some n =>
    if n + 32 ≤ s.grid.tick then
      if c.stopping then s.setMic m {} else if c.st = .fade then s.setMic m { c with st := .hold } else s
    else s
  | none => s

/-- The PDM_CLK balls are driven in the current pass (R395). -/
def State.pdmDrives (s : State) : Bool := s.lineDriven (s.fld aPdmCtrl 7 6) s.grid.tick

/-- The standby captures at the clock as it arrives (R395). -/
def State.pdmReceives (s : State) : Bool := s.twin.on && s.fld aPdmCtrl 7 6 == 2 && !s.pdmDrives

/-- The level of PDM_DATp at the received edge within half a clock of cycle `t` (R395); where none arrived, `old`
(assumption 134). -/
def edgeLevel (l : List (Int × BitVec 8)) (pc p : Nat) (t : Int) (old : Bool) : Bool :=
  match l.find? (fun e => decide (2 * (e.1 - t).natAbs ≤ pc)) with
  | some e => e.2.getLsbD p
  | none => old

/-- The bits of clocks j, j + 1, … of a pass, `n` of them, from received edges; those of clock 0 lie at cycle `o`. -/
def edgeBits (l : List (Int × BitVec 8)) (pc p o : Nat) : Nat → Nat → Bool → List Bool
  | 0, _, _ => []
  | n + 1, j, old =>
    let b := edgeLevel l pc p (j * pc + o : Nat) old
    b :: edgeBits l pc p o n (j + 1) b

/-- The bits of microphone m in the pass that ends: pin m / 2, the rising edge for an even number and the falling edge for
an odd one, exchanged by PDM_EDGE.SWAP (R378 to R380); in a standby from the edges it received (R395). -/
def State.micLevels (s : State) (i : StrobeIn) (m : Nat) : List Bool :=
  let p := m / 2
  let fall := (m % 2 == 1) != s.flag aPdmEdge p
  let n := 4 * s.pdmR
  if s.pdmReceives then
    let pc := s.cyc / n
    edgeBits (if fall then i.falls else i.rises) pc p (if fall then pc / 2 else 0) n 0 (s.mic m).last
  else
    let w := (i.mics[2 * p + (if fall then 1 else 0)]?).getD 0
    (upto n).map (fun j => w.getLsbD j)

/-- The end of pass `p` for the whole block: every microphone's bits, then every microphone's word (R386); the words of
microphones that are off are 0, whether the block runs or not (assumption 163). -/
def State.pdmPass (s : State) (p : Nat) (i : StrobeIn) : State :=
  if !s.domOn 76 || s.pdmCfgErr then s
  else
    let s := if s.pdm.en then forAll (upto 16) s (fun m s => s.micPass m (s.micLevels i m)) else s
    let base := (s.reg aPdmHop).toNat
    if base = 0 then s else forAll (upto 16) s (fun m s => s.wr32 (base + 64 * (p % 4) + 4 * m) (s.micWord m p))

/-- EN is recognised as 1 in pass `n`: its clocks start at the next strobe, unless they still run, and the enabled microphones
start (R390). -/
def State.pdmStart (s : State) (n : Nat) : State :=
  if s.pdmCfgErr || !s.domOn 76 then s
  else
    let from_ := if s.pdm.en then s.pdm.clkFrom else n
    let s := ({ s with pdm := { s.pdm with en := true, clkFrom := from_, stopAt := none } } : State).later (n + 1) .pdmClk
    forAll (upto 16) s (fun m s => s.micStart m n)

/-- The clocks start at the strobe after recognition (R390). -/
def State.pdmClocksOn (s : State) : State :=
  if s.pdm.en then { s with pdm := { s.pdm with clkRun := BitVec.ofNat 2 (s.fld aPdmCtrl 5 4) } } else s

/-- EN is recognised as 0 in pass `n`: every running microphone fades, the clocks stop after pass n + 32 (R392). -/
def State.pdmStop (s : State) (n : Nat) : State :=
  if !s.pdm.en || s.pdm.stopAt.isSome then s
  else forAll (upto 16) ({ s with pdm := { s.pdm with stopAt := some (n + 32) } } : State) (fun m s => s.micStop m n)

/-- The stop fade has ended: the block is disabled and its clocks are low (R392). -/
def State.pdmStopEnd (s : State) : State :=
  match s.pdm.stopAt with
  | some p => if p < s.grid.tick then { s with pdm := { s.pdm with en := false, clkRun := 0, stopAt := none } } else s
  | none => s

/-- The block runs or fades: writes of fields other than EN, DRV, PDM_MIC_EN and TRIM are refused (R393). -/
def State.pdmLocked (s : State) : Bool := s.flag aPdmCtrl 0 || s.pdm.stopAt.isSome

/-- A write of PDM_CTRL (R390, R392, R393, R697). -/
def State.writePdmCtrl (s : State) (v : Word) : State :=
  let old := s.reg aPdmCtrl
  let v := v &&& 0x0000FFFF#32
  if s.pdmLocked && (v ^^^ old) &&& ~~~(0x000000C1#32) != 0 then s.setFlag aPdmStat 3 true
  else
    let s := s.setReg aPdmCtrl v
    if v.getLsbD 0 && !old.getLsbD 0 then s.later s.writePass .pdmOn
    else if !v.getLsbD 0 && old.getLsbD 0 then s.later s.writePass .pdmOff
    else s

/-- A write of PDM_MIC_EN: newly enabled microphones start, newly disabled ones stop (R390, R392). -/
def State.writeMicEn (s : State) (v : Word) : State :=
  let old := s.reg aPdmMicEn
  let v := v &&& 0x0000FFFF#32
  let s := s.setReg aPdmMicEn v
  forAll (upto 16) s (fun m s =>
    if v.getLsbD m && !old.getLsbD m then s.later s.writePass (.micOn m)
    else if !v.getLsbD m && old.getLsbD m then s.later s.writePass (.micOff m)
    else s)

/-- A write of PDM_TRIMi restarts each microphone of the word that is not OFF, recognised in the next pass (R389). -/
def State.writeTrim (s : State) (i : Nat) (v : Word) : State :=
  let s := s.setReg (aPdmTrim i) v
  forAll [4 * i, 4 * i + 1, 4 * i + 2, 4 * i + 3] s (fun m s =>
    if (s.mic m).st = .off then s else s.later s.writePass (.micAgain m))

end Sys2Proof.Machine
end

