-- ==== Sys2Proof/Machine/SrcOps.lean ====
section
/-!
DEFINITION. The asynchronous rate converters (R397 to R405).
-/

namespace Sys2Proof.Machine

/-- CHANS, FIRST and PORT of SRC_CTRL (R409). -/
def State.srcChans (s : State) (c : Nat) : Nat := s.fld (aSrcCtrl c) 23 20
/-- First slot. -/
def State.srcFirst (s : State) (c : Nat) : Nat := s.fld (aSrcCtrl c) 16 12
/-- Source port. -/
def State.srcPort (s : State) (c : Nat) : Nat := s.fld (aSrcCtrl c) 11 8

/-- A condition of R408 holds. -/
def State.srcCfgErr (s : State) (c : Nat) : Bool :=
  let p := s.srcPort c
  let b := (s.reg (aSrcHop c)).toNat
  decide (8 < s.srcChans c) || decide (11 < p) || !s.pAsync p || s.pMaster p
    || decide (s.pSlots p < s.srcFirst c + s.srcChans c)
    || (b != 0 && (decide (b % 32 ≠ 0) || !s.inHoppers b 128))

/-- D_H in input samples (R400). -/
def srcD (h : Nat) : Nat := 40 * 2 ^ h

/-- A converter leaves for state `x`, acting in pass `n`: a LOCKED one fades first (R403, R410). -/
def Converter.leave (c : Converter) (x : SrcSt) (n : Nat) : Converter :=
  match c.st with
  | .locked => { c with after := if c.after = some .off then some .off else some x, env := c.env.startFade n, good := 0 }
  | _ => { c with st := x, good := 0 }

/-! ## Frames -/

/-- A sample enters a decimation stage; the sample index decides whether an output is kept. -/
def stagePush (l : List Int) (x : Int) (coefs : List Int) (keep : Bool) : List Int × Option Int :=
  let l' := push 31 l x
  (l', if keep then some (halfBand l' 15 coefs) else none)

/-- A decimated sample of channel `ch` enters its ring. -/
def SrcPath.put (x : SrcPath) (ch : Nat) (y : Int) : SrcPath :=
  { x with ring := mset [] x.ring ch (push 128 (mget [] x.ring ch) y) }

/-- The sample of channel `ch` in a frame passes the pre-decimation stages; answers whether a decimated sample came (R399). -/
def SrcPath.sampleIn (x : SrcPath) (co : List Int) (ch : Nat) (w : Int) : SrcPath × Bool :=
  match x.h with
  | 0 => (x.put ch w, true)
  | h + 1 =>
    let (l, o) := stagePush (mget [] x.line ch) w co (x.n % 2 == 1)
    let x := { x with line := mset [] x.line ch l }
    match o, h with
    | none, _ => (x, false)
    | some y, 0 => (x.put ch y, true)
    | some y, _ =>
      let (l2, o2) := stagePush (mget [] x.line (8 + ch)) y co (x.stage2 % 2 == 1)
      let x := { x with line := mset [] x.line (8 + ch) l2 }
      match o2 with
      | none => (x, false)
      | some z => (x.put ch z, true)

/-- A frame's samples, channel by channel, enter a path (R399). -/
def SrcPath.take (x : SrcPath) (co : List Int) (ws : List Int) : SrcPath :=
  let (y, kept) := (ws.zipIdx).foldl (fun (a : SrcPath × Bool) w => let (y, k) := a.1.sampleIn co w.2 w.1; (y, k || a.2)) (x, false)
  { y with n := x.n + 1, stage2 := if x.n % 2 = 1 then x.stage2 + 1 else x.stage2,
           count := if kept then x.count + 1 else x.count }

/-- The sample words of a converter's channels in a frame of its port (R348, R397). -/
def State.srcWords (s : State) (c : Nat) (slots : List Word) : List Int :=
  (upto (s.srcChans c)).map (fun ch =>
    let k := s.srcFirst c + ch
    (slotWord (s.pDlen (s.srcPort c)) (s.flag (aPortRxmask (s.srcPort c)) k) ((slots[k]?).getD 0)).toInt)

/-- A frame is numbered: its samples enter the converter's path (R398, R399).  In a twin pair the active twin relays the
reference-edge time of its frame 0 (R405). -/
def State.srcTake (s : State) (c : Nat) (f : Nat × Nat × List Word) : State :=
  let x := s.src c
  let s := if s.twin.on && s.twin.st == .active && x.n == 0 then s.twinOut (.frame0 c f.1 f.2.1) else s
  s.setSrc c { x with toSrcPath := x.toSrcPath.take (s.coefs 3 8) (s.srcWords c f.2.2) }

/-- A standby that waits for the time of the active twin's frame 0 (R405). -/
def State.srcWaits (s : State) (x : Converter) : Bool := s.twin.on && s.twin.st != .active && x.n == 0

/-- One frame of source samples arrives, its reference edge at cycle `e` of the current pass (R399). -/
def State.srcFrame (s : State) (c e : Nat) (slots : List Word) : State :=
  let x := s.src c
  if x.st = .off then s
  else
    let f := (s.grid.tick, e, slots)
    let ws := s.srcWords c slots
    let co := s.coefs 3 8
    let s := s.setSrc c { x with edgePass := s.grid.tick, edgeCyc := e, recent := (x.recent ++ [f]).drop (x.recent.length - 63),
                                 old := x.old.map (fun p => p.take co ws) }
    if (x.st = .acquire ∨ x.st = .locked) ∧ s.srcWaits x = false then s.srcTake c f else s

/-- The relayed time of the active twin's frame 0 comes to a standby (R405): its frame 0 is the frame whose reference edge lies
nearest, the first of two equally near; the frames from it on are numbered. -/
def State.srcNumber (s : State) (c t e : Nat) : State :=
  let x := s.src c
  if s.srcWaits x = false ∨ (x.st ≠ .acquire ∧ x.st ≠ .locked) then s
  else
    let off (f : Nat × Nat × List Word) : Nat := (((f.1 : Int) - t) * s.cyc + ((f.2.1 : Int) - e)).natAbs
    let best := x.recent.foldl (fun (b : Option Nat) f => match b with | some d => some (min d (off f)) | none => some (off f)) none
    forAll (x.recent.dropWhile (fun f => some (off f) != best)) s (fun f s => s.srcTake c f)

/-! ## Rates and states -/

/-- Acquisition starts in pass `n` on a measured rate in 0.01 Hz: the ratio and H are set, the rings cleared, and the frames from
the strobe of pass `n` on are numbered anew; the output of a LOCKED converter fades on its old path (R398, R403). -/
def State.srcAcquire (s : State) (c rate n : Nat) : State :=
  let x := s.src c
  let fs := s.fs
  let h := if rate * 10 ≤ 1100 * fs then 0 else if rate * 10 ≤ 2200 * fs then 1 else 2
  let early := x.recent.filter (fun f => decide (n ≤ f.1))
  let path : SrcPath := { h := h, rho := divRne (rate * 2 ^ 32) (100 * fs) }
  let fresh : Converter :=
    { x with toSrcPath := path, st := .acquire, after := none, frame0 := n, good := 0, lastRate := rate,
             env := if x.st = .locked then x.env.startFade n else x.env,
             old := if x.st = .locked then some x.toSrcPath else x.old,
             oldN := (if x.st = .locked then 0 else x.oldN) + (x.n - early.length) }
  let s := s.setSrc c fresh
  if s.srcWaits fresh then s else forAll early s (fun f s => s.srcTake c f)

/-- A converter takes a port's rate measurement (R398, R403). -/
def State.srcMeasure (s : State) (c rate prev n : Nat) : State :=
  let x := s.src c
  if x.st = .off ∨ x.after = some .off then s
  else if rate < 792000 ∨ 19392000 < rate then
    s.setSrc c { x.leave .wait n with lastRate := rate }
  else
    let near := prev ≠ 0 ∧ (rate : Int) * 1000 ≤ prev * 1001 ∧ prev * 999 ≤ (rate : Int) * 1000
    if x.st = .wait ∨ x.after = some .wait then if near then s.srcAcquire c rate n else s
    else
      -- a measurement that differs from ρ × fs by more than 1,000 ppm acquires again
      let m : Int := (rate : Int) * 2 ^ 32
      let r : Int := x.rho * (100 * s.fs)
      if m * 1000 ≤ r * 1001 ∧ r * 999 ≤ m * 1000 then s else s.srcAcquire c rate n

/-- The source port of converter `c` is lost, acting in pass `n` (R403). -/
def State.srcLost (s : State) (c n : Nat) : State :=
  let x := s.src c
  match x.st with
  | .off => s
  | _ => s.setSrc c (x.leave .wait n)

/-- EN of converter `c` is recognised as 1: it waits for its source; without a channel, or with a condition of R408, EN has no
effect (R403, R408, R409). -/
def State.srcStart (s : State) (c : Nat) : State :=
  if (s.src c).st ≠ .off ∨ s.srcChans c = 0 ∨ s.srcCfgErr c then s else s.setSrc c { st := .wait }

/-- EN of converter `c` is recognised as 0 in pass `n` (R392, R403). -/
def State.srcStop (s : State) (c n : Nat) : State :=
  if (s.src c).st = .off then s else s.setSrc c ((s.src c).leave .off (n + 1))

/-! ## The step -/

/-- A value of R400 in its signed 64-bit register. -/
def wrap64 (x : Int) : Int := (BitVec.ofInt 64 x).toInt

/-- Decimated sample `i` of channel `ch` of converter `c`: positions before frame 0 read 0 (R399); sample numbers count modulo
2^(32 − H), as φ does.  A sample the ring does not hold is a free value (assumption 162). -/
def SrcPath.sample (x : SrcPath) (c ch : Nat) (i : Int) : Int :=
  let d := ((x.count : Int) - 1 - i).bmod (2 ^ (32 - x.h))
  if d < 0 ∨ (128 ≤ d ∧ d < x.count) then (Config.srcSample c ch i).toInt else tap (mget [] x.ring ch) d.toNat

/-- The interpolation of one channel at φ (R401). -/
def SrcPath.interp (x : SrcPath) (c ch : Nat) : Int :=
  let u := asr (wrap64 (x.phi - (2 ^ x.h - 1) * 2 ^ 32)) x.h
  let k := asr u 32
  let f := (u % 2 ^ 32).toNat
  let p := f / 2 ^ 24
  let a := f / 2 ^ 8 % 2 ^ 16
  firStore ((upto 64).foldl (fun (acc : Int) j => acc + interpC p a j * x.sample c ch (k + j - 31)) 0)

/-- w of R400. -/
def SrcPath.w (x : SrcPath) (cyc nm cm : Nat) : Int := wrap64 (((nm : Int) - 1) * 2 ^ 32 + ((cm : Int) * x.rho) / cyc)

/-- One step of R400, with N and c of the pass and the gains of LOCKED or ACQUIRE: phase, error and ratio. -/
def SrcPath.step (x : SrcPath) (locked : Bool) (cyc nm cm : Nat) : SrcPath :=
  let w := x.w cyc nm cm
  let d : Int := (srcD x.h : Int) * 2 ^ 32
  if x.first then { x with phi := wrap64 (w - d), e := 0, first := false }
  else
    let phi := wrap64 (x.phi + x.rho)
    let e := wrap64 (w - d - phi)
    let (kp, ki) := if locked then (8, 20) else (4, 12)
    { x with e := e, phi := wrap64 (phi + asr e kp), rho := wrap64 (x.rho + asr e ki) }

/-- The converter's output fades in pass `m` (R403). -/
def Converter.fades (x : Converter) (m : Nat) : Bool := match x.env.fade with | some n => decide (m < n + 32) | none => false

/-- A fade that has ended by pass `m`: the state that follows is taken, or the old path is dropped (R403). -/
def Converter.fadeEnd (x : Converter) (m : Nat) : Converter :=
  if x.env.fade.isNone || x.fades m then x
  else match x.after with
    | some st => { x with st := st, after := none, env := {}, old := none }
    | none => { x with env := {}, old := none }

/-- N and c that R400 uses in this pass: at once in a single engine, those of two passes before in a twin pair, where a standby
uses what the twin link brought (R405). -/
def Converter.values (x : Converter) (twin active : Bool) (now : Nat × Nat) : Nat × Nat :=
  (if !twin then some now else if active then x.lag[1]? else x.heard).getD (0, 0)

/-- N and c of pass `m` (R400). -/
def State.srcNow (s : State) (c m : Nat) : Nat × Nat := let x := s.src c; (x.n, (m - x.edgePass) * s.cyc - x.edgeCyc)

/-- At the strobe of pass `m` a twin keeps its N and c of the pass (R405). -/
def State.srcKeep (s : State) (c m : Nat) : State :=
  let x := s.src c
  if s.twin.on ∧ x.st ≠ .off then s.setSrc c { x with lag := (s.srcNow c m :: x.lag).take 2 } else s

/-- The step of pass `m`: the values of a pass before the acquisition, and the path that fades, count frames by the old numbering
(R400, R403, R405).  An error above four samples in LOCKED returns to ACQUIRE with ρ kept and the old path fading. -/
def State.srcPhase (s : State) (c m : Nat) : State :=
  let x := (s.src c).fadeEnd m
  let (nv, cm) := x.values s.twin.on (s.twin.st == .active) (s.srcNow c m)
  let new := !s.twin.on || decide (x.frame0 + 2 ≤ m)
  let nm := if new then nv else 0
  let nOld := if new then x.oldN + nv else nv
  let old := if nOld = 0 then x.old else x.old.map (fun p => p.step true s.cyc nOld cm)
  let x : Converter := { x with old := old }
  if nm = 0 ∨ (x.st ≠ .acquire ∧ x.st ≠ .locked) then s.setSrc c x
  else
    let p : SrcPath := x.toSrcPath.step (x.st == .locked) s.cyc nm cm
    let x : Converter := { x with toSrcPath := p, good := if x.st = .acquire ∧ (p.e.natAbs : Int) < 2 ^ 28 then x.good + 1 else 0 }
    if x.st = SrcSt.locked ∧ x.after = none ∧ 4 * (2 : Int) ^ 32 < p.e.natAbs then
      (s.setSrc c { x with phi := wrap64 (p.w s.cyc nm cm - (srcD p.h : Int) * 2 ^ 32), st := .acquire, good := 0, old := some p, oldN := 0,
                           env := x.env.startFade m }).count (aSrcStat c) 31 16 1
    else s.setSrc c x

/-- The output word of channel `ch` in pass `m` (R402, R403). -/
def State.srcOut (s : State) (c ch m : Nat) : Word :=
  let x := s.src c
  let p := if x.fades m then x.old.getD x.toSrcPath else x.toSrcPath
  if s.srcChans c ≤ ch ∨ p.first ∨ (x.st ≠ .locked ∧ x.fades m = false) then 0
  else BitVec.ofInt 32 (x.env.scale m (p.interp c ch))

/-- CONVERTER_STEP: the converter's step and its output words in pass `m` (R400, R402, R405); a converter that a fade left OFF
with EN set meanwhile starts in the next pass. -/
def State.srcStep (s : State) (c m : Nat) : State :=
  if s.srcChans c = 0 then s
  else
    let was := (s.src c).st
    let s := s.srcPhase c m
    let s := if was ≠ .off ∧ (s.src c).st = .off ∧ s.flag (aSrcCtrl c) 0 then s.later (m + 1) (.srcOn c) else s
    let base := (s.reg (aSrcHop c)).toNat
    if base = 0 ∨ s.srcCfgErr c then s
    else forAll (upto 8) s (fun ch s => s.wr32 (base + 32 * (m % 4) + 4 * ch) (s.srcOut c ch m))

/-- A write of SRC_CTRL: fields other than EN only while OFF; a change of EN is recognised in the next pass (R408, R697). -/
def State.writeSrcCtrl (s : State) (c : Nat) (v : Word) : State :=
  let old := s.reg (aSrcCtrl c)
  let v := v &&& 0x00F1FF01#32
  if (s.src c).st ≠ .off ∧ (v ^^^ old) &&& ~~~(0x00000001#32) ≠ 0 then s.setFlag (aSrcStat c) 7 true
  else
    let s := s.setReg (aSrcCtrl c) v
    if v.getLsbD 0 && !old.getLsbD 0 then s.later s.writePass (.srcOn c)
    else if !v.getLsbD 0 && old.getLsbD 0 then s.later s.writePass (.srcOff c)
    else s

/-- G_H (R404). -/
def srcG (h : Nat) : Nat := if h = 0 then 40 else if h = 1 then 95 else 205

/-- SRC_GD: floor (256 × group delay), 2 passes longer in a twin pair (R404, R409). -/
def State.srcGd (s : State) (c : Nat) : Nat :=
  let x := s.src c
  if x.rho ≤ 0 then 0
  else (256 * srcG x.h * 2 ^ 32 / x.rho.toNat + (if s.twin.on then 512 else 0)) % 2 ^ 24

end Sys2Proof.Machine
end

