-- ==== Sys2Proof/Machine/ClockOps.lean ====
section
/-!
DEFINITION. References, the core frequency word, holdover and the output clocks (chapter Clock References, Holdover and
Synthesis).
-/

namespace Sys2Proof.Machine

/-- A domain engine: the image has a domain settings section (R24). -/
def State.inDomain (s : State) : Bool :=
  match s.image with
  | some im => im.domain.isSome
  | none => false

/-- SYNC becomes RUN, or SHADOW in a twin that is not active (R578). -/
def State.leaveSync (s : State) : State :=
  if s.pwr.mode = .sync then s.setMode (if s.twin.on && !s.twin.act then .shadow else .run) else s

/-- A standalone engine in SYNC whose reference is LOCKED leaves SYNC (R578). -/
def State.syncOver (s : State) : State := if s.inDomain || s.clk.st != .locked then s else s.leaveSync

/-- Units of F in 1 ppm, times 10^6 (R412). -/
def ppmUnit : Int := 2 ^ 40

/-- The clamp of F and of CLK_XTAL_TRIM: ±500 ppm (R412, R438). -/
def clampF (x : Int) : Int := clampI (-549755813) 549755813 x

/-- CLK_XTAL_TRIM (R414). -/
def State.xtalTrim (s : State) : Int := clampF (s.reg aClkXtalTrim).toInt

/-- The eight list entries as they stand (R436). -/
def State.rawList (s : State) : List Nat :=
  let e (w : Word) (k : Nat) := bits w (8 * k + 4) (8 * k)
  let a := s.reg aClkRefPrio0
  let b := s.reg aClkRefPrio1
  [e a 0, e a 1, e a 2, e a 3, e b 0, e b 1, e b 2, e b 3]

/-- Entries before the first 0x1F. -/
def beforeEmpty : List Nat → List Nat
  | [] => []
  | x :: xs => if x = 0x1F then [] else x :: beforeEmpty xs

/-- The reference list in force (R418): a list that breaks the rules acts as the crystal alone; none before the boot sequence has
loaded one (R426). -/
def State.refList (s : State) : List Nat :=
  match if s.clk.listed then beforeEmpty s.rawList else [] with
  | [] => []
  | 0 :: _ => [0]
  | l => if l.all (fun x => decide (1 ≤ x) && decide (x ≤ 0x13)) then l else [0]

/-- D_r of a candidate (R415). -/
def State.refD (s : State) (code : Nat) : Nat :=
  if code = 1 ∨ code = 2 then s.fld (aClkWclk (code - 1)) 15 0 else s.cyc

/-- A candidate's monitor. -/
def State.cand (s : State) (code : Nat) : Cand := mget {} s.clk.cands code

/-- A candidate is valid (R416): the crystal always, PTP while its time is valid. -/
def State.candValid (s : State) (code : Nat) : Bool :=
  if code = 0 then true else if code = 3 then s.net.timeValid else (s.cand code).valid

/-- The valid entry of highest rank: list position and code. -/
def State.bestRef (s : State) : Option (Nat × Nat) :=
  (s.refList.zipIdx.find? (fun e => s.candValid e.1)).map (fun e => (e.2, e.1))

/-- FMT's largest frequency in Hz (R427). -/
def mclkMax (fmt : Nat) : Nat := if fmt = 1 then 100000000 else if fmt = 2 then 50000000 else 250000000

/-- FMT names an LVCMOS level other than the class of VDDIO_E (R676). -/
def State.levelBad (s : State) (fmt : Nat) : Bool := (fmt == 1 && s.pwr.bankCls.getLsbD 2) || (fmt == 2 && !s.pwr.bankCls.getLsbD 2)

/-- A configuration error of output `o`: 0 to 3 MCLKO, 4 to 7 FRMO (R427, R428, R676). -/
def State.outCfgErr (s : State) (o : Nat) : Bool :=
  if o < 4 then
    let a := aClkMclk o
    let d := s.fld a 11 0
    let f := s.fld a 13 12
    let src := if s.flag a 25 then 24576000 else 491520000
    decide (d < 2) || (f != 0 && decide (mclkMax f * d < src)) || s.levelBad f
  else
    let k := o - 4
    let p := s.fld (aClkFrmoPeriod k) 28 0
    let w := s.fld (aClkFrmoWidth k) 28 0
    let m := max 1 (s.fld (aClkFrmoM k) 23 0)
    decide (w < 1) || decide (p ≤ w) || decide (p ≤ s.fld (aClkFrmoOffset k) 28 0)
      || (s.fld (aClkFrmo k) 25 24 == 0 && decide (m * s.cyc % p ≠ 0))

/-- EN and GATE of an output. -/
def State.outEn (s : State) (o : Nat) : Bool := if o < 4 then s.flag (aClkMclk o) 24 else s.flag (aClkFrmo (o - 4)) 22
/-- GATE of an output (R432). -/
def State.outGate (s : State) (o : Nat) : Nat := if o < 4 then s.fld (aClkMclk o) 27 26 else s.fld (aClkFrmo (o - 4)) 27 26

/-- Whether a GATE setting gates an output in a state (R432). -/
def gatedBy (gate : Nat) (st : RefSt) : Bool :=
  match st with
  | .locked => false
  | .holdover => decide (2 ≤ gate)
  | _ => decide (1 ≤ gate)

/-- DRV of an output (R433). -/
def State.outDrv (s : State) (o : Nat) : Nat := if o < 4 then s.fld (aClkMclk o) 29 28 else s.fld (aClkFrmo (o - 4)) 29 28

/-- Every output ball is driven or left at high impedance in the current pass (R433, R568). -/
def State.outsDrive (s : State) : State :=
  let f (o : Nat) (c : OutClk) : OutClk := { c with drive := s.lineDriven (s.outDrv o) s.grid.tick }
  { s with clk := { s.clk with outs := mupdAll {} s.clk.outs f (upto 8) } }

/-- Output `o`. -/
def State.out (s : State) (o : Nat) : OutClk := mget {} s.clk.outs o

/-! ## The edges of the output clocks -/

/-- The first time of the targets `tg` + j × `per` that is not before `t`. -/
def firstTarget (tg : Int) (per : Nat) (t : Int) : Int := t + (tg - t) % max 1 per

/-- The latest leading edge of an output up to time `t`. -/
def OutClk.edgeAt (c : OutClk) (t : Int) : Option Int :=
  let u := match c.gateAt with | some g => min g t | none => t
  if c.run = false then c.last
  else if c.lead ≤ u then some (c.lead + (u - c.lead) / max 1 c.per * max 1 c.per) else c.last

/-- The output is in its active phase at time `t` (R427, R428). -/
def OutClk.active (c : OutClk) (t : Int) : Bool :=
  match c.edgeAt t with
  | some l => decide (l ≤ t) && decide (t < l + c.wid)
  | none => false

/-- The output realigns at time `t` to the targets `tg` + j × `per`: an active phase in progress is completed, and the next leading
edge is the first target after its trailing edge by at least the inactive time (R429). -/
def OutClk.realign (c : OutClk) (t tg : Int) : OutClk :=
  let l := c.edgeAt t
  let from_ := match l with | some x => max tg (x + c.per) | none => tg
  { c with last := l, lead := firstTarget tg c.per from_ }

/-- The output is gated from time `t` on: an active phase in progress is completed (R432). -/
def OutClk.gate (c : OutClk) (t : Int) : OutClk :=
  { c with gated := true, gateAt := some (match c.gateAt with | some g => min g t | none => t) }

/-- The output is released at time `t`: its next leading edge is the first of its targets that R429 allows (R432). -/
def OutClk.release (c : OutClk) (t : Int) : OutClk :=
  let l := c.edgeAt t
  let from_ := match l with | some x => max t (x + c.per) | none => t
  { c with gated := false, gateAt := none, last := l, lead := firstTarget c.lead c.per from_ }

/-- The core cycle of the strobe of the current pass since reset. -/
def State.strobeCyc (s : State) : Int := (s.clk.pass * s.cyc : Nat)

/-- Output `o` runs on REF (R440). -/
def State.outOnRef (s : State) (o : Nat) : Bool := decide (o < 4) && s.flag (aClkMclk o) 25

/-- The source time of an output at core cycle `t`: on REF its next REF cycle (R430). -/
def outTime (onRef : Bool) (t : Int) : Int := if onRef then Config.refAt (t - 1) + 1 else t

/-- Period of an output: D source cycles, or PERIOD (R427, R428). -/
def State.outPer (s : State) (o : Nat) : Nat := if o < 4 then s.fld (aClkMclk o) 11 0 else s.fld (aClkFrmoPeriod (o - 4)) 28 0

/-- Active time of an output: ceil(D/2) source cycles, or WIDTH (R427, R428). -/
def State.outWid (s : State) (o : Nat) : Nat := if o < 4 then (s.fld (aClkMclk o) 11 0 + 1) / 2 else s.fld (aClkFrmoWidth (o - 4)) 28 0

/-- ALIGN of a frame pulse; an MCLK and ALIGN 3 count as FREE (R428). -/
def State.outAlign (s : State) (o : Nat) : Nat := if o < 4 then 2 else min 2 (s.fld (aClkFrmo (o - 4)) 25 24)

/-- A target edge of a SLEW output: OFFSET cycles after the strobe of the latest pass P with P mod M = 0 (R428). -/
def State.slewTarget (s : State) (o : Nat) : Int :=
  let k := o - 4
  s.strobeCyc - (s.grid.p.toNat % max 1 (s.fld (aClkFrmoM k) 23 0) * s.cyc : Nat) + s.fld (aClkFrmoOffset k) 28 0

/-- An output's registers as recognised in the current pass (R440, R441): one that starts has its first leading edge at its first
target, a free count beginning with this strobe; one that runs takes a new period from its next leading edge on (assumption
165). -/
def State.outSetup (s : State) (o : Nat) (c : OutClk) : OutClk :=
  let run := s.outEn o && !s.outCfgErr o
  let r := s.outOnRef o
  let t := outTime r s.strobeCyc
  let per := s.outPer o
  let c := { c with drive := s.lineDriven (s.outDrv o) s.grid.tick }
  if run = false then { c with run := false, last := c.edgeAt t }
  else if c.run = false ∨ c.onRef ≠ r then
    let tg := if s.outAlign o = 0 then s.slewTarget o else t
    { c with run := true, onRef := r, per := per, wid := s.outWid o, last := none, lead := firstTarget tg per t, slewAcc := 0,
             gateAt := if c.gated then some t else none }
  else if c.per = per ∧ c.wid = s.outWid o then c
  else { c with per := per, wid := s.outWid o, last := c.edgeAt t, lead := firstTarget c.lead c.per t }

/-- GATING: an output follows the state at the end of the pass, from core cycle `t` on (R432). -/
def State.outGated (s : State) (t : Int) (o : Nat) (c : OutClk) : OutClk :=
  let g := gatedBy (s.outGate o) s.clk.st
  if g = c.gated then c else if g then c.gate (outTime c.onRef t) else c.release (outTime c.onRef t)

/-- The registers of the outputs are recognised (R432, R440, R441). -/
def State.regate (s : State) : State :=
  { s with clk := { s.clk with outs := mupdAll {} s.clk.outs (fun o c => s.outGated s.strobeCyc o (s.outSetup o c)) (upto 8) } }

/-- The state has changed in the current pass, at a cycle that no rule names: the outputs follow (R432; assumption 166). -/
def State.gateOuts (s : State) : State :=
  let t := s.strobeCyc + ((Config.freeWord s.draws).toNat % s.cyc : Nat)
  { s with draws := s.draws + 1, clk := { s.clk with outs := mupdAll {} s.clk.outs (fun o c => s.outGated t o c) (upto 8) } }

/-- SLEW: cycles between two one-cycle moves, ceil(10^6 / SLEW) (R428, R441). -/
def State.slewStep (s : State) (o : Nat) : Nat := ceilDiv 1000000 (min 1000 (max 10 (s.fld (aClkFrmo (o - 4)) 15 0)))

/-- The distance of an output's leading edge from its target, from −PERIOD/2 to PERIOD/2 (R428). -/
def State.slewErr (s : State) (o : Nat) (c : OutClk) : Int := (c.lead - s.slewTarget o).bmod (max 1 c.per)

/-- A pass of a SLEW output: it moves to its targets one cycle at a time (R428). -/
def State.outSlew (s : State) (o : Nat) (c : OutClk) : OutClk :=
  if o < 4 ∨ s.outAlign o ≠ 0 ∨ c.run = false then c
  else
    let d := s.slewErr o c
    let step := s.slewStep o
    let acc := c.slewAcc + s.cyc
    let n := min d.natAbs (acc / step)
    { c with last := c.edgeAt s.strobeCyc, lead := firstTarget c.lead c.per s.strobeCyc - (if 0 < d then (n : Int) else -n),
             slewAcc := min step (acc - n * step) }

/-- MCLKO o carries the sluice divider's clock: in the safe state, with its FLT_SLUICE_CLK bit set (R550, R556). -/
def State.sluiceMclk (s : State) (o : Nat) : Bool := s.flt.safe && decide (o < 4) && s.flag aFltSluiceClk o

/-- The active level of output `o` at core cycle `t`: high for an MCLK, by POL for a frame pulse (R427, R428, R432); REF / 2 in
either phase on an MCLK of the sluice divider (R556; assumption 191). -/
def State.outLevel (s : State) (o : Nat) (t : Int) : Bool :=
  let c := s.out o
  let x := if s.sluiceMclk o then (Config.refAt t % 2 == 0) != Config.sluicePhase o else c.active (if c.onRef then Config.refAt t else t)
  if o < 4 then x else x != s.flag (aClkFrmo (o - 4)) 23

/-- The P and N balls of MCLKO o, or the ball of a frame pulse, at core cycle `t`; none is high-impedance (R427, R428, R433). -/
def State.outBalls (s : State) (o : Nat) (t : Int) : List (Option Bool) :=
  let c := s.out o
  let x := s.outLevel o t
  if o < 4 then
    let f := s.fld (aClkMclk o) 13 12
    if f = 0 ∨ c.drive = false then [none, none] else [some x, if f = 3 then some (!x) else none]
  else [if c.drive then some x else none]

/-- The reference state changes; outputs follow, the holdover clock starts or stops (R421, R424, R432). -/
def State.setRefSt (s : State) (st : RefSt) : State :=
  let old := s.clk.st
  if old = st then s
  else
    let s := if old = .locked ∧ st = .acquire then s.count aClkEvents 15 0 1 else s
    let s := if st = .holdover then s.setFld aClkHold 15 0 0 else s
    let c := { s.clk with st := st, good := 0, bad := 0, sum := 0, passes := 0, second := none, held := 0, since := s.grid.tick,
                          means := if old = .locked then [] else s.clk.means,
                          hexp := if st = .holdover then s.clk.hexp else false }
    ({ s with clk := c } : State).gateOuts

/-- REFERENCE_CHANGE: a reference is taken into use, or none is (R419 to R421): its next edge is the phase origin, the phase error
and the counts of periods start at 0.  The crystal locks in the next pass.  A current reference at another place of the list
stays in use. -/
def State.takeRef (s : State) (r : Option (Nat × Nat)) : State :=
  match r with
  | some (i, code) =>
    if s.clk.sel = some code then { s with clk := { s.clk with entry := i } }
    else
      let s := s.count aClkEvents 31 16 1
      let s := { s with clk := { s.clk with sel := some code, entry := i, origin := true, pherr := 0, good := 0, bad := 0,
                                            since := s.grid.tick } }
      let s := if code = 0 then s.later (s.grid.tick + 1) .crystal else s.setRefSt .acquire
      s.event sevNotice aClkRefState 16 20 code code
  | none =>
    let s := s.count aClkEvents 31 16 1
    let s := { s with clk := { s.clk with sel := none, entry := 0, goal := if s.clk.hist then s.clk.fhold else s.clk.goal } }
    let s := s.setRefSt (if s.clk.hist then .holdover else .free)
    s.event sevNotice aClkRefState 16 20 0x1F 0x1F

/-- The pass after a list that names the crystal has taken effect: LOCKED on it (R421, R442). -/
def State.crystalLock (s : State) : State := if s.clk.sel = some 0 then s.setRefSt .locked else s

/-- CLK_CTRL.AUTO (R435). -/
def State.refAuto (s : State) : Bool := s.flag aClkCtrl 0

/-- Candidate `code` becomes invalid: fall-back when it is the current reference (R416, R419). -/
def State.candLost (s : State) (code : Nat) : State :=
  let s := { s with clk := { s.clk with cands := mset {} s.clk.cands code {} } }
  if s.clk.sel = some code then s.takeRef (if s.refAuto then s.bestRef else none) else s

/-- Candidate `code` becomes valid: it is taken when no reference is current (R416, R419). -/
def State.candFound (s : State) : State :=
  match s.clk.sel with
  | some _ => s
  | none =>
    match s.bestRef with
    | none => s
    | some (i, c) => if s.refAuto || i == 0 then s.takeRef (some (i, c)) else s

/-- Candidate `code` stops meeting its test: it is invalid, and a new pair of blocks starts (R416). -/
def State.candStops (s : State) (code : Nat) : State :=
  if s.cand code = {} ∧ s.clk.sel ≠ some code then s else s.candLost code

/-- A write of the list is recognised (R419, R421). -/
def State.newList (s : State) : State :=
  let s := { s with clk := { s.clk with listed := true } }
  match s.refList with
  | [] => (if s.clk.sel = none then s else s.takeRef none).setRefSt .free
  | _ =>
    if s.refAuto then
      match s.bestRef with
      | some r => s.takeRef (some r)
      | none => if (match s.clk.sel with | some c => s.candValid c | none => true) then s else s.takeRef none
    else
      match s.bestRef with
      | some (0, c) => s.takeRef (some (0, c))
      | _ => if s.clk.sel = none then s else s.takeRef none

/-- A block of 256 periods of the current reference has ended, `sum` cycles long where `d` were expected: the phase error at its last
edge.  In the first block the origin is the edge after the reference was taken, and how long the period before it was is not
stated: a free value (R420, R422; assumption 167). -/
def State.phaseBlock (s : State) (sum d : Nat) : State :=
  let e : Int := s.clk.pherr + sum - d
  if s.clk.origin then
    { s with draws := s.draws + 1, clk := { s.clk with origin := false, pherr := e - (Config.freeWord s.draws).toInt } }
  else { s with clk := { s.clk with pherr := e } }

/-- A measurement block of 256 periods of a candidate has ended; `sum` is its length in cycles (R416). -/
def State.refBlock (s : State) (code sum : Nat) : State :=
  let d := 256 * s.refD code
  let w := s.fld aClkCtrl 3 2
  let ppm := if w = 0 then 20 else if w = 1 then 100 else if w = 2 then 500 else 1000
  let inside := decide (((sum : Int) - d).natAbs * 1000000 ≤ ppm * d)
  let usable :=
    if code = 1 ∨ code = 2 then decide (1024 ≤ s.refD code)
    else if 8 ≤ code then
      let k := code - 8
      let p := s.port k
      !s.pMaster k && !s.pAsync k && p.st != .off && !p.lost
    else (s.link (code - 4)).st == 2
  let s := if s.clk.sel = some code then s.phaseBlock sum d else s
  let c := s.cand code
  if inside && usable then
    let n := min 2 (c.blocks + 1)
    let v := decide (2 ≤ n)
    let c' : Cand := { blocks := n, valid := v, since := if c.valid then c.since else s.grid.tick }
    let s := { s with clk := { s.clk with cands := mset {} s.clk.cands code c' } }
    if v && !c.valid then s.candFound else s
  else if c.valid then s.candLost code
  else { s with clk := { s.clk with cands := mset {} s.clk.cands code {} } }

/-- The holdover word of the averages kept: their mean, its rounding left to the silicon (R424, assumption 5). -/
def State.holdMean (s : State) (means : List Int) : Int × State :=
  let n : Int := means.length
  let t := means.foldl (· + ·) 0
  if n = 0 then (s.clk.fhold, s)
  else if t % n = 0 then (t / n, s)
  else let (b, s) := s.drawBool; (t / n + (if b then 1 else 0), s)

/-- 4^HAVG seconds (R424). -/
def State.holdSpan (s : State) : Nat := 4 ^ s.fld aClkCtrl 17 16

/-- The end of a second in LOCKED: the average is updated (R424). -/
def State.holdAverage (s : State) : State :=
  match s.clk.st, s.clk.second with
  | .locked, some t =>
    let n : Int := s.fs
    let (m, s) :=
      if t % n = 0 then (t / n, s)
      else let (b, s) := s.drawBool; (t / n + (if b then 1 else 0), s)
    let ms := (m :: s.clk.means).take s.holdSpan
    let (f, s) := s.holdMean ms
    { s with clk := { s.clk with means := ms, second := none, fhold := f, hist := s.clk.hist || decide (ms.length = s.holdSpan) } }
  | _, _ => s

/-- F_ref's goal in the current state (R414, R421, R423): the loop's value for codes other than PTP is free. -/
def State.refGoal (s : State) : Int × State :=
  match s.clk.st with
  | .free => (s.xtalTrim, s)
  | .holdover => (s.clk.fhold, s)
  | _ =>
    match s.clk.sel with
    | some 0 => (s.xtalTrim, s)
    | some 3 => (s.clk.goal, s)
    | some c =>
      (clampF (Config.loopWord c s.draws), { s with draws := s.draws + 1 })
    | none => (s.xtalTrim, s)

/-- The pass index of a PTP time, ceil (t × fs) (R34). -/
def passOfTime (fs sec ns : Nat) : Nat := sec * fs + ceilDiv (ns * fs) 1000000000

/-- One more pass of the current second, in which F_ref was `f` (R424). -/
def Clk.addPass (c : Clk) (fs : Nat) (f : Int) : Clk :=
  if fs ≤ c.passes + 1 then { c with sum := 0, passes := 0, second := some (c.sum + f) }
  else { c with sum := c.sum + f, passes := c.passes + 1 }

/-- One more pass of a holdover: TIME counts its whole seconds (R424). -/
def State.holdPass (s : State) : State :=
  if s.clk.st = .holdover then
    let s := { s with clk := { s.clk with held := s.clk.held + 1 } }
    if s.clk.held % s.fs = 0 then s.setFld aClkHold 15 0 (satAdd 16 (s.fld aClkHold 15 0) 1) else s
  else s

/-- The time of an armed synchronisation has come at this strobe: its instant is fixed.  One found past, when it is recognised or
when the grid becomes ALIGNED, is fixed to the strobe of a pass after that, and is late (R37, R63, R430). -/
def State.syncStrobe (s : State) : State :=
  let dly := s.fld aClkSyncDly 15 0
  let ok := if s.inDomain then s.grid.state == .aligned else s.graphRuns
  let t := passOfTime s.fs ((s.reg aClkSyncTsHi).toNat * 2 ^ 32 + (s.reg aClkSyncTsLo).toNat)
    (min 999999999 (s.fld aClkSyncTns 29 0))
  let d := (BitVec.ofNat 48 t - s.grid.p).toInt
  if s.clk.armed = false ∨ s.flag aClkSync 24 = false ∨ s.clk.syncAt.isSome ∨ !ok ∨ 0 < d ∨ s.grid.tick < s.clk.syncFrom then s
  else if d < 0 ∧ s.grid.tick ≤ max s.clk.syncFrom s.grid.alignedAt then s
  else { s with clk := { s.clk with syncAt := some (s.grid.tick, dly, decide (d < 0)) } }

/-- The strobe's part: F_ref follows its goal within the ramp limit, F is formed, seconds are counted, SLEW outputs move, the instant
of an armed synchronisation is fixed (R412, R413, R424, R428, R430). -/
def State.clkStrobe (s : State) : State :=
  let (g, s) := s.refGoal
  let den := 1000000 * s.fs
  let num := 2 ^ min 10 (s.fld aClkCtrl 11 8) * 2 ^ 40 + s.clk.rampRem
  let lim : Int := (num / den : Nat)
  let fref := s.clk.fref + clampI (-lim) lim (g - s.clk.fref)
  let slew := Int.tdiv (s.grid.slewPpm * ppmUnit) 1000000
  let c := { s.clk with goal := g, fref := fref, f := clampF (fref + slew), rampRem := num % den, pass := s.clk.pass + 1 }
  let s := ({ s with clk := c.addPass s.fs fref } : State).holdPass
  ({ s with clk := { s.clk with outs := mupdAll {} s.clk.outs (fun o c => s.outSlew o c) (upto 8) } } : State).syncStrobe

/-- Output `o` realigns at core cycle `t` to targets that start `off` cycles after it (R428 to R430). -/
def State.realign (s : State) (o : Nat) (t off : Int) : State :=
  let f (c : OutClk) : OutClk := c.realign (outTime c.onRef t) (outTime c.onRef (t + off))
  { s with clk := { s.clk with outs := mupd {} s.clk.outs o f } }

end Sys2Proof.Machine
end

