-- ==== Sys2Proof/Machine/PortCmds.lean ====
section
/-!
DEFINITION. The commands of the serial ports (R355 to R364).  A decision command whose condition does not hold, or that
a standby twin would take on its own (R354), changes nothing (assumption 4).
-/

namespace Sys2Proof.Machine

/-- PORT_ENABLE: a write of PORT_CTRL that sets EN. -/
def execPortEnable (k : PortNo) (v : Word) (s : State) : Host.Outcome State Fault Refusal :=
  .next (if v.getLsbD 0 && !s.flag (aPortCtrl k) 0 then s.writePortCtrl k v else s)

/-- PORT_DISABLE: a write of PORT_CTRL that clears EN. -/
def execPortDisable (k : PortNo) (v : Word) (s : State) : Host.Outcome State Fault Refusal :=
  .next (if !v.getLsbD 0 && s.flag (aPortCtrl k) 0 then s.writePortCtrl k v else s)

/-- A lock of port `k` acts in pass `n`, the eighth frame's edge at `e` (R352, R355).  A port that had been lost is lost
no more (R358). -/
def State.lockAct (s : State) (k e n : Nat) : State :=
  let p := s.port k
  if p.st = .search ∧ (s.pMember k = false ∨ ((s.port (leadOf k)).st ≠ .off ∧ (s.port (leadOf k)).st ≠ .search)) then
    let h := n + s.fld (aPortTiming k) 11 0
    s.setPort k { p with st := .runin, zeroTo := h, env := Env.restart h, nextIn := none, nextOut := none,
                         lockPhase := e % 2 ^ 14, lost := false, healthy := 0 }
  else if p.lost then s.setPort k { p with lost := false, lockPhase := e % 2 ^ 14, nextIn := none, nextOut := none, healthy := 0 }
  else s

/-- PORT_LOCK: the eighth frame of length B fixes the assignment; `e` is the position of its input reference edge
(R352, R355). -/
def execPortLock (k : PortNo) (e : Nat) (s : State) : Host.Outcome State Fault Refusal :=
  .next (if (s.port k).found < 8 then s else s.relay (.lock k e) (fun n s => s.lockAct k e n))

/-- RUNIN_END: after the last pass of zero data the state is RAMP (R355). -/
def execRuninEnd (k : PortNo) (s : State) : Host.Outcome State Fault Refusal :=
  let p := s.port k
  .next (if p.st = .runin ∧ p.zeroTo ≤ s.grid.tick then s.setPort k { p with st := .ramp } else s)

/-- PORT_RAMP_END: after 256 frames of ramp the state is RUN (R355). -/
def execPortRampEnd (k : PortNo) (s : State) : Host.Outcome State Fault Refusal :=
  let p := s.port k
  .next (if p.st = .ramp ∧ rampK p.env.ramp s.grid.tick = 256 then s.setPort k { p with st := .run } else s)

/-- The balls of port `k` once its clock has stopped: BCLK rests at its level between a capture and a launch edge and FSYNC is
inactive where the port drives them, DOUT is low or, by IDLE, high-impedance (R350, R356). -/
def State.restLevels (s : State) (k : Nat) : State :=
  let p := s.port k
  let m := s.clockOf k
  s.setPort k { p with bclk := if s.drivesClock k then [!s.flag (aPortFrame m) 20] else [],
                       fsync := if s.drivesClock k then [some (s.flag (aPortFrame m) 18)] else [], sent := [],
                       dout := if p.driven && !s.flag (aPortCtrl k) 9 then [some false] else [] }

/-- PORT_STOP: after the stop fade and the clock run-out the port is OFF, and the members of a lead rest with it; an EN set
meanwhile is recognised in the next pass (R350, R356, R377). -/
def execPortStop (k : PortNo) (s : State) : Host.Outcome State Fault Refusal :=
  let p := s.port k
  .next (if p.st = .stopping ∧ p.stopAt ≤ s.grid.tick then
      let s' := (s.setPort k { p with st := .off, env := {}, restart := false, nextIn := none, nextOut := none }).restLevels k
      let s' := forAll ((s'.members k).filter (fun j => (s'.port j).st != .off)) s' (fun j s => s.restLevels j)
      if p.restart then s'.later s'.nextPass (.portOn k) else s'
    else s)

/-- TDM_FRAME: one frame in one direction, its reference edge `e` cycles after the strobe of the current pass, `len`
bit periods long, with the levels of DIN from bit period 0 on; an ASYNC port feeds its converters (R344, R352, R362).  A
port on a master's clock takes both from that clock (R346). -/
def execTdmFrame (k : PortNo) (out : Bool) (e len : Nat) (agree : Bool) (din : List Bool) (s : State) :
    Host.Outcome State Fault Refusal :=
  let slots := s.frameSlots k din
  .next (if s.pAsync k then
      if (s.port k).st = .off ∨ out then s
      else
        let p := s.port k
        let s := (s.setPort k { p with found := if len = s.pB k then p.found + 1 else 0 }).seenRef k false e
        forAll (upto 8) s (fun c s => if s.srcPort c = k ∧ s.flag (aSrcCtrl c) 0 then s.srcFrame c e slots else s)
    else (s.portFrame k out (s.refOf k out e) (s.lenOf k len) agree slots).seenRef k out (s.refOf k out e))

/-- A loss of port `k` acts in pass `n` (R358): LOST, rate 0 and class 0, the fade, the converters' WAIT. -/
def State.lossAct (s : State) (k n : Nat) : State :=
  let s := s.setPort k { s.port k with lost := true, found := 0, rate := 0, lastCls := 0 }
  let s := (s.setClass k 0).portFade k n
  forAll (upto 8) (s.candStops (8 + k)) (fun c s => if s.srcPort c = k then s.srcLost c n else s)

/-- By the end of the pass no input frame reference has come for the time of R358. -/
def State.refGone (s : State) (k : Nat) : Bool :=
  decide ((s.port k).refIn + (if s.pAsync k then 131072 else 4 * s.cyc) ≤ (s.grid.tick + 1) * s.cyc)

/-- FRAME_LOSS: no frame reference for the stated time (R358); a reference taken from the port is lost too. -/
def execFrameLoss (k : PortNo) (s : State) : Host.Outcome State Fault Refusal :=
  .next (if (s.port k).st = .off ∨ s.pMaster k ∨ !s.decides ∨ s.refGone k = false then s
    else s.relay (.loss k) (fun n s => s.lossAct k n))

/-- PORT_STUCK: a master's readback was wrong at 8 consecutive frames; each twin of a pair finds this of its own balls, and its
fade begins in the acting pass (R354, R358, R698). -/
def execPortStuck (k : PortNo) (fsync level : Bool) (s : State) : Host.Outcome State Fault Refusal :=
  let p := s.port k
  .next (if s.pMaster k && decide (8 ≤ p.bad) then
      let s := s.setPort k { p with lost := true, bad := 0 }
      let s := s.setFlag (aPortStat k) 5 true
      let s := s.raise 0x0F (0x10 + 2 * k + (if fsync then 1 else 0)) 0 (if level then 1 else 0)
      if s.twin.on then s.later (s.grid.tick + 2) (.portFade k) else s.portFade k s.grid.tick
    else s)

/-- A recovery of port `k` acts in pass `n` (R357). -/
def State.recoveryAct (s : State) (k n : Nat) : State :=
  let p := s.port k
  if p.st = .hold ∨ p.st = .fade then s.setPort k { p with st := .ramp, env := Env.restart n, healthy := 0 } else s

/-- PORT_RECOVERY: after 64 healthy passes the ramp runs from the next pass (R357). -/
def execPortRecovery (k : PortNo) (s : State) : Host.Outcome State Fault Refusal :=
  let p := s.port k
  .next (if 64 ≤ p.healthy ∧ p.lost = false then s.relay (.recovery k) (fun n s => s.recoveryAct k n) else s)

/-- The converters of port `k` take a rate measurement, acting in pass `n` (R398). -/
def State.rateAct (s : State) (k r prev n : Nat) : State :=
  forAll (upto 8) s (fun c s => if s.srcPort c = k ∧ s.pAsync k then s.srcMeasure c r prev n else s)

/-- RATE_MEASUREMENT: 1,024 frames took `cycles` core cycles (R360, R361, R398). -/
def execRateMeasurement (k : PortNo) (cycles : Nat) (s : State) : Host.Outcome State Fault Refusal :=
  .next (if cycles = 0 ∨ (s.port k).st = .off then s
    else
      let r := (divRne (1024 * 491520000 * 100) cycles).toNat % 2 ^ 25
      let p := s.port k
      let c := rateClass r
      let s := s.setPort k { p with rate := r, lastCls := c }
      let s := if c = p.lastCls ∧ c ≠ p.cls then s.relay (.cls k c) (fun _ s => s.setClass k c) else s
      if s.pAsync k then s.relay (.rate k r p.rate) (fun n s => s.rateAct k r p.rate n) else s)

/-- A release of pair `j` of port `k` acts in pass `n`: the pair ramps back (R364). -/
def State.naOff (s : State) (k j n : Nat) : State :=
  let p := s.port k
  let x := mget {} p.na j
  (s.setPort k { p with na := mset {} p.na j { since := x.since, env := Env.restart n } }).event sevNotice (aPortNa k) (16 + j) (16 + j) 0 k

/-- NON_AUDIO_RELEASE: no preamble for the release span (R364). -/
def execNonAudioRelease (k : PortNo) (pair : Fin 16) (s : State) : Host.Outcome State Fault Refusal :=
  let n := mget {} (s.port k).na pair
  .next (if n.act && decide (n.span ≤ n.since) then s.relay (.naOff k pair) (fun n s => s.naOff k pair n) else s)

end Sys2Proof.Machine
end

