-- ==== Sys2Proof/Machine/PdmCmds.lean ====
section
/-!
DEFINITION. The commands of the PDM block and the rate converters (R389 to R396, R403, R408).
-/

namespace Sys2Proof.Machine

/-- PDM_ENABLE: a write of PDM_CTRL that sets EN. -/
def execPdmEnable (v : Word) (s : State) : Host.Outcome State Fault Refusal :=
  .next (if v.getLsbD 0 && !s.flag aPdmCtrl 0 then s.relayWrite aPdmCtrl v (fun s => s.writePdmCtrl v) else s)

/-- PDM_DISABLE: a write of PDM_CTRL that clears EN. -/
def execPdmDisable (v : Word) (s : State) : Host.Outcome State Fault Refusal :=
  .next (if !v.getLsbD 0 && s.flag aPdmCtrl 0 then s.relayWrite aPdmCtrl v (fun s => s.writePdmCtrl v) else s)

/-- MIC_ENABLE: a write of PDM_MIC_EN that sets a bit. -/
def execMicEnable (v : Word) (s : State) : Host.Outcome State Fault Refusal :=
  .next (if v &&& ~~~s.reg aPdmMicEn &&& 0x0000FFFF#32 ≠ 0 then s.relayWrite aPdmMicEn v (fun s => s.writeMicEn v) else s)

/-- MIC_DISABLE: a write of PDM_MIC_EN that clears a bit. -/
def execMicDisable (v : Word) (s : State) : Host.Outcome State Fault Refusal :=
  .next (if s.reg aPdmMicEn &&& ~~~v ≠ 0 then s.relayWrite aPdmMicEn v (fun s => s.writeMicEn v) else s)

/-- TRIM_WRITE: a write of PDM_TRIMi. -/
def execTrimWrite (i : Fin 4) (v : Word) (s : State) : Host.Outcome State Fault Refusal := 
  .next (s.relayWrite (aPdmTrim i) v (fun s => s.writeTrim i v))

/-- SETTLE_END: after the settling passes the output ramps in (R391). -/
def execSettleEnd (m : MicNo) (s : State) : Host.Outcome State Fault Refusal :=
  let c := s.mic m
  .next (if c.st = .settle ∧ c.settleTo ≤ s.grid.tick then s.setMic m { c with st := .ramp }
    else if c.st = .ramp ∧ rampK c.env.ramp s.grid.tick = 256 then s.setMic m { c with st := .run } else s)

/-- PDM_DATA_STUCK: a microphone's bits held one value for 1,024 bits (R394, R698).  The end of a pass recognises it as soon as
its bits show it; so does this command where they show it and it has not been recognised. -/
def execPdmDataStuck (m : MicNo) (s : State) : Host.Outcome State Fault Refusal := .next (s.micStuckSeen m)

/-- PDM_DATA_RECOVERY: after 64 passes with both values the microphone ramps back (R394); recognised as above. -/
def execPdmDataRecovery (m : MicNo) (s : State) : Host.Outcome State Fault Refusal := .next (s.micBackSeen m)

/-- A stuck PDM clock acts in pass `n`: its microphones fade and hold (R394). -/
def State.clkStuckAct (s : State) (clk n : Nat) : State :=
  let s := { s with pdm := { s.pdm with clkStuck := s.pdm.clkStuck ||| (1#2 <<< clk) } }
  forAll (upto 16) (s.setFlag aPdmStat (4 + clk) true) (fun m s =>
    if micClk m = clk ∧ (s.mic m).st ≠ .off then
      let s := s.micHold m n
      s.setMic m { s.mic m with clkHeld := true }
    else s)

/-- PDM_CLK_STUCK: a clock's readback was wrong in 8 consecutive passes (R394, R698). -/
def execPdmClkStuck (clk : Fin 2) (level : Bool) (s : State) : Host.Outcome State Fault Refusal :=
  .next (if 8 ≤ mget 0 s.pdm.clkBad clk ∧ s.pdm.clkStuck.getLsbD clk = false ∧ s.decides then
      (s.relay (.clkStuck clk) (fun n s => s.clkStuckAct clk n)).raise 0x0F (0x50 + clk) 0 (if level then 1 else 0)
    else s)

/-- A recovered PDM clock acts in pass `n`: its held microphones restart (R394). -/
def State.clkBackAct (s : State) (clk n : Nat) : State :=
  let s := { s with pdm := { s.pdm with clkStuck := s.pdm.clkStuck &&& ~~~(1#2 <<< clk) } }
  forAll (upto 16) s (fun m s => if micClk m = clk ∧ (s.mic m).clkHeld then s.micStart m n else s)

/-- PDM_CLK_RECOVERY: after 8 passes of matching readback each held microphone restarts (R394). -/
def execPdmClkRecovery (clk : Fin 2) (s : State) : Host.Outcome State Fault Refusal :=
  .next (if 8 ≤ mget 0 s.pdm.clkGood clk ∧ s.pdm.clkStuck.getLsbD clk then s.relay (.clkBack clk) (fun n s => s.clkBackAct clk n) else s)

/-- SRC_ENABLE: a write of SRC_CTRL that sets EN. -/
def execSrcEnable (c : Fin 8) (v : Word) (s : State) : Host.Outcome State Fault Refusal :=
  .next (if v.getLsbD 0 && !s.flag (aSrcCtrl c) 0 then s.relayWrite (aSrcCtrl c) v (fun s => s.writeSrcCtrl c v) else s)

/-- SRC_DISABLE: a write of SRC_CTRL that clears EN. -/
def execSrcDisable (c : Fin 8) (v : Word) (s : State) : Host.Outcome State Fault Refusal :=
  .next (if !v.getLsbD 0 && s.flag (aSrcCtrl c) 0 then s.relayWrite (aSrcCtrl c) v (fun s => s.writeSrcCtrl c v) else s)

/-- CONVERTER_LOCKED: after 1,024 passes of small error the converter is LOCKED and ramps in (R403). -/
def execConverterLocked (c : Fin 8) (s : State) : Host.Outcome State Fault Refusal :=
  let x := s.src c
  .next (if x.st = .acquire ∧ 1024 ≤ x.good ∧ x.fades s.grid.tick = false then
      s.setSrc c { x with st := .locked, env := Env.restart s.grid.tick, good := 0 }
    else s)

end Sys2Proof.Machine
end

