-- ==== Sys2Proof/Machine/ClockCmds.lean ====
section
/-!
DEFINITION. The commands of the clock references, holdover, output clocks and clock supervision (R416 to R434).
-/

namespace Sys2Proof.Machine

/-- REF_BLOCK_END: 256 periods of candidate `code` took `cycles` core cycles. -/
def execRefBlockEnd (code : Fin 20) (cycles : Nat) (s : State) : Host.Outcome State Fault Refusal :=
  .next (if code.val = 0 ∨ code.val = 3 then s else s.refBlock code cycles)

/-- REF_EDGE_LOSS: no edge of candidate `code` for 2 × D_r cycles. -/
def execRefEdgeLoss (code : Fin 20) (s : State) : Host.Outcome State Fault Refusal :=
  .next (if code.val = 0 ∨ code.val = 3 then s else s.candLost code)

/-- WTR_EXPIRY: an entry above the current one has been valid for WTR seconds (R419). -/
def execWtrExpiry (entry : Fin 8) (s : State) : Host.Outcome State Fault Refusal :=
  let wtr := s.fld aClkCtrl 31 24
  .next (match s.clk.sel, s.refList[entry.val]? with
    | some _, some c =>
      if wtr ≠ 0 ∧ entry.val < s.clk.entry ∧ s.candValid c ∧ (s.cand c).since + wtr * s.fs ≤ s.grid.tick then
        s.takeRef (some (entry, c))
      else s
    | _, _ => s)

/-- REF_PRIO_WRITE: a write of CLK_REF_PRIO0 or CLK_REF_PRIO1; the next pass recognises it and selects the reference from the new
list (R419). -/
def execRefPrioWrite (second : Bool) (v : Word) (s : State) : Host.Outcome State Fault Refusal :=
  .next ((s.setReg (if second then aClkRefPrio1 else aClkRefPrio0) (v &&& 0x1F1F1F1F#32)).later s.nextPass .refList)

/-- The effective CLK_LOCK.WIN and COUNT (R438). -/
def State.lockWin (s : State) : Nat := max 1 (s.fld aClkLock 7 0)
/-- COUNT. -/
def State.lockCount (s : State) : Nat := min 4096 (max 16 (s.fld aClkLock 28 16))

/-- `n` periods of the current reference may have ended since it was taken or the state entered: for the PTP servo as many updates in
a row as are counted, for another reference the time that `n` − 1 periods take has passed (R415, R422). -/
def State.periodsMay (s : State) (n counted : Nat) : Bool :=
  match s.clk.sel with
  | some 3 => decide (n ≤ counted)
  | some c => decide ((n - 1) * s.refD c ≤ (s.grid.tick + 1 - s.clk.since) * s.cyc)
  | none => false

/-- CLOCK_LOCK: the COUNT-th consecutive period within WIN, `e` its phase error (R422).  A standalone engine leaves SYNC
(R578). -/
def execClockLock (e : Int) (s : State) : Host.Outcome State Fault Refusal :=
  .next (if s.clk.st = .acquire ∧ e.natAbs ≤ s.lockWin ∧ s.periodsMay s.lockCount s.clk.good then
      let s := { s with clk := { s.clk with pherr := e, origin := false } }
      (s.setRefSt .locked).syncOver
    else s)

/-- LOCK_LOSS: the fourth consecutive period outside WIN (R422). -/
def execLockLoss (e : Int) (s : State) : Host.Outcome State Fault Refusal :=
  .next (if s.clk.st = .locked ∧ s.clk.sel ≠ some 0 ∧ s.lockWin < e.natAbs ∧ s.periodsMay 4 s.clk.bad then
      ({ s with clk := { s.clk with pherr := e, origin := false } } : State).setRefSt .acquire
    else s)

/-- HOLDOVER_AVERAGE: the end of a second in LOCKED (R424). -/
def execHoldoverAverage (s : State) : Host.Outcome State Fault Refusal := .next s.holdAverage

/-- HOLDOVER_LIMIT: holdover has lasted LIMIT seconds (R424). -/
def execHoldoverLimit (s : State) : Host.Outcome State Fault Refusal :=
  let lim := s.fld aClkHold 31 16
  .next (if s.clk.st = .holdover ∧ lim ≠ 0 ∧ lim ≤ s.fld aClkHold 15 0 ∧ s.clk.hexp = false then
      ({ s with clk := { s.clk with hexp := true } } : State).event sevMajor aClkRefState 2 2 1 0
    else s)

/-- A write of CLK_CTRL: one that changes HAVG invalidates the history and restarts the averaging (R424). -/
def State.writeClkCtrl (s : State) (v : Word) : State :=
  let v := v &&& 0xFF030F3D#32
  let keep := bits v 17 16 == s.fld aClkCtrl 17 16
  let s := s.setReg aClkCtrl v
  if keep then s
  else { s with clk := { s.clk with hist := false, means := [], sum := 0, passes := 0, second := none } }

/-- CLK_CTRL_WRITE. -/
def execClkCtrlWrite (v : Word) (s : State) : Host.Outcome State Fault Refusal := .next (s.writeClkCtrl v)

/-- A write of CLK_SYNC: POL, SRC and MASK are written, DONE and LATE cleared by 1, and ARM arms one synchronisation in
place of an armed one (R430, R439). -/
def State.writeClkSync (s : State) (v : Word) : State :=
  let old := s.reg aClkSync
  let w1c := old &&& ~~~v &&& 0x60000000#32
  let s := s.setReg aClkSync ((v &&& 0x090000FF#32) ||| w1c)
  if v.getLsbD 31 then { s with clk := { s.clk with armed := true, syncFrom := s.nextPass, syncAt := none } } else s

/-- SYNC_ARM: a write of CLK_SYNC with ARM set. -/
def execSyncArm (v : Word) (s : State) : Host.Outcome State Fault Refusal :=
  .next (if v.getLsbD 31 then s.writeClkSync v else s)

/-- The outputs a synchronisation moves: MCLKO of MASK, and FRMO of MASK in ALIGN 2 (R430). -/
def State.syncOuts (s : State) : List Nat :=
  (upto 8).filter (fun o => s.flag aClkSync o && (decide (o < 4) || decide (2 ≤ s.fld (aClkFrmo (o - 4)) 25 24)))

/-- The instant of a synchronisation has come, cycle `c` after the strobe of pass `p`: the outputs realign, their targets starting
there, and DONE is set (R430). -/
def State.syncNow (s : State) (p c : Nat) (late : Bool) : State :=
  let t : Int := s.strobeCyc + ((p : Int) - s.grid.tick) * s.cyc + c
  let s := forAll s.syncOuts s (fun o s => s.realign o t 0)
  let s := { s with clk := { s.clk with armed := false, syncAt := none } }
  let s := s.setFlag aClkSync 30 true
  if late then (s.setFlag aClkSync 29 true).event sevMajor aClkSync 29 29 1 0 else s

/-- DIVIDER_SYNC: the armed synchronisation takes place in the pass of its instant (R430). -/
def execDividerSync (s : State) : Host.Outcome State Fault Refusal :=
  .next (match s.clk.armed, s.clk.syncAt with
    | true, some (p, c, late) => if p + c / s.cyc ≤ s.grid.tick then s.syncNow p c late else s
    | _, _ => s)

/-- SYNC_IN_EDGE: an edge captured `cycle` cycles after the strobe realigns JUMP outputs, and fixes the instant of a recognised
synchronisation that awaits one (R428, R430, R431). -/
def execSyncInEdge (rising : Bool) (cycle : Nat) (s : State) : Host.Outcome State Fault Refusal :=
  .next (if rising = s.flag aClkSync 27 then s
    else
      let s := forAll (upto 4) s (fun k s =>
        if s.fld (aClkFrmo k) 25 24 = 1 then s.realign (4 + k) (s.strobeCyc + cycle) (s.fld (aClkFrmoOffset k) 28 0) else s)
      if s.clk.armed ∧ s.flag aClkSync 24 = false ∧ s.clk.syncAt = none ∧ s.clk.syncFrom ≤ s.grid.tick then
        { s with clk := { s.clk with syncAt := some (s.grid.tick, cycle + s.fld aClkSyncDly 15 0, false) } }
      else s)

/-- REF_MONITOR: a window of 32 AON cycles counted `count` REF cycles (R434). -/
def execRefMonitor (count : Nat) (s : State) : Host.Outcome State Fault Refusal :=
  .next (s.detect 0x07 0 0 2 0 (decide (480 < ((count : Int) - 24000).natAbs)))

/-- CORE_LOCK_LOSS: the core synthesiser's lock detector dropped (R434). -/
def execCoreLockLoss (s : State) : Host.Outcome State Fault Refusal := .next (s.detect 0x08 0 0 2 0 true)

/-- CORE_FREQUENCY: 256 REF cycles counted `count` core cycles (R434). -/
def execCoreFrequency (count : Nat) (s : State) : Host.Outcome State Fault Refusal :=
  .next (s.detect 0x08 1 0 2 0
    (decide (2 * 2 ^ 40 < (((count : Int) - 5120) * 2 ^ 40 - 5120 * s.clk.f).natAbs)))

/-- NET_LOCK_LOSS: the network synthesiser's lock dropped (R434). -/
def execNetLockLoss (s : State) : Host.Outcome State Fault Refusal := .next (s.detect 0x09 0 0 1 0 true)

end Sys2Proof.Machine
end

