-- ==== Sys2Proof/Machine/Operands.lean ====
section
/-!
DEFINITION. The operand forms of the tile: reading registers by class, addressing and post-modification, products,
the conversion of an accumulator, the function unit's functions and the lane operations.
-/

namespace Sys2Proof.Machine

/-- s_i. -/
def Bank.getS (b : Bank) (i : Fin 16) : Word := mget 0 b.s i
/-- p_i. -/
def Bank.getP (b : Bank) (i : Fin 8) : BitVec 17 := mget 0 b.p i
/-- m_i. -/
def Bank.getM (b : Bank) (i : Fin 8) : BitVec 17 := mget 0 b.m i
/-- n_i. -/
def Bank.getN (b : Bank) (i : Fin 8) : BitVec 17 := mget 0 b.n i
/-- Lane l of v_r. -/
def Bank.getV (b : Bank) (r : Fin 16) (l : Fin 4) : Word := mget 0 b.v (4 * r + l)
/-- Lane l of a_r. -/
def Bank.getA (b : Bank) (r : Fin 2) (l : Fin 4) : Acc := mget 0 b.a (4 * r + l)

/-- A register as it reads in 32 bits: p and n zero-extended, m sign-extended (R230, R279). -/
def readSReg (b : Bank) : SReg → Word
  | .s i => b.getS i
  | .p i => (b.getP i).zeroExtend 32
  | .m i => (b.getM i).signExtend 32
  | .n i => (b.getN i).zeroExtend 32

/-- The write of a word into a register of a class: p, m and n take bits [16:0] (R230, R292). -/
def writeSReg (r : SReg) (x : Word) : RegWrite :=
  match r with
  | .s i => .s i x
  | .p i => .p i (x.truncate 17)
  | .m i => .m i (x.truncate 17)
  | .n i => .n i (x.truncate 17)

/-- The destination a class register is (R272). -/
def destSReg : SReg → Dest
  | .s i => .s i
  | .p i => .p i
  | .m i => .m i
  | .n i => .n i

/-- One register write applied to a bank. -/
def applyWrite (b : Bank) : RegWrite → Bank
  | .s i x => { b with s := mset 0 b.s i x }
  | .p i x => { b with p := mset 0 b.p i x }
  | .m i x => { b with m := mset 0 b.m i x }
  | .n i x => { b with n := mset 0 b.n i x }
  | .v r l x => { b with v := mset 0 b.v (4 * r + l) x }
  | .a r l x => { b with a := mset 0 b.a (4 * r + l) x }
  | .flags f => { b with stat := applyFlags f b.stat }
  | .stat x => { b with stat := x &&& statDefined }
  | .sticky bits => { b with stat := b.stat ||| bits }
  | .mode x => { b with mode := x }

/-- The bank with its loop stack replaced: the registers of a popped level keep their values. -/
def Bank.setLoops (b : Bank) (l : List Level) : Bank :=
  { b with loops := l, old := (b.loops.zipIdx.drop l.length).foldl (fun m e => mset {} m e.2 e.1) b.old }

/-- The registers of loop level `k` (R233). -/
def Bank.level (b : Bank) (k : Nat) : Level := match b.loops[k]? with | some v => v | none => mget {} b.old k

/-- A replacement of STAT comes before the other writes that become visible in the same bundle, so that no sticky
event is lost to it (R280). -/
def isStatRepl : RegWrite → Bool
  | .stat _ => true
  | _ => false

/-- When a result takes its place among the others: by the bundle that first sees it, and in one bundle a STAT replacement
before the other results (R237, R280). -/
def Pend.rank (e : Pend) : Nat := 2 * e.due + (if isStatRepl e.w then 0 else 1)

/-- A result placed behind those that become visible no later than it. -/
def insertPend (e : Pend) : List Pend → List Pend
  | [] => [e]
  | x :: l => if e.rank < x.rank then e :: x :: l else x :: insertPend e l

/-- Results in the order in which they become visible; of those that become visible together the later-issued one is last
(R237, R241). -/
def byVisible (l : List Pend) : List Pend := l.foldl (fun r e => insertPend e r) []

/-- The bank after the results due at issue number `n` have become visible (R237, R241, R280). -/
def retire (b : Bank) (pend : List Pend) (n : Nat) : Bank :=
  (byVisible (pend.filter (fun e => decide (e.due ≤ n)))).foldl (fun b e => applyWrite b e.w) b

/-- The results still in flight after issue number `n`. -/
def inFlight (pend : List Pend) (n : Nat) : List Pend := pend.filter (fun e => !decide (e.due ≤ n))

/-- The bank after every result in flight has retired (R289, R327). -/
def retireAll (b : Bank) (pend : List Pend) : Bank := (byVisible pend).foldl (fun b e => applyWrite b e.w) b

/-- The accumulator lane a MAC or ACC operation chains on: the newest result in flight, else the register (R238). -/
def chainAcc (b : Bank) (pend : List Pend) (r : Fin 2) (l : Fin 4) : Acc :=
  pend.foldl (fun x e => match e.w with
    | .a r' l' y => if r' = r ∧ l' = l then y else x
    | _ => x) (b.getA r l)

/-- The step of a post-modification in bytes (R248, R291). -/
def postStep (b : Bank) (ptr : Fin 8) (size : Nat) : Post → Int
  | .none => 0
  | .size => (size : Int)
  | .byM => (b.getM ptr).toInt

/-- Linear or circular post-modification (R249); a step of 0 leaves the pointer (R268). -/
def postModify (p n : BitVec 17) (step : Int) : BitVec 17 :=
  if step = 0 then p
  else if n = 0 then BitVec.ofInt 17 ((p.toNat : Int) + step)
  else
    let c := ceilLog2 17 n.toNat
    let base : Int := ((p.toNat / 2 ^ c * 2 ^ c : Nat) : Int)
    let o : Int := (p.toNat : Int) - base
    let o' := o + step
    let o'' := if (n.toNat : Int) ≤ o' then o' - n.toNat else if o' < 0 then o' + n.toNat else o'
    BitVec.ofInt 17 (base + o'')

/-- The access address of a memory instruction (R248, R291). -/
def accessAddr (b : Bank) (ptr : Fin 8) (off : Nat) : Nat := ((b.getP ptr).toNat + off) % 131072

/-- The post-modification write, when the POST field asks for one; POST 0 names no destination. -/
def postWrite (b : Bank) (ptr : Fin 8) (size : Nat) (post : Post) : List RegWrite :=
  match post with
  | .none => []
  | _ => [.p ptr (postModify (b.getP ptr) (b.getN ptr) (postStep b ptr size post))]

/-- The pointer as a destination, when it is post-modified (R272). -/
def postDest (ptr : Fin 8) : Post → List Dest
  | .none => []
  | _ => [.p ptr]

/-- The alignment SH of a product form (R242). -/
def macShift : MacForm → Nat
  | .coef => 2
  | .sample => 1
  | .square => 3
  | .integer => 0

/-- The aligned product of two words, exact (R242, R301). -/
def macProduct (f : MacForm) (x y : Word) : Int := x.toInt * y.toInt * ((2 ^ macShift f : Nat) : Int)

/-- Whether an exact accumulator sum lies outside −2^71 to 2^71 − 1 (R243). -/
def accWraps (x : Int) : Bool := decide (x < -(2 ^ 71) ∨ 2 ^ 71 ≤ x)

/-- Dropped bits D of a conversion (R247). -/
def convDrop : Conv → Nat
  | .word code => 24 + code
  | .p24 => 40

/-- Result bits W of a conversion (R247). -/
def convWidth : Conv → Nat
  | .word _ => 32
  | .p24 => 24

/-- Places the result is moved up, P (R247). -/
def convPlace : Conv → Nat
  | .word _ => 0
  | .p24 => 8

/-- The rounded quotient of a conversion: MODE bit 0 truncates, otherwise half to even (R246). -/
def convRound (mode : BitVec 2) (a : Int) (d : Nat) : Int :=
  if mode.getLsbD 0 then asr a d else divRne a (2 ^ d)

/-- The conversion of an accumulator: the result word and whether it was out of range (R246, R247). -/
def convert (mode : BitVec 2) (c : Conv) (acc : Acc) : Word × Bool :=
  let q := convRound mode acc.toInt (convDrop c)
  let hi : Int := 2 ^ (convWidth c - 1) - 1
  let lo : Int := -(2 ^ (convWidth c - 1))
  let out := decide (q < lo ∨ hi < q)
  let q' := if mode.getLsbD 1 then q else clampI lo hi q
  (BitVec.ofInt 32 (q' % (2 ^ convWidth c) * (2 ^ convPlace c)), out)

/-- The function unit's result and whether an operand lay outside its range (R244, R286). -/
def fuResult (op : FuOp) (a b : Word) : Word × Bool :=
  let x := a.toInt
  let y := b.toInt
  match op with
  | .rcp =>
    if 2 ^ 30 ≤ x then (BitVec.ofInt 32 (divRne (2 ^ 60) a.toNat), false) else (0x7FFFFFFF#32, true)
  | .rsq =>
    if 2 ^ 29 ≤ x then
      let t := isqrt 33 (2 ^ 92 / a.toNat)
      (BitVec.ofNat 32 ((t + 1) / 2), false)
    else (0x7FFFFFFF#32, true)
  | .log2 => if 2 ^ 30 ≤ x then (BitVec.ofNat 32 (log2Q31 a.toNat), false) else (0, true)
  | .exp2 => if 0 ≤ x then (BitVec.ofNat 32 (exp2Q30 a.toNat), false) else (0x40000000#32, true)
  | .div =>
    if x.natAbs < y.natAbs then
      let n := x * 2 ^ 31 * (if y < 0 then -1 else 1)
      (BitVec.ofInt 32 (min (divRne n y.natAbs) 2147483647), false)
    else if (y = 0 ∧ 0 ≤ x) ∨ (y ≠ 0 ∧ (x < 0 ↔ y < 0)) then (0x7FFFFFFF#32, true)
    else (0x80000000#32, true)

/-- The four lanes of a tile. -/
def lanes : List (Fin 4) := [0, 1, 2, 3]

/-- The STAT.SAT bit of a lane. -/
def satBit (l : Fin 4) : Word := bitWord (statSat + l) true

/-- The STAT.AOV bit of a lane. -/
def aovBit (l : Fin 4) : Word := bitWord (statAov + l) true

/-- Saturation of an exact lane result, with the saturation event (R304, R305). -/
def satLane (x : Int) : Word × Bool := (BitVec.ofInt 32 (sat32 x), decide (sat32 x ≠ x))

/-- Count of bits below bit 31 that equal bit 31 (CLS, R275). -/
def countSign (a : Word) : Nat :=
  let rec go : Nat → Nat
    | 0 => 0
    | k + 1 => if a.getLsbD k = a.msb then go k + 1 else 0
  go 31

/-- Count of leading zero bits (CLZ, R275). -/
def countZero (a : Word) : Nat :=
  let rec go : Nat → Nat
    | 0 => 0
    | k + 1 => if a.getLsbD k then 0 else go k + 1
  go 32

end Sys2Proof.Machine
end

