-- ==== Sys2Proof/Machine/MemOps.lean ====
section
/-!
DEFINITION. Memories as their readers see them: MEMIDs and rows, error marks, the scrubber, repair and the secure region
(R520 to R534).
-/

namespace Sys2Proof.Machine

/-- The MEMID of the word at an address (R524).  Error marks of an instruction memory are kept by physical memory:
memory 0 at window offset 0x2_0000, memory 1 at 0x2_8000. -/
def memIdOf (a : Nat) : Nat :=
  if inMpd a then
    let o := (a - mpdBase) % 0x00600000
    4 * quadOf a + o / 16 % 4
  else if a < 0x18040000 then 0x300 + a / 16 % 4
  else
    let n := (a - 0x20000000) / 0x40000
    let o := a % 0x40000
    0x100 + 8 * n + (if o < 0x20000 then o / 16 % 4 else if o < 0x28000 then 4 else 5)

/-- Rows of a memory, without its spares (R524). -/
def memRows (id : Nat) : Nat :=
  if id < 0x10 then 98304 else if id < 0x300 then 2048 else 4096

/-- The device-bus addresses of the words in a row (R251, R520, R524). -/
def rowWords (id row : Nat) : List Nat :=
  if id < 0x10 then
    let b := mpdBase + 0x00600000 * (id / 4) + 64 * row + 16 * (id % 4)
    [b, b + 4, b + 8, b + 12]
  else if id < 0x300 then
    let n := (id - 0x100) / 8
    let k := (id - 0x100) % 8
    if k < 4 then
      let b := tileBase n + 64 * row + 16 * k
      [b, b + 4, b + 8, b + 12]
    else
      let b := tileBase n + (if k = 4 then 0x20000 else 0x28000) + 8 * row
      [b, b + 4]
  else
    let b := 0x18000000 + 64 * row + 16 * (id % 4)
    [b, b + 4, b + 8, b + 12]

/-- The MEMID names a memory of R524 other than the boot ROM. -/
def memIdOk (id : Nat) : Bool :=
  decide (id < 0x10) || (decide (0x100 ≤ id) && decide (id < 0x300) && decide ((id - 0x100) % 8 < 6))
    || (decide (0x300 ≤ id) && decide (id < 0x304))

/-- The power domain of a memory: its quadrant, its tile, or AON (R520, R528). -/
def memDom (id : Nat) : Option Nat :=
  if id < 0x10 then some (72 + id / 4) else if id < 0x300 then some ((id - 0x100) / 8) else none

/-- A memory is powered and in service. -/
def State.memOn (s : State) (id : Nat) : Bool :=
  match memDom id with
  | some d => s.domOn d
  | none => true

/-! ## Errors found by a read -/

/-- The tile of an address in a tile window. -/
def tileOf (a : Nat) : Nat := (a - 0x20000000) / 0x40000

/-- The device-bus address of a word whose mark is kept at `a`: an instruction memory is addressed by its role (R260). -/
def State.busAddr (s : State) (a : Nat) : Nat :=
  if 0x20000000 ≤ a ∧ a < 0x21000000 ∧ 0x20000 ≤ a % 0x40000 ∧ (s.tile (tileOf a)).frontIsB then
    (if a % 0x40000 < 0x28000 then a + 0x8000 else a - 0x8000)
  else a

/-- A tile stops and mutes until a restart at the next strobe (R332): what was issued before completes (R327). -/
def State.stopTile (s : State) (n : Nat) : State :=
  let t := s.tile n
  if t.run = .halted then s
  else s.setTile n { t with run := .halted, ctx := false, smp := retireAll t.smp t.sf.pend, ctl := retireAll t.ctl t.cf.pend,
                            sf := { t.sf with pend := [], wait := none }, cf := { t.cf with pend := [] },
                            buf := [], bufOpen := false, waiting := false, muted := true, restartIn := 1, rampK := 0 }

/-- A word of a tile waits for its rewrite from flash, so the tile's restart waits too (R334). -/
def State.eccHeld (s : State) (n : Nat) : Bool := s.ms.tileBad.any (fun a => tileOf a == n)

/-- MPD_ECC counters and MPD_ECC_LAST, MPD_ECC_ADDR (R544). -/
def State.eccSeen (s : State) (a : Nat) (ue : Bool) (bit : Nat) : State :=
  let s := if ue then s.count aMpdEccUe 15 0 1 else s.count aMpdEccCe 31 0 1
  let w := (if ue then 2 ^ 31 else 0) + memIdOf a * 2 ^ 16 + (if ue then 0x3F else bit)
  (s.setReg aMpdEccLast (BitVec.ofNat 32 w)).setReg aMpdEccAddr (BitVec.ofNat 32 (s.busAddr a))

/-- The range of `n` bytes at `a` reads 0 and is right (R527). -/
def State.zeroRange (s : State) (a n : Nat) : State :=
  let keep := fun (e : Nat × Nat) => !(decide (a ≤ e.1) && decide (e.1 < a + n))
  ({ s with mem := s.mem.filter (fun c => !(decide (a ≤ c.1) && decide (c.1 < a + n))),
            ms := { s.ms with ecc := s.ms.ecc.filter keep } } : State).markDirty a n

/-- Millpond words of clips and recordings: whether `a` lies in a recording (R527, R618). -/
def State.inRecording (s : State) (a : Nat) : Bool :=
  match s.image with
  | some im => im.clips.any (fun c => c.recording && decide (c.addr ≤ a) && decide (a < c.addr + c.bytes))
  | none => false

/-- The initialised data of tile n: of its front, with what the parts before it brought, and of the part that is staged for it
(R80, R184). -/
def State.liveInit (s : State) (n : Nat) : List InitChunk :=
  (s.prog n).init ++ (match mget none s.scn.backs n with | some p => p.init | none => [])

/-- A tile data word that the engine restores from the image: coefficients, parameter tables or initialised data
(R527). -/
def State.inDeclared (s : State) (n a : Nat) : Bool :=
  let o := a - tileBase n
  s.scn.nodes.any (fun r => 8 * r.cluster + (r.tile.getD 0) == n &&
      ((decide (r.paramAddr ≤ o) && decide (o < r.paramAddr + 4 * r.paramWords)) ||
       (decide (r.coefAddr ≤ o) && decide (o < r.coefAddr + r.coefBytes))))
    || (s.liveInit n).any (fun c => decide (c.1 ≤ o) && decide (o < c.1 + c.2.length))

/-- What an uncorrectable error at `a` brings, by its location (R527). -/
def State.ueAction (s : State) (a : Nat) : State :=
  let id := memIdOf a
  if id < 0x10 then
    match s.areaAt a with
    | some 1 =>
      if s.inRecording a then (s.zeroRange (a / 4096 * 4096) 4096).raise 0x02 id 1 0
      else ({ s with ms := { s.ms with clipBad := if s.ms.clipBad.contains a then s.ms.clipBad else s.ms.clipBad ++ [a] } } : State).raise 0x02 id 1 0
    | some 2 => s.raise 0x02 id 1 0
    | some _ => (s.zeroRange (a / 4096 * 4096) 4096).raise 0x02 id 1 0
    | none => ((s.zeroRange (a / 64 * 64 + a / 16 % 4 * 16) 16).raise 0x02 id 0 0).event sevNotice aMpdEccLast 31 31 1 a
  else if id < 0x300 then
    let n := (id - 0x100) / 8
    let p := s.prog n
    let o := a - tileBase n
    let state := decide (p.stateBase ≤ o) && decide (o < p.stateBase + p.stateBytes)
    let restore := decide (4 ≤ (id - 0x100) % 8) || (s.inDeclared n a && !state)
    let s := if restore then
        ({ s with ms := { s.ms with tileBad := if s.ms.tileBad.contains a then s.ms.tileBad else s.ms.tileBad ++ [a] } } : State)
      else s.zeroRange a 4
    (s.raise 0x02 id 1 0).stopTile n
  else s.raise 0x02 id 2 0

/-- One word as a reader gets it: corrected, or 0 after an uncorrectable error, with the reports and the rewrite that
follow (R526, R527). -/
def State.readWord (s : State) (a : Nat) : Word × State :=
  let e := mget 0 s.ms.ecc a
  if e = 0 then (if s.ms.clipBad.contains a then 0 else s.rd32 a, s)
  else if e < 64 then
    let s' := (s.eccSeen a false (e - 1)).raise 0x01 (memIdOf a) 0 (e - 1)
    let q := if s'.ms.rewrites.contains a then s'.ms.rewrites else s'.ms.rewrites ++ [a]
    (s.rd32 a, { s' with ms := { s'.ms with rewrites := q } })
  else (0, (s.eccSeen a true 0).ueAction a)

/-! ## The scrubber -/

/-- One word of a scrubbed row: a single-bit error is corrected and rewritten (R525). -/
def State.scrubWord (s : State) (a : Nat) : State :=
  let e := mget 0 s.ms.ecc a
  if e = 0 then s
  else if e < 64 then
    let s := (s.eccSeen a false (e - 1)).raise 0x01 (memIdOf a) 0 (e - 1)
    { s with ms := { s.ms with ecc := mset 0 s.ms.ecc a 0, rewrites := s.ms.rewrites.filter (· ≠ a) },
             svc := { s.svc with errors := satAdd 8 s.svc.errors 1 } }
  else (s.eccSeen a true 0).ueAction a

/-- The March test of a memory runs: its scrubber pauses (R531). -/
def State.underMarch (s : State) (id : Nat) : Bool :=
  match s.ms.march with
  | some m => m.memid == id
  | none => false

/-- The scrubber of a memory reads its next row (R525); a full sweep is timed, and ends that memory's part of a
requested sweep (R665). -/
def State.scrubRow (s : State) (id : Nat) : State :=
  if !memIdOk id ∨ !s.memOn id ∨ s.underMarch id ∨ (!s.flag aMpdScrub 0 ∧ !s.svc.sweep.contains id) then s
  else
    let r := mget 0 s.ms.scrubRow id
    let s := forAll (rowWords id r) s (fun a s => s.scrubWord a)
    if r + 1 < memRows id + 2 then { s with ms := { s.ms with scrubRow := mset 0 s.ms.scrubRow id (r + 1) } }
    else
      let took := s.grid.tick - mget 0 s.ms.sweepFrom id
      let ms := { s.ms with scrubRow := mset 0 s.ms.scrubRow id 0,
                            sweepFrom := mset 0 s.ms.sweepFrom id s.grid.tick,
                            sweepTook := mset 0 s.ms.sweepTook id took }
      let left := s.svc.sweep.filter (· ≠ id)
      let fin := if s.svc.sweep ≠ [] ∧ left = [] then some 1 else s.svc.ended
      { s with ms := ms, svc := { s.svc with sweep := left, ended := fin } }

/-! ## The secure region -/

/-- A wipe of the secure region starts; a wipe that runs serves both causes (R529, R545). -/
def State.startWipe (s : State) (tamper : Bool) : State :=
  let s := (s.zeroRange 0x18000000 0x40000)
  let s := { s with ms := { s.ms with wiping := true, wipeTamper := s.ms.wipeTamper || tamper },
                    nvm := { s.nvm with slot0 := none, slot1 := none } }
  if tamper then s.setFlag aMpdSecStat 31 true else s

/-- The secure region answers reads with 0 and ignores writes (R529). -/
def State.secDead (s : State) : Bool := s.ms.wiping || s.ms.secLock || s.ms.tamperLow

/-- The latest repair list of a memory as a REPAIR record's payload (R629). -/
def repairBytes (id : Nat) (t : RepairTab) : List Byte :=
  let rows := t.row0.toList ++ t.row1.toList
  leBytes 2 id ++ [BitVec.ofNat 8 rows.length, 0] ++ leBytes 4 ((rows[0]?).getD 0) ++ leBytes 4 ((rows[1]?).getD 0)

/-- A failing row takes a free good spare, if there is one (R533). -/
def RepairTab.take (t : RepairTab) (row : Nat) : Option RepairTab :=
  if t.row0.isNone && !t.bad0 then some { t with row0 := some row }
  else if t.row1.isNone && !t.bad1 then some { t with row1 := some row }
  else none

/-- A bank's table after a test with the failing rows `fails`, spares after its `n` rows: a spare that fails, itself or as the row it
stands in for, is bad and not used; `again` are the rows that lose theirs (R533, R545; DESIGN CHOICE, log entry 186). -/
def RepairTab.tested (t : RepairTab) (n : Nat) (fails : List Nat) : RepairTab :=
  let hit (e : Nat) (r : Option Nat) : Bool := fails.contains (n + e) || r.any (fun r => fails.contains r)
  { row0 := if hit 0 t.row0 then none else t.row0, row1 := if hit 1 t.row1 then none else t.row1,
    bad0 := t.bad0 || hit 0 t.row0, bad1 := t.bad1 || hit 1 t.row1 }

/-- The rows that a table names. -/
def RepairTab.rows (t : RepairTab) : List Nat := t.row0.toList ++ t.row1.toList

/-- Failing rows take spares, in order: the table after each, and whether it found one (R533). -/
def RepairTab.fill (t : RepairTab) : List Nat → List (RepairTab × Bool)
  | [] => []
  | r :: rs => match t.take r with
    | some u => (u, true) :: u.fill rs
    | none => (t, false) :: t.fill rs

end Sys2Proof.Machine
end

