-- ==== Sys2Proof/Machine/SvcOps.lean ====
section
/-!
DEFINITION. The monitors' windows and records (R644 to R648, R651).
-/

namespace Sys2Proof.Machine

/-! ## The CORE clock and the switched domains -/

/-- The CORE clock domain stops: the grid is STOPPED, P keeps its value (R35; assumption 132). -/
def State.coreStop (s : State) : State := { s with grid := { s.grid with ran := true, state := .stopped, slewPpm := 0 } }

/-- The CORE clock has stopped since BOOT. -/
def State.coreOff (s : State) : Bool := s.grid.ran && s.grid.state == .stopped

/-- Every switched domain but those listed is off (R549, R598). -/
def State.powerOffBut (s : State) (keep : List Nat) : State :=
  { s with pwr := { s.pwr with dom := s.pwr.dom.filter (fun e => keep.contains e.1) } }

/-- The end of a thermal shutdown: STEW is off as well, only PORTS stays on (R598). -/
def State.thermalOff (s : State) : State := (s.powerOffBut [76]).coreStop

/-- The configuration of a monitor is invalid (R644, R646). -/
def State.monBad (s : State) (m : Nat) : Bool :=
  let c := s.reg (aTlyMonCfg m)
  let src := bits c 29 24
  let arg := bits c 12 0
  let meter : Option NodeRec := match s.image with
    | some im => im.nodes.find? (fun r => r.inst == arg && r.type == 0x0014)
    | none => none
  s.fld (aTlyMonHcfg m) 15 0 == 0 || src == 0 || decide (12 ≤ src)
    || ((src == 1 || src == 2 || src == 3) && decide (64 ≤ arg)) || (src == 4 && decide (16 ≤ arg))
    || (src == 7 && decide (128 ≤ arg)) || (src == 8 && decide (4 ≤ arg))
    || ((src == 5 || src == 6 || src == 10 || src == 11) && arg != 0)
    || (src == 9 && (match meter with | some r => decide (r.nIn ≤ bits c 21 16) | none => true))

/-- The histogram bin of a sample (R646). -/
def State.monBin (s : State) (m : Nat) (v : Int) : Nat :=
  let w := s.fld (aTlyMonHcfg m) 15 0
  let d := v - (s.reg (aTlyMonLo m)).toInt
  if d < w then 0
  else
    let q := d.toNat / w
    if s.flag (aTlyMonHcfg m) 31 then min 15 (1 + msbBelow 40 q) else min 15 q

/-- A sample enters a monitor's window (R646). -/
def State.monSample (s : State) (m : Nat) (v : Int) : State :=
  let x := s.mon m
  if !x.run then s
  else
    let c := x.cur
    let b := s.monBin m v
    s.setMon m { x with cur :=
      { min := if v < c.min then v else c.min, max := if c.max < v then v else c.max, count := satAdd 32 c.count 1,
        sum := clampI (-(2 ^ 63)) (2 ^ 63 - 1) (c.sum + v), bins := mupd 0 c.bins b (fun n => satAdd 32 n 1) } }

/-- A source event: every monitor of this source and unit takes the sample (R644). -/
def State.monitor (s : State) (src arg : Nat) (v : Int) : State :=
  s.tly.mons.foldl (fun s e =>
    let c := s.reg (aTlyMonCfg e.1)
    if e.2.run && bits c 29 24 == src && bits c 12 0 == arg then s.monSample e.1 v else s) s

/-- A window closes: its values go to the held bank, its records are due in the next pass, and a new window opens unless a
write that clears EN is recognised in this pass (R645, R647). -/
def State.monClose (s : State) (m : Nat) : State :=
  let x := s.mon m
  let (now, later) := x.stop.partition (fun e => decide (e.1 ≤ s.grid.tick))
  if !x.run then s.setMon m { x with stop := later }
  else s.setMon m { x with held := x.cur, heldIx := x.ix, cur := {}, ix := (x.ix + 1) % 2 ^ 32, left := s.fld (aTlyMonWin m) 31 0,
                           run := now.all (·.2), stop := later, due := some s.p32 }

/-- The windows that close by hand at the end of the pass do so (R645). -/
def State.windowsStop (s : State) : State :=
  s.tly.mons.foldl (fun s e => if e.2.stop.any (fun x => decide (x.1 ≤ s.grid.tick)) then s.monClose e.1 else s) s

/-- The byte that encodes a bin's count (R651). -/
def binByte (c : Nat) : Byte :=
  if c = 0 then 0
  else
    let e := msbBelow 32 c
    let m := 8 * c / 2 ^ e - 8
    BitVec.ofNat 8 (min 255 (1 + 8 * e + m))

/-- The records of a window closed in an earlier pass, as HCFG.REC selects (R648, R650). -/
def State.monRecords (s : State) (m : Nat) : State :=
  let x := s.mon m
  match x.due with
  | none => s
  | some pass => if pass = s.p32 then s else
    let s := s.setMon m { x with due := none }
    let h := x.held
    let rec_ := s.fld (aTlyMonHcfg m) 21 20
    let crossed := decide (h.count ≠ 0) && (decide ((s.reg (aTlyMonLimHi m)).toInt < h.max) || decide (h.min < (s.reg (aTlyMonLimLo m)).toInt))
    let sev := if crossed then s.fld (aTlyMonHcfg m) 27 26 else s.fld (aTlyMonHcfg m) 25 24
    let src := BitVec.ofNat 8 (s.fld (aTlyMonCfg m) 29 24)
    if rec_ = 1 ∨ (rec_ = 2 ∧ crossed) then
      let w (v : Int) : List Byte := leBytes 4 (BitVec.ofInt 32 v).toNat
      let s := s.record 4 sev false m ([src, 0] ++ leBytes 4 pass ++ w h.min ++ w h.max ++ leBytes 4 h.count)
      s.record 5 sev false m ([src, if s.flag (aTlyMonHcfg m) 31 then 1 else 0] ++ (upto 16).map (fun b => binByte (mget 0 h.bins b)))
    else s

end Sys2Proof.Machine
end

