-- ==== Sys2Proof/Machine/NvmOps.lean ====
section
/-!
DEFINITION. The flash, the journal, image slots, fuses and the key store (chapter NVM Image, Journal and Life Cycle).
-/

namespace Sys2Proof.Machine

/-! ## Layout (R610) -/

/-- S, the flash density in bytes. -/
def Nvm.bytes (n : Nvm) : Nat := if n.size = 0 then 0 else 2 ^ n.size
/-- J, the size of a journal chain. -/
def Nvm.chainBytes (n : Nvm) : Nat := min (n.bytes / 64) 0x100000
/-- Z, the size of an image slot. -/
def Nvm.slotBytes (n : Nvm) : Nat :=
  if n.size = 0 then 0 else (n.bytes - 0x10000 - 2 * n.chainBytes) / 2 / 0x10000 * 0x10000
/-- Base of a journal chain. -/
def Nvm.chainBase (n : Nvm) (c : Nat) : Nat := 0x10000 + c * n.chainBytes
/-- Base of slot A (false) or B (true). -/
def Nvm.slotBase (n : Nvm) (b : Bool) : Nat := 0x10000 + 2 * n.chainBytes + (if b then n.slotBytes else 0)
/-- Pages of a chain. -/
def Nvm.chainPages (n : Nvm) : Nat := n.chainBytes / 256

/-- A flash byte; erased bytes read 0xFF (R608). -/
def Nvm.fb (n : Nvm) (a : Nat) : Byte := mget 0xFF n.flash a
/-- The next `k` bytes of a sorted map from `a` up, of which no key lies below `a`; `d` where it lists none. -/
def runFrom (d : Byte) : Nat → Nat → SMap Byte → List Byte
  | 0, _, _ => []
  | k + 1, a, [] => d :: runFrom d k (a + 1) []
  | k + 1, a, e :: m => if e.1 = a then e.2 :: runFrom d k (a + 1) m else d :: runFrom d k (a + 1) (e :: m)

/-- Flash bytes from `a` up. -/
def Nvm.fbs (n : Nvm) (a k : Nat) : List Byte := runFrom 0xFF k a (n.flash.dropWhile (fun e => decide (e.1 < a)))

/-- The flash with bytes programmed from `a` up: a program only clears bits. -/
def flashProg (m : SMap Byte) (a : Nat) : List Byte → SMap Byte
  | [] => m
  | b :: bs => flashProg (mset 0xFF m a (mget 0xFF m a &&& b)) (a + 1) bs

/-- The flash with `n` bytes from `a` erased. -/
def flashErase (m : SMap Byte) (a n : Nat) : SMap Byte := m.filter (fun e => !(decide (a ≤ e.1) && decide (e.1 < a + n)))

/-! ## Records (R627, R628) -/

/-- The bytes of a record before its CRC, the payload padded to a multiple of 4 (R627). -/
def JRec.head (r : JRec) : List Byte :=
  [BitVec.ofNat 8 r.type, 0] ++ leBytes 2 r.data.length ++ leBytes 4 r.seq ++ r.data
    ++ List.replicate ((4 - r.data.length % 4) % 4) 0

/-- A record with its CRC. -/
def JRec.bytes (r : JRec) : List Byte := r.head ++ leBytes 4 (crc32c r.head)

/-- Bytes a record takes in a page. -/
def JRec.size (r : JRec) : Nat := 12 + (r.data.length + 3) / 4 * 4

/-- The sector header at the start of the first page of every 4 KiB sector (R626). -/
def sectorHead (chain gen sector : Nat) : List Byte :=
  let h := leBytes 2 0x4A4E ++ [BitVec.ofNat 8 chain, 0] ++ leBytes 4 gen ++ leBytes 2 sector ++ [0, 0]
  h ++ leBytes 4 (crc32c h)

/-- The bytes of page `p` of a chain that holds these records, closed with the marker (R626, R628). -/
def pageBytes (chain gen p markSeq : Nat) (rs : List JRec) : List Byte :=
  let h := if p % 16 = 0 then sectorHead chain gen (p / 16) else []
  let b := h ++ rs.flatMap JRec.bytes ++ [0, 0, 0, 0] ++ leBytes 4 markSeq
  b ++ leBytes 4 (crc32c b)

/-- Room for records in page `p`: 256 bytes less the sector header and the marker (R627). -/
def pageRoom (p : Nat) : Nat := 256 - 12 - (if p % 16 = 0 then 16 else 0)

/-- The records at the front of the queue that fit, numbered from `seq`, and the rest (R630). -/
def packPage : Nat → Nat → List JRec → List JRec × List JRec
  | _, _, [] => ([], [])
  | room, seq, r :: rs =>
    if r.size ≤ room then
      let (a, b) := packPage (room - r.size) ((seq + 1) % 2 ^ 32) rs
      ({ r with seq := seq } :: a, b)
    else ([], r :: rs)

/-- Records parsed from a page's bytes after its header, up to the marker: each record's own CRC must match; a bad
LENGTH ends the page (R628, R643).  Answers the records, and the marker's position when there is one. -/
def parsePage (fuel : Nat) (pos : Nat) (bs : List Byte) : List JRec × Option Nat :=
  match fuel with
  | 0 => ([], none)
  | fuel + 1 =>
    let type := ((bs[0]?).getD 0xFF).toNat
    let len := leNat ((bs.drop 2).take 2)
    let seq := leNat ((bs.drop 4).take 4)
    if type = 0xFF ∨ bs.length < 12 then ([], none)
    else if type = 0 ∧ len = 0 then ([{ type := 0, seq := seq, data := [] }], some pos)
    else if len = 0 ∨ 216 < len then ([], none)
    else
      let n := 8 + (len + 3) / 4 * 4
      let ok := decide (leNat ((bs.drop n).take 4) = crc32c (bs.take n))
      let (rs, m) := parsePage fuel (pos + n + 4) (bs.drop (n + 4))
      (if ok then ({ type := type, seq := seq, data := (bs.drop 8).take len } :: rs, m) else (rs, m))

/-- A page is complete when its marker exists and the marker's CRC matches (R628): its records, marker included. -/
def pageRecs (p : Nat) (bs : List Byte) : Option (List JRec) :=
  let h := if p % 16 = 0 then 16 else 0
  match parsePage 24 h (bs.drop h) with
  | (rs, some m) => if leNat ((bs.drop (m + 8)).take 4) = crc32c (bs.take (m + 8)) then some rs else none
  | (_, none) => none

/-! ## The boot scan (R631) -/

/-- What the scan of a chain has found so far. -/
structure Scan where
  recs : List JRec := []
  last : Option Nat := none
  torn : Nat := 0
  used : Nat := 0
  deriving DecidableEq, Repr

/-- One page of the scan. -/
def Nvm.scanPage (n : Nvm) (c : Nat) (x : Scan) (p : Nat) : Scan :=
  let bs := n.fbs (n.chainBase c + 256 * p) 256
  if bs.all (· == 0xFF) then x
  else
    let x := { x with used := p + 1 }
    match pageRecs p bs with
    | some (r :: rs) =>
      let newer := match x.last with | some l => decide (0 < seqDiff r.seq l) | none => true
      if newer then { x with recs := x.recs ++ (r :: rs), last := (((r :: rs).getLast?).map (·.seq)) }
      else { x with torn := x.torn + 1 }
    | _ => { x with torn := x.torn + 1 }

/-- Pages of a chain that hold a byte other than 0xFF, in order. -/
def Nvm.writtenPages (n : Nvm) (c : Nat) : List Nat :=
  (n.flash.foldl (fun (l : List Nat) e =>
    if n.chainBase c ≤ e.1 ∧ e.1 < n.chainBase c + n.chainBytes then
      let p := (e.1 - n.chainBase c) / 256
      if l.head? = some p then l else p :: l
    else l) []).reverse

/-- The scan of a whole chain. -/
def Nvm.scanChain (n : Nvm) (c : Nat) : Scan := (n.writtenPages c).foldl (n.scanPage c) {}

/-- GEN of a chain's sector 0, when its header is valid (R631). -/
def Nvm.chainGen (n : Nvm) (c : Nat) : Option Nat :=
  let h := n.fbs (n.chainBase c) 16
  if leNat (h.take 2) = 0x4A4E ∧ leNat (h.drop 12) = crc32c (h.take 12) then some (leNat ((h.drop 4).take 4)) else none

/-- A chain is complete: it holds a counted CHANGEOVER with its own GEN (R631). -/
def Nvm.chainDone (n : Nvm) (c : Nat) (g : Nat) : Bool :=
  (n.scanChain c).recs.any (fun r => r.type == 1 && leNat (r.data.take 4) == g)

/-- The active chain at boot, when one is complete: the newer GEN, chain 0 when equal (R631, R643). -/
def Nvm.activeChain (n : Nvm) : Option (Nat × Nat) :=
  let f (c : Nat) : Option Nat := match n.chainGen c with
    | some g => if n.chainDone c g then some g else none
    | none => none
  match f 0, f 1 with
  | some a, some b => if 0 < seqDiff b a then some (1, b) else some (0, a)
  | some a, none => some (0, a)
  | none, some b => some (1, b)
  | none, none => none

/-! ## Records in force -/

/-- The latest record of a type that satisfies `p` (R631). -/
def Nvm.latest (n : Nvm) (type : Nat) (p : List Byte → Bool) : Option JRec :=
  n.recs.reverse.find? (fun r => r.type == type && p r.data)

/-- The preferred slot: of the latest SLOT record, else A (R620). -/
def Nvm.preferred (n : Nvm) : Bool :=
  match n.latest 2 (fun _ => true) with
  | some r => (r.data[0]?).getD 0 == 1
  | none => false

/-- A record is kept by a compaction when no later record of its subject stands (R633). -/
def keepLatest (key : JRec → List Nat) : List JRec → List JRec
  | [] => []
  | r :: rs => if rs.any (fun q => q.type == r.type && key q == key r) then keepLatest key rs else r :: keepLatest key rs

/-- The subject of a record: per MEMID, per INSTANCE, per (INSTANCE, PARAM), or none. -/
def JRec.subject (r : JRec) : List Nat :=
  match r.type with
  | 4 => [leNat (r.data.take 2)]
  | 5 => [leNat ((r.data.drop 8).take 2)]
  | 6 => [leNat ((r.data.drop 8).take 2), leNat ((r.data.drop 10).take 2)]
  | _ => []

/-- The last `k` elements of a list. -/
def lastN {α : Type} (k : Nat) (l : List α) : List α := l.drop (l.length - k)

/-- The live set for the booted BUILD, in the order of the original SEQ (R633). -/
def liveSet (build : Nat) (rs : List JRec) : List JRec :=
  let own := rs.filter (fun r => (r.type != 5 && r.type != 6) || leNat (r.data.take 8) == build)
  let tampers := lastN 16 (own.filter (fun r => r.type == 9))
  let tallies := lastN 256 (own.filter (fun r => r.type == 7))
  let one := keepLatest JRec.subject (own.filter (fun r => r.type == 2 || r.type == 3 || r.type == 4 || r.type == 5 || r.type == 6 || r.type == 8))
  own.filter (fun r => r.type == 10 || tampers.contains r || tallies.contains r || one.contains r)

/-! ## Operations (R609, R611, R612) -/

/-- An operation may start: commits wait for power-fail and LOCK, erases also for the warning, nothing programs or
erases a failed flash, and nothing starts after a thermal shutdown (R609, R612). -/
def State.flashMay (s : State) (o : FlashOp) : Bool :=
  s.nvm.size != 0 && !s.pwr.thermal &&
  match o.kind with
  | .read => true
  | .program => !s.nvm.failed && !s.flt.lock && (!s.flag aPwrPfail 0 || o.use == .commit && s.nvm.committing.any (fun r => r.type == 9))
  | .erase => !s.nvm.failed && !s.flt.lock && !s.flag aPwrPfail 0 && !s.flag aPwrTherm 16

/-- The first waiting operation of the best priority that may start. -/
def State.flashPick (s : State) : Option FlashOp :=
  (s.nvm.waiting.filter s.flashMay).foldl (fun b o =>
    match b with
    | none => some o
    | some x => if o.prio < x.prio then some o else b) none

/-- The next operation starts: a waiting one, or the suspended erase when nothing of priority 1 to 4 waits (R611). -/
def State.flashNext (s : State) : State :=
  match s.nvm.op with
  | some _ => s
  | none =>
    match s.flashPick with
    | some o =>
      if o.kind = .erase ∧ s.nvm.suspended.isSome then s
      else { s with nvm := { s.nvm with op := some o, waiting := s.nvm.waiting.erase o } }
    | none =>
      match s.nvm.suspended with
      | some e => if s.flashMay e then { s with nvm := { s.nvm with op := some e, suspended := none } } else s
      | none => s

/-- A request for a flash operation: it waits its turn; an erase in progress is suspended for it (R611). -/
def State.flashAsk (s : State) (o : FlashOp) : State :=
  let s := { s with nvm := { s.nvm with waiting := s.nvm.waiting ++ [o] } }
  match s.nvm.op with
  | some e =>
    if e.kind = .erase ∧ o.prio < 5 ∧ s.flashMay o then
      (({ s with nvm := { s.nvm with op := none, suspended := some e } } : State)).flashNext
    else s
  | none => s.flashNext

/-- The steward asks for a read of the sources of words that are to be restored, once for each (R334, R527, R611). -/
def State.restoresAsk (s : State) : State :=
  let asked (u : FlashFor) (s : State) : Bool := (s.nvm.op.toList ++ s.nvm.waiting).any (fun o => o.use == u)
  let ask (u : FlashFor) (s : State) : State :=
    if asked u s then s else s.flashAsk { kind := .read, prio := 1, use := u, addr := s.nvm.slotBase s.nvm.booted }
  s.ms.clipBad.foldl (fun (s : State) a => ask (.restore a) s) (s.ms.tileBad.foldl (fun (s : State) a => ask (.tileWord a) s) s)

/-- The read that the flash performs for a use that `hit` names is over, with every waiting one that it serves as well; the next
operation starts. -/
def State.readOver (s : State) (hit : FlashFor → Bool) : State :=
  ({ s with nvm := { s.nvm with op := none, waiting := s.nvm.waiting.filter (fun o => !hit o.use) } } : State).flashNext

/-- The flash performs a read for a use that `hit` names. -/
def State.reading (s : State) (hit : FlashFor → Bool) : Bool :=
  match s.nvm.op with
  | some o => hit o.use
  | none => false

/-- An erase in progress is suspended (R612). -/
def State.flashSuspend (s : State) : State :=
  match s.nvm.op with
  | some e => if e.kind = .erase then { s with nvm := { s.nvm with op := none, suspended := some e } } else s
  | none => s

/-- The update session's state changes; SVC_IRQ.UPD is set (R669). -/
def State.setSess (s : State) (x : Session) : State :=
  let s' := { s with nvm := { s.nvm with sess := x } }
  if x.st = s.nvm.sess.st then s' else s'.irq 4

/-- A session ends as FAILED with an ERR code; its maintenance request ends; a domain session reports it (R622,
R623). -/
def State.sessFail (s : State) (err : Nat) : State :=
  let d := s.nvm.sess.domain
  let s := s.setSess { s.nvm.sess with st := .failed, err := err }
  let s := { s with svc := { s.svc with ended := some 1 } }
  if d then s.event sevMajor aNvmUpdCtrl 4 6 5 err else s

/-- The maintenance request of a compaction ends with a RESULT. -/
def State.compactEnds (s : State) (result : Nat) : State :=
  if s.svc.running = some { kind := 3, arg := 0 } then { s with svc := { s.svc with ended := some result } } else s

/-- A compaction is given up: the former chain stays active (R634). -/
def State.compactDrop (s : State) : State :=
  ({ s with nvm := { s.nvm with compacting := false, work := none, spareErased := s.nvm.spareErased && s.nvm.work.isNone } } : State).compactEnds 3

/-- The flash has failed: nothing more is programmed or erased (R609), so a compaction ends. -/
def State.flashFails (s : State) : State :=
  (({ s with nvm := { s.nvm with failed := true } } : State).event sevCritical aNvmStat 8 8 1 0).compactDrop

/-- A program or erase ended; failures in a row fail the flash (R609). -/
def State.flashResult (s : State) (ok : Bool) : State :=
  if ok then { s with nvm := { s.nvm with failRun := 0 } }
  else
    let n := s.nvm.failRun + 1
    let s := { s with nvm := { s.nvm with failRun := n } }
    let s := s.event sevMajor aNvmStat 0 2 0 0
    if 3 ≤ n ∧ s.nvm.failed = false then
      s.flashFails
    else s

/-- The journal page being committed is programmed, or its page is skipped and its records return to the queue (R630). -/
def State.commitDone (s : State) (ok : Bool) : State :=
  let n := s.nvm
  if ok then { s with nvm := { n with recs := n.recs ++ n.committing, committing := [], used := n.used + 1 } }
  else { s with nvm := { n with queue := n.committing.filter (fun r => r.type != 0) ++ n.queue, committing := [], used := n.used + 1 } }

/-- The steward packs queued records into the next page of the active chain (R630). -/
def State.journalCommit (s : State) : State :=
  let n := s.nvm
  let tamper := n.queue.any (fun r => r.type == 9)
  if n.queue = [] ∨ n.committing ≠ [] ∨ n.compacting ∨ n.format ∨ n.size = 0 ∨ n.failed ∨ s.flt.lock ∨ n.chainPages ≤ n.used ∨
      (s.flag aPwrPfail 0 ∧ tamper = false) then s
  else
    let (rs, rest) := packPage (pageRoom n.used) n.seq n.queue
    let markSeq := (n.seq + rs.length) % 2 ^ 32
    let b := pageBytes n.chain n.gen n.used markSeq rs
    let mark : JRec := { type := 0, seq := markSeq, data := [] }
    let s := { s with nvm := { n with queue := rest, seq := (markSeq + 1) % 2 ^ 32, committing := rs ++ [mark] } }
    s.flashAsk { kind := .program, prio := 2, use := .commit, addr := n.chainBase n.chain + 256 * n.used, data := b }

/-- The records of a compaction's next page, numbered, the marker's SEQ and the records after it. -/
def Compaction.next (w : Compaction) : List JRec × Nat × List JRec :=
  let (rs, rest) := packPage (pageRoom w.page) w.seq w.rest
  (rs, (w.seq + rs.length) % 2 ^ 32, rest)

/-- The next page of a compaction is to be programmed, at priority 4 (R611, R632). -/
def State.compactPage (s : State) (w : Compaction) : State :=
  let (rs, markSeq, _) := w.next
  ({ s with nvm := { s.nvm with work := some w } } : State).flashAsk
    { kind := .program, prio := 4, use := .compact, addr := s.nvm.chainBase w.chain + 256 * w.page,
      data := pageBytes w.chain w.gen w.page markSeq rs }

/-- A journal is written into a chain under a generation: the records, which CHANGEOVER ends (R632). -/
def State.compactInto (s : State) (chain gen seq : Nat) (live : List JRec) : State :=
  let change : JRec := { type := 1, data := leBytes 4 gen ++ leBytes 4 seq ++ leBytes 4 live.length }
  s.compactPage { chain := chain, gen := gen, rest := live ++ [change], seq := seq }

/-- A compaction starts (R632): the live set goes to the spare chain under the next GEN. -/
def State.compact (s : State) (build : Nat) : State :=
  let n := s.nvm
  s.compactInto (1 - n.chain) ((n.gen + 1) % 2 ^ 32) n.seq (liveSet build n.recs)

/-- The blocks of a chain are erased in the background (R632). -/
def State.eraseChain (s : State) (c : Nat) : State :=
  forAll (upto (ceilDiv s.nvm.chainBytes 0x10000)) s (fun b s =>
    s.flashAsk { kind := .erase, prio := 5, use := .spareErase b, addr := s.nvm.chainBase c + 0x10000 * b })

/-- The CHANGEOVER page is programmed: the chain written is the active one and the former chain is erased, unless it is blank
(R632). -/
def State.compactOver (s : State) (w : Compaction) : State :=
  let n := { s.nvm with chain := w.chain, gen := w.gen, seq := w.seq, used := w.page, recs := w.recs, compacting := false, work := none,
                        format := false, spareErased := (s.nvm.writtenPages (1 - w.chain)).isEmpty }
  let s := ({ s with nvm := n } : State).compactEnds 1
  if n.spareErased then s else s.eraseChain (1 - w.chain)

/-- A page program of a compaction has ended: its records are written, or go to the next page (R630, R632). -/
def State.compactStep (s : State) (ok : Bool) : State :=
  match s.nvm.work with
  | none => s
  | some w =>
    if ok then
      let (rs, markSeq, rest) := w.next
      let mark : JRec := { type := 0, seq := markSeq, data := [] }
      let w := { w with rest := rest, recs := w.recs ++ rs ++ [mark], page := w.page + 1, seq := (markSeq + 1) % 2 ^ 32 }
      if rest = [] then s.compactOver w else s.compactPage w
    else if s.nvm.failed then s
    -- a chain without the header of its first sector could not be found again: it is erased, and written anew
    else if w.page = 0 then ({ s with nvm := { s.nvm with work := none, spareErased := false } } : State).eraseChain w.chain
    else s.compactPage { w with page := w.page + 1 }

/-- An empty journal is formatted once an image is applied: chain 0 under GEN 1, as soon as it is erased (R631, R643). -/
def State.formatJournal (s : State) : State :=
  if s.nvm.format = false then s
  else if (s.nvm.writtenPages 0).isEmpty then s.compactInto 0 1 0 []
  else ({ s with nvm := { s.nvm with spareErased := false } } : State).eraseChain 0

/-! ## Image containers (R613, R614, R619) -/

/-- The header at a slot's base (R613). -/
def Nvm.header (n : Nvm) (base : Nat) : List Byte := n.fbs base 64

/-- The header and the section table at a slot's base: what is signed (R614, R615). -/
def Nvm.signedPart (n : Nvm) (base : Nat) : List Byte := n.fbs base (64 + 48 * leAt (n.header base) 6 2)

/-- Row 1 of R619: magic, version, part, rate, reserved bytes and length of a header, for slots of `z` bytes. -/
def headerOk (h : List Byte) (z : Nat) : Bool :=
  let len := leAt h 12 4
  leAt h 0 4 == 0x4D49574B && leAt h 4 2 == 1 && leAt h 8 4 == 0x4B4D0400 && decide (leAt h 27 1 ≤ 1) && decide (leAt h 24 2 ≤ 1)
    && zerosAt h 32 32 && decide (len % 16 = 0) && decide (len ≤ z) && decide (128 ≤ len) && leAt h 28 4 == len - 128

/-- Row 2 of R619: the section table by R614; `h` holds the header and the table. -/
def sectionsOk (h : List Byte) : Bool :=
  let secs := leAt h 6 2
  let len := leAt h 12 4
  let l := sectionTable h
  let type (e : List Byte) : Nat := leAt e 0 1
  decide (1 ≤ secs) && decide (secs ≤ 16)
    && l.all (fun e => decide (1 ≤ type e) && decide (type e ≤ 9) && zerosAt e 1 3 && zerosAt e 12 4 && decide (leAt e 4 4 % 16 = 0)
        && decide (64 + 48 * secs ≤ leAt e 4 4) && decide (1 ≤ leAt e 8 4) && decide (leAt e 4 4 + leAt e 8 4 ≤ len))
    && [1, 2, 3, 8].all (fun t => l.any (fun e => type e == t))
    && (!l.any (fun e => type e == 9) || l.any (fun e => type e == 6))
    && l.zipIdx.all (fun x => l.zipIdx.all (fun y => x.2 == y.2 || type x.1 != type y.1))
    && apart ((len - 128, 128) :: l.map (fun e => (leAt e 4 4, leAt e 8 4)))

/-- Row 3 of R619: the key is a fused one that is not revoked, and the signature verifies (R615). -/
def Nvm.signed (n : Nvm) (base : Nat) : Bool :=
  let h := n.header base
  let sig := n.fbs (base + leAt h 28 4) 128
  let k := leAt h 26 1
  let num (i : Nat) : Nat := beNat ((sig.drop (32 * i)).take 32)
  (match mget none n.fuses.hash k with
    | some x => sha256 (sig.take 64) == leBytes 32 x
    | none => false)
    && decide (k < 4) && !n.fuses.revoked.contains k && ecdsaOk (sha256 (n.signedPart base)) (num 0) (num 1) (num 2) (num 3)

/-- Row 4 of R619: every section's digest. -/
def Nvm.digestsOk (n : Nvm) (base : Nat) : Bool :=
  (sectionTable (n.signedPart base)).all (fun e => sha256 (n.fbs (base + leAt e 4 4) (leAt e 8 4)) == (e.drop 16).take 32)

/-- The flash as a read from `a` up delivers it, with the bytes at the listed offsets read wrong (assumption 144). -/
def Nvm.misread (n : Nvm) (a : Nat) (errs : List (Nat × Byte)) : Nvm :=
  { n with flash := errs.foldl (fun m e => mset 0xFF m (a + e.1) e.2) n.flash }

/-- The first of rows 1 to 4 of R619 that the container at a slot's base fails, 0 when it passes them: rows 1 to 3 on one read
of the slot, row 4 on another. -/
def failedRows (n m : Nvm) (base : Nat) : Nat :=
  if headerOk (n.header base) n.slotBytes = false then 1
  else if sectionsOk (n.signedPart base) = false then 2
  else if n.signed base = false then 3
  else if m.digestsOk base = false then 4
  else 0

/-- The first of rows 1 to 4 of R619 that the container at a slot's base fails. -/
def Nvm.failedRow (n : Nvm) (base : Nat) : Nat := failedRows n n base

/-- The image in the container at a slot's base (R613). -/
def Nvm.readSlot (n : Nvm) (base : Nat) : Option Image := readImage (n.signedPart base) (fun o k => n.fbs (base + o) k)

/-! ## Fuses and keys (R636 to R641) -/

/-- The life-cycle state: the highest pair with a fuse burned (R636). -/
def Fuses.state (f : Fuses) : Nat := if f.pair3 ≠ 0 then 3 else if f.pair2 ≠ 0 then 2 else if f.pair1 ≠ 0 then 1 else 0

/-- A key hash is burned. -/
def Fuses.burned (f : Fuses) (k : Nat) : Bool := (mget none f.hash k).isSome

/-- The secure region is wiped: a wipe runs, it is locked, or it has not been filled since (R529, R637). -/
def State.secWiped (s : State) : Bool :=
  s.secDead || (s.rdB 0x18000080 == 0 && (upto 4).any (fun k => s.nvm.fuses.burned k))

/-- A copy of the key store (R638): its generation, and the valid flag and wrapped key of each slot. -/
structure KeyCopy where
  gen : Nat
  valid0 : Bool
  valid1 : Bool
  wrap0 : List Byte
  wrap1 : List Byte
  deriving DecidableEq, Repr

/-- The 96 bytes of a copy (R638). -/
def KeyCopy.bytes (c : KeyCopy) : List Byte :=
  let h := leBytes 2 0x534B ++ [0, 0] ++ leBytes 4 c.gen ++ [if c.valid0 then 1 else 0, if c.valid1 then 1 else 0, 0, 0] ++ c.wrap0 ++ c.wrap1
  h ++ leBytes 4 (crc32c h)

/-- A copy read from its 96 bytes: MAGIC and CRC decide (R638). -/
def readCopy (bs : List Byte) : Option KeyCopy :=
  let f (o n : Nat) : List Byte := (bs.drop o).take n
  if leNat (f 0 2) = 0x534B ∧ leNat (f 92 4) = crc32c (bs.take 92) then
    some { gen := leNat (f 4 4), valid0 := leNat (f 8 1) != 0, valid1 := leNat (f 9 1) != 0, wrap0 := f 12 40, wrap1 := f 52 40 }
  else none

/-- A copy's bytes: those of a write that is on its way, else those in the flash. -/
def Nvm.copyBytes (n : Nvm) (c : Nat) : List Byte :=
  match ((n.op.toList ++ n.suspended.toList ++ n.waiting).filter (fun o => o.use == .keyStore c)).getLast? with
  | some o => o.data
  | none => n.fbs (0x1000 * c) 96

/-- The newer copy of the key store, by GEN (R638). -/
def Nvm.newerCopy (n : Nvm) : Option (Nat × KeyCopy) :=
  match readCopy (n.copyBytes 0), readCopy (n.copyBytes 1) with
  | some a, some b => if 0 < seqDiff b.gen a.gen then some (1, b) else some (0, a)
  | some a, none => some (0, a)
  | none, some b => some (1, b)
  | none, none => none

/-- A key of 256 bits, its first byte lowest, wrapped under the device wrap key: 40 bytes (R638). -/
def Fuses.wrapOf (f : Fuses) (key : Nat) : List Byte := beBytes 40 (aesWrap f.wrapKey (beNat (leBytes 32 key)))

/-- A wrapped key unwrapped; none where the integrity check fails (R638). -/
def Fuses.keyOf (f : Fuses) (w : List Byte) : Option Nat := (aesUnwrap f.wrapKey (beNat w)).map (fun x => leNat (beBytes 32 x))

/-- The state with a domain key slot replaced. -/
def State.setSlot (s : State) (slot : Nat) (k : Option Nat) : State :=
  { s with nvm := if slot = 0 then { s.nvm with slot0 := k } else { s.nvm with slot1 := k } }

/-- The state with the GEN of the copy loaded. -/
def State.setKeyGen (s : State) (g : Nat) : State := { s with nvm := { s.nvm with keyGen := g } }

/-- A valid slot of a copy is unwrapped; one whose unwrap fails stays empty, with a MAJOR record (R638). -/
def State.loadKey (s : State) (slot : Nat) (valid : Bool) (w : List Byte) : State :=
  if valid = false then s
  else match s.nvm.fuses.keyOf w with
    | some k => s.setSlot slot (some k)
    | none => s.event sevMajor 0x40050000 0 0 0 slot

/-- The domain key slots a boot loads (R638): none in BLANK or RETURN, after a tamper of this or a newer GEN, or into a
region that ignores writes (R529). -/
def State.loadKeys (s : State) : State :=
  let s := (s.setSlot 0 none).setSlot 1 none
  match s.nvm.newerCopy with
  | none => s.setKeyGen 0
  | some (_, c) =>
    let s := s.setKeyGen c.gen
    let st := s.nvm.fuses.state
    let tampered := s.nvm.recs.any (fun r => r.type == 9 && decide (0 ≤ seqDiff (leNat (r.data.take 4)) c.gen))
    if st = 0 ∨ st = 3 ∨ tampered ∨ s.secDead then s
    else (s.loadKey 0 c.valid0 c.wrap0).loadKey 1 c.valid1 c.wrap1

/-- The copy that a write of slot `slot` makes from the newer one: the other slot stays as it is, GEN is one above (R638). -/
def Nvm.nextCopy (n : Nvm) (slot : Nat) (k : Option Nat) : KeyCopy :=
  let old : KeyCopy := match n.newerCopy with
    | some (_, c) => { c with gen := (c.gen + 1) % 2 ^ 32 }
    | none => { gen := 1, valid0 := false, valid1 := false, wrap0 := beBytes 40 (Config.keyFill 1 0).toNat, wrap1 := beBytes 40 (Config.keyFill 1 1).toNat }
  let w := match k with
    | some key => n.fuses.wrapOf key
    | none => beBytes 40 (Config.keyFill old.gen slot).toNat
  if slot = 0 then { old with valid0 := k.isSome, wrap0 := w } else { old with valid1 := k.isSome, wrap1 := w }

/-- A write of the key store: the copy with the older GEN, or none, is erased and then programmed with the slot's new key; the slot
is loaded at once (R638, R641). -/
def State.writeKeys (s : State) (slot : Nat) (k : Option Nat) : State :=
  let which := match s.nvm.newerCopy with | some (c, _) => 1 - c | none => 0
  let c := s.nvm.nextCopy slot k
  -- a region that ignores writes keeps its slots empty (R529)
  let s := if s.secDead then (s.setSlot 0 none).setSlot 1 none else s.setSlot slot k
  (s.setKeyGen c.gen).flashAsk
    { kind := .erase, prio := 5, use := .keyStore which, addr := 0x1000 * which, data := KeyCopy.bytes c }

/-- The secure region as the boot ROM and the steward fill it (R637). -/
def State.fillSecure (s : State) : State :=
  let n := s.nvm
  let k (o : Option Nat) : List Byte := leBytes 32 (o.getD 0)
  let hashes := (upto 4).flatMap (fun i => k (mget none n.fuses.hash i))
  let bits := (upto 4).foldl (fun a i => a + (if n.fuses.burned i then 2 ^ i else 0) + (if n.fuses.revoked.contains i then 2 ^ (4 + i) else 0)) 0
  let valid := (if n.slot0.isSome then 1 else 0) + (if n.slot1.isSome then 2 else 0)
  let s := s.wrBytes 0x18000000 hashes
  let s := s.wrBytes 0x18000080 [BitVec.ofNat 8 bits]
  let s := s.wrBytes 0x18000100 (k n.slot0 ++ k n.slot1 ++ [BitVec.ofNat 8 valid])
  s.wrBytes 0x18000200 (BitVec.ofNat 8 n.fuses.state :: leBytes 16 n.fuses.identity)

end Sys2Proof.Machine
end

