-- ==== Sys2Proof/Machine/MaintOps.lean ====
section
/-!
DEFINITION. The maintenance arbiter (R665, R666) and the start of an image write session (R622).
-/

namespace Sys2Proof.Machine

/-- The slot that is not running: true for slot B. -/
def State.otherSlot (s : State) : Bool := !s.nvm.booted

/-- A SLOT record names a slot (R629). -/
def State.slotRecord (s : State) (b : Bool) : State := s.journal 2 [if b then 1 else 0, 0, 0, 0]

/-- An admitted image write session starts: a SLOT record names the running slot, and the blocks that hold IMAGE_BYTES
are erased (R622). -/
def State.sessionStart (s : State) : State :=
  match s.nvm.want with
  | none => { s with svc := { s.svc with ended := some 3 } }
  | some x =>
    let s := { s with nvm := { s.nvm with want := none } }
    let s := s.slotRecord s.nvm.booted
    let s := s.setSess { x with st := .erasing }
    forAll (upto (ceilDiv x.bytes 0x10000)) s (fun b s =>
      s.flashAsk { kind := .erase, prio := 5, use := .slotErase b, addr := s.nvm.slotBase s.otherSlot + 0x10000 * b })

/-- The modes that admit maintenance work of kinds 1 to 4 (R665). -/
def State.maintMode (s : State) (kind : Nat) : Bool :=
  match s.pwr.mode with
  | .service => true
  | .sync | .run | .quiet | .shadow => kind != 5
  | _ => false

/-- Leaving QUIET (R591): a wake, a recall, a maintenance request or a write of PWR_QUIET. -/
def State.leaveQuiet (s : State) : State :=
  if s.pwr.mode = .quiet then { s.setMode .run with pwr := { (s.setMode .run).pwr with quietRun := 0 } } else s

/-- An admitted request starts (R665): its kind's own work begins. -/
def State.maintStart (s : State) (m : Maint) : State :=
  let s := { s with svc := { s.svc with running := some m, startAt := none, ended := none } }
  match m.kind with
  | 1 =>
    let d := s.flag aMpdMarchCtrl 0
    { s with ms := { s.ms with march := some { memid := m.arg, destructive := d }, marchSt := 1, marchFails := [], marchRow := 0 } }
  | 2 =>
    let ids := if m.arg = 0x3FF then
        (upto 16 ++ (upto 512).map (· + 0x100) ++ (upto 4).map (· + 0x300)).filter (fun i => memIdOk i && s.memOn i)
      else [m.arg].filter (fun i => memIdOk i && s.memOn i)
    { s with svc := { s.svc with sweep := ids, errors := 0, ended := if ids = [] then some 1 else none },
             ms := { s.ms with scrubRow := ids.foldl (fun t i => mset 0 t i 0) s.ms.scrubRow } }
  | 3 => { s with nvm := { s.nvm with compacting := true } }
  | 4 => s.sessionStart
  -- the work of a tile restart is done at the request's end
  | 5 => { s with svc := { s.svc with ended := some 1 } }
  | _ => s

/-- A request is admitted; its work starts at the strobe of pass `n` (R665). -/
def State.maintAdmit (s : State) (m : Maint) (n : Nat) : State :=
  ({ s with svc := { s.svc with running := some m, startAt := some n, ended := none } } : State).later n .maint

/-- An admitted request whose pass has come starts (R665). -/
def State.maintDue (s : State) : State :=
  match s.svc.running, s.svc.startAt with
  | some m, some n => if n ≤ s.grid.tick then s.maintStart m else s
  | _, _ => s

/-- A maintenance request reaches the arbiter (R666): it is recognised in the pass after its write, when the engine leaves QUIET
(R591, R665).  Answers BUSY when it is queued or refused for want of a place. -/
def State.maintRequest (s : State) (m : Maint) : Resp × State :=
  let s := s.later s.nextPass .quietOff
  if !s.maintMode m.kind ∨ s.flt.lock then (.ok, { s with svc := { s.svc with last := m.kind, result := 2 } })
  else
    match s.svc.running with
    | none => (.ok, s.maintAdmit m (s.nextPass + 1))
    | some r =>
      if r = m then (.ok, { s with svc := { s.svc with last := m.kind, result := 2 } })
      else if s.svc.queued.isNone then (.busy, { s with svc := { s.svc with queued := some m } })
      else (.busy, { s with svc := { s.svc with last := m.kind, result := 2 } })

/-- Compaction falls due: while another request runs it is held in a place of its own (R632, R665, R666). -/
def State.compactDue (s : State) : State :=
  let m : Maint := { kind := 3, arg := 0 }
  if s.svc.running.isSome ∧ s.svc.running ≠ some m ∧ s.maintMode 3 = true ∧ s.flt.lock = false then
    ({ s with svc := { s.svc with compactPend := true } } : State).later s.nextPass .quietOff
  else (s.maintRequest m).2

/-- The running request ends with a RESULT; the next one is admitted in the pass after, compaction first (R666). -/
def State.maintEnd (s : State) (result : Nat) : State :=
  match s.svc.running with
  | none => s
  | some r =>
    let s := ({ s with svc := { s.svc with running := none, startAt := none, last := r.kind, result := result, ended := none, sweep := [] } } : State).irq 3
    let s := if r.kind = 1 then { s with ms := { s.ms with march := none } } else s
    if s.svc.compactPend then ({ s with svc := { s.svc with compactPend := false } } : State).maintAdmit { kind := 3, arg := 0 } (s.grid.tick + 2)
    else match s.svc.queued with
      | some q => ({ s with svc := { s.svc with queued := none } } : State).maintAdmit q (s.grid.tick + 2)
      | none => s

/-- LOCK and the entry to DORMANT end the running request and empty both places (R666). -/
def State.maintAbort (s : State) : State :=
  let sess := if s.nvm.sess.st = .idle ∨ s.nvm.sess.st = .done ∨ s.nvm.sess.st = .failed then s.nvm.sess else {}
  let s := { s with svc := { s.svc with queued := none, compactPend := false },
                    nvm := { s.nvm with sess := sess, want := none } }
  s.compactDrop.maintEnd 3

end Sys2Proof.Machine
end

