-- ==== Sys2Proof/Machine/NvmCmds.lean ====
section
/-!
DEFINITION. The commands of the flash, the journal, image updates and keys (R609 to R641).
-/

namespace Sys2Proof.Machine

/-- No operation of the flash is left that satisfies `p`. -/
def State.noFlash (s : State) (p : FlashFor → Bool) : Bool :=
  !(s.nvm.waiting.any (fun o => p o.use)) && !(s.nvm.op.any (fun o => p o.use)) && !(s.nvm.suspended.any (fun o => p o.use))

/-- The operation an image slot's session waits for. -/
def isSlotErase : FlashFor → Bool
  | .slotErase _ => true
  | _ => false
/-- A page of a session. -/
def isPage : FlashFor → Bool
  | .page _ => true
  | _ => false
/-- The erase of the spare chain. -/
def isSpareErase : FlashFor → Bool
  | .spareErase _ => true
  | _ => false

/-- What waited for a page program goes on, or ends with it: a journal commit, a session, a compaction (R622, R630, R632). -/
def State.programUsed (s : State) (u : FlashFor) (ok : Bool) : State :=
  match u with
  | .commit => s.commitDone ok
  | .page _ => if ok then s else s.sessFail 7
  | .compact => s.compactStep ok
  | _ => s

/-- PAGE_PROGRAM_DONE: the running program has ended, well or not (R609, R611); after a thermal shutdown STEW then goes
off (R598). -/
def execPageProgramDone (ok : Bool) (s : State) : Host.Outcome State Fault Refusal :=
  .next (match s.nvm.op with
    | some o =>
      if o.kind ≠ .program then s
      else
        let s := { s with nvm := { s.nvm with op := none, flash := if ok then flashProg s.nvm.flash o.addr o.data else s.nvm.flash } }
        let s := (s.flashResult ok).programUsed o.use ok
        if s.pwr.thermal then s.thermalOff else s.flashNext
    | none => s)

/-- ERASE_DONE: the running erase has ended; the last erase of a session opens it, the last of the spare chain makes it
ready; a key store copy that was erased for a write is programmed then (R611, R622, R632, R638). -/
def execEraseDone (ok : Bool) (s : State) : Host.Outcome State Fault Refusal :=
  .next (match s.nvm.op with
    | some o =>
      if o.kind ≠ .erase then s
      else
        let len := match o.use with | .keyErase _ | .keyStore _ => 4096 | _ => 0x10000
        let s := { s with nvm := { s.nvm with op := none, flash := if ok then flashErase s.nvm.flash o.addr len else s.nvm.flash } }
        let s := s.flashResult ok
        let s := match o.use with
          | .slotErase _ =>
            if !ok then s.sessFail 7
            else if s.noFlash isSlotErase = true ∧ s.nvm.sess.st = UpdSt.erasing then s.setSess { s.nvm.sess with st := .open_ }
            else s
          | .spareErase _ =>
            if !ok then (if s.nvm.failed then s else s.flashAsk o)
            else if s.noFlash isSpareErase then ({ s with nvm := { s.nvm with spareErased := true } } : State).formatJournal else s
          -- the copy that was erased for a write is programmed (R638)
          | .keyStore _ => if ok then s.flashAsk { o with kind := .program, prio := 2 } else s
          | _ => s
        s.flashNext
    | none => s)

/-- A read that a command of its own ends: of a scene record, COLD_FETCH; of a word to be restored, ECC_WORD_REWRITE or
CLIP_RESTORE. -/
def isRecordRead : FlashFor → Bool
  | .coldScene _ | .tileWord _ | .restore _ => true
  | _ => false

/-- FLASH_READ_DONE: the running read has delivered its data (R611); that of a scene record ends with its check (R193), that of a
word to be restored with its rewrite (R334, R527), that of a slot being verified with the CLOSE (R622). -/
def execFlashReadDone (s : State) : Host.Outcome State Fault Refusal :=
  .next (match s.nvm.op with
    | some o => if o.kind ≠ .read ∨ isRecordRead o.use ∨ o.use = .verify ∧ s.nvm.sess.st = .verifying then s else ({ s with nvm := { s.nvm with op := none } } : State).flashNext
    | none => s)

/-- FLASH_TIMEOUT: the running operation has taken twice its maximum (R609). -/
def execFlashTimeout (s : State) : Host.Outcome State Fault Refusal :=
  .next (match s.nvm.op with
    | some o =>
      let s := ({ s with nvm := { s.nvm with op := none } } : State).flashFails
      let s := match o.use with
        | .page _ => s.sessFail 7
        | .slotErase _ => s.sessFail 7
        | .verify => if s.nvm.sess.st = UpdSt.verifying then s.sessFail 7 else s
        | .commit => s.commitDone false
        | _ => s
      s.flashNext
    | none => s)

/-- JOURNAL_COMMIT. -/
def execJournalCommit (s : State) : Host.Outcome State Fault Refusal := .next s.journalCommit

/-- COMPACTION: falling due, it asks the arbiter; running with the spare chain erased, its first page is programmed (R632).  Of a
journal that is not formatted there is nothing to compact. -/
def execCompaction (s : State) : Host.Outcome State Fault Refusal :=
  .next (if s.svc.running = some { kind := 3, arg := 0 } ∧ s.nvm.compacting then
      if s.nvm.failed then s.compactDrop
      else if s.nvm.format then ({ s with nvm := { s.nvm with compacting := false } } : State).compactEnds 3
      else if s.nvm.spareErased ∧ s.nvm.work = none then s.compact s.build
      else s
    else if s.nvm.size ≠ 0 ∧ 3 * s.nvm.chainPages ≤ 4 * s.nvm.used then s.compactDue
    else s)

/-- A COUNTERS record (R629). -/
def State.countersRecord (s : State) : State :=
  let n := s.nvm
  s.journal 8 (leBytes 4 n.hours ++ leBytes 4 n.boots ++ leBytes 4 n.fatals ++ leBytes 4 n.shutdowns ++ leBytes 4 n.pfails
    ++ leBytes 2 (s.fld aPwrTmax 15 0) ++ [0, 0])

/-- COUNTERS: an hour of RUN has passed (R629). -/
def execCountersRecord (s : State) : Host.Outcome State Fault Refusal :=
  .next (if s.pwr.mode = .run ∨ s.pwr.mode = .quiet then
      ({ s with nvm := { s.nvm with hours := s.nvm.hours + 1 } } : State).countersRecord
    else s)

/-! ## Image write sessions -/

/-- A session is open in some way. -/
def Session.busy (x : Session) : Bool := x.st == .erasing || x.st == .open_ || x.st == .verifying

/-- NVM_UPD_CTRL.ERR is set without a change of state. -/
def State.updErr (s : State) (e : Nat) : State := s.setSess { s.nvm.sess with err := e }

/-- A session is asked for, by either path (R622, R623). -/
def State.sessionOpen (s : State) (x : Session) : Resp × State :=
  if x.bytes = 0 ∨ s.nvm.slotBytes < x.bytes then (.ok, s.setSess { x with st := .failed, err := 2 })
  else
    let free := s.svc.running.isNone || s.svc.queued.isNone
    let s := if free then { s with nvm := { s.nvm with want := some x } } else s
    s.maintRequest { kind := 4, arg := 0 }

/-- OPEN through the service port (R622, R642). -/
def State.updOpen (s : State) : Resp × State :=
  if !s.maintMode 4 then (.ok, s.updErr 8)
  else if s.nvm.sess.busy ∨ s.nvm.want.isSome then (.busy, s.updErr 1)
  else s.sessionOpen { bytes := (s.reg aNvmUpdBytes).toNat }

/-- PROGRAM of the page in NVM_PAGE (R622). -/
def State.updProgram (s : State) : Resp × State :=
  let x := s.nvm.sess
  let off := (s.reg aNvmUpdOffset).toNat
  if x.st ≠ .open_ ∨ x.domain ∨ !s.maintMode 4 then (.ok, s.updErr 8)
  else if off % 256 ≠ 0 ∨ x.bytes ≤ off ∨ x.pages.contains (off / 256) then (.ok, s.updErr 3)
  else
    let data := (upto 64).flatMap (fun i => leBytes 4 (s.reg (aNvmPage i)).toNat)
    let s := s.setSess { x with pages := x.pages ++ [off / 256], err := 0 }
    (.ok, s.flashAsk { kind := .program, prio := 4, use := .page off, addr := s.nvm.slotBase s.otherSlot + off, data := data })

/-- The read of a slot for its verification. -/
def isVerify : FlashFor → Bool
  | .verify => true
  | _ => false

/-- The slot of a session has been read back: rows 1 to 4 of R619 decide (R622, R637); `errs` and `digErrs` are the bytes that the
reads for rows 1 to 3 and for row 4 deliver wrong. -/
def State.sessionVerify (s : State) (errs digErrs : List (Nat × Byte)) : State :=
  let base := s.nvm.slotBase s.otherSlot
  if s.secWiped then s.sessFail 9
  else match failedRows (s.nvm.misread base errs) (s.nvm.misread base digErrs) base with
    | 0 =>
      let d := s.nvm.sess.domain
      let s := s.slotRecord s.otherSlot
      let s := s.setSess { s.nvm.sess with st := .done, err := 0 }
      let s := { s with svc := { s.svc with ended := some 1 } }
      if d then s.event sevNotice aNvmUpdCtrl 4 6 4 0 else s
    | 4 => s.sessFail 5
    | _ => s.sessFail 6

/-- CLOSE: once the session's last page program has ended, the slot is read back, at priority 3, and verified (R611, R622). -/
def State.sessionClose (s : State) (missing : Nat) (errs digErrs : List (Nat × Byte)) : State :=
  let base := s.nvm.slotBase s.otherSlot
  let s := s.setReg aNvmUpdMiss (BitVec.ofNat 32 missing)
  let s := s.setSess { s.nvm.sess with st := .verifying }
  if missing ≠ 0 then s.sessFail 4
  else if s.noFlash isPage = false then s
  else
    let s := if s.noFlash isVerify then s.flashAsk { kind := .read, prio := 3, use := .verify, addr := base } else s
    if s.reading isVerify then (s.readOver isVerify).sessionVerify errs digErrs else s

/-- Pages or chunks of a session that are missing. -/
def Session.missing (x : Session) : Nat :=
  if x.domain then
    ((upto (ceilDiv x.bytes 768)).filter (fun c => !x.pages.contains (3 * c))).length
  else ceilDiv x.bytes 256 - x.pages.length

/-- ABORT ends a session in any state (R622). -/
def State.sessionAbort (s : State) : State :=
  let w := s.nvm.waiting.filter (fun o => !isSlotErase o.use && !isVerify o.use)
  let s := { s with nvm := { s.nvm with waiting := w, want := none } }
  let was := s.nvm.sess.busy
  let s := s.setSess {}
  if was then { s with svc := { s.svc with ended := some 1 } } else s

/-- OPEN: NVM_UPD_CTRL.OP = 1. -/
def execUpdOpen (s : State) : Host.Outcome State Fault Refusal := .next s.updOpen.2

/-- PROGRAM: NVM_UPD_CTRL.OP = 2. -/
def execUpdProgram (s : State) : Host.Outcome State Fault Refusal := .next s.updProgram.2

/-- CLOSE: NVM_UPD_CTRL.OP = 3, or the end of one that a bus write began. -/
def execUpdClose (errs digErrs : List (Nat × Byte)) (s : State) : Host.Outcome State Fault Refusal :=
  let x := s.nvm.sess
  .next (if (x.st ≠ .open_ ∧ x.st ≠ .verifying) ∨ x.domain then s.updErr 8 else s.sessionClose x.missing errs digErrs)

/-- ABORT: NVM_UPD_CTRL.OP = 4. -/
def execUpdAbort (s : State) : Host.Outcome State Fault Refusal := .next s.sessionAbort

/-- IMAGE OPEN: a domain session starts; an open domain session of another SESSION is aborted; a service-port session
keeps the place (R623, R666). -/
def execImageOpen (session : Nat) (bytes : Nat) (s : State) : Host.Outcome State Fault Refusal :=
  let x := s.nvm.sess
  let new : Session := { domain := true, id := session, bytes := bytes }
  .next (if (s.nvm.want.any (fun w => !w.domain)) then s.event sevMajor aNvmUpdCtrl 0 0 0 session
    else if (s.nvm.want.any (fun w => w.id == session)) then s
    else if x.busy ∧ x.domain = false then s.event sevMajor aNvmUpdCtrl 0 0 0 session
    else if x.busy ∧ x.id = session then s
    else
      let s := if x.busy then s.sessionAbort.maintEnd 3 else s
      if s.maintMode 4 = false then s
      else if s.svc.running.isSome ∧ s.svc.queued.isSome then s.event sevMajor aNvmUpdCtrl 0 0 0 session
      else (s.sessionOpen new).2)

/-- IMAGE DATA: one chunk programs its pages; a chunk that comes before OPEN, of another session or twice is dropped
(R623). -/
def execImageData (session offset : Nat) (data : List Byte) (s : State) : Host.Outcome State Fault Refusal :=
  let x := s.nvm.sess
  .next (if x.st ≠ .open_ ∨ x.domain = false ∨ x.id ≠ session ∨ offset % 768 ≠ 0 ∨ x.bytes ≤ offset
      ∨ data.length ≠ min 768 (x.bytes - offset) ∨ x.pages.contains (offset / 256) then s
    else
      let ps := (upto (ceilDiv data.length 256)).map (fun i => offset / 256 + i)
      let s := s.setSess { x with pages := x.pages ++ ps }
      forAll ps s (fun p s =>
        s.flashAsk { kind := .program, prio := 4, use := .page (256 * p), addr := s.nvm.slotBase s.otherSlot + 256 * p,
                     data := (data.drop (256 * p - offset)).take 256 }))

/-- IMAGE CLOSE (R623). -/
def execImageClose (session : Nat) (errs digErrs : List (Nat × Byte)) (s : State) : Host.Outcome State Fault Refusal :=
  let x := s.nvm.sess
  .next (if (x.st ≠ .open_ ∧ x.st ≠ .verifying) ∨ x.domain = false ∨ x.id ≠ session then s else s.sessionClose x.missing errs digErrs)

/-- IMAGE ABORT (R623). -/
def execImageAbort (session : Nat) (s : State) : Host.Outcome State Fault Refusal :=
  .next (if s.nvm.sess.domain ∧ s.nvm.sess.id = session then s.sessionAbort else s)

/-! ## Keys -/

/-- A refused key command sets NVM_KEYCMD.ERR; every command clears NVM_KEYBUF (R641). -/
def State.keyEnd (s : State) (ok : Bool) : State :=
  let s := { s with nvm := { s.nvm with keybuf := [] } }
  if ok then s else s.setFlag aNvmKeycmd 8 true

/-- The 256 bits of NVM_KEYBUF. -/
def Nvm.keyWord (n : Nvm) : Nat := leNat ((upto 8).flatMap (fun i => leBytes 4 (mget 0 n.keybuf i).toNat))

/-- Key hash `slot` is burned from NVM_KEYBUF: KEYCMD 1 (R641). -/
def State.burnHash (s : State) (slot : Nat) : State :=
  let f := s.nvm.fuses
  let ok := s.pwr.mode == .service && decide (f.state ≤ 1) && !f.burned slot
  let s' := if ok then { s with nvm := { s.nvm with fuses := { f with hash := mset none f.hash slot (some s.nvm.keyWord) } } } else s
  s'.keyEnd ok

/-- BURN_HASH. -/
def execBurnHash (slot : Fin 4) (s : State) : Host.Outcome State Fault Refusal := .next (s.burnHash slot)

/-- Key hash `slot` is revoked: KEYCMD 2; the last unrevoked burned hash cannot be revoked (R636, R641). -/
def State.revokeHash (s : State) (slot : Nat) : State :=
  let f := s.nvm.fuses
  let others := (upto 4).any (fun k => k != slot && f.burned k && !f.revoked.contains k)
  let ok := s.pwr.mode == .service && (f.state == 1 || f.state == 2) && (others || !f.burned slot)
  let s' := if ok && !f.revoked.contains slot then { s with nvm := { s.nvm with fuses := { f with revoked := f.revoked ++ [slot] } } } else s
  s'.keyEnd ok

/-- REVOKE. -/
def execRevokeKey (slot : Fin 4) (s : State) : Host.Outcome State Fault Refusal := .next (s.revokeHash slot)

/-- Key-store commands are allowed (R641). -/
def State.keyStoreOk (s : State) : Bool :=
  s.pwr.mode == .service && (s.nvm.fuses.state == 1 || s.nvm.fuses.state == 2)

/-- Domain key slot `slot` is written, or made invalid: KEYCMD 3 and 4 (R638, R641). -/
def State.storeKey (s : State) (slot : Nat) (k : Option Nat) : State :=
  let ok := s.keyStoreOk && decide (slot ≤ 1)
  let t := s.writeKeys slot k
  (if ok then (if s.secDead then t else t.fillSecure) else s).keyEnd ok

/-- SET_DOMAIN_KEY. -/
def execSetDomainKey (slot : Fin 4) (s : State) : Host.Outcome State Fault Refusal := .next (s.storeKey slot (some s.nvm.keyWord))

/-- CLEAR_DOMAIN_KEY. -/
def execClearDomainKey (slot : Fin 4) (s : State) : Host.Outcome State Fault Refusal := .next (s.storeKey slot none)

/-- A key command (R641); 0 and 5 to 7 have no effect. -/
def State.keyCmd (s : State) (cmd slot : Nat) : State :=
  match cmd with
  | 1 => s.burnHash slot
  | 2 => s.revokeHash slot
  | 3 => s.storeKey slot (some s.nvm.keyWord)
  | 4 => s.storeKey slot none
  | _ => s

/-- A write of NVM_LC_KEY: the key value opens a window of 1 s for a transition (R640). -/
def State.writeLcKey (s : State) (v : Word) : State :=
  { s with nvm := { s.nvm with lcOpen := if v = 0x4C435452#32 then some s.grid.tick else none } }

/-- LC_KEY. -/
def execLcKey (v : Word) (s : State) : Host.Outcome State Fault Refusal := .next (s.writeLcKey v)

end Sys2Proof.Machine
end

