-- ==== Sys2Proof/Machine/MemCmds.lean ====
section
/-!
DEFINITION. The commands of the memories and the interconnect (R525 to R541).
-/

namespace Sys2Proof.Machine

/-- SCRUB_ROW. -/
def execScrubRow (memid : BitVec 10) (s : State) : Host.Outcome State Fault Refusal := .next (s.scrubRow memid.toNat)

/-- ECC_REWRITE: the oldest queued word is rewritten (R526). -/
def execEccRewrite (s : State) : Host.Outcome State Fault Refusal :=
  .next (match s.ms.rewrites with
    | a :: rest => { s with ms := { s.ms with rewrites := rest, ecc := mset 0 s.ms.ecc a 0 } }
    | [] => s)

/-- The image's byte of a clip at a Millpond address (R618). -/
def State.clipByte (s : State) (a : Nat) : Byte :=
  match s.image with
  | some im =>
    match im.clips.find? (fun c => !c.recording && decide (c.addr ≤ a) && decide (a < c.addr + c.data.length)) with
    | some c => (c.data[a - c.addr]?).getD 0
    | none => 0
  | none => 0

/-- A flash read for the restore of a word in a 16-byte row. -/
def restoreOf (row : Nat) : FlashFor → Bool
  | .restore a => a / 16 == row / 16
  | _ => false

/-- CLIP_RESTORE: the flash read for the 16-byte row holding a clip word in error is over, and the row is rewritten from the
image (R527, R611). -/
def execClipRestore (addr : Nat) (s : State) : Host.Outcome State Fault Refusal :=
  let row := addr / 16 * 16
  .next (if s.reading (restoreOf addr) then
      let s := ({ s with ms := { s.ms with clipBad := s.ms.clipBad.filter (fun a => a / 16 ≠ addr / 16) } } : State).readOver (restoreOf addr)
      s.wrBytes row ((upto 16).map (fun i => s.clipByte (row + i)))
    else s)

/-- TAMPER: TAMPER_N low at two AON samples starts a wipe (R529). -/
def execTamperLow (s : State) : Host.Outcome State Fault Refusal :=
  .next (if s.ms.tamperLow then s
    else ({ s with ms := { s.ms with tamperLow := true } } : State).startWipe true)

/-- WIPE_DONE: the readback is clean, or a row is still not zero and the region locks (R529); after a tamper the steward
commits a TAMPER record ahead of the queue and erases both key store copies (R638).  A boot that waited for the end of a
life-cycle wipe fills the region (R637). -/
def execWipeDone (clean : Bool) (s : State) : Host.Outcome State Fault Refusal :=
  .next (if s.ms.wiping = false then s
    else
      let tamper := s.ms.wipeTamper
      let s := { s with ms := { s.ms with wiping := false, wipeTamper := false, secLock := s.ms.secLock || !clean } }
      let s := if clean then s else s.event sevCritical aMpdSecStat 1 1 1 0
      if tamper then
        let s := s.event sevCritical aMpdSecStat 31 31 1 0
        let r : JRec := { type := 9, data := leBytes 4 s.nvm.keyGen ++ leBytes 4 s.rtc }
        let s := { s with nvm := { s.nvm with queue := r :: s.nvm.queue } }
        forAll [0, 1] s (fun c s => s.flashAsk { kind := .erase, prio := 5, use := .keyErase c, addr := 0x1000 * c })
      else if s.pwr.mode = .boot ∧ s.pwr.bootStage = 9 ∧ s.secDead = false then s.loadKeys.fillSecure
      else s)

/-- TAMPER_RELEASE: TAMPER_N is high again (R529). -/
def execTamperRelease (s : State) : Host.Outcome State Fault Refusal :=
  .next { s with ms := { s.ms with tamperLow := false } }

/-- A write of MPD_MARCH_CTRL (R531, R544): a refused request sets REFUSED and reaches no arbiter. -/
def State.writeMarchCtrl (s : State) (v : Word) : Resp × State :=
  let id := bits v 25 16
  let s := s.setReg aMpdMarchCtrl (v &&& 0x03FF0001#32)
  if !v.getLsbD 31 then (.ok, s)
  else if !memIdOk id ∨ 0x300 ≤ id ∨ (v.getLsbD 0 ∧ s.pwr.mode ≠ .service)
      ∨ (!v.getLsbD 0 ∧ 0x100 ≤ id ∧ 4 ≤ (id - 0x100) % 8) then (.ok, s.setFlag aMpdMarchStat 3 true)
  else s.maintRequest { kind := 1, arg := id }

/-- MARCH_GO: a write of MPD_MARCH_CTRL with GO set. -/
def execMarchGo (v : Word) (s : State) : Host.Outcome State Fault Refusal :=
  .next (if v.getLsbD 31 then (s.writeMarchCtrl v).2 else s)

/-- MARCH_ROW: the next row of the test passes or fails (R530, R531). -/
def execMarchRow (fails : Bool) (s : State) : Host.Outcome State Fault Refusal :=
  .next (match s.ms.march with
    | some m =>
      if m.row < memRows m.memid + 2 then
        let m' := { m with row := m.row + 1, fails := if fails then m.fails ++ [m.row] else m.fails }
        { s with ms := { s.ms with march := some m', marchRow := m.row, marchFails := m'.fails } }
      else s
    | none => s)

/-- A failing row that a preserving test found: the list with its spare is journalled, and a MAJOR record written (R533). -/
def State.rowRepaired (s : State) (id : Nat) (changed : Bool) (f : RepairTab × Bool) : State :=
  let s := if f.2 || changed then s.journal 4 (repairBytes id f.1) else s
  s.event sevMajor aMpdMarchStat 0 2 (if f.2 then 3 else 4) id

/-- MARCH_END: every row is tested; failing rows take spares, the lists are journalled, and a destructive test, whose results replace
the table, leaves the bank filled with 0 (R531, R533). -/
def execMarchEnd (s : State) : Host.Outcome State Fault Refusal :=
  .next (match s.ms.march with
    | some m =>
      let n := memRows m.memid
      if m.row < n + 2 then s
      else
        let old := mget {} s.ms.repair m.memid
        let t0 := RepairTab.tested (if m.destructive then {} else old) n m.fails
        let found := m.fails.filter (fun r => decide (r < n))
        let again := if m.destructive then [] else old.rows.filter (fun r => !(t0.rows.contains r) && !(found.contains r))
        let fill := t0.fill (found ++ again)
        let t := match fill.getLast? with | some f => f.1 | none => t0
        let st := if m.fails = [] then 2 else if fill.all (·.2) then 3 else 4
        let s := if m.destructive then
            forAll (upto n) s (fun r s => s.zeroRange ((rowWords m.memid r).headD 0) (4 * (rowWords m.memid r).length)) else s
        let s := { s with ms := { s.ms with march := none, marchSt := st, marchFails := m.fails, repair := mset {} s.ms.repair m.memid t },
                          svc := { s.svc with ended := some 1 } }
        if m.destructive then
          let s := if t ≠ old ∨ fill ≠ [] then s.journal 4 (repairBytes m.memid t) else s
          if fill = [] then s else s.event sevMajor aMpdMarchStat 0 2 st m.memid
        else forAll fill s (fun f s => s.rowRepaired m.memid (!again.isEmpty) f)
    | none => s)

/-- The master codes of the device bus (R543). -/
def masterCode : Master → Nat
  | .stew => 13
  | .svc => 14

/-- A read of XBAR_SEMk takes the semaphore when it is free (R539). -/
def State.semRead (s : State) (k : Nat) (m : Master) : Word × State :=
  let v := s.reg (aXbarSem k)
  if v.getLsbD 0 then (v, s.setReg (aXbarSem k) (putBits (putBits v 0 0 0) 11 8 (masterCode m))) else (v, s)

/-- SEMAPHORE_READ. -/
def execSemaphoreRead (k : Fin 32) (m : Master) (s : State) : Host.Outcome State Fault Refusal :=
  let (v, s) := s.semRead k m
  .next { s with svc := { s.svc with resp := .ok, rdata := v } }

/-- A write of XBAR_SEMk with RELEASE set frees the semaphore for its owner only (R539). -/
def State.semWrite (s : State) (k : Nat) (m : Master) (v : Word) : State :=
  if v.getLsbD 31 && decide (s.fld (aXbarSem k) 11 8 = masterCode m) then s.setFlag (aXbarSem k) 0 true else s

/-- RELEASE: a write of XBAR_SEMk with RELEASE set. -/
def execSemRelease (k : Fin 32) (m : Master) (s : State) : Host.Outcome State Fault Refusal :=
  .next (s.semWrite k m 0x80000000#32)

/-- BUS_HANG: a device-bus access got no response for 2,048 cycles (R541). -/
def State.busHang (s : State) (m : Master) (a : Nat) : State :=
  let s := s.raise 0x0E (masterCode m) 1 0
  let s := s.count aXbarHang 31 16 1
  let s := (s.setFld aXbarHang 3 0 (masterCode m)).setReg aXbarHangAddr (BitVec.ofNat 32 a)
  let s := { s with svc := { s.svc with resp := .hang, rdata := 0 } }
  match m with
  | .stew => s.event sevMajor aXbarHang 0 3 (masterCode m) a
  | .svc => s

/-- BUS_HANG. -/
def execBusHang (m : Master) (addr : Word) (s : State) : Host.Outcome State Fault Refusal := .next (s.busHang m addr.toNat)

end Sys2Proof.Machine
end

