-- ==== Sys2Proof/Machine/TallyCmds.lean ====
section
/-!
DEFINITION. The commands of the monitors, the recorder's reading cursor, marks and maintenance (R645 to R666).
-/

namespace Sys2Proof.Machine

/-- A write of TLY_MONm_CFG: fields other than EN only while EN is 0 and no window is open (R645, R648, R697). -/
def State.writeMonCfg (s : State) (m : Nat) (v : Word) : State :=
  let old := s.reg (aTlyMonCfg m)
  let v := v &&& 0xBFBF1FFF#32
  let x := s.mon m
  if (old.getLsbD 31 ∨ x.run) ∧ (v ^^^ old) &&& 0x7FFFFFFF#32 ≠ 0 then s.setFlag (aTlyMonCtrl m) 9 true
  else
    let s := s.setReg (aTlyMonCfg m) v
    if v.getLsbD 31 && !old.getLsbD 31 then
      if s.monBad m then s else s.setMon m { x with on := true, first := s.nextPass + 1 }
    else if !v.getLsbD 31 && old.getLsbD 31 then s.setMon m { x with on := false, stop := x.stop ++ [(s.nextPass, false)] }
    else s

/-- A write of another RW register of a monitor (R648, R697). -/
def State.writeMonReg (s : State) (m a : Nat) (mask v : Word) : State :=
  let v := v &&& mask
  if (s.flag (aTlyMonCfg m) 31 ∨ (s.mon m).run) ∧ v ≠ s.reg a then s.setFlag (aTlyMonCtrl m) 9 true else s.setReg a v

/-- MONITOR_ENABLE: a write of TLY_MONm_CFG that sets EN. -/
def execMonitorEnable (m : Fin 64) (v : Word) (s : State) : Host.Outcome State Fault Refusal :=
  .next (if v.getLsbD 31 && !s.flag (aTlyMonCfg m) 31 then s.writeMonCfg m v else s)

/-- MONITOR_DISABLE: a write of TLY_MONm_CFG that clears EN. -/
def execMonitorDisable (m : Fin 64) (v : Word) (s : State) : Host.Outcome State Fault Refusal :=
  .next (if !v.getLsbD 31 && s.flag (aTlyMonCfg m) 31 then s.writeMonCfg m v else s)

/-- A write of TLY_MONm_CTRL.CLOSE: the window closes at the end of the pass that recognises it (R645). -/
def State.closeWindow (s : State) (m : Nat) : State :=
  let x := s.mon m
  if x.on then s.setMon m { x with stop := x.stop ++ [(s.nextPass, true)] } else s

/-- MONITOR_CLOSE. -/
def execMonitorClose (m : Fin 64) (s : State) : Host.Outcome State Fault Refusal := .next (s.closeWindow m)

/-- WINDOW_END: the last of a window's WIN passes ends (R645, R647). -/
def execWindowEnd (m : Fin 64) (s : State) : Host.Outcome State Fault Refusal :=
  .next (if s.fld (aTlyMonWin m) 31 0 ≠ 0 ∧ (s.mon m).left = 0 then s.monClose m else s)

/-- WINDOW_RECORDS: the steward writes a closed window's records (R648). -/
def execWindowRecords (m : Fin 64) (s : State) : Host.Outcome State Fault Refusal := .next (s.monRecords m)

/-- Seconds and nanoseconds of P / fs (R655). -/
def State.passTime (s : State) : Nat × Nat :=
  (s.grid.p.toNat / s.fs, s.grid.p.toNat % s.fs * 1000000000 / s.fs)

/-- TIME_RECORD: the hourly record, of the domain's index while the functions of R36 run, or of the local count (R36,
R655). -/
def execTimeRecord (s : State) : Host.Outcome State Fault Refusal :=
  .next (if s.inDomain then
      if s.grid.p.toNat % (3600 * s.fs) = 0 ∧ s.grid.fnOn ∧ s.grid.fnFade = none then s.timeRec false s.passTime.1 s.passTime.2 else s
    else if s.grid.tick % (3600 * s.fs) = 0 ∧ s.graphRuns then s.timeRec true s.rtc 0 else s)

/-- A write of TLY_CURSOR: MODE 0 sets SLOT, MODE 1 starts a search (R657). -/
def State.writeCursor (s : State) (v : Word) : State :=
  if v.getLsbD 31 then { s with tly := { s.tly with ready := false, empty := false } }
  else { s with tly := { s.tly with slot := bits v 10 0, ready := true, empty := false } }

/-- CURSOR_SET. -/
def execCursorSet (v : Word) (s : State) : Host.Outcome State Fault Refusal :=
  .next (if v.getLsbD 31 then s else s.writeCursor v)

/-- CURSOR_SEARCH. -/
def execCursorSearch (v : Word) (s : State) : Host.Outcome State Fault Refusal :=
  .next (if v.getLsbD 31 then s.writeCursor v else s)

/-- The slot of the oldest record newer than a sequence number (R657). -/
def State.oldestAfter (s : State) (q : Nat) : Option Nat :=
  (s.tly.store.foldl (fun (b : Option (Nat × Nat)) e =>
    match e.2 with
    | some r =>
      if 0 < seqDiff r.seq q then
        match b with
        | some (_, x) => if seqDiff r.seq x < 0 then some (e.1, r.seq) else b
        | none => some (e.1, r.seq)
      else b
    | none => b) none).map (·.1)

/-- CURSOR_READY: the search ends; SVC_IRQ.CURSOR is set (R657). -/
def execCursorReady (s : State) : Host.Outcome State Fault Refusal :=
  .next (if s.tly.ready then s
    else
      let s := s.irq 5
      match s.oldestAfter (s.reg aTlyCurseq).toNat with
      | some k => { s with tly := { s.tly with slot := k, ready := true, empty := false } }
      | none => { s with tly := { s.tly with ready := true, empty := true } })

/-- TLY_MARK: a MARK record of the service port (R664). -/
def execTlyMark (v : Word) (s : State) : Host.Outcome State Fault Refusal :=
  .next (s.mark (bits v 17 16) (bits v 15 0) 1 0 0xFFFF)

/-- SCRUB_SWEEP: SVC_MAINT kind 2 (R665). -/
def execScrubSweep (arg : BitVec 10) (s : State) : Host.Outcome State Fault Refusal :=
  .next (s.maintRequest { kind := 2, arg := arg.toNat }).2

/-- MAINT_END: the running request's work is over; the arbiter admits the next (R666). -/
def State.maintOver (s : State) : State :=
  match s.svc.running, s.svc.ended with
  | some _, some r => s.maintEnd r
  | _, _ => s

end Sys2Proof.Machine
end

