-- ==== Sys2Proof/Machine/FaultOps.lean ====
section
/-!
DEFINITION. The safe state, the sluice path, the decision to yield, and restarts through BOOT (R548 to R558, R568, R579,
R582, R598, R601).
-/

namespace Sys2Proof.Machine

/-! ## Yield -/

/-- The active twin decides to yield, when its peer is READY (R567, R568). -/
def State.decideYield (s : State) (revert : Bool) : State :=
  if s.twin.on && s.twin.st == .active && s.twin.peerReady && s.twin.yielding.isNone then
    ({ s with twin := { s.twin with yielding := some (s.grid.tick, revert) } } : State).count aTwinEvents 31 24 1
  else s

/-! ## The safe state -/

/-- The sluice output ports (R555): entries of FLT_SLUICE_OUT naming a port with SLOTS not 0, each once. -/
def State.sluicePorts (s : State) : List Nat :=
  ([0, 1, 2, 3].map (fun k => s.fld aFltSluiceOut (4 * k + 3) (4 * k))).filter (fun p => decide (p < 12) && s.pSlots p != 0)
    |>.eraseDups

/-- A shared port of a twin (R561). -/
def State.sharedPort (s : State) (k : Nat) : Bool := s.twin.on && s.fld (aPortCtrl k) 11 10 == 2

/-- SLUICE_ACT: SLUICE mode with at least one sluice output port running in PORTS (R558). -/
def State.sluiceAct (s : State) : Bool :=
  s.pwr.mode == .sluice && s.flt.safe && !s.flt.slDead && s.domOn 76 && s.sluicePorts.any (fun p => !s.sharedPort p)

/-- The twin gives up the shared lines: pass `n` is the first it does not drive (R568, R569). -/
def Twin.dropLines (t : Twin) (n : Nat) : Twin := if t.lines then { t with lines := false, linesFrom := n } else t

/-- The outputs are forced to the safe state (R550): the graph stops, every port ends its current frame, the sluice path
starts with a sample of 0. -/
def State.safeState (s : State) : State :=
  let s := s.setMode .sluice
  { s with flt := { s.flt with safe := true, slBuf := [], slOut := [], slRace := 0, slEnded := [] },
           pwr := { s.pwr with leaving := none, toDormant := false },
           twin := if s.twin.yielding.isSome then s.twin else { s.twin.dropLines (s.grid.tick + 1) with act := false },
           clk := { s.clk with outs := mupdAll {} s.clk.outs (fun _ o => o.gate (outTime o.onRef s.strobeCyc)) (upto 8) } }

/-- The reaction to a fatal report (R549, R550): LOCK, the safe state, maintenance and commits ended; only PORTS, RACE
and STEW stay on. -/
def State.fatalReaction (s : State) : State :=
  if s.flt.lock then s
  else
    let s := s.decideYield false
    let s := { s with flt := { s.flt with lock := true, fatal := true }, nvm := { s.nvm with fatals := s.nvm.fatals + 1 } }
    let s := s.safeState.maintAbort.flashSuspend
    let s := if s.twin.on && s.twin.yielding.isNone then { s with twin := { s.twin with st := .failed } } else s
    s.powerOffBut [76, 78, 79]

/-! ## The sluice path -/

/-- The sluice input's CIC: order 4, decimation 64, over one sample's bits (R554). -/
def sluiceCic (integ comb : List Nat) (bs : List Bool) : List Nat × List Nat × Int :=
  let integ := bs.foldl (fun l b => cicInteg l (if b then 1 else 2 ^ 28 - 1)) integ
  let (comb, y) := cicComb comb ((integ.getLast?).getD 0)
  (integ, comb, sat32 (signed28 y * 2 ^ 7))

/-- The sluice input sample before attenuation, from the words the selected input brings (R554). -/
def State.sluiceInput (s : State) (ws : List Word) : Int × State :=
  let w (i : Nat) : Int := ((ws[i]?).getD 0).toInt
  match s.fld aFltSluiceIn 1 0 with
  | 0 =>
    let m := s.fld aFltSluiceIn 3 2
    (if m = 0 then w 0 else if m = 1 then w 1 else divRne (w 0 + w 1) 2, s)
  | 1 =>
    let bs := (upto 64).map (fun j => ((ws[j / 32]?).getD 0).getLsbD (j % 32))
    let get (k : Nat) : List Nat := (upto 4).map (fun i => (mget 0 s.flt.slCic (k + i)).toNat)
    let (i, c, x) := sluiceCic (get 0) (get 4) bs
    (x, { s with flt := { s.flt with slCic := msetAll 0 [] ((i ++ c).zipIdx.map (fun e => (e.2, (e.1 : Int)))) } })
  | 2 => (if s.domOn 78 && !s.coreOff then w 0 else 0, s)
  | _ => (0, s)

/-- One frame of the sluice divider, or of the external clock of slave port `port` (R554, R556, R557): the input is
captured on its own frame clock and each output of this clock sends the sample captured two frames before. -/
def State.sluiceFrame (s : State) (port : Option Nat) (ws : List Word) : State :=
  let src := s.fld aFltSluiceIn 1 0
  let mine := match port with
    | none => src != 0 || s.pMaster 0
    | some k => src == 0 && k == 0 && !s.pMaster 0
  let out : Word := (s.flt.slBuf[1]?).getD 0
  let s := if mine then
      let (x, s) := s.sluiceInput ws
      let y := divRne x (2 ^ s.fld aFltSluiceIn 10 8)
      { s with flt := { s.flt with slBuf := (BitVec.ofInt 32 y :: s.flt.slBuf).take 4 } }
    else s
  let ps := s.sluicePorts.filter (fun p => !s.sharedPort p && (match port with | none => s.pMaster p | some k => p == k))
  let s := { s with flt := { s.flt with slOut := ps.foldl (fun m p => mset 0 m p out) s.flt.slOut } }
  match port with
  | none => if s.fld aFltSluiceOut 19 16 < 4 then { s with flt := { s.flt with slRace := out } } else s
  | some _ => s

/-- SLUICE_FRAME. -/
def execSluiceFrame (port : Option PortNo) (input : List Word) (s : State) : Host.Outcome State Fault Refusal :=
  .next (if s.flt.safe ∧ s.flt.slDead = false then s.sluiceFrame (port.map (·.val)) input else s)

/-- SLUICE_FRAME_END: a slave port whose frame has not ended after 516 (258) REF cycles ends it (R553). -/
def execSluiceFrameEnd (k : PortNo) (s : State) : Host.Outcome State Fault Refusal :=
  .next (if s.flt.safe ∧ s.pMaster k = false ∧ s.flt.slEnded.contains k.val = false then
      { s with flt := { s.flt with slEnded := s.flt.slEnded ++ [k.val] } }
    else s)

/-! ## Restarts -/

/-- The registers that a reset of the switched domains keeps: those of AON, with every monitor's EN cleared, and the
tamper bit (R579, R645). -/
def keptRegs (m : SMap Word) : SMap Word :=
  (m.filter (fun e => decide (e.1 / 65536 = 0x4001) || decide (e.1 / 65536 = 0x4003) || decide (e.1 / 65536 = 0x4004)
      || decide (e.1 = aMpdSecStat))).foldr
    (fun e r =>
      let v := if 0x40041000 ≤ e.1 ∧ e.1 < 0x40043000 ∧ (e.1 - 0x40041000) % 0x80 = 0 then e.2 &&& 0x7FFFFFFF#32
        else if e.1 = aMpdSecStat then e.2 &&& 0x80000000#32 else e.2
      if v = 0 then r else (e.1, v) :: r) []

/-- A reset of every switched domain (R579): AON keeps the fault latch, the Tally store, its registers, the clock and
the repair lists; the secure region, the flash and the fuses keep their contents; waiting commands stay in the queue. -/
def State.switchedReset (s : State) (cause : Nat) : State :=
  let n : Nvm := { size := s.nvm.size, bus := s.nvm.bus, flash := s.nvm.flash, fuses := s.nvm.fuses, hours := s.nvm.hours, boots := s.nvm.boots, fatals := s.nvm.fatals,
                   shutdowns := s.nvm.shutdowns, pfails := s.nvm.pfails }
  let t : State :=
    { pending := s.pending, regs := keptRegs s.regs, mem := s.mem.filter (fun c => decide (c.1 / 0x40000 = 0x600)),
      flt := { s.flt with raised := [], safe := s.flt.lock && s.flt.safe, armed := none }, nvm := n,
      tly := { s.tly with mons := (s.tly.mons.map (fun e => (e.1, ({ held := e.2.held, heldIx := e.2.heldIx } : Mon)))).filter (fun e => decide (e.2 ≠ {})) },
      ms := { repair := s.ms.repair, secLock := s.ms.secLock, tamperLow := s.ms.tamperLow, wiping := s.ms.wiping, wipeTamper := s.ms.wipeTamper,
              ecc := s.ms.ecc.filter (fun e => decide (e.1 / 0x40000 = 0x600)) },
      twin := { selB := s.twin.selB }, pwr := { cool := 0, bankCls := s.pwr.bankCls }, rtc := s.rtc, draws := s.draws }
  (t.setFlag aPwrRstCause cause true).irq 2

/-- Repair lists from the journal's REPAIR records (R533). -/
def repairsOf (rs : List JRec) : SMap RepairTab :=
  rs.foldl (fun m r =>
    if r.type = 4 then
      let k := ((r.data[2]?).getD 0).toNat
      mset {} m (leNat (r.data.take 2))
        { row0 := if 1 ≤ k then some (leNat ((r.data.drop 4).take 4)) else none,
          row1 := if 2 ≤ k then some (leNat ((r.data.drop 8).take 4)) else none }
    else m) []

/-- The totals of the latest COUNTERS record (R629). -/
def Nvm.countersOf (n : Nvm) : Nvm :=
  match n.latest 8 (fun _ => true) with
  | some r =>
    let f (o : Nat) := leNat ((r.data.drop o).take 4)
    { n with hours := f 0, boots := f 4, fatals := f 8, shutdowns := f 12, pfails := f 16 }
  | none => n

/-- Half-burned fuse pairs are completed (R636). -/
def Fuses.completed (f : Fuses) : Fuses :=
  { f with pair1 := if f.pair1 = 1 then 2 else f.pair1, pair2 := if f.pair2 = 1 then 2 else f.pair2,
           pair3 := if f.pair3 = 1 then 2 else f.pair3 }

/-- The journal of chain `c` with generation `g` is scanned; its repairs are applied, the counters read and the spare
chain erased (R533, R629, R631, R632). -/
def State.takeChain (s : State) (c g : Nat) : State :=
  let x := s.nvm.scanChain c
  let n : Nvm := Nvm.countersOf
    { s.nvm with chain := c, gen := g, recs := x.recs, used := x.used, seq := (x.last.getD 0 + 1) % 2 ^ 32,
                 spareErased := (s.nvm.writtenPages (1 - c)).isEmpty }
  let s := ({ s with nvm := { n with boots := n.boots + 1 }, ms := { s.ms with repair := repairsOf n.recs } } : State).count
    aNvmJrnCnt 31 16 x.torn
  if n.spareErased then s else s.eraseChain (1 - c)

/-- No chain is complete: the journal is empty and waits to be formatted (R631, R643). -/
def State.blankJournal (s : State) : State := { s with nvm := { s.nvm with format := true, boots := s.nvm.boots + 1 } }

/-- BOOT_SEQUENCE up to the choice of an image (R601, R631, R636 to R638): the journal is scanned; repairs are applied, half-burned fuse pairs completed, keys loaded, the secure region filled. -/
def State.bootScan (s : State) : State :=
  if s.nvm.size = 0 then { s with pwr := { s.pwr with bootStage := 5 } }
  else
    let s := { s with nvm := { s.nvm with fuses := s.nvm.fuses.completed } }
    let s := match s.nvm.activeChain with
      | some (c, g) => s.takeChain c g
      | none => s.blankJournal
    let s := s.loadKeys
    let s := if s.secDead then s else s.fillSecure
    { s with pwr := { s.pwr with bootStage := 9 } }

/-- A restart of the switched domains through BOOT (R592, R594, R599, R640). -/
def State.reboot (s : State) (cause : Nat) : State := (s.switchedReset cause).bootScan

/-! ## Boot failure -/

/-- The engine enters SLUICE with LOCK clear after a boot failure or a strap conflict (R560, R578, R601). -/
def State.enterBootFail (s : State) : State :=
  let s := s.safeState
  { s with pwr := { s.pwr with bootFailed := true } }

/-- The banks of two classes take theirs, as their rails read (R676; assumption 190). -/
def State.takeClasses (s : State) : State :=
  { s with pwr := { s.pwr with bankCls := (Config.freeWord s.draws).setWidth 4 }, draws := s.draws + 1 }

/-- POWER_ON_RESET: everything is reset, AON included; the boot sequence discovers a flash of 2^`size` bytes and runs to
the choice of an image; TWIN_SEL is latched (R559, R560, R579, R601, R607, R608, R652).  The secure region keeps its
contents only when its rail never left its range. -/
def execPowerOnReset (size : Fin 33) (octal selB railHeld : Bool) (s : State) : Host.Outcome State Fault Refusal :=
  let ok := decide (25 ≤ size.val)
  let n : Nvm := { size := if ok then size else 0, bus := if !ok then 0 else if octal then 2 else 1, flash := s.nvm.flash,
                   fuses := s.nvm.fuses }
  let t : State := { pending := s.pending, nvm := n, twin := { selB := selB }, draws := s.draws,
                     mem := if railHeld then s.mem.filter (fun c => decide (c.1 / 0x40000 = 0x600)) else [] }
  let t := t.takeClasses.bootScan
  let seqs := (t.nvm.recs.filter (fun r => r.type == 7)).map (fun r => leNat (r.data.take 4))
  .next { t with tly := { t.tly with seq := match seqs with
    | [] => 0
    | q :: qs => (qs.foldl (fun m x => if 0 < seqDiff x m then x else m) q + 1) % 2 ^ 32 } }

/-- RESET_N: low for 32 samples.  With LOCK set only STEW restarts; in DORMANT it is a wake source (R579, R580,
R594). -/
def execResetN (s : State) : Host.Outcome State Fault Refusal :=
  .next (if s.flt.lock then
      let t := s.setFlag aPwrRstCause 2 true
      { t with svc := {}, nvm := { t.nvm with sess := {}, want := none } }
    else s.reboot 2)

end Sys2Proof.Machine
end

