-- ==== Sys2Proof/Machine/PowerCmds.lean ====
section
/-!
DEFINITION. Temperature, power-fail, gating, QUIET and waking (R584 to R600).
-/

namespace Sys2Proof.Machine

/-- A thermal shutdown (R598): the safe state with LOCK clear, every switched domain but PORTS off; STEW stays on until a
page program in progress ends; an erase is suspended. -/
def State.thermalShutdown (s : State) : State :=
  let s := s.decideYield false
  let s := s.setFlag aPwrTherm 17 true
  let s := { s with nvm := { s.nvm with shutdowns := s.nvm.shutdowns + 1 } }
  let s := s.event sevCritical aPwrTherm 17 17 1 0
  if s.pwr.mode = .dormant then s
  else
    let s := s.safeState.flashSuspend
    let s := { s with pwr := { s.pwr with thermal := true, cool := 0 } }
    let busy : Bool := match s.nvm.op with | some o => o.kind == .program | none => false
    if busy then s.powerOffBut [76, 79] else s.thermalOff

/-- The warning of R595 is raised or cleared. -/
def State.thermalWarn (s : State) (t : Int) : State :=
  if 460 ≤ t ∧ s.flag aPwrTherm 16 = false then
    let s := (s.setFlag aPwrTherm 16 true).raise 0x12 0 0 (t.toNat % 65536)
    s.recognise (fun k => k == .thermal false)
  else if t < 440 ∧ s.flag aPwrTherm 16 then
    let s := (s.setFlag aPwrTherm 16 false).event sevNotice aPwrTherm 16 16 0 0
    (s.recognise (fun k => k == .thermal true)).flashNext
  else s

/-- A reading after a thermal shutdown: the fourth in a row below 110 °C restarts the engine (R599); it wakes no engine in DORMANT
(R605). -/
def State.coolDown (s : State) (t : Int) : State :=
  let n := if t < 440 then s.pwr.cool + 1 else 0
  let s := { s with pwr := { s.pwr with cool := n } }
  if n < 4 then s
  else if s.pwr.thermal ∧ s.pwr.mode = .sluice ∧ s.flt.lock = false then (s.setFlag aPwrTherm 17 false).reboot 3
  else if s.pwr.mode = .sluice then s
  else s.setFlag aPwrTherm 17 false

/-- TEMPERATURE_READING, in steps of 0.25 °C (R595 to R599, R605). -/
def execTemperatureReading (reading : Int) (s : State) : Host.Outcome State Fault Refusal :=
  let inj := s.injFor 0x12 0 0
  let t := if inj then 524 else clampI (-32768) 32767 reading
  let s := if inj then s.disarm.raiseInj 0x12 0 0 (t.toNat % 65536) else s
  let s := s.setFld aPwrTherm 15 0 (BitVec.ofInt 16 t).toNat
  let s := if sbits (s.reg aPwrTmax) 15 0 < t then s.setFld aPwrTmax 15 0 (BitVec.ofInt 16 t).toNat else s
  let s := (s.monitor 10 0 t).thermalWarn t
  let shut := s.flag aPwrTherm 17 && (s.pwr.mode == .dormant || s.pwr.mode == .sluice)
  .next (if 520 ≤ t ∧ shut = false then s.thermalShutdown
    else if s.flag aPwrTherm 17 then s.coolDown t
    else s)

/-- PFAIL: PFAIL_N low for 32 samples; ignored in DORMANT (R594, R600, R612). -/
def execPfailLow (s : State) : Host.Outcome State Fault Refusal :=
  .next (if s.flag aPwrPfail 0 ∨ s.pwr.mode = .dormant then s
    else
      let s := (s.setFlag aPwrPfail 0 true).count aPwrPfail 31 16 1
      let s := { s with nvm := { s.nvm with pfails := s.nvm.pfails + 1 } }
      let q := s.requeueNewest.nvm.queue.length
      let s := s.event sevMajor aPwrPfail 0 0 1 0
      -- the record is written without flushing it
      ({ s with nvm := { s.nvm with queue := s.nvm.queue.take q } } : State).flashSuspend)

/-- PFAIL_RELEASE: PFAIL_N high for 100 ms; commits resume (R600, R612). -/
def execPfailRelease (s : State) : Host.Outcome State Fault Refusal :=
  .next (if s.flag aPwrPfail 0 then (s.setFlag aPwrPfail 0 false).flashNext else s)

/-! ## Gating and QUIET -/

/-- HOLD of a region (R584). -/
def State.gateHold (s : State) (r : Nat) : Nat := s.fld (aPwrGate r) 15 0

/-- The tiles of a region, by the programs of their fronts (R79). -/
def State.regionTiles (s : State) (r : Nat) : List Nat := (s.scn.progs.filter (fun t => t.2.region == some r)).map (·.1)

/-- REGION_GATED: a region completes HOLD quiet passes; its tiles enter retention and its pending runs are discarded
(R585, R605). -/
def execRegionGated (r : Fin 64) (s : State) : Host.Outcome State Fault Refusal :=
  .next (if s.gateHold r ≠ 0 ∧ s.gateHold r ≤ mget 0 s.pwr.quiet r ∧ s.pwr.gated.contains r.val = false
      ∧ s.graphRuns ∧ s.pwr.loud.contains r.val = false then
      let s := { s with pwr := { s.pwr with gated := s.pwr.gated ++ [r.val] } }
      let s := forAll (s.regionTiles r) s (fun n s => (s.setDom n .retention).setTile n { s.tile n with runs := [], run := .idle, waiting := false })
      s.count aPwrGatecnt 15 0 1
    else s)

/-- The regions an image gates: those with HOLD not 0 that some tile names (R588, R590). -/
def State.gateable (s : State) : List Nat :=
  (upto 64).filter (fun r => s.gateHold r != 0 && !(s.regionTiles r).isEmpty)

/-- The conditions of R590 hold in the current pass. -/
def State.quietNow (s : State) : Bool :=
  s.pwr.mode == .run && s.flag aPwrQuiet 0 && !s.twin.on && !s.gateable.isEmpty
    && s.gateable.all (fun r => s.pwr.gated.contains r) && s.scn.running.isNone && s.scn.others.isEmpty
    && s.svc.running.isNone

/-- QUIET_ENTRY: PWR_QUIET.HOLD consecutive such passes are complete (R590). -/
def execQuietEntry (s : State) : Host.Outcome State Fault Refusal :=
  .next (if s.quietNow ∧ max 1 (s.fld aPwrQuiet 31 16) ≤ s.pwr.quietRun then s.setMode .quiet else s)

/-- A write of PWR_QUIET, recognised in the pass after, leaves QUIET (R591, R604). -/
def State.writePwrQuiet (s : State) (v : Word) : State :=
  let s := (s.setReg aPwrQuiet (v &&& 0xFFFF0001#32)).later s.nextPass .quietOff
  { s with pwr := { s.pwr with quietRun := 0 } }

/-- PWR_QUIET_WRITE. -/
def execPwrQuietWrite (v : Word) (s : State) : Host.Outcome State Fault Refusal := .next (s.writePwrQuiet v)

/-- A region's input was not quiet: it wakes, to run again two passes later (R586). -/
def State.regionWake (s : State) (r : Nat) : State :=
  let s := { s with pwr := { s.pwr with quiet := mset 0 s.pwr.quiet r 0 } }
  if s.pwr.gated.contains r ∧ s.pwr.waking.any (fun w => w.region == r) = false then
    let w : WakeRun := { region := r, due := s.grid.tick + 2 }
    ({ s with pwr := { s.pwr with waking := s.pwr.waking ++ [w] } } : State).leaveQuiet.count aPwrGatecnt 31 16 1
  else s

/-! ## Waking from DORMANT -/

/-- A wake source starts the boot sequence, or waits for the entry to DORMANT to complete (R594, R605). -/
def State.wakeUp (s : State) : State :=
  if s.pwr.mode = .dormant then
    s.reboot 4
  else if s.pwr.toDormant then { s with pwr := { s.pwr with wakeHeld := true } }
  else s

/-- WAKE: the WAKE ball at `level` for 2 AON cycles (R594). -/
def execWakeBall (level : Bool) (s : State) : Host.Outcome State Fault Refusal :=
  .next (if s.flag aPwrWake 0 ∧ s.flag aPwrWake 1 = level then s.wakeUp else s)

/-- RTC_ALARM: DELAY seconds after the entry to DORMANT (R594). -/
def execRtcAlarm (s : State) : Host.Outcome State Fault Refusal :=
  .next (if s.fld aPwrWake 31 16 ≠ 0 ∧ s.pwr.mode = .dormant then s.wakeUp else s)

end Sys2Proof.Machine
end

