-- ==== Sys2Proof/Machine/NetOps.lean ====
section
/-!
DEFINITION. Ethernet, the PTP clock and servo, and audio streams (chapter Ethernet, Precision Time and Audio Streams).
-/

namespace Sys2Proof.Machine

/-- The integer nearest to a quotient from below or above, whichever the silicon takes; exact quotients as they are
(assumption 5). -/
def State.divFree (s : State) (a n : Int) : Int × State :=
  if a % n = 0 then (a / n, s) else let (b, s) := s.drawBool; (a / n + (if b then 1 else 0), s)

/-- Port number of a port operand. -/
def portNo (one : Bool) : Nat := if one then 1 else 0

/-- The network block works: NET powered and NET_CTRL.EN set. -/
def State.netOn (s : State) : Bool := s.domOn 77 && s.flag aNetCtrl 0

/-- NET_CTRL.MODE; 5 to 7 act as 0 (R445). -/
def State.netMode (s : State) : Nat := let m := s.fld aNetCtrl 10 8; if 5 ≤ m then 0 else m

/-- Port `p` carries frames: its interface is chosen, its link is up, and in MODE 0 it is port 0 (R443, R445, R475). -/
def State.portUp (s : State) (p : Nat) : Bool :=
  s.netOn && (p == 0 || s.netMode != 0) && s.fld aNetCtrl (2 * p + 3) (2 * p + 2) != 0 && s.flag aNetStat (8 * p + 2)

/-- PRP or HSR mode: the redundant modes (R471, R472). -/
def State.redundant (s : State) : Bool := s.netMode == 3 || s.netMode == 4

/-- PTP messages carry no PRP trailer and no HSR tag (R454); a forwarded frame keeps what it has. -/
def NetMsg.bare : NetMsg → Bool
  | .sync .. | .announce .. | .delayReq .. | .delayResp .. | .forward _ | .transit .. => true
  | .igmp .. | .arp _ | .echo _ | .stream .. | .domain _ | .supervision _ => false

/-- The ports a message leaves on, `port` being the one it names (R445, R471, R472): in the redundant modes every frame of the
engine's own but PTP leaves on both; in a bridge what is not the answer to one station does; in MODE 1 domain messages do. -/
def State.msgPorts (s : State) (m : NetMsg) (port : Nat) : List Nat :=
  if m.bare then [port]
  else if s.redundant then [0, 1]
  else
    match m with
    | .stream .. => if s.netMode = 0 then [0] else if s.netMode = 1 then [port] else [0, 1]
    | .domain _ => if s.netMode = 0 then [0] else [0, 1]
    | .igmp .. => if s.netMode = 2 then [0, 1] else [port]
    | _ => [port]

/-- The engine's own MAC address of a port. -/
def State.macOf (s : State) (k : Nat) : Nat := s.fld (aNetMacHi k) 15 0 * 2 ^ 32 + (s.reg (aNetMacLo k)).toNat

/-- The engine's clockIdentity. -/
def State.clkId (s : State) : Nat := (s.reg aPtpClkidHi).toNat * 2 ^ 32 + (s.reg aPtpClkidLo).toNat

/-- sourcePortIdentity of the engine's port: portNumber 1 for port 0, 2 for port 1 (R450). -/
def State.portId (s : State) (port : Nat) : PortId := { clock := s.clkId, port := port + 1 }

/-- 224.0.1.129, the PTP group (R450). -/
def ptpGroup : Word := 0xE0000181#32

/-- A free field of the next frame. -/
def State.sendWord (s : State) (field : Nat) : Word := Config.sendWord s.grid.tick s.net.out.length field

/-- An IPv4 datagram of the engine, with NET_IPCFG.TTL (R446, R475). -/
def State.ipOut (s : State) (proto : Nat) (dst : Word) (data : List Byte) : List Byte :=
  ipv4 (IpOpen.of (s.sendWord 0)) (max 1 (s.fld aNetIpcfg 7 0)) proto (s.reg aNetIp) dst data

/-- A PTP message on its transport (R450): UDP over IPv4 to 224.0.1.129, or IEEE 802.3 with EtherType 0x88F7.  The UDP checksum of
a Sync is 0x0000 (R452). -/
def State.ptpParts (s : State) (port type : Nat) (bs : List Byte) : EthParts :=
  if s.flag aPtpCtrl 8 then { dst := 0x011B19000000, src := s.macOf port, type := 0x88F7, data := bs }
  else
    { dst := macFor ptpGroup, src := s.macOf port, type := 0x0800,
      data := s.ipOut 17 ptpGroup (udp (type == 0) (s.reg aNetIp) ptpGroup ((s.sendWord 1).toNat % 65536) (ptpUdpPort type) bs) }

/-- The addresses, tag and content of a message that leaves on `port` (R446, R450 to R452, R463 to R465, R471, R478, R506). -/
def State.msgParts (s : State) (m : NetMsg) (port : Nat) : EthParts :=
  let ptp (h : PtpHead) (seq : Nat) (body : List Byte) : EthParts :=
    s.ptpParts port h.type (ptpMessage h (s.fld aPtpCtrl 30 24) (s.portId port) seq body)
  let ip (dstMac proto : Nat) (dst : Word) (data : List Byte) : EthParts :=
    { dst := dstMac, src := s.macOf port, type := 0x0800, data := s.ipOut proto dst data }
  let estimate := ptpStamp (((s.sendWord 2).toNat : Int) * 65536)
  match m with
  | .sync seq t => ptp { type := 0, control := 0, log := s.fld aPtpIntv 3 0 } seq (ptpStamp t)
  | .delayReq seq => ptp { type := 1, control := 1, log := 0x7F } seq estimate
  | .delayResp seq req t corr => ptp { type := 9, corr := corr, control := 3, log := s.fld aPtpIntv 15 12 } seq (ptpStamp t ++ PortId.bytes req)
  | .announce seq d utc =>
    ptp { type := 11, flags := 8 + 4 * bit01 (s.flag aPtpUtc 16), control := 5, log := s.fld aPtpIntv 11 8 } seq (announceBody estimate utc d)
  | .igmp g a => ip (macFor 0xE0000016#32) 2 0xE0000016#32 (igmpReport g a)
  | .arp a => { dst := a.mac, src := s.macOf port, type := 0x0806, data := arpReply (s.macOf port) (s.reg aNetIp) a.mac a.ip }
  | .echo a => ip a.mac 1 a.ip (echoReply a.data)
  | .stream i seq ts ssrc pay =>
    let v := s.reg (aStrmTx i)
    let dst := s.reg (aStrmTxDstIp i)
    let ports := s.reg (aStrmTxPorts i)
    { ip (macFor dst) 17 dst (udp false (s.reg aNetIp) dst (bits ports 15 0) (bits ports 31 16) (rtp (s.fld (aStrmTxPt i) 6 0) seq ts ssrc pay)) with
      vlan := if v.getLsbD 12 then some (bits v 15 13 * 8192 + bits v 11 0) else none }
  | .domain m =>
    let (group, to_) : Word × Nat := match s.image.bind (·.domain) with | some d => (d.group, d.udpPort) | none => (0, 0)
    ip (macFor group) 17 group (udp false (s.reg aNetIp) group ((s.sendWord 1).toNat % 65536) to_ m.bytes)
  | .supervision seq => { dst := 0x01154E000100, src := s.macOf port, type := 0x88FB, data := supervisionData seq (s.macOf port) }
  | .forward _ | .transit .. => { dst := 0, src := 0, type := 0, data := [] }

/-- The bytes of a message that leaves on `port`, with the redundancy of the mode (R471, R472). -/
def State.msgFrame (s : State) (m : NetMsg) (port : Nat) : List Byte :=
  match m with
  | .forward f => f.bytes
  | .transit raw r => transitBytes raw r
  | _ =>
    let p := s.msgParts m port
    if m.bare then EthParts.plain p
    else if s.netMode = 3 then EthParts.prp p port s.net.redSeq
    else if s.netMode = 4 then EthParts.hsr p port s.net.redSeq
    else EthParts.plain p

/-- A message is queued for sending in this pass on its ports that are up; in the safe state nothing is sent (R445, R550).  In the
redundant modes it takes a number of the engine's one counter (R471, R472).  The frame of an armed injection leaves with a wrong
check sequence (R546). -/
def State.netSend (s : State) (m : NetMsg) (port : Nat) : State :=
  let ports := (s.msgPorts m port).filter s.portUp
  if ports = [] ∨ s.flt.safe then s
  else
    let out := ports.map (fun p => ({ port := p, msg := m, bytes := s.msgFrame m p, fcsOk := !s.injFor 0x06 0 p } : NetTx))
    let n := if m.bare || !s.redundant then s.net.redSeq else (s.net.redSeq + 1) % 65536
    let s := if ports.any (fun p => s.injFor 0x06 0 p) then s.disarm else s
    { s with net := { s.net with out := s.net.out ++ out, redSeq := n } }

/-- PTP clock with `f` applied. -/
def State.updPtp (s : State) (f : Ptp → Ptp) : State := { s with net := { s.net with ptp := f s.net.ptp } }

/-! ## Membership reports -/

/-- Joining a group sends two unsolicited reports, one second apart (R446). -/
def State.joinGroup (s : State) (port : Nat) (g : Word) : State :=
  let s := s.netSend (.igmp g false) port
  { s with net := { s.net with reports := s.net.reports ++ [(port, g, s.grid.tick + s.fs, false)] } }

/-- The reports that are due leave (R446). -/
def State.reportsDue (s : State) : State :=
  let due := s.net.reports.filter (fun r => decide (r.2.2.1 ≤ s.grid.tick))
  let s := { s with net := { s.net with reports := s.net.reports.filter (fun r => decide (s.grid.tick < r.2.2.1)) } }
  due.foldl (fun s r => s.netSend (.igmp r.2.1 r.2.2.2) r.1) s

/-- The domain group is joined: in MODE 1 on both interfaces (R445, R446). -/
def State.joinDomain (s : State) : State :=
  match s.image.bind (·.domain) with
  | some d => let s := s.joinGroup 0 d.group; if s.netMode = 1 then s.joinGroup 1 d.group else s
  | none => s

/-- The group of a receive stream is joined: in MODES 0 and 1 on the port it names (R445, R446). -/
def State.joinStream (s : State) (j : Nat) : State :=
  s.joinGroup (if (s.reg (aStrmRx j)).getLsbD 30 && decide (s.netMode < 2) then 1 else 0) (s.reg (aStrmRxGroup j))

/-- The groups the engine has joined: enabled receive streams, the domain group, the PTP group (R446). -/
def State.joined (s : State) (g : Word) : Bool :=
  (upto 128).any (fun j => s.flag (aStrmRx j) 31 && s.reg (aStrmRxGroup j) == g)
    || (match s.image with | some im => (match im.domain with | some d => d.group == g | none => false) | none => false)
    || (g == ptpGroup && s.fld aPtpCtrl 1 0 != 0)

/-! ## The receive buffers and the duplicate check -/

/-- A port's receive buffer (R447). -/
def State.rxBuf (s : State) (port : Nat) : List Nat := if port = 0 then s.net.buf0 else s.net.buf1
/-- The state with a port's receive buffer replaced. -/
def State.setRxBuf (s : State) (port : Nat) (b : List Nat) : State :=
  { s with net := if port = 0 then { s.net with buf0 := b } else { s.net with buf1 := b } }

/-- A handler takes the oldest frame out of a port's buffer (assumption 33). -/
def State.rxTake (s : State) (port : Nat) : State := s.setRxBuf port ((s.rxBuf port).drop 1)

/-- A message from Ethernet port `port` reaches its handler, which drains it from the receive buffer (R447); a port that is not up
receives nothing. -/
def State.rxFrom (s : State) (port : Nat) (f : State → State) : State := if s.portUp port then f (s.rxTake port) else s

/-- A number lies in the window of 1,024 that ends at `h`, modulo 2^16 (R473). -/
def inWindow (h q : BitVec 16) : Bool := decide ((h - q).toNat < 1024)

/-- A source's window takes a sequence number: whether the number was recorded, and the window after it (R473).  A number behind the
window starts it anew (DESIGN CHOICE, log entry 170). -/
def NodeEntry.take (e : NodeEntry) (q : BitVec 16) : Bool × NodeEntry :=
  if e.seqs.contains q && inWindow e.h q then (true, e)
  else
    let h := if inWindow e.h q then e.h else q
    (false, { e with h := h, seqs := (q :: e.seqs).filter (inWindow h), fwd := e.fwd.filter (fun x => inWindow h (BitVec.ofNat 16 (x / 2))) })

/-- The node table answers whether a frame is a duplicate, and records it (R473). -/
def State.nodeCheck (s : State) (src : Nat) (q : BitVec 16) : Bool × State :=
  match s.net.nodes.find? (fun e => e.src == src) with
  | some e =>
    let (dup, e) := e.take q
    let e' : NodeEntry := { e with last := s.grid.tick }
    (dup, { s with net := { s.net with nodes := s.net.nodes.map (fun x => if x.src == src then e' else x) } })
  | none =>
    if s.net.nodes.length < 256 then
      let e : NodeEntry := { src := src, h := q, seqs := [q], fwd := [], last := s.grid.tick }
      (false, { s with net := { s.net with nodes := s.net.nodes ++ [e] } })
    else (false, s.count aNetDup 15 0 1)

/-- A frame that the engine itself sent. -/
def State.ownFrame (s : State) (f : EthFrame) : Bool := f.src == s.macOf 0 || f.src == s.macOf 1

/-- A frame without a tag is forwarded unchanged unless it is for this engine alone, or the transparent clock forwards it (R445, R446,
R450, R453). -/
def State.forward (s : State) (port : Nat) (f : EthFrame) : State :=
  if f.unicast || s.ownFrame f || (f.ptpEvent && s.flag aPtpCtrl 15) then s else s.netSend (.forward f) (1 - port)

/-- An HSR frame is forwarded to the other port once per direction (R472). -/
def State.hsrForward (s : State) (port : Nat) (f : EthFrame) (q : BitVec 16) : State :=
  let key := 2 * q.toNat + port
  let seen : Bool := match s.net.nodes.find? (fun e => e.src == f.src) with
    | some e => e.fwd.contains key
    | none => false
  if f.unicast || seen then s
  else
    let mark (e : NodeEntry) : NodeEntry := if e.src == f.src then { e with fwd := key :: e.fwd } else e
    ({ s with net := { s.net with nodes := s.net.nodes.map mark } } : State).netSend (.forward f) (1 - port)

/-- A frame enters the port's buffer when it is addressed to the engine and of a protocol it implements; a full buffer
counts it (R446, R447). -/
def State.rxStore (s : State) (port : Nat) (f : EthFrame) : State :=
  if !f.mine ∨ !f.known then s
  else if 0x40000 < (s.rxBuf port).foldl (· + ·) 0 + f.len then s.count (aNetRxdrop port) 31 16 1
  else s.setRxBuf port (s.rxBuf port ++ [f.len])

/-- A received frame (R446, R447, R471 to R473). -/
def State.ethFrame (s : State) (port : Nat) (f : EthFrame) : State :=
  if !s.portUp port ∨ 1522 < f.len then s
  else if !f.fcsOk then (s.count (aNetRxdrop port) 15 0 1).raise 0x06 port 0 0
  else
    let kept (s : State) : State := s.rxStore port f
    match f.red with
    | none => kept (if s.netMode = 2 ∨ s.netMode = 4 then s.forward port f else s)
    | some q =>
      let seen := s.nodeCheck f.src q
      let first (s : State) : State := if seen.1 then s.count aNetDup 31 16 1 else kept s
      if s.netMode = 3 then
        if f.supervision then { s with net := { s.net with supSeen := s.net.supSeen + 1 } } else first seen.2
      else if s.netMode = 4 then if s.ownFrame f then s else first (seen.2.hsrForward port f q)
      else kept (if s.netMode = 2 then s.forward port f else s)

/-! ## The PTP time counter -/

/-- Advance of the counter over `c` core cycles, in 2^−32 ns: INC is 1 s / 491,520,000 × (1 + D × 2^−40) (R455,
assumption 34). -/
def ptpAdvance (c d : Int) : Int := c * 3125 * 2 ^ 32 * (2 ^ 40 + d) / (1536 * 2 ^ 40)

/-- D = W − F; 0 in the MASTER state (R455). -/
def State.ptpD (s : State) : Int := if s.net.ptp.st = 6 then 0 else s.net.ptp.w - s.clk.f

/-- The counter `c` cycles after the strobe of the current pass, in 2^−32 ns. -/
def State.ptpAt (s : State) (c : Int) : Int := s.net.ptp.t + ptpAdvance c s.ptpD

/-- The counter in 2^−16 ns. -/
def State.ptpAt16 (s : State) (c : Int) : Int := s.ptpAt c / 2 ^ 16

/-- One second in 2^−32 ns. -/
def ptpSecond : Int := 1000000000 * 2 ^ 32

/-- Seconds and nanoseconds of a time in 2^−32 ns. -/
def ptpSplit (t : Int) : Nat × Nat := ((t / ptpSecond).toNat % 2 ^ 48, (t % ptpSecond / 2 ^ 32).toNat)

/-- A time of seconds and nanoseconds in 2^−16 ns. -/
def ptpTime16 (sec ns : Nat) : Int := ((sec : Int) * 1000000000 + ns) * 2 ^ 16

/-- The counter at the next strobe: the pass is over, then a pending step or written time takes effect, and the servo
word formed in the pass comes into use (R455, R457 to R459). -/
def State.ptpStrobe (s : State) : State :=
  let x := s.net.ptp
  let t := s.ptpAt s.cyc
  let stepped := x.step.isSome || x.setTo.isSome
  let t := match x.step with | some d => t + d | none => t
  let t := match x.setTo with | some (a, b) => ((a : Int) * 1000000000 + b) * 2 ^ 32 | none => t
  let w := if x.st = 6 then s.clk.f else x.wNext.getD x.w
  let s := s.updPtp (fun x => { x with t := t.toNat, step := none, setTo := none, w := w, wNext := none })
  if stepped then (s.setFlag aPtpStat 6 true).count aPtpStat 31 24 1 else s

/-- The selected reference is a race link's recovered clock: the link (R38, R415). -/
def State.raceRef (s : State) : Option Nat :=
  match s.clk.sel with
  | some c => if 4 ≤ c ∧ c < 8 then some (c - 4) else none
  | none => none

/-- The grid loses its time source (R41). -/
def State.gridHold (s : State) : State :=
  if s.grid.state = .slew ∨ s.grid.state = .aligned then
    { s with grid := { s.grid with state := .hold, slewPpm := 0, alignRun := 0 } }
  else s

/-- PTP time becomes valid or invalid; the reference candidate and the grid follow (R41, R416, R458). -/
def State.setTimeValid (s : State) (b : Bool) : State :=
  if s.net.timeValid = b then s
  else
    let s := { s with net := { s.net with timeValid := b } }
    let s := if b = false ∧ s.raceRef.isNone then s.gridHold else s
    if b then ({ s with clk := { s.clk with cands := mset {} s.clk.cands 3 { valid := true, since := s.grid.tick } } } : State).candFound
    else s.candLost 3

/-! ## Roles and the best master clock algorithm -/

/-- A signed 4-bit field. -/
def signed4 (n : Nat) : Int := if n < 8 then n else (n : Int) - 16

/-- Passes of 2^x seconds, x clamped (R450, R476). -/
def State.logPasses (s : State) (x lo hi : Int) : Nat :=
  let e := clampI lo hi x
  if 0 ≤ e then s.fs * 2 ^ e.toNat else s.fs / 2 ^ (-e).toNat

/-- Sync, Announce and Delay_Req intervals in passes. -/
def State.syncPasses (s : State) : Nat := s.logPasses (signed4 (s.fld aPtpIntv 3 0)) (-4) 0
/-- Announce interval. -/
def State.annPasses (s : State) : Nat := s.logPasses (signed4 (s.fld aPtpIntv 11 8)) 0 3
/-- Delay_Req interval. -/
def State.reqPasses (s : State) : Nat := s.logPasses (signed4 (s.fld aPtpIntv 15 12)) (-4) 3
/-- announceReceiptTimeout in passes. -/
def State.annTimeout (s : State) : Nat := min 10 (max 2 (s.fld aPtpIntv 23 20)) * s.annPasses

/-- PTP_CTRL.ROLE; 3 acts as 1 (R451). -/
def State.ptpRole (s : State) : Nat := let r := s.fld aPtpCtrl 1 0; if r = 3 then 1 else r

/-- The engine's own dataset (R451). -/
def State.ownData (s : State) : AnnData :=
  { prio1 := s.fld aPtpGm 31 24, cls := if s.ptpRole = 2 then s.fld aPtpGm 15 8 else 255, acc := s.fld aPtpGm 7 0,
    prio2 := s.fld aPtpGm 23 16, gm := s.clkId, steps := 0, sender := s.portId s.net.ptp.port }

/-- Lexicographic comparison of lists of equal length: the first is smaller. -/
def lexLt : List Nat → List Nat → Bool
  | x :: xs, y :: ys => if x = y then lexLt xs ys else decide (x < y)
  | _, _ => false

/-- Dataset comparison of IEEE 1588: `a` is better than `b`. -/
def better (a b : AnnData) : Bool :=
  if a.gm = b.gm then lexLt [a.steps, a.sender.clock, a.sender.port] [b.steps, b.sender.clock, b.sender.port]
  else lexLt [a.prio1, a.cls, a.acc, a.var, a.prio2, a.gm] [b.prio1, b.cls, b.acc, b.var, b.prio2, b.gm]

/-- The best qualified foreign master on the port in use: two Announces within four Announce intervals. -/
def State.bestForeign (s : State) : Option AnnData :=
  (s.net.ptp.foreigns.filter (fun f => f.port == s.net.ptp.port && decide (s.grid.tick < f.last + 4 * s.annPasses + 1) &&
      (match f.prev with | some p => decide (f.last ≤ p + 4 * s.annPasses) | none => false))).foldl
    (fun b f => match b with | none => some f.data | some x => if better f.data x then some f.data else b) none

/-- The clock enters UNCALIBRATED: the integral starts at F (R457). -/
def State.uncalibrate (s : State) : State :=
  s.updPtp (fun x => { x with st := 8, ok := 0, i := s.clk.f, lastSync := s.grid.tick })

/-- A new grandmaster is selected: validity is kept, the state becomes UNCALIBRATED (R458). -/
def State.selectGm (s : State) (d : AnnData) : State :=
  let old := s.net.ptp.gm.map (·.gm)
  let was := s.net.ptp.st
  let s := s.updPtp (fun x => { x with gm := some d })
  let s := (s.setReg aPtpGmidLo (BitVec.ofNat 32 d.gm)).setReg aPtpGmidHi (BitVec.ofNat 32 (d.gm / 2 ^ 32))
  if (was = 8 ∨ was = 9) ∧ old = some d.gm then s
  else
    let s := if was = 6 then s.setTimeValid false else s
    s.uncalibrate

/-- The clock takes the MASTER state; its time is valid while in it (R451, R459). -/
def State.becomeMaster (s : State) : State :=
  if s.net.ptp.st = 6 then s
  else
    let s := s.updPtp (fun x => { x with st := 6, gm := none, sentSync := s.grid.tick, sentAnn := s.grid.tick, wNext := none })
    let id := s.clkId
    let s := (s.setReg aPtpGmidLo (BitVec.ofNat 32 id)).setReg aPtpGmidHi (BitVec.ofNat 32 (id / 2 ^ 32))
    s.setTimeValid true

/-- The state decision of the best master clock algorithm (R451). -/
def State.ptpDecide (s : State) : State :=
  match s.ptpRole, s.bestForeign with
  | 1, some d => s.selectGm d
  | 2, some d =>
    if better d s.ownData then
      if s.ownData.cls ≤ 127 then
        (if s.net.ptp.st = 6 then s.setTimeValid false else s).updPtp (fun x => { x with st := 7 })
      else s.selectGm d
    else s.becomeMaster
  | _, _ => s

/-- The clock uses a message of this domain and this transport: DOMAIN and TRANSPORT, with ROLE not 0 (R450, R451). -/
def State.ptpHears (s : State) (dom : Nat) (eth : Bool) : Bool :=
  s.ptpRole != 0 && dom == s.fld aPtpCtrl 30 24 && eth == s.flag aPtpCtrl 8

/-- A received Announce (R450, R451). -/
def State.ptpAnnounce (s : State) (port dom : Nat) (d : AnnData) : State :=
  if s.ptpHears dom d.eth = false ∨ d.gm = s.clkId then s
  else
    let old := s.net.ptp.foreigns.find? (fun f => f.port == port && f.data.sender == d.sender)
    let f : Foreign := { data := d, port := port, last := s.grid.tick, prev := old.map (·.last) }
    let rest := s.net.ptp.foreigns.filter (fun f => !(f.port == port && f.data.sender == d.sender))
    let s := s.updPtp (fun x => { x with foreigns := rest ++ [f], lastAnn := mset 0 x.lastAnn port (s.grid.tick + 1),
                                         annGm := mset 0 x.annGm port d.gm })
    if port = s.net.ptp.port then s.ptpDecide else s

/-! ## Offsets and the servo -/

/-- PTP_LIMITS.STEP and VALID_NS in 2^−16 ns; 0 acts as 1 (R476). -/
def State.stepLimit (s : State) : Int := (max 1 (s.fld aPtpLimits 31 16) : Nat) * 1000 * 2 ^ 16
/-- VALID_NS. -/
def State.validLimit (s : State) : Int := (max 1 (s.fld aPtpLimits 15 0) : Nat) * 2 ^ 16

/-- The limits of W and I. -/
def clampW (x : Int) : Int := clampI (-549755813) 549755813 x

/-- One servo update for an offset `o` (R457); the reference loop follows W for code 0x03 (R423). -/
def State.servo (s : State) (o : Int) : State :=
  let (p, s) := s.divFree (s.fld aPtpServo 31 16 * o) (2 ^ 16)
  let (q, s) := s.divFree (s.fld aPtpServo 15 0 * o) (2 ^ 16)
  let i := s.net.ptp.i
  let w := clampW (i - p)
  let s := s.updPtp (fun x => { x with wNext := some w, i := clampW (i - q) })
  if s.clk.sel = some 3 then
    let e := divRne (o * 49152) (100000 * 2 ^ 16)
    let inside := decide (e.natAbs ≤ max 1 (s.fld aClkLock 7 0))
    { s with clk := { s.clk with goal := w, pherr := e, origin := false, good := if inside then s.clk.good + 1 else 0, bad := if inside then 0 else s.clk.bad + 1 } }
  else s

/-- An offset has been formed (R456 to R458). -/
def State.ptpOffset (s : State) (o : Int) : State :=
  let a : Int := o.natAbs
  let s := s.monitor 5 0 (divRne o 65536)
  let s := s.updPtp (fun x => { x with off := o, ok := if a ≤ s.validLimit then min 16 (x.ok + 1) else 0 })
  if s.net.ptp.st = 8 ∧ s.net.timeValid = false ∧ s.stepLimit < a then
    s.updPtp (fun x => { x with step := some (-(o * 2 ^ 16)) })
  else if s.net.timeValid ∧ s.stepLimit < a then ((s.setTimeValid false).uncalibrate).servo o
  else s.servo o

/-- A Delay_Resp and t2 − t1 − c1 of the latest Sync before its Delay_Req give a path delay sample (R456). -/
def State.delaySample (s : State) (r : ReqRec) (basis t4 corr : Int) : State :=
  let (x, s) := s.divFree (basis + (t4 - r.t3 - corr)) 2
  let s := s.updPtp (fun p => { p with req := none })
  let high : Bool := match s.net.ptp.d with | some d => decide (4 * d < x) | none => false
  if decide (x < 0) || high then s
  else
    let l := (x :: s.net.ptp.samples).take 16
    let (d, s) := s.divFree (l.foldl (· + ·) 0) l.length
    (s.updPtp (fun p => { p with samples := l, d := some d })).monitor 6 0 (divRne d 65536)

/-- The Delay_Req that waits for the Follow_Up of Sync `q` gets its t2 − t1 − c1, and the sample is formed if its Delay_Resp has
come (R456). -/
def State.reqKnown (s : State) (q : Nat) (x : Int) : State :=
  match s.net.ptp.req with
  | some r =>
    if r.waits ≠ some q then s
    else
      match r.resp with
      | some (t4, corr) => s.delaySample r x t4 corr
      | none => s.updPtp (fun p => { p with req := some { r with basis := some x, waits := none } })
  | none => s

/-- t2 − t1 − c1 of a Sync is known (R456). -/
def State.syncKnown (s : State) (q : Nat) (x : Int) : State :=
  let s := s.reqKnown q x
  match s.net.ptp.d with
  | none => s
  | some d => s.ptpOffset (x - d - (s.reg (aPtpAsym s.net.ptp.port)).toInt)

/-- A received Sync: its ingress stamp is taken `c` cycles after the strobe (R448, R456). -/
def State.ptpSync (s : State) (port dom : Nat) (c : Int) (seq : Nat) (sender : PtpFrom) (twoStep : Bool) (origin corr : Int) :
    State :=
  if port ≠ s.net.ptp.port ∨ s.ptpHears dom sender.eth = false ∨ (s.net.ptp.st ≠ 8 ∧ s.net.ptp.st ≠ 9)
      ∨ s.net.ptp.gm.map (·.sender) ≠ some sender.id then s
  else
    let t2 := s.ptpAt16 c - sbits (s.reg (aPtpCor port)) 15 0 * 2 ^ 16
    let r : SyncRec := { seq := seq, src := sender.id, t1 := if twoStep then none else some origin, t2 := t2, c1 := corr }
    let s := s.updPtp (fun x => { x with sync := some r, lastSync := s.grid.tick })
    if twoStep then s else s.syncKnown seq (t2 - origin - corr)

/-- A received Follow_Up of the latest Sync, by sequenceId and sourcePortIdentity (R456). -/
def State.ptpFollow (s : State) (port dom : Nat) (q : PtpSeq) (origin corr : Int) : State :=
  match s.net.ptp.sync with
  | some r =>
    if port ≠ s.net.ptp.port ∨ s.ptpHears dom q.src.eth = false ∨ r.seq ≠ q.seq ∨ r.src ≠ q.src.id ∨ r.t1.isSome then s
    else
      let s := s.updPtp (fun x => { x with sync := some { r with t1 := some origin, c1 := r.c1 + corr } })
      s.syncKnown q.seq (r.t2 - origin - (r.c1 + corr))
  | none => s

/-- The ports on which the engine's own PTP messages leave: in PRP and HSR modes each port (R454). -/
def State.ptpPorts (s : State) : List Nat := if s.redundant then [0, 1] else [s.net.ptp.port]

/-- A PTP message is sent on each of its ports. -/
def State.ptpSend (s : State) (m : Nat → NetMsg) : State := s.ptpPorts.foldl (fun s p => s.netSend (m p) p) s

/-- A Delay_Req leaves; its egress stamp on the port in use is taken `c` cycles after the strobe (R448, R454, R456). -/
def State.ptpReq (s : State) (c : Int) : State :=
  let x := s.net.ptp
  let t3 := s.ptpAt16 c + sbits (s.reg (aPtpCor x.port)) 31 16 * 2 ^ 16
  let (basis, waits) : Option Int × Option Nat := match x.sync with
    | some r => (match r.t1 with | some t1 => (some (r.t2 - t1 - r.c1), none) | none => (none, some r.seq))
    | none => (none, none)
  let r : ReqRec := { seq := x.seqReq, t3 := t3, basis := basis, waits := waits }
  let s := s.updPtp (fun x => { x with req := some r, sentReq := s.grid.tick, seqReq := (x.seqReq + 1) % 65536 })
  s.ptpSend (fun _ => .delayReq x.seqReq)

/-- A received Delay_Resp to the latest Delay_Req gives a path delay sample, or waits for the Follow_Up of the Sync before it
(R456).  It matches by sequenceId, by the engine's own requestingPortIdentity and by its source, the clock that is followed. -/
def State.ptpResp (s : State) (port dom : Nat) (q : PtpReply) (t4 corr : Int) : State :=
  match s.net.ptp.req with
  | some r =>
    if port ≠ s.net.ptp.port ∨ s.ptpHears dom q.src.eth = false ∨ r.seq ≠ q.seq ∨ q.req ≠ s.portId port
        ∨ s.net.ptp.gm.map (·.sender) ≠ some q.src.id then s
    else
      match r.basis, r.waits with
      | some b, _ => s.delaySample r b t4 corr
      | none, some _ => s.updPtp (fun p => { p with req := some { r with resp := some (t4, corr) } })
      | none, none => s
  | none => s

/-! ## Stream descriptors -/

/-- Samples per packet (R463). -/
def State.pktLen (s : State) (ptime : Nat) : Nat :=
  (match ptime with | 0 => 6 | 1 => 12 | 2 => 48 | _ => 192) * (if s.rate96 then 2 else 1)

/-- Bytes per sample of a descriptor's control word. -/
def strmBytes (v : Word) : Nat := if v.getLsbD 27 then 3 else 2

/-- The sum of the per-port limit over the enabled streams of a direction and port (R463). -/
def State.portLoad (s : State) (base : Nat → Nat) (v : Word) : Nat :=
  (upto 128).foldl (fun n i =>
    let w := s.reg (base i)
    if w.getLsbD 31 ∧ (s.netMode ≠ 1 ∨ w.getLsbD 30 = v.getLsbD 30) then n + bits w 22 16 * strmBytes w * (s.fs / 48000) else n) 0

/-- STAT.CFG_ERR of transmit stream i (R463, R478). -/
def State.txCfgErr (s : State) (i : Nat) : Bool :=
  let v := s.reg (aStrmTx i)
  let ring := (s.reg (aStrmTxRing i)).toNat
  decide (4 ≤ bits v 26 24) || decide (64 < bits v 22 16) || decide (s.fld (aStrmTxPt i) 6 0 < 96) || ring == 0
    || ring % 64 != 0 || decide (1440 < bits v 22 16 * strmBytes v * s.pktLen (bits v 26 24))
    || (v.getLsbD 31 && decide (1536 < s.portLoad aStrmTx v))

/-- CFG_ERR of receive stream j (R463, R469, R479). -/
def State.rxCfgErr (s : State) (j : Nat) : Bool :=
  let v := s.reg (aStrmRx j)
  let ring := (s.reg (aStrmRxRing j)).toNat
  decide (4 ≤ bits v 26 24) || decide (64 < bits v 22 16) || ring % 64 != 0 || ring == 0
    || decide (bits v 13 0 < 2 * s.pktLen (bits v 26 24) + 4 * (s.fs / 48000))
    || (v.getLsbD 31 && decide (1536 < s.portLoad aStrmRx v))

/-- Transmit stream i sends. -/
def State.txRuns (s : State) (i : Nat) : Bool :=
  let v := s.reg (aStrmTx i)
  v.getLsbD 31 && bits v 22 16 != 0 && !s.txCfgErr i

/-- Receive stream j. -/
def State.rxs (s : State) (j : Nat) : RxStream := mget {} s.net.rx j
/-- The state with a receive stream replaced. -/
def State.setRxs (s : State) (j : Nat) (x : RxStream) : State := { s with net := { s.net with rx := mset {} s.net.rx j x } }

/-- EN of receive stream j follows its register: IDLE when it starts, OFF when it stops (R468). -/
def State.rxFollow (s : State) (j : Nat) : State :=
  let v := s.reg (aStrmRx j)
  if v.getLsbD 31 && bits v 22 16 != 0 && !s.rxCfgErr j then
    if (s.rxs j).ch.st = .off then (s.setRxs j { ch := { st := .idle } }).joinStream j else s
  else if (s.rxs j).ch.st = .off then s
  else s.setRxs j {}

/-- The receive streams follow the register of stream j, which has changed; the others of a set that fails the per-port limit do not
run, and run when it no longer does (R463, R468). -/
def State.rxEnable (s : State) (j : Nat) : State :=
  forAll (upto 128) s (fun i s => if i = j ∨ s.flag (aStrmRx i) 31 then s.rxFollow i else s)

/-- A write of a receive descriptor's control word (R474, R697). -/
def State.writeRx (s : State) (j : Nat) (v : Word) : State :=
  let old := s.reg (aStrmRx j)
  let v := v &&& 0xEF7F3FFF#32
  if (old.getLsbD 31 ∨ (s.rxs j).ch.st ≠ .off) ∧ (v ^^^ old) &&& 0x7FFFFFFF#32 ≠ 0 then s.setFlag (aStrmRxState j) 2 true
  else (s.setReg (aStrmRx j) v).nextly (.rxOn j) (fun s => s.rxEnable j)

/-- A write of a transmit descriptor's control word (R474, R697). -/
def State.writeTx (s : State) (i : Nat) (v : Word) : State :=
  let old := s.reg (aStrmTx i)
  let v := v &&& 0xCF7FFFFF#32
  if old.getLsbD 31 ∧ (v ^^^ old) &&& 0x7FFFFFFF#32 ≠ 0 then s.setFlag (aStrmTxStat i) 1 true
  else s.setReg (aStrmTx i) v

/-- A write of another field of stream descriptor `i` (R474). -/
def State.writeStrmField (s : State) (tx : Bool) (i a : Nat) (mask v : Word) : State :=
  let busy := if tx then s.flag (aStrmTx i) 31 else s.flag (aStrmRx i) 31 || (s.rxs i).ch.st != .off
  let v := v &&& mask
  if busy ∧ v ≠ s.reg a then (if tx then s.setFlag (aStrmTxStat i) 1 true else s.setFlag (aStrmRxState i) 2 true)
  else s.setReg a v

/-! ## Channels: fades and ramps of streams and race channels -/

/-- One pass of a channel (R468, R493). -/
def Chan.step (c : Chan) (p : Nat) (complete : Bool) : Chan :=
  let g := if complete then c.good + 1 else 0
  match c.st with
  | .off => c
  | .idle => { c with good := g }
  | .run => if complete then c else { st := .fade, env := { fade := some p }, good := 0 }
  | .ramp =>
    if complete then { c with st := if rampK c.env.ramp p = 256 then .run else .ramp, good := 0 }
    else { st := .fade, env := { fade := some p }, good := 0 }
  | .fade =>
    let ended : Bool := match c.env.fade with | some n => decide (n + 32 ≤ p) | none => true
    { c with st := if ended then .hold else .fade, good := g }
  | .hold => { c with good := g }

/-- A word as the channel delivers it in pass `p`. -/
def Chan.word (c : Chan) (p : Nat) (w : Int) : Int :=
  match c.st with
  | .off | .idle | .hold => 0
  | .run => w
  | _ => c.env.scale p w

/-- The ramp after 64 consecutive complete passes, the first pass of which follows pass `p` (R468, R493). -/
def Chan.rampUp (c : Chan) (p : Nat) : Chan :=
  if 64 ≤ c.good ∧ (c.st = .idle ∨ c.st = .fade ∨ c.st = .hold) then { st := .ramp, env := Env.restart p, good := 0 } else c

/-- The graph pass of pass index `p`, which may lie before the first. -/
def State.tickOf (s : State) (p : PassIx) : Int := s.grid.tick + (p - s.grid.p).toInt

/-! ## Transmission -/

/-- A word's fade before a re-anchoring, in graph pass `p` (R42). -/
def State.fnScale (s : State) (p : Int) (w : Int) : Int :=
  match s.grid.fnFade with
  | some n => if p < n then w else if (n : Int) + 31 ≤ p then 0 else divRne (w * (32 - (p + 1 - n))) 32
  | none => w

/-- The sample bytes of one word, network byte order (R465). -/
def sampleBytes (n : Nat) (w : Int) : List Byte :=
  beBytes n ((slotOut (8 * n) w).toNat / 2 ^ (32 - 8 * n))

/-- The device number of the engine, or its pair's number (R25). -/
def State.pairNo (s : State) : Nat :=
  match s.image with
  | some im => (match im.domain with | some d => d.device | none => 0)
  | none => 0

/-- The engine's own device number: twin B adds 1 (R25). -/
def State.ownNo (s : State) : Nat := s.pairNo + (if s.twin.on && s.twin.selB then 1 else 0)

/-- Packet k of transmit stream i: the samples of passes kn to kn + n − 1, from the transmit ring (R464, R465). -/
def State.txPacket (s : State) (i k n : Nat) : State :=
  let v := s.reg (aStrmTx i)
  let ch := bits v 22 16
  let ring := (s.reg (aStrmTxRing i)).toNat
  let bytes := (upto n).flatMap (fun m =>
    let t := s.tickOf (BitVec.ofNat 48 (k * n + m))
    (upto ch).flatMap (fun c =>
      let w : Int := if t < 0 then 0 else (s.rd32 (ring + 4 * (ch * (t.toNat % (2 * n)) + c))).toInt
      sampleBytes (strmBytes v) (s.fnScale t w)))
  s.netSend (.stream i (k % 65536) (BitVec.ofNat 32 (k * n) + s.reg (aStrmTxRtpOffset i)) (s.pairNo * 65536 + i) bytes) (if v.getLsbD 30 then 1 else 0)

/-- The strobe's part of transmission: stream i queues packet k at the strobe of pass (k + 1) n + s_i (R465). -/
def State.txStrobe (s : State) : State :=
  if !s.grid.fnOn ∨ !s.netOn then s
  else forAll (upto 128) s (fun i s =>
    if !s.txRuns i then s
    else
      let n := s.pktLen (s.fld (aStrmTx i) 26 24)
      let x := s.grid.p.toNat - i * n / 128
      if i * n / 128 ≤ s.grid.p.toNat ∧ x % n = 0 ∧ n ≤ x then s.txPacket i (x / n - 1) n else s)

/-! ## Reception -/

/-- A receive stream takes a packet that comes on `port` (R466). -/
def State.rxMatch (s : State) (j port : Nat) (p : RtpPacket) : Bool :=
  let v := s.reg (aStrmRx j)
  (s.rxs j).ch.st != .off && p.dst == s.reg (aStrmRxGroup j) && p.udp == s.fld (aStrmRxPortPt j) 31 16
    && p.pt == s.fld (aStrmRxPortPt j) 6 0 && (!v.getLsbD 29 || p.ssrc == s.reg (aStrmRxSsrc j))
    && (decide (2 ≤ s.netMode) || port == (if v.getLsbD 30 then 1 else 0))

/-- Writes the samples of one pass of a packet into the frame of delivery pass `d` (R467). -/
def State.rxWrite (s : State) (j d : Nat) (bs : List Byte) : State :=
  let v := s.reg (aStrmRx j)
  let b := strmBytes v
  let ch := bits v 22 16
  let big := bits v 13 0 + s.pktLen (bits v 26 24)
  let a := (s.reg (aStrmRxRing j)).toNat + 4 * (ch * (d % big))
  let s := forAll (upto ch) s (fun c s =>
    s.wr32 (a + 4 * c) (BitVec.ofNat 32 (beNat ((bs.drop (b * c)).take b) * 2 ^ (32 - 8 * b))))
  let x := s.rxs j
  s.setRxs j { x with have_ := if x.have_.contains d then x.have_ else x.have_ ++ [d] }

/-- The fate of a packet's samples (R467). -/
inductive Placing where
  | late | early | at_ (d : Nat)
  deriving DecidableEq, Repr

/-- Signed difference of sample m's pass index and this pass's (R467). -/
def State.sampleDiff (s : State) (j m : Nat) (ts : Word) : Int :=
  (ts - s.reg (aStrmRxRtpOffset j) + BitVec.ofNat 32 m - BitVec.ofNat 32 s.p32).toInt

/-- The delivery pass of sample m of a packet (R467). -/
def State.placing (s : State) (j m : Nat) (ts : Word) : Placing :=
  let v := s.reg (aStrmRx j)
  let diff := s.sampleDiff j m ts
  let d : Int := s.grid.tick + diff + bits v 13 0
  if diff = -(2 ^ 31) ∨ d ≤ s.grid.tick then .late
  else if (s.grid.tick + bits v 13 0 : Nat) < d then .early
  else .at_ d.toNat

/-- A matched packet whose write completes `c` cycles after the strobe (R466, R467, R644). -/
def State.rxPlace (s : State) (j c : Nat) (p : RtpPacket) : State :=
  let v := s.reg (aStrmRx j)
  let row := bits v 22 16 * strmBytes v
  if p.payload.length % row ≠ 0 then s.count (aStrmRxEvents j) 15 8 1
  else
    let ms := upto (p.payload.length / row)
    let pl := ms.map (fun m => (m, s.placing j m p.ts))
    let s := if pl.any (fun e => e.2 != .early) then
        s.monitor 7 j (clampI (-(2 ^ 31)) (2 ^ 31 - 1) ((s.sampleDiff j 0 p.ts + bits v 13 0) * s.cyc - c))
      else s
    let s := pl.foldl (fun s e => match e.2 with
      | .at_ d => s.rxWrite j d ((p.payload.drop (row * e.1)).take row)
      | _ => s) s
    let s := if pl.any (fun e => e.2 == .late) then s.count (aStrmRxEvents j) 31 16 1 else s
    if pl.any (fun e => e.2 == .early) then s.count (aStrmRxEvents j) 7 0 1 else s

/-- A stream packet arrives and is placed in every stream it belongs to (R466, R467); streams wait for the grid (R36). -/
def State.streamPacket (s : State) (port c : Nat) (p : RtpPacket) : State :=
  if !s.grid.fnOn then s
  else ((upto 128).filter (fun j => s.rxMatch j port p)).foldl (fun s j => s.rxPlace j c p) s

/-- The strobe's part of reception: the frame of this pass is complete or not, and the stream's fade or ramp acts on its
words; missing samples read 0 (R468, R470).  `peer` lists the streams whose bit of the peer is 0. -/
def State.rxStrobe (s : State) (peer : List Nat) : State :=
  s.net.rx.foldl (fun s e =>
    let j := e.1
    let x := s.rxs j
    if x.ch.st = .off then s
    else
      let t := s.grid.tick
      let full := if s.twin.on then x.ownOk.contains t && !peer.contains j else x.have_.contains t
      let fadeNow := s.grid.fnFade.isSome
      let ok := full && s.grid.fnOn && !fadeNow
      let c := x.ch.step t ok
      let ownOk := x.ownOk.filter (fun d => decide (t < d))
      let ownOk := if x.have_.contains (t + 2) then ownOk ++ [t + 2] else ownOk
      let s := s.setRxs j { ch := c, have_ := x.have_.filter (fun d => decide (t < d)), ownOk := ownOk }
      let v := s.reg (aStrmRx j)
      let n := bits v 22 16
      let a := (s.reg (aStrmRxRing j)).toNat + 4 * (n * (t % (bits v 13 0 + s.pktLen (bits v 26 24))))
      if c.st = .run then s
      else forAll (upto n) s (fun k s =>
        s.wr32 (a + 4 * k) (if full then BitVec.ofInt 32 (c.word t (s.rd32 (a + 4 * k)).toInt) else 0)))
    s

/-! ## Recognised writes -/

/-- The block starts: the groups that its settings name are joined (R446). -/
def State.netStart (s : State) : State :=
  let s := s.joinDomain
  let s := if s.fld aPtpCtrl 1 0 = 0 then s else s.joinGroup s.net.ptp.port ptpGroup
  forAll (upto 128) s (fun j s => if (s.rxs j).ch.st = .off then s else s.joinStream j)

/-- A write of PTP_CTRL: ROLE 0 disables the clock, another role starts it in LISTENING on PORT (R451, R454). -/
def State.ptpRecognised (s : State) (old : Nat) : State :=
  if s.ptpRole = 0 then (s.updPtp (fun x => { x with st := 3, gm := none })).setTimeValid false
  else if old = s.ptpRole ∧ s.net.ptp.st ≠ 0 then s
  else
    let p := if s.flag aPtpCtrl 12 then 1 else 0
    let s := (s.updPtp (fun x => { x with st := 4, port := p, gm := none, foreigns := [], lastAnn := mset 0 x.lastAnn p (s.grid.tick + 1) })).setTimeValid false
    s.joinGroup p ptpGroup

end Sys2Proof.Machine
end

