-- ==== Sys2Proof/Machine/NetCmds.lean ====
section
/-!
DEFINITION. The commands of Ethernet, PTP time and audio streams (R443 to R473).
-/

namespace Sys2Proof.Machine

/-! ## The link layer -/

/-- LINK_STATUS: in-band status; half duplex is treated as down (R443). -/
def execLinkStatus (one up half : Bool) (speed : Fin 3) (s : State) : Host.Outcome State Fault Refusal :=
  let o := 8 * portNo one
  let s := (s.setFld aNetStat (o + 1) o speed).setFlag aNetStat (o + 2) (up && !half)
  .next (s.setFlag aNetStat (o + 3) (up && half))

/-- A write of NET_MDIO: ignored while GO reads 1 (R444). -/
def State.writeMdio (s : State) (v : Word) : State :=
  if s.flag aNetMdio 31 then s else s.setReg aNetMdio (v &&& 0xFFF0FFFF#32)

/-- MDIO_GO: a write of NET_MDIO with GO set. -/
def execMdioGo (v : Word) (s : State) : Host.Outcome State Fault Refusal :=
  .next (if v.getLsbD 31 then s.writeMdio v else s)

/-- MDIO_DONE: the frame completes (R444). -/
def execMdioDone (data : BitVec 16) (s : State) : Host.Outcome State Fault Refusal :=
  .next (if s.flag aNetMdio 31 then
      let s := if s.flag aNetMdio 30 then s else s.setFld aNetMdio 15 0 data.toNat
      s.setFlag aNetMdio 31 false
    else s)

/-- A write of NET_CTRL: while EN is 1 the other fields are kept (R474, R697). -/
def State.writeNetCtrl (s : State) (v : Word) : State :=
  let old := s.reg aNetCtrl
  let v := v &&& 0x0000073D#32
  if old.getLsbD 0 ∧ (v ^^^ old) &&& 0xFFFFFFFE#32 ≠ 0 then s.setFlag aNetStat 16 true
  else if v.getLsbD 0 && !old.getLsbD 0 then (s.setReg aNetCtrl v).nextly .netOn (fun s => s.netStart)
  else s.setReg aNetCtrl v

/-! ## PTP -/

/-- The transparent clock forwards an event message, `raw`, that stays `stay` cycles (R453). -/
def State.tcForward (s : State) (port : Nat) (c stay : Int) (raw : List Byte) : State :=
  if (s.netMode = 2 ∨ s.netMode = 4) ∧ s.flag aPtpCtrl 15 then
    let i := s.ptpAt16 c - sbits (s.reg (aPtpCor port)) 15 0 * 2 ^ 16
    let e := s.ptpAt16 (c + stay) + sbits (s.reg (aPtpCor (1 - port))) 31 16 * 2 ^ 16
    s.netSend (.transit raw (e - i)) (1 - port)
  else s

/-- SYNC: ingress `cycle` cycles after the strobe, `stay` cycles of residence when it is forwarded (R453, R456). -/
def execPtpSync (one : Bool) (dom : Nat) (cycle stay : Int) (seq : Nat) (sender : PtpFrom) (twoStep : Bool) (sec ns : Nat)
    (corr : Int) (s : State) : Host.Outcome State Fault Refusal :=
  let p := portNo one
  .next (s.rxFrom p (fun s => (s.tcForward p cycle stay sender.raw).ptpSync p dom cycle seq sender twoStep (ptpTime16 sec ns) corr))

/-- FOLLOW_UP (R456). -/
def execFollowUp (one : Bool) (dom : Nat) (seq : PtpSeq) (sec ns : Nat) (corr : Int) (s : State) : Host.Outcome State Fault Refusal :=
  .next (s.rxFrom (portNo one) (fun s => s.ptpFollow (portNo one) dom seq (ptpTime16 sec ns) corr))

/-- DELAY_RESP (R456). -/
def execDelayResp (one : Bool) (dom : Nat) (seq : PtpReply) (sec ns : Nat) (corr : Int) (s : State) : Host.Outcome State Fault Refusal :=
  .next (s.rxFrom (portNo one) (fun s => s.ptpResp (portNo one) dom seq (ptpTime16 sec ns) corr))

/-- A master answers a Delay_Req on the port it came on (R451, R454). -/
def State.ptpAnswer (s : State) (port dom : Nat) (c : Int) (q : PtpSeq) (corr : Int) : State :=
  if s.net.ptp.st = 6 ∧ port ∈ s.ptpPorts ∧ s.ptpHears dom q.src.eth = true then
    s.netSend (.delayResp q.seq q.src.id (s.ptpAt16 c - sbits (s.reg (aPtpCor port)) 15 0 * 2 ^ 16) corr) port
  else s

/-- DELAY_REQ: a master answers (R451); the transparent clock forwards (R453). -/
def execDelayReq (one : Bool) (dom : Nat) (cycle stay : Int) (seq : PtpSeq) (corr : Int) (s : State) :
    Host.Outcome State Fault Refusal :=
  let p := portNo one
  .next (s.rxFrom p (fun s => (s.tcForward p cycle stay seq.src.raw).ptpAnswer p dom cycle seq corr))

/-- ANNOUNCE (R451). -/
def execAnnounceMsg (one : Bool) (dom : Nat) (d : AnnData) (s : State) : Host.Outcome State Fault Refusal :=
  .next (s.rxFrom (portNo one) (fun s => s.ptpAnnounce (portNo one) dom d))

/-- PTP_TIME_VALID: the 16th consecutive offset within VALID_NS (R458). -/
def execPtpTimeValid (s : State) : Host.Outcome State Fault Refusal :=
  .next (if 16 ≤ s.net.ptp.ok ∧ (s.net.ptp.st = 8 ∨ s.net.ptp.st = 9) then
      (s.updPtp (fun x => { x with st := 9 })).setTimeValid true
    else s)

/-- SYNC_TIMEOUT: no Sync for four intervals (R458). -/
def execSyncTimeout (s : State) : Host.Outcome State Fault Refusal :=
  .next (if (s.net.ptp.st = 8 ∨ s.net.ptp.st = 9) ∧ s.net.ptp.lastSync + 4 * s.syncPasses ≤ s.grid.tick then
      (s.updPtp (fun x => { x with ok := 0 })).setTimeValid false
    else s)

/-- ANNOUNCE_TIMEOUT: a change of port, or the end of the time's validity (R454, R458); a grandmaster-capable clock then
finds its own dataset best (R451). -/
def execAnnounceTimeout (s : State) : Host.Outcome State Fault Refusal :=
  let x := s.net.ptp
  let gone (p : Nat) : Bool := decide (mget 0 x.lastAnn p + s.annTimeout ≤ s.grid.tick + 1)
  let other := 1 - x.port
  .next (if s.ptpRole = 0 ∨ x.st = 6 ∨ gone x.port = false then s
    else if (s.netMode = 3 ∨ s.netMode = 4) ∧ gone other = false ∧ x.gm.map (·.gm) = some (mget 0 x.annGm other) then
      (s.updPtp (fun x => { x with port := other, sync := none, req := none })).count aPtpStat 23 16 1
    else
      let s := (s.updPtp (fun x => { x with st := 4, gm := none, foreigns := [], ok := 0 })).setTimeValid false
      if s.ptpRole = 2 then s.becomeMaster else s)

/-- SYNC_SEND: a master's one-step Sync; originTimestamp is its egress stamp on each port that it leaves (R451, R452, R454). -/
def execSyncSend (cycle : Int × Int) (s : State) : Host.Outcome State Fault Refusal :=
  let x := s.net.ptp
  .next (if x.st = 6 ∧ x.sentSync + s.syncPasses ≤ s.grid.tick then
      let t (p : Nat) : Int := s.ptpAt16 (if p = 0 then cycle.1 else cycle.2) + sbits (s.reg (aPtpCor p)) 31 16 * 2 ^ 16
      (s.updPtp (fun x => { x with sentSync := s.grid.tick, seqSync := (x.seqSync + 1) % 65536 })).ptpSend (fun p => .sync x.seqSync (t p))
    else s)

/-- ANNOUNCE_SEND (R451). -/
def execAnnounceSend (s : State) : Host.Outcome State Fault Refusal :=
  let x := s.net.ptp
  .next (if x.st = 6 ∧ x.sentAnn + s.annPasses ≤ s.grid.tick then
      (s.updPtp (fun x => { x with sentAnn := s.grid.tick, seqAnn := (x.seqAnn + 1) % 65536 })).ptpSend
        (fun _ => .announce x.seqAnn s.ownData (s.fld aPtpUtc 15 0))
    else s)

/-- DELAY_REQ_SEND: a slave's Delay_Req (R456). -/
def execDelayReqSend (cycle : Int) (s : State) : Host.Outcome State Fault Refusal :=
  let x := s.net.ptp
  .next (if (x.st = 8 ∨ x.st = 9) ∧ x.sentReq + s.reqPasses ≤ s.grid.tick then s.ptpReq cycle else s)

/-- A write of PTP_CTRL, recognised in the pass after (R474). -/
def State.writePtpCtrl (s : State) (v : Word) : State :=
  let old := s.ptpRole
  (s.setReg aPtpCtrl (v &&& 0x7F009103#32)).nextly (.ptpRole old) (fun s => s.ptpRecognised old)

/-- A write of PTP_TSET_GO: in ROLE 2 the counter is stepped at the next strobe and the AON clock set (R459). -/
def State.writeTsetGo (s : State) (v : Word) : State :=
  if v.getLsbD 0 ∧ s.ptpRole = 2 then
    let sec := s.fld aPtpTsetSHi 15 0 * 2 ^ 32 + (s.reg aPtpTsetSLo).toNat
    let ns := min 999999999 (s.fld aPtpTsetNs 29 0)
    { (s.updPtp (fun x => { x with setTo := some (sec, ns) })) with rtc := sec }
  else s

/-- TSET_GO. -/
def execTsetGo (v : Word) (s : State) : Host.Outcome State Fault Refusal := .next (s.writeTsetGo v)

/-- Latches a pair of seconds registers (R15, R461). -/
def State.latchSec (s : State) (lo hi : Nat) (sec : Nat) : State :=
  { s with latch := mset 0 (mset 0 s.latch lo (BitVec.ofNat 32 sec)) hi (BitVec.ofNat 32 (sec / 2 ^ 32 % 65536)) }

/-- A read of PTP_TIME_NS, `c` cycles after the strobe (R461). -/
def State.readTimeNs (s : State) (c : Int) : Word × State :=
  let (sec, ns) := ptpSplit (s.ptpAt c)
  (BitVec.ofNat 32 ns, s.latchSec aPtpTimeSLo aPtpTimeSHi sec)

/-- The answer to a bus access. -/
def State.answer (s : State) (v : Word) : State := { s with svc := { s.svc with resp := .ok, rdata := v } }

/-- TIME_NS_READ. -/
def execTimeNsRead (cycle : Nat) (s : State) : Host.Outcome State Fault Refusal :=
  let (v, s) := s.readTimeNs cycle
  .next (s.answer v)

/-- CAPTURE_EDGE: `cycle` is the capture cycle (R462). -/
def execCaptureEdge (k : Fin 4) (falling : Bool) (cycle : Nat) (s : State) : Host.Outcome State Fault Refusal :=
  let a := aPtpCap k
  .next (if s.flag a 0 = false ∨ s.flag a 1 ≠ falling then s
    else if s.flag a 2 then s.setFlag a 3 true
    else
      let (sec, ns) := ptpSplit (s.ptpAt ((cycle : Int) - 3))
      let s := (s.setReg (aPtpCapNs k) (BitVec.ofNat 32 ns)).setReg (aPtpCapSLo k) (BitVec.ofNat 32 sec)
      (s.setReg (aPtpCapSHi k) (BitVec.ofNat 32 (sec / 2 ^ 32 % 65536))).setFlag a 2 true)

/-- A read of PTP_CAPk_NS (R461, R462). -/
def State.readCapNs (s : State) (k : Nat) : Word × State :=
  let sec := (s.reg (aPtpCapSHi k)).toNat * 2 ^ 32 + (s.reg (aPtpCapSLo k)).toNat
  (s.reg (aPtpCapNs k), (s.latchSec (aPtpCapSLo k) (aPtpCapSHi k) sec).setFlag (aPtpCap k) 2 false)

/-- CAP_NS_READ. -/
def execCapNsRead (k : Fin 4) (s : State) : Host.Outcome State Fault Refusal :=
  let (v, s) := s.readCapNs k
  .next (s.answer v)

/-! ## IPv4 services -/

/-- IGMP_QUERY for one joined group, `maxMs` its maximum response time: the report leaves after (address mod 100) × 1 %
of it (R446). -/
def execIgmpQuery (one : Bool) (group : Word) (maxMs : Nat) (s : State) : Host.Outcome State Fault Refusal :=
  .next (s.rxFrom (portNo one) (fun s => if s.joined group then
      let d := (s.reg aNetIp).toNat % 100 * maxMs * s.fs / 100000
      { s with net := { s.net with reports := s.net.reports ++ [(portNo one, group, s.grid.tick + d, true)] } }
    else s))

/-- ARP_REQUEST (R446). -/
def execArpRequest (one : Bool) (ask : ArpAsk) (s : State) : Host.Outcome State Fault Refusal :=
  .next (s.rxFrom (portNo one) (fun s => if ask.target = s.reg aNetIp then s.netSend (.arp ask) (portNo one) else s))

/-- ECHO_REQUEST (R446). -/
def execEchoRequest (one : Bool) (ask : EchoAsk) (s : State) : Host.Outcome State Fault Refusal :=
  .next (s.rxFrom (portNo one) (fun s => if ask.target = s.reg aNetIp then s.netSend (.echo ask) (portNo one) else s))

/-! ## Streams and redundancy -/

/-- STREAM_PACKET (R466, R467). -/
def execStreamPacket (one : Bool) (c : Nat) (p : RtpPacket) (s : State) : Host.Outcome State Fault Refusal :=
  .next (s.rxFrom (portNo one) (fun s => s.streamPacket (portNo one) c p))

/-- STREAM_RAMP: after 64 consecutive complete passes the stream ramps back (R468). -/
def execStreamRamp (j : StreamNo) (s : State) : Host.Outcome State Fault Refusal :=
  let x := s.rxs j
  let c := x.ch.rampUp s.grid.tick
  .next (s.setRxs j { x with ch := c })

/-- SUPERVISION_FRAME: in PRP mode, every 2,000 ms on each port (R471). -/
def execSupervisionFrame (s : State) : Host.Outcome State Fault Refusal :=
  .next (if s.netMode = 3 ∧ s.netOn ∧ s.net.sentSup + 2 * s.fs ≤ s.grid.tick then
      ({ s with net := { s.net with sentSup := s.grid.tick, supSeq := (s.net.supSeq + 1) % 65536 } } : State).netSend (.supervision s.net.supSeq) 0
    else s)

/-- NODE_ENTRY_EXPIRY: entries unused for 60 s are freed (R473). -/
def execNodeEntryExpiry (src : Nat) (s : State) : Host.Outcome State Fault Refusal :=
  let l := s.net.nodes.filter (fun e => !(e.src == src && decide (e.last + 60 * s.fs ≤ s.grid.tick)))
  .next { s with net := { s.net with nodes := l } }

end Sys2Proof.Machine
end

