-- ==== Sys2Proof/Machine/GraphOps.lean ====
section
/-!
DEFINITION. Parameter tables, parameter queues, ramp units and the exchange engines of the clusters (chapters Graphs and
Sample Programs, Node Library and Scenes).
-/

namespace Sys2Proof.Machine

/-! ## Parameter codes -/

/-- The code and range of a parameter word (R117, R118); `raw` is a reserved word or a custom node's. -/
inductive PCode where
  | gain (lo hi : Int) (mute : Bool)
  /-- `also` is a further code the section gives a meaning, 0x7FFF or 0x8000. -/
  | num (lo hi : Int) (also : Option Int)
  | u32 (lo hi : Nat)
  | enum
  | trig
  | level (lo hi : Int) (zero : Bool)
  | raw
  deriving DecidableEq, Repr

/-- A fixed list of codes by index. -/
def codeIn (l : List PCode) (k : Nat) : PCode := (l[k]?).getD .raw

/-- The crosspoint gain range (R144). -/
def crossGain : PCode := .gain (-6144) 384 true

/-- The codes of each built-in type's parameters (R129, R131, R134, R136, R139, R145 to R149, R151, R153, R156, R159,
R161, R164, R166, R169, R171, R173). -/
def paramCode (fs type nIn k : Nat) : PCode :=
  match type with
  | 0x01 => if k % 2 = 0 then .gain (-6144) 1536 true else .enum
  | 0x02 => codeIn [.u32 10 2000, .enum] k
  | 0x03 => codeIn [.enum, .u32 20 (fs * 9 / 20), .gain (-1536) 1536 true, .num 26 8192 none] (k % 4)
  | 0x04 => codeIn [.level (-6144) 0 false, .num 16 1600 (some 0x7FFF), .gain (-6144) 0 false, .num 0 768 none,
      .num 1 1000 none, .num 0 2000 none, .num 1 5000 none] k
  | 0x05 => codeIn [.level (-3840) 0 false, .num 16 320 (some 0x7FFF), .num 0 1536 none, .num 0 10000 none,
      .num 1 5000 none, .gain 0 1536 false, .enum, .num 1 300 none] k
  | 0x07 | 0x08 => crossGain
  | 0x09 =>
    if k < nIn then crossGain
    else codeIn [.enum, .level (-6144) (-1280) true, .num 0 32767 none, crossGain] (k - nIn)
  | 0x0A =>
    if k < nIn then .gain (-1536) 1536 true
    else codeIn [.num 1 500 none, .level (-6144) (-1920) false, .enum] (k - nIn)
  | 0x0B =>
    if k < 3 * nIn then codeIn [.num 0 7 none, .gain (-6144) 0 true, .raw] (k % 3)
    else codeIn [.num (-32768) 32767 none, .level (-6144) (-1280) true, .num 0 32767 none, .num 1 1000 none,
      .num 1 5000 none, .num 0 10000 none] (k - 3 * nIn)
  | 0x0C => codeIn [.level (-5760) (-1280) false, .num 0 512 none, .gain (-1152) 0 false, .gain 0 1152 false,
      .num 1 1280 none, .num 1 1280 none, .level (-6144) (-1920) false, .num 100 10000 none] k
  | 0x0D => codeIn [.num 0 32767 none, .enum, .num 64 1024 none, .num 0 1000 none, .gain (-2560) 0 false, .trig] k
  | 0x0F => codeIn [.enum, .u32 40 8000, .u32 200 (fs * 2 / 5)] k
  | 0x10 =>
    if k < 8 then codeIn [.trig, .num 0 8 none, .enum, .enum, .enum] k
    else codeIn [.u32 50 8000, .gain (-6144) 0 false, .num 0 10000 none, .num 10 10000 none] (k % 4)
  | 0x11 => codeIn [.num 0 1023 none, .trig, .trig, .enum, crossGain] k
  | 0x12 => codeIn [.num 0 1023 none, .trig, .trig, .enum, .enum, .num (-32768) 32767 none] k
  | 0x13 => codeIn [.enum, .level (-6144) 0 false, .u32 1 (fs / 2 - 1), .num (-32768) 32767 none, .u32 1 (2 ^ 31)] k
  | 0x14 => codeIn [.num 10 3000 none, .num 64 6400 none, .num 0 10000 none] k
  | 0x15 => codeIn [.level (-6144) (-1280) true, .num 0 32767 none] k
  | _ => .raw

/-- The code of parameter `k` of a node. -/
def State.codeOf (s : State) (r : NodeRec) (k : Nat) : PCode := if r.custom then .raw else paramCode s.fs r.type r.nIn k

/-- Bits [15:0] of a word, signed. -/
def low16 (v : Word) : Int := sbits v 15 0

/-- A 16-bit value as a parameter word (R95). -/
def word16 (v : Int) : Word := BitVec.ofInt 32 v

/-- A value as a raw write stores it (R9, R96, R118). -/
def PCode.store (c : PCode) (v : Word) : Word :=
  let x := low16 v
  match c with
  | .gain lo hi mute => word16 (if x = -32768 ∧ mute then x else clampI lo hi x)
  | .num lo hi also => word16 (if also = some x then x else clampI lo hi x)
  | .u32 lo hi => BitVec.ofNat 32 (max lo (min hi v.toNat))
  | .level lo hi zero => word16 (if x = -32768 ∧ zero then x else clampI lo hi x)
  | .enum | .trig => word16 x
  | .raw => v

/-! ## Live nodes and parameter words -/

/-- The live node with an instance number. -/
def State.node (s : State) (inst : Nat) : Option NodeRec := s.scn.nodes.find? (fun r => r.inst == inst)

/-- A node's parameter word. -/
def State.param (s : State) (r : NodeRec) (k : Nat) : Word := s.rd32 (paramAddr r k)

/-- The state with a node's parameter word written; a tile that is not on keeps nothing. -/
def State.setParam (s : State) (r : NodeRec) (k : Nat) (v : Word) : State :=
  if s.domSt (paramTile r k) = .off then s else s.wr32 (paramAddr r k) v

/-- The outcomes of a raw parameter write (R96, R97). -/
inductive RawRes where
  | queued | unknown | full
  deriving DecidableEq, Repr

/-- A raw parameter write (R96, R97); a persistent one is committed as a trim when it lands (R663).  A full queue is
recorded under the CLU_ block of its cluster (R650, assumption 133). -/
def State.rawWrite (s : State) (inst k : Nat) (v : Word) (persist : Bool := false) : RawRes × State :=
  match s.node inst with
  | none => (.unknown, s)
  | some r =>
    if r.paramWords ≤ k then (.unknown, s)
    else
      let c := s.cluster r.cluster
      if 1024 ≤ c.queue.length then (.full, s.event sevNotice (0x40400000 + 0x1000 * r.cluster) 0 0 0 inst)
      else
        let tr := if persist then some v else none
        let e : QEntry := { inst := inst, param := k, value := (s.codeOf r k).store v, trim := tr }
        (.queued, s.setCluster r.cluster { c with queue := c.queue ++ [e] })

/-- A raw write waits for its acting pass (R663). -/
def State.rawLater (s : State) (pass inst k : Nat) (v : Word) (persist : Bool) : State :=
  { s with svc := { s.svc with rawDue := s.svc.rawDue ++ [(pass, inst, k, v, persist)] } }

/-- The raw writes whose acting pass has come enter their queues (R663). -/
def State.rawsDue (s : State) : State :=
  let now := s.svc.rawDue.filter (fun e => decide (e.1 ≤ s.grid.tick))
  if now = [] then s
  else
    now.foldl (fun s e => (s.rawWrite e.2.1 e.2.2.1 e.2.2.2.1 e.2.2.2.2).2)
      { s with svc := { s.svc with rawDue := s.svc.rawDue.filter (fun e => decide (s.grid.tick < e.1)) } }

/-- The payload of a PARAM_TRIM record (R629). -/
def State.trimBytes (s : State) (inst k : Nat) (v : Word) : List Byte :=
  leBytes 8 s.build ++ leBytes 2 inst ++ leBytes 2 k ++ leBytes 4 v.toNat

/-! ## Ramps -/

/-- The lower bound a mute end takes in a ramp, when it is one (R181). -/
def PCode.muteLow : PCode → Option Int
  | .gain lo _ _ => some lo
  | .level lo _ true => some lo
  | _ => none

/-- The number a parameter word stands for in a ramp. -/
def PCode.value (c : PCode) (v : Word) : Int :=
  match c with
  | .u32 _ _ => v.toNat
  | .raw => v.toInt
  | _ => low16 v

/-- The word of a ramped number. -/
def PCode.word (c : PCode) (x : Int) : Word :=
  match c with
  | .u32 _ _ | .raw => BitVec.ofInt 32 x
  | _ => word16 x

/-- E and T parameters never ramp (R181). -/
def PCode.ramps : PCode → Bool
  | .enum | .trig => false
  | _ => true

/-- A slot's word in the pass of its `k` (R180, R181); a ramp from 0x8000 to 0x8000 keeps it (R228). -/
def RampSlot.word (r : RampSlot) (c : PCode) : Word :=
  if r.len ≤ r.k ∨ (r.fromMute ∧ low16 r.target = -32768) then r.target
  else if r.fromMute && r.k == 1 then word16 (-32768)
  else c.word (r.v0 + (r.vT - r.v0) * r.k / r.len)

/-- The value of a parameter word in use in the pass before, for what changes it in this pass (R180). -/
def State.usedBefore (s : State) (r : NodeRec) (k : Nat) : Word :=
  match (s.cluster r.cluster).before.find? (fun e => e.1 == r.inst && e.2.1 == k) with
  | some e => e.2.2
  | none => s.param r k

/-- A ramp unit or a recall writes a parameter word; the value of the pass before is kept. -/
def State.moveParam (s : State) (r : NodeRec) (k : Nat) (v : Word) : State :=
  let cl := s.cluster r.cluster
  let s := if cl.before.any (fun e => e.1 == r.inst && e.2.1 == k) then s
    else s.setCluster r.cluster { cl with before := cl.before ++ [(r.inst, k, s.param r k)] }
  s.setParam r k v

/-- The ramp units of a cluster write their words (R182); a finished slot is free. -/
def State.rampWrites (s : State) (c : Nat) : State :=
  let cl := s.cluster c
  if cl.ramps = [] then s
  else
    let s := cl.ramps.foldl (fun s r => match s.node r.inst with
      | some n => s.moveParam n r.param (r.word (s.codeOf n r.param))
      | none => s) s
    let rest := (cl.ramps.filter (fun r => decide (r.k < r.len))).map (fun r => { r with k := r.k + 1 })
    s.setCluster c { s.cluster c with ramps := rest }

/-- A ramp starts on a word, or takes over the slot that ramps it; the 257th takes the oldest slot, whose word takes its
target at once (R180 to R182).  `k` is 1 in the next pass's ramp writes. -/
def State.startRamp (s : State) (inst k : Nat) (v : Word) (len : Nat) : State :=
  match s.node inst with
  | none => s
  | some r =>
    let c := s.codeOf r k
    let cl := s.cluster r.cluster
    let others := cl.ramps.filter (fun x => !(x.inst == inst && x.param == k))
    if len = 0 ∨ c.ramps = false then (s.setCluster r.cluster { cl with ramps := others }).moveParam r k v
    else
      let old := s.usedBefore r k
      let muted (w : Word) : Bool := (c.muteLow).isSome && low16 w == -32768
      let num (w : Word) : Int := match c.muteLow with
        | some lo => if low16 w = -32768 then lo else low16 w
        | none => c.value w
      let slot : RampSlot := { inst := inst, param := k, v0 := num old, vT := num v, target := v,
                               fromMute := muted old && decide (1 < len), k := 1, len := len, age := cl.rampAge }
      let full := 256 ≤ others.length
      let s' := if full then
          match others with
          | o :: _ => (match s.node o.inst with | some n => s.moveParam n o.param o.target | none => s).event sevNotice 0x40710000 0 0 0 inst
          | [] => s
        else s
      let kept := if full then others.drop 1 else others
      s'.setCluster r.cluster { s'.cluster r.cluster with ramps := kept ++ [slot], rampAge := cl.rampAge + 1 }

/-- The queue entries a cluster applies in a pass, at most 64; each ends a ramp of its word (R97, R98), and a persistent
one is committed (R663). -/
def State.queueWrites (s : State) (c : Nat) : State :=
  let cl := s.cluster c
  if cl.queue = [] then s
  else
    let now := cl.queue.take 64
    let s := s.setCluster c { cl with queue := cl.queue.drop 64, landed := now.map (fun e => (e.inst, e.param)) }
    now.foldl (fun s e => match s.node e.inst with
      | some n =>
        let s := s.setParam n e.param e.value
        let s := match e.trim with | some v => s.journal 6 (s.trimBytes e.inst e.param v) | none => s
        let cl := s.cluster c
        s.setCluster c { cl with ramps := cl.ramps.filter (fun x => !(x.inst == e.inst && x.param == e.param)) }
      | none => s) s

/-! ## Exchange engines -/

/-- The starting index of a ring (R87). -/
def ringStart (phase : Int) (len : Nat) : Nat := (phase % (max 1 len : Nat)).toNat

/-- The ring indexes of a table in the first pass of the graph: source of descriptor d at key 2d, destination at
2d + 1. -/
def ringInit (ds : List XDesc) : SMap Nat :=
  ds.zipIdx.foldl (fun m e => mset 0 (mset 0 m (2 * e.2) (ringStart e.1.srcPhase e.1.srcLen)) (2 * e.2 + 1)
    (ringStart e.1.dstPhase e.1.dstLen)) []

/-- Every ring index advances by one at a strobe (R87). -/
def ringNext (ds : List XDesc) (m : SMap Nat) : SMap Nat :=
  ds.zipIdx.foldl (fun m e =>
    let f (k len : Nat) (m : SMap Nat) : SMap Nat := mset 0 m k ((mget 0 m k + 1) % max 1 len)
    f (2 * e.2) e.1.srcLen (f (2 * e.2 + 1) e.1.dstLen m)) m

/-- The ring indexes of a table that replaces another: a side whose base the old table holds goes on, a new base starts
at its phase (R190). -/
def ringContinue (old : List XDesc) (om : SMap Nat) (ds : List XDesc) : SMap Nat :=
  let find (base : Nat) : Option Nat :=
    old.zipIdx.findSome? (fun e =>
      if e.1.srcRing && e.1.src == base then some (mget 0 om (2 * e.2))
      else if e.1.dstRing && e.1.dst == base then some (mget 0 om (2 * e.2 + 1)) else none)
  ds.zipIdx.foldl (fun m e =>
    let a := if e.1.srcRing then (find e.1.src).getD (ringStart e.1.srcPhase e.1.srcLen) else 0
    let b := if e.1.dstRing then (find e.1.dst).getD (ringStart e.1.dstPhase e.1.dstLen) else 0
    mset 0 (mset 0 m (2 * e.2) a) (2 * e.2 + 1) b) []

/-- Address of element i of a side (R87). -/
def sideAddr (ring : Bool) (base x frame elem i : Nat) : Nat := base + (if ring then x * frame else 0) + i * elem

/-- A tile's factor in the ramp-in of a restart, in 64ths: words read from a restarting tile (R332, R333).  `none` is a
muted tile. -/
def Tile.factor (t : Tile) : Option Nat := if t.muted then none else if t.rampK = 0 then some 64 else some t.rampK

/-- The tile of a data-memory address. -/
def tileOfAddr (a : Nat) : Nat := (a - 0x20000000) / 0x40000

/-- An address lies in a tile that is in retention (R585). -/
def State.asleep (s : State) (a : Nat) : Bool := !inMpd a && s.domSt (tileOfAddr a) == .retention

/-- The 3 bytes at an address, in bits [31:8] (R86). -/
def State.read3 (s : State) (a : Nat) : Word := BitVec.ofNat 32 (256 * leNat (s.rdBytes a 3))

/-- The same with error checking of the one or two words that hold the bytes (R526). -/
def State.readWord3 (s : State) (a : Nat) : Word × State :=
  let (x, s) := s.readWord (a / 4 * 4)
  let (y, s) := if a % 4 ≤ 1 then ((0 : Word), s) else s.readWord (a / 4 * 4 + 4)
  (BitVec.ofNat 32 (256 * ((x.toNat + 2 ^ 32 * y.toNat) / 2 ^ (8 * (a % 4)) % 2 ^ 24)), s)

/-- A source word, or the 3 bytes of an UNPACK3 element, as an exchange reads it: in Millpond or tile memory with error
checking; words of a stopped tile or of one in retention are 0 and those of a restarting tile are scaled (R332, R333, R526,
R585). -/
def State.exchangeRead (s : State) (unpack3 : Bool) (a : Nat) : Word × State :=
  if !inMpd a && s.asleep a then (0, s)
  else
    let (w, s) := if unpack3 then s.readWord3 a else s.readWord a
    if inMpd a then (w, s)
    else
      match (s.tile (tileOfAddr a)).factor with
      | none => (0, s)
      | some k => (if k = 64 then w else BitVec.ofInt 32 (divRne (w.toInt * k) 64), s)

/-- Moves element i of a descriptor with ring indexes x and y (R86, R87); none into a tile in retention (R585). -/
def State.moveElem (s : State) (d : XDesc) (x y i : Nat) : Word × State :=
  let a := sideAddr d.srcRing d.src x d.srcFrame d.srcElem i
  let b := sideAddr d.dstRing d.dst y d.dstFrame d.dstElem i
  if s.asleep b then (0, s)
  else
  let (w, s) :=
    if d.zeroSrc then ((0 : Word), s) else s.exchangeRead d.unpack3 a
  (w, if d.pack3 then s.wrBytes b (leBytes 3 (w.toNat / 256)) else s.wr32 b w)

/-- CRC-64 of the output digests, one byte (R566). -/
def crc64Byte (c : BitVec 64) (b : Byte) : BitVec 64 :=
  (upto 8).foldl (fun c _ => if c.msb then (c <<< 1) ^^^ 0x42F0E1EBA9EA3693#64 else c <<< 1) (c ^^^ (b.zeroExtend 64 <<< 56))

/-- CRC-64 of a word, least significant byte first. -/
def crc64Word (c : BitVec 64) (w : Word) : BitVec 64 := (leBytes 4 w.toNat).foldl crc64Byte c

/-- The regions an output descriptor of a tile's data belongs to: a word that is not 0 keeps them from gating (R585). -/
def State.noteOut (s : State) (d : XDesc) (w : Word) : State :=
  if w = 0 ∨ inMpd d.src then s
  else
    match (s.prog (tileOfAddr d.src)).region with
    | some r => if s.pwr.outWords.contains r then s else { s with pwr := { s.pwr with outWords := s.pwr.outWords ++ [r] } }
    | none => s

/-- The digest of a cluster's output words in the open window (R566), with its CRC initialised at the window's start. -/
def State.digestWord (s : State) (c : Nat) (w : Word) : State :=
  if !s.twin.on then s
  else
    let d := mget 0 s.twin.crcs c ^^^ 0xFFFFFFFFFFFFFFFF#64
    { s with twin := { s.twin with crcs := mset 0 s.twin.crcs c (crc64Word d w ^^^ 0xFFFFFFFFFFFFFFFF#64) } }

/-- An exchange of cluster c reaches an address: Millpond, or data memory of a tile of its own that is not off (R540). -/
def State.xchgReach (s : State) (c a : Nat) : Bool :=
  inMpd a || (decide (0x20000000 ≤ a) && decide (tileOfAddr a / 8 = c) && decide ((a - 0x20000000) % 0x40000 < 0x20000)
    && s.domSt (tileOfAddr a) != .off)

/-- Runs descriptor d with its ring indexes (R86 to R89).  An element that meets an error response delivers 0; the
cluster reports SRC 0x0D with DETAIL 1 (R540). -/
def State.runDesc (s : State) (c : Nat) (d : XDesc) (x y : Nat) : State :=
  let bad (i : Nat) : Bool :=
    !(d.zeroSrc || s.xchgReach c (sideAddr d.srcRing d.src x d.srcFrame d.srcElem i))
      || !s.xchgReach c (sideAddr d.dstRing d.dst y d.dstFrame d.dstElem i)
  let dst (i : Nat) : Nat := sideAddr d.dstRing d.dst y d.dstFrame d.dstElem i
  let t := (upto d.count).foldl (fun (s : State) i =>
    let (w, s) := if bad i then
        ((0 : Word), if s.xchgReach c (dst i) then (if d.pack3 then s.wrBytes (dst i) (leBytes 3 0) else s.wr32 (dst i) 0) else s)
      else s.moveElem d x y i
    if d.kind = 2 then (s.noteOut d w).digestWord c w else s) s
  if (upto d.count).any bad then t.raise 0x0D c 1 1 else t

/-- The destination words of a descriptor that did not run read 0 in the pass that follows (R53). -/
def State.zeroDesc (s : State) (d : XDesc) (y : Nat) : State :=
  (upto d.count).foldl (fun s i =>
    let b := sideAddr d.dstRing d.dst y d.dstFrame d.dstElem i
    if d.pack3 then s.wrBytes b (leBytes 3 0) else s.wr32 b 0) s

/-- The table a cluster works through and its ring indexes: the XF list while a topology recall runs with one (R190). -/
def State.frontTable (s : State) (c : Nat) : List XDesc × SMap Nat :=
  let cl := s.cluster c
  match s.scn.running, cl.xfDescs with
  | some r, some l => if r.started then (l, cl.xfRing) else (cl.descs, cl.ring)
  | _, _ => (cl.descs, cl.ring)

/-- Cluster c has not completed its exchange in the pass that ends (R53). -/
def State.exchangeLate (s : State) (c : Nat) : Bool :=
  !(s.cluster c).fabricReset && decide ((s.cluster c).next < (s.frontTable c).1.length)

/-- The exchange of the pass that ends is abandoned: the words it did not move read 0 (R53). -/
def State.exchangeEnd (s : State) (c : Nat) : State :=
  let (l, m) := s.frontTable c
  (l.zipIdx.drop (s.cluster c).next).foldl (fun s e => s.zeroDesc e.1 (mget 0 m (2 * e.2 + 1))) s

end Sys2Proof.Machine
end

