-- ==== Sys2Proof/Machine/ImageRules.lean ====
section
/-!
DEFINITION. The checks of row 5 of R619 on what an image holds: the reach and timing of exchange descriptors (R51, R85,
R89, R90), node instances (R9, R64, R70, R72, R94, R114, R115, R145, R151, R158, R160), ganged sections (R100), scenes
(R178, R182, R183, R191, R193, R582), cue rules (R204, R208) and clips (R618).  What Lynen checks on the graph itself,
which an image does not hold, is not evaluated (assumption 138).
-/

namespace Sys2Proof.Machine

/-! ## Exchange descriptors -/

/-- The memory an exchange of cluster c reaches at an address, while the tiles `on` are powered: 64 for Millpond, the tile's
number for its data memory; none elsewhere (R85). -/
def reachBlock (c : Nat) (on : List Nat) (a : Nat) : Option Nat :=
  if inMpd a then some 64
  else
    let n := (a - 0x20000000) / 0x40000
    if 0x20000000 ≤ a ∧ n < 64 ∧ n / 8 = c ∧ (a - 0x20000000) % 0x40000 < 0x20000 ∧ on.contains n then some n else none

/-- An access of `w` bytes lies in one memory that the exchange reaches. -/
def reaches (c : Nat) (on : List Nat) (a w : Nat) : Bool :=
  match reachBlock c on a, reachBlock c on (a + w - 1) with
  | some x, some y => x == y
  | _, _ => false

/-- Every element of a side, at every ring index, is reached (R85).  When the first and the last byte lie in one memory, so
does all between. -/
def sideReach (c : Nat) (on : List Nat) (ring : Bool) (base len frame elem count w : Nat) : Bool :=
  let n := if ring then len else 1
  reaches c on base ((n - 1) * frame + (count - 1) * elem + w)
    || (upto n).all (fun x => (upto count).all (fun i => reaches c on (sideAddr ring base x frame elem i) w))

/-- A descriptor of cluster c reaches only its own cluster's powered tiles and Millpond (R85). -/
def descReach (c : Nat) (on : List Nat) (d : XDesc) : Bool :=
  d.count == 0 ||
    ((d.zeroSrc || sideReach c on d.srcRing d.src d.srcLen d.srcFrame d.srcElem d.count (if d.unpack3 then 3 else 4))
      && sideReach c on d.dstRing d.dst d.dstLen d.dstFrame d.dstElem d.count (if d.pack3 then 3 else 4))

/-- The bound D of a descriptor, in pass cycles (R89). -/
def descTime (d : XDesc) : Nat :=
  if d.count = 0 then 0
  else if inMpd d.dst || (!d.zeroSrc && inMpd d.src) then 12 + 2 * d.count
  else 12 + d.count

/-- The completion mark of a table: the end of its last descriptor, with every start computed from the bounds (R89). -/
def tableEnd (ds : List XDesc) : Nat := ds.foldl (fun t d => max t d.mark + descTime d) 0

/-- A table completes before the cycle of the next strobe, and its first input descriptor leaves the parameter reserve free
(R50, R51, R90). -/
def tableTimes (rate96 : Bool) (ds : List XDesc) : Bool :=
  decide (tableEnd ds < passCycles rate96)
    && (match ds.find? (fun d => d.kind == 0) with | some d => decide (128 ≤ d.mark) | none => true)

/-- The completion mark of a table's input exchange: the end of its last input descriptor, with every start computed from the
bounds; none without an input descriptor (R89). -/
def inputEnd (ds : List XDesc) : Option Nat :=
  (ds.foldl (fun (a : Nat × Option Nat) d =>
    let t := max a.1 d.mark + descTime d
    (t, if d.kind = 0 then some t else a.2)) (0, none)).2

/-- INPUT_DONE of a table is the completion mark of its input exchange, where it has one (R77, R89). -/
def inputDoneOk (ds : List XDesc) (mark : Nat) : Bool :=
  match inputEnd ds with
  | some t => t == mark
  | none => true

/-- The quadrant of a Millpond address (R103). -/
def mpdQuad (a : Nat) : Nat := (a - 0x10000000) / 0x600000

/-- A side that a descriptor has in Millpond stays, at every ring index, in the area where it begins: in one range of the map,
and for a ring of the delay pool in one quadrant (R102, R104, R113). -/
def sideArea (map : List MapEntry) (ring : Bool) (base len frame elem count w : Nat) : Bool :=
  let n := if ring then len else 1
  let bytes := (n - 1) * frame + (count - 1) * elem + w
  !inMpd base || (match areaOf map base with
    | some k => inArea map k base bytes && (!ring || k != 0 || mpdQuad base == mpdQuad (base + bytes - 1))
    | none => false)

/-- The Millpond sides of a descriptor lie in their areas. -/
def descArea (map : List MapEntry) (d : XDesc) : Bool :=
  d.count == 0 ||
    ((d.zeroSrc || sideArea map d.srcRing d.src d.srcLen d.srcFrame d.srcElem d.count (if d.unpack3 then 3 else 4))
      && sideArea map d.dstRing d.dst d.dstLen d.dstFrame d.dstElem d.count (if d.pack3 then 3 else 4))

/-- A descriptor table of cluster c is right for the powered tiles `on` and a Millpond map. -/
def tableOk (rate96 : Bool) (map : List MapEntry) (c : Nat) (on : List Nat) (ds : List XDesc) : Bool :=
  tableTimes rate96 ds && ds.all (fun d => descReach c on d && descArea map d)

/-- The rings of a table: base and length in frames. -/
def ringsOf (ds : List XDesc) : List (Nat × Nat) :=
  ds.flatMap (fun d => (if d.srcRing then [(d.src, d.srcLen)] else []) ++ (if d.dstRing then [(d.dst, d.dstLen)] else []))

/-- A ring of a table that goes on from the table it replaces has that ring's length (R190). -/
def ringsGoOn (old new : List XDesc) : Bool :=
  (ringsOf new).all (fun r => (ringsOf old).all (fun q => q.1 != r.1 || q.2 == r.2))

/-! ## Node instances -/

/-- The port counts of the built-in types (R114, R115). -/
def portsOk (type nIn nOut : Nat) : Bool :=
  let one (lo hi x : Nat) : Bool := decide (lo ≤ x) && decide (x ≤ hi)
  match type with
  | 0x01 | 0x02 => one 1 64 nIn && nOut == nIn
  | 0x03 | 0x04 | 0x05 => one 1 16 nIn && nOut == nIn
  | 0x06 => one 1 255 nIn && nOut == nIn
  | 0x07 | 0x08 => one 1 255 nIn && one 1 255 nOut
  | 0x09 => nOut == 1
  | 0x0A => one 1 64 nIn && nOut == nIn + 1
  | 0x0B => one 1 16 nIn && nOut == 1
  | 0x0C => one 1 16 nOut && one (nOut + 1) (nOut + 8) nIn
  | 0x0D => nIn == 2 && nOut == 1
  | 0x0E => nIn == 1 && nOut == 1
  | 0x0F => one 1 8 nIn && (nOut == 2 * nIn || nOut == 3 * nIn)
  | 0x10 | 0x11 | 0x13 => nIn == 0 && one 1 8 nOut
  | 0x12 => one 1 8 nIn && nOut == 0
  | 0x14 | 0x15 => one 1 64 nIn && nOut == 0
  | _ => nIn + nOut != 0

/-- The built-in types that a gateable region may hold (R70, R114). -/
def typeGates (type : Nat) : Bool := !([0x0B, 0x0C, 0x0D, 0x10, 0x11, 0x12, 0x13, 0x15].contains type)

/-- A gain that a parameter word holds lies in its node's range (R9). -/
def gainOk (c : PCode) (v : Word) : Bool :=
  match c with
  | .gain _ _ _ => c.store v == v
  | _ => true

/-- The sample rate in Hz. -/
def rateHz (rate96 : Bool) : Nat := if rate96 then 96000 else 48000

/-- The code of parameter `k` of a node at a rate. -/
def codeAt (rate96 : Bool) (r : NodeRec) (k : Nat) : PCode := if r.custom then .raw else paramCode (rateHz rate96) r.type r.nIn k

/-- No element occurs twice. -/
def noTwice : List Nat → Bool
  | [] => true
  | x :: l => !l.contains x && noTwice l

/-- What a type asks of its coefficients and parameters: distinct crosspoints (R145), taps whose magnitudes sum to at most
255 (R158), F2 of at least 2 × F1 (R160). -/
def typeOk (init : List InitChunk) (r : NodeRec) : Bool :=
  let p (k : Nat) : Nat := ((r.params[k]?).getD 0).toNat
  match r.type with
  | 0x07 => noTwice ((upto r.paramWords).map (fun k => (initWord init (r.coefAddr + 4 * k)).toNat % 65536))
  | 0x0E => r.coefBytes != 0 && decide (((upto (r.coefBytes / 4)).map (fun k => (initWord init (r.coefAddr + 4 * k)).toInt.natAbs)).sum ≤ 255 * 2 ^ 30)
  | 0x0F => r.nOut != 3 * r.nIn || decide (2 * p 1 ≤ p 2)
  | _ => true

/-- A node instance is right: `area` is the state area of its tile and `init` the tile's initialised data. -/
def nodeOk (rate96 : Bool) (area : Nat × Nat) (init : List InitChunk) (r : NodeRec) : Bool :=
  portsOk r.type r.nIn r.nOut && paramsInside r && (r.custom || typeOk init r)
    && (r.region.isNone || (!r.noGate && (r.custom || typeGates r.type)))
    && (r.stateBytes == 0 || r.tile.isNone || (decide (area.1 ≤ r.stateAddr) && decide (r.stateAddr + r.stateBytes ≤ area.1 + area.2)))
    && (r.params.zipIdx).all (fun e => gainOk (codeAt rate96 r e.2) e.1)

/-- A zone holds at most one ducker and one noise-adaptive gain (R151). -/
def zonesOk (nodes : List NodeRec) : Bool :=
  [0x0B, 0x0C].all (fun t => noTwice ((nodes.filter (fun r => r.type == t)).filterMap (fun r => r.zone)))

/-- The cycles that the control handlers of tile n ask for in a pass whose number is `m` (R94). -/
def ctrlLoad (nodes : List NodeRec) (n m : Nat) : Nat :=
  ((nodes.filter (fun r => r.ctrlCost != 0 && (match r.tile with | some t => 8 * r.cluster + t == n | none => r.cluster == n / 8)
      && m % 2 ^ r.ctrlPeriodLog2 == r.ctrlPhase)).map (fun r => r.ctrlCost + 2)).sum

/-- The handlers of every tile fit the control-context allowance in every pass (R49, R94). -/
def ctrlOk (rate96 : Bool) (nodes : List NodeRec) : Bool :=
  let k := nodes.foldl (fun k r => max k r.ctrlPeriodLog2) 0
  (upto 64).all (fun n => (upto (2 ^ k)).all (fun m => decide (ctrlLoad nodes n m ≤ ctrlBudget rate96)))

/-! ## Tiles and clusters -/

/-- The tiles an image powers in its base topology. -/
def baseTiles (im : Image) : List Nat := (im.tiles.filter (fun t => tileUsed t.2)).map (·.1)

/-- The state area of a tile. -/
def areaOfTile (im : Image) (n : Nat) : Nat × Nat :=
  match im.tiles.find? (fun t => t.1 == n) with
  | some t => (t.2.stateBase, t.2.stateBytes)
  | none => (0, 0)

/-- Ganged sections of cluster c: all eight tiles take part and the sections do not overlap (R100). -/
def gangsOk (im : Image) (c : Nat) (gs : List GangRec) : Bool :=
  gs.isEmpty || ((upto 8).all (fun t => im.tiles.any (fun e => e.1 == 8 * c + t && e.2.gang))
    && apart (gs.map (fun g => (g.start, g.length))))

/-- The data memory that a tile's state area, the largest scratch of its nodes and its largest initialised block outside the state
area need at least (R113). -/
def dataBytes (p : TileProg) (nodes : List NodeRec) (n : Nat) : Nat :=
  let scratch := (nodes.filter (fun r => 8 * r.cluster + r.tile.getD 0 == n)).foldl (fun m r => max m r.scratchBytes) 0
  let outside (c : InitChunk) : Nat := c.2.length - (min (c.1 + c.2.length) (p.stateBase + p.stateBytes) - max c.1 p.stateBase)
  (p.init.map outside).foldl max 0 + p.stateBytes + scratch

/-! ## Topologies -/

/-- A topology an image can come to (R183): the identity, the powered tiles, the live instances, the exchange tables by cluster
and the gateable region of each tile. -/
structure Topo where
  id : Nat
  on : List Nat
  nodes : List NodeRec
  tables : List (Nat × List XDesc)
  regions : List (Nat × Nat)
  deriving DecidableEq, Repr

/-- The base topology, identity 0. -/
def Topo.base (im : Image) : Topo :=
  { id := 0, on := baseTiles im, nodes := im.nodes, tables := im.clusters.map (fun c => (c.1, c.2.descs)),
    regions := im.tiles.filterMap (fun t => t.2.region.map (fun k => (t.1, k))) }

/-- The table of cluster c. -/
def Topo.table (e : Topo) (c : Nat) : List XDesc := ((e.tables.find? (fun t => t.1 == c)).map (·.2)).getD []

/-- The tile of a tile part. -/
def partNo (p : TilePart) : Nat := 8 * p.cluster + p.tile

/-- The live instances once a delta set has started: a record of a live number takes its place (R189, R323). -/
def Topo.during (e : Topo) (d : DeltaSet) : List NodeRec :=
  e.nodes.filter (fun r => !d.added.any (fun a => a.inst == r.inst)) ++ d.added

/-- The tiles powered after a delta set, from those before it; with `down` false, while its crossfade program runs. -/
def tilesAfter (on : List Nat) (d : DeltaSet) (down : Bool) : List Nat :=
  let on := on ++ ((d.tiles.filter (·.powerUp)).map partNo).filter (fun n => !on.contains n)
  if down then on.filter (fun n => !(d.tiles.any (fun p => p.powerDown && partNo p == n))) else on

/-- The topology `id` that a delta set brings (R184, R189, R190). -/
def Topo.after (e : Topo) (d : DeltaSet) (id : Nat) : Topo :=
  { id := id, on := tilesAfter e.on d true,
    nodes := (e.during d).filter (fun r => !d.removed.contains r.inst || d.added.any (fun a => a.inst == r.inst)),
    tables := e.tables.filter (fun t => !d.xchg.any (fun x => x.cluster == t.1)) ++ d.xchg.map (fun x => (x.cluster, x.new)),
    regions := e.regions.filter (fun t => !d.tiles.any (fun p => partNo p == t.1))
      ++ d.tiles.filterMap (fun p => if p.powerDown then none else p.region.map (fun k => (partNo p, k))) }

/-- The topologies an image can come to with one more recall. -/
def moreTopos (im : Image) (l : List Topo) : List Topo :=
  im.scenes.foldl (fun l c => match c.topo with
    | some t => c.deltas.foldl (fun l d =>
        (l.filter (fun e => e.id == d.from_)).foldl (fun l e =>
          let x := e.after d t
          if l.contains x then l else l ++ [x]) l) l
    | none => l) l

/-- The topologies an image can come to from its base, in as many recalls as it has identities. -/
def topos (im : Image) : List Topo := (upto im.nTopo).foldl (fun l _ => moreTopos im l) [Topo.base im]

/-- Every region that a tile names holds a node, and a region that holds a ganged section covers its cluster (R70). -/
def Topo.regionsOk (e : Topo) (im : Image) : Bool :=
  e.regions.all (fun t => e.nodes.any (fun r => r.region == some t.2))
    && im.clusters.all (fun c => c.2.gangs.isEmpty || (upto 8).all (fun t =>
        (e.regions.find? (fun x => x.1 == 8 * c.1 + t)).map (·.2) == (e.regions.find? (fun x => x.1 == 8 * c.1)).map (·.2)))

/-- The node limits of R72 that an image shows: bus nodes per device. -/
def limitsOk (im : Image) (nodes : List NodeRec) : Bool :=
  decide ((nodes.filter (fun r => r.type == 0x09)).length ≤ (if im.rate96 then 128 else 256))

/-- A topology is right: its tables, the control load of its handlers, its zones, regions and limits (R70, R72, R85, R94,
R151). -/
def Topo.ok (e : Topo) (im : Image) : Bool :=
  e.tables.all (fun t => tableOk im.rate96 im.mpdMap t.1 e.on t.2)
    && ctrlOk im.rate96 e.nodes && zonesOk e.nodes && e.regionsOk im && limitsOk im e.nodes

/-! ## Scenes -/

/-- The tables of a delta set are right from one topology: the XF list while the crossfade program runs, the table that stays
where it brings none, rings that go on with their length, and the control load of both programs' handlers (R85, R94, R190). -/
def deltaFits (im : Image) (d : DeltaSet) (e : Topo) : Bool :=
  d.xchg.all (fun x => tableOk im.rate96 im.mpdMap x.cluster (tilesAfter e.on d false) x.xf
      && tableOk im.rate96 im.mpdMap x.cluster (tilesAfter e.on d true) x.new
      && ringsGoOn (e.table x.cluster) x.xf && ringsGoOn x.xf x.new)
    && ctrlOk im.rate96 (e.during d)

/-- A topology of which only the identity is known, for a delta set from an identity that no recall comes to: every tile counts
as powered (R85). -/
def Topo.unknown (im : Image) (k : Nat) : Topo := { Topo.base im with id := k, on := upto 64 }

/-- The topologies a delta set can start from. -/
def toposFrom (im : Image) (k : Nat) : List Topo :=
  match (topos im).filter (fun e => e.id == k) with
  | [] => [Topo.unknown im k]
  | l => l

/-- A delta set of a scene is right for every topology in which it can be used (R85, R188 to R191, R582). -/
def deltaOk (im : Image) (d : DeltaSet) : Bool :=
  decide (d.from_ < im.nTopo) && (!im.rate96 || decide ((d.tiles.filter (·.powerUp)).length ≤ 8))
    && (toposFrom im d.from_).all (deltaFits im d)
    && d.xchg.all (fun x => inputDoneOk x.xf x.inputDoneXf && inputDoneOk x.new x.inputDoneNew)
    && d.added.all (fun r =>
        let n := 8 * r.cluster + r.tile.getD 0
        match d.tiles.find? (fun p => 8 * p.cluster + p.tile == n) with
        | some p => nodeOk im.rate96 (p.stateBase, p.stateBytes) (initOf im.tiles n ++ p.init) r
        | none => nodeOk im.rate96 (areaOfTile im n) (initOf im.tiles n) r)

/-- The node records of every topology of an image. -/
def allNodes (im : Image) : List NodeRec := im.nodes ++ im.scenes.flatMap (fun c => c.deltas.flatMap (fun d => d.added))

/-- The slots of a cluster's ramp unit that a scene's own entries take at once (R182). -/
def rampSlots (im : Image) (c : SceneRec) (k : Nat) : Nat :=
  (c.entries.filter (fun e => e.mode == 0 && (e.rampMs.getD c.rampMs) != 0 &&
    (allNodes im).any (fun r => r.inst == e.inst && r.cluster == k && (codeAt im.rate96 r e.param).ramps))).length

/-- A scene is right (R9, R182, R183, R193). -/
def sceneOk (im : Image) (c : SceneRec) : Bool :=
  (match c.topo with | some t => decide (t < im.nTopo) | none => true) && c.deltas.all (deltaOk im)
    && c.entries.all (fun e => (allNodes im).all (fun r => r.inst != e.inst || gainOk (codeAt im.rate96 r e.param) e.value))
    && (upto 8).all (fun k => decide (rampSlots im c k ≤ 256))
    && (c.hot || decide (c.bytes.length ≤ 0x40000))

/-- BOOT_SCENE names a scene that is present and has no topology part (R178). -/
def bootOk (im : Image) : Bool :=
  match im.bootScene with
  | some k => im.scenes.any (fun c => c.scene == k && c.topo.isNone)
  | none => true

/-- Bytes of the largest cold record. -/
def coldSize (im : Image) : Nat := im.scenes.foldl (fun m c => if c.hot then m else max m c.bytes.length) 0

/-- Bytes of the hot records before a scene's, in the order of the scenes: where its record is staged. -/
def hotOffset (im : Image) (scene : Nat) : Nat :=
  ((im.scenes.filter (fun c => c.hot && decide (c.scene < scene))).map (fun c => c.bytes.length)).sum

/-- The hot records and two cold slots fit the scene staging area (R193). -/
def stagingOk (im : Image) : Bool :=
  decide (hotOffset im 1024 + 2 * coldSize im ≤ ((areaRanges im.mpdMap 2).map (·.2)).sum)

/-! ## Cue rules, blobs and clips -/

/-- A chain of rules visits no rule twice and has at most 8 rules (R208). -/
def chainOk (rules : List CueRule) : Nat → List Nat → Nat → Bool
  | 0, _, _ => false
  | fuel + 1, seen, i =>
    !seen.contains i && (match (rules[i]?).bind (·.chain) with
      | some j => chainOk rules fuel (i :: seen) j
      | none => true)

/-- A trigger names what is there: a channel of a silence detector, a zone with a trump ducker (R204). -/
def triggerOk (im : Image) (t : Trigger) : Bool :=
  match t.kind with
  | .silence i chan _ => (allNodes im).any (fun r => r.inst == i && r.type == 0x15 && decide (chan < r.nIn))
  | .trump z _ _ => (allNodes im).any (fun r => r.type == 0x0B && r.zone == some z)
  | _ => true

/-- The areas of clips and recordings lie in area 1 and do not overlap (R618). -/
def clipsOk (im : Image) : Bool :=
  im.clips.all (fun c => inArea im.mpdMap 1 c.addr c.bytes) && apart (im.clips.map (fun c => (c.addr, c.bytes)))

/-- Blobs lie in area 4 (R617). -/
def blobsOk (im : Image) : Bool := im.blobs.all (fun b => inArea im.mpdMap 4 b.1 b.2.length)

/-- The device number of a twin pair is even (R26). -/
def pairOk (im : Image) : Bool :=
  match im.domain with
  | some d => !d.twin || d.device % 2 == 0
  | none => true

/-! ## The check -/

/-- The checks of row 5 that an image's own contents decide (R619): the base topology's clusters and instances, every topology
a recall can bring, the scenes and the rest. -/
def imageOk (im : Image) : Bool :=
  im.clusters.all (fun c => inputDoneOk c.2.descs c.2.inputDone && gangsOk im c.1 c.2.gangs)
    && im.tiles.all (fun t => decide (dataBytes t.2 im.nodes t.1 ≤ 0x20000))
    && im.nodes.all (fun r => nodeOk im.rate96 (areaOfTile im (8 * r.cluster + r.tile.getD 0)) (initOf im.tiles (8 * r.cluster + r.tile.getD 0)) r)
    && (topos im).all (fun e => e.ok im)
    && im.scenes.all (sceneOk im) && bootOk im && stagingOk im
    && im.triggers.all (triggerOk im) && (upto im.rules.length).all (chainOk im.rules 8 [])
    && clipsOk im && blobsOk im && pairOk im

end Sys2Proof.Machine
end

