-- ==== Sys2Proof/Machine/Bundle.lean ====
section
/-!
DEFINITION. The encodings of the tile's instructions: the three slots of a 64-bit bundle, their majors and fields, and the
encodings that are illegal (R269, R271 to R275, R277 to R279, R281, R283 to R285, R290 to R298, R300 to R306).  A decoder
answers the command of a slot, or the DETAIL of its illegal-encoding exception: 0 an undefined or reserved code or bit,
1 a field out of range, 2 a pointer that LDD names twice (R326).  Which of them a slot with several faults has, and that a
field that must be 0 counts as a field out of range, is the model's choice (assumption 121).
-/

namespace Sys2Proof.Machine

/-! ## Fields -/

/-- Bits [hi:lo] of a slot. -/
def fld (w hi lo : Nat) : Nat := w / 2 ^ lo % 2 ^ (hi + 1 - lo)
/-- Bits [hi:lo] as an index below `n`. -/
def fin (n : Nat) [NeZero n] (w hi lo : Nat) : Fin n := Fin.ofNat n (fld w hi lo)
/-- Bits [hi:lo] as a bit vector. -/
def vec (k w hi lo : Nat) : BitVec k := BitVec.ofNat k (fld w hi lo)
/-- One bit. -/
def bit (w n : Nat) : Bool := fld w n n == 1
/-- A bit as a number. -/
def bitN (b : Bool) : Nat := if b then 1 else 0

/-- The command when the reserved bits are 0 and the fields are in range. -/
def slotOk (reserved inRange : Bool) (i : Instr) : Except Nat Instr :=
  if !reserved then .error 0 else if !inRange then .error 1 else .ok i

/-! ## C slot -/

/-- SYS (R274). -/
def decodeSys (t : TileNo) (last : Bool) (w : Nat) : Except Nat Instr :=
  match fld w 19 16 with
  | 0 => slotOk (fld w 15 0 == 0) true (.nop t last)
  | 1 => slotOk (fld w 15 0 == 0) true (.yield t last)
  | 2 => slotOk (fld w 15 0 == 0) true (.cret t last)
  | 3 => slotOk (fld w 15 2 == 0) true (.setmodeImm t last (bit w 1) (bit w 0))
  | 4 => slotOk (fld w 11 0 == 0) true (.setmodeS t last (fin 16 w 15 12))
  | 5 => slotOk (fld w 15 13 == 0) true (.waits t last (vec 13 w 12 0))
  | 6 => slotOk (fld w 15 4 == 0) true (.gang t last (fin 16 w 3 0))
  | _ => .error 0

/-- ALU (R275). -/
def decodeAlu (t : TileNo) (last : Bool) (w : Nat) : Except Nat Instr :=
  let d := fin 16 w 19 16
  let a := fin 16 w 15 12
  let b := fin 16 w 11 8
  let s := bit w 7
  let two (i : Instr) : Except Nat Instr := slotOk (fld w 6 5 == 0) true i
  let one (i : Instr) : Except Nat Instr := slotOk (fld w 6 5 == 0) (fld w 11 8 == 0) i
  let none_ (i : Instr) : Except Nat Instr := slotOk (fld w 6 5 == 0) (s && fld w 19 16 == 0) i
  match fld w 4 0 with
  | 0x00 => two (.add t last d a b s)
  | 0x01 => two (.sub t last d a b s)
  | 0x02 => two (.and t last d a b s)
  | 0x03 => two (.or t last d a b s)
  | 0x04 => two (.xor t last d a b s)
  | 0x05 => two (.andn t last d a b s)
  | 0x06 => two (.shl t last d a b s)
  | 0x07 => two (.shr t last d a b s)
  | 0x08 => two (.asr t last d a b s)
  | 0x09 => two (.min t last d a b s)
  | 0x0A => two (.max t last d a b s)
  | 0x0B => two (.minu t last d a b s)
  | 0x0C => two (.maxu t last d a b s)
  | 0x0D => two (.mull t last d a b s)
  | 0x0E => two (.mulh t last d a b s)
  | 0x0F => one (.abs t last d a s)
  | 0x10 => one (.neg t last d a s)
  | 0x11 => one (.cls t last d a s)
  | 0x12 => one (.clz t last d a s)
  | 0x13 => none_ (.cmp t last a b)
  | 0x14 => none_ (.tst t last a b)
  | 0x15 => two (.addsat t last d a b s)
  | 0x16 => two (.subsat t last d a b s)
  | _ => .error 0

/-- ALUI (R277). -/
def decodeAlui (t : TileNo) (last : Bool) (w : Nat) : Except Nat Instr :=
  let d := fin 16 w 19 16
  let a := fin 16 w 15 12
  let x := vec 8 w 7 0
  let k := fin 32 w 4 0
  let shift (i : Instr) : Except Nat Instr := slotOk true (fld w 7 5 == 0) i
  match fld w 11 8 with
  | 0x0 => .ok (.addi t last d a x)
  | 0x1 => .ok (.andi t last d a x)
  | 0x2 => .ok (.ori t last d a x)
  | 0x3 => .ok (.xori t last d a x)
  | 0x4 => shift (.shli t last d a k)
  | 0x5 => shift (.shri t last d a k)
  | 0x6 => shift (.asri t last d a k)
  | 0x7 => slotOk true (fld w 19 16 == 0) (.cmpi t last a x)
  | 0x8 => .ok (.mini t last d a x)
  | 0x9 => .ok (.maxi t last d a x)
  | _ => .error 0

/-- The sixteen conditions by code (R281). -/
def condOf (n : Nat) : Cond :=
  match n with
  | 0 => .al | 1 => .eq | 2 => .ne | 3 => .lt | 4 => .ge | 5 => .le | 6 => .gt | 7 => .lo
  | 8 => .hs | 9 => .ls | 10 => .hi | 11 => .mi | 12 => .pl | 13 => .vs | 14 => .vc | _ => .nv

/-- The code of a condition. -/
def Cond.code : Cond → Nat
  | .al => 0 | .eq => 1 | .ne => 2 | .lt => 3 | .ge => 4 | .le => 5 | .gt => 6 | .lo => 7
  | .hs => 8 | .ls => 9 | .hi => 10 | .mi => 11 | .pl => 12 | .vs => 13 | .vc => 14 | .nv => 15

/-- B, BAL and BR by major (R281). -/
def decodeBranch (t : TileNo) (last : Bool) (w : Nat) : Except Nat Instr :=
  let c := condOf (fld w 19 16)
  match fld w 23 20 with
  | 5 => slotOk (fld w 14 11 == 0) true (.b t last c (bit w 15) (vec 11 w 10 0))
  | 6 => slotOk (fld w 14 11 == 0) true (.bal t last c (bit w 15) (vec 11 w 10 0))
  | _ => slotOk (fld w 10 0 == 0) true (.br t last c (bit w 15) (fin 16 w 14 11))

/-- RPT (R284). -/
def decodeRpt (t : TileNo) (last : Bool) (w : Nat) : Except Nat Instr :=
  if bit w 15 then slotOk (fld w 14 11 == 0) (fld w 10 0 == 0) (.rpt t last (.reg (fin 16 w 19 16)))
  else slotOk (fld w 14 11 == 0) (fld w 19 16 == 0 && decide (fld w 10 0 ≤ 1024)) (.rpt t last (.imm (vec 11 w 10 0)))

/-- FU (R285). -/
def decodeFu (t : TileNo) (last : Bool) (w : Nat) : Except Nat Instr :=
  let d := fin 16 w 19 16
  let a := fin 16 w 15 12
  let one (i : Instr) : Except Nat Instr := slotOk (fld w 7 3 == 0) (fld w 11 8 == 0) i
  match fld w 2 0 with
  | 0 => one (.rcp t last d a)
  | 1 => one (.rsq t last d a)
  | 2 => one (.log2 t last d a)
  | 3 => one (.exp2 t last d a)
  | 4 => slotOk (fld w 7 3 == 0) true (.div t last d a (fin 16 w 11 8))
  | _ => .error 0

/-- A register of class 0 to 3, whose field has four bits (R279, R292). -/
def regOf (cls r : Nat) : SReg :=
  match cls with
  | 0 => .s (Fin.ofNat 16 r)
  | 1 => .p (Fin.ofNat 8 r)
  | 2 => .m (Fin.ofNat 8 r)
  | _ => .n (Fin.ofNat 8 r)

/-- Bit 3 of a register field of class 1 to 3 is 0. -/
def regOk (cls r : Nat) : Bool := cls == 0 || decide (r < 8)

/-- The source of a MOVX, of its class, register and lane; none for an illegal class (R279). -/
def movSrcOf (cls r lane : Nat) : Option MovSrc :=
  match cls with
  | 0 | 1 | 2 | 3 => some (.reg (regOf cls r))
  | 4 => some .stat
  | 5 => some .mode
  | 6 => some .ldepth
  | 7 => some (.lane (Fin.ofNat 16 r) (Fin.ofNat 4 lane))
  | 9 => some .scyc
  | _ => none

/-- The destination of a MOVX. -/
def movDstOf (cls r lane : Nat) : Option MovDst :=
  match cls with
  | 0 | 1 | 2 | 3 => some (.reg (regOf cls r))
  | 4 => some .stat
  | 7 => some (.lane (Fin.ofNat 16 r) (Fin.ofNat 4 lane))
  | 8 => some (.allLanes (Fin.ofNat 16 r))
  | _ => none

/-- A register field of a class is in range: 0 for the classes of one register. -/
def movRegOk (cls r : Nat) : Bool :=
  match cls with
  | 0 | 7 | 8 => true
  | 1 | 2 | 3 => decide (r < 8)
  | _ => r == 0

/-- MOVX (R279). -/
def decodeMovx (t : TileNo) (last : Bool) (w : Nat) : Except Nat Instr :=
  let dc := fld w 11 8
  let sc := fld w 7 4
  let lane := fld w 3 2
  match movDstOf dc (fld w 19 16) lane, movSrcOf sc (fld w 15 12) lane with
  | some d, some s =>
    slotOk (fld w 1 0 == 0 && (dc == 0 || sc == 0)) (movRegOk dc (fld w 19 16) && movRegOk sc (fld w 15 12) && (dc == 7 || sc == 7 || lane == 0)) (.movx t last d s)
  | _, _ => .error 0

/-- The C slot, 24 bits (R273). -/
def decodeC (t : TileNo) (last : Bool) (w : Nat) : Except Nat Instr :=
  match fld w 23 20 with
  | 0x0 => decodeSys t last w
  | 0x1 => decodeAlu t last w
  | 0x2 => decodeAlui t last w
  | 0x3 => .ok (.ldi t last (fin 16 w 19 16) (vec 16 w 15 0))
  | 0x4 => .ok (.ldih t last (fin 16 w 19 16) (vec 16 w 15 0))
  | 0x5 | 0x6 | 0x7 => decodeBranch t last w
  | 0x8 => slotOk (fld w 19 15 == 0) true (.loop t last (fin 16 w 14 11) (vec 11 w 10 0))
  | 0x9 => .ok (.loopi t last (vec 9 w 19 11) (vec 11 w 10 0))
  | 0xA => decodeRpt t last w
  | 0xB => decodeFu t last w
  | 0xC => decodeMovx t last w
  | _ => .error 0

/-! ## M slot -/

/-- The POST field; 3 is illegal (R291). -/
def postOf (n : Nat) : Option Post :=
  match n with
  | 0 => some .none
  | 1 => some .size
  | 2 => some .byM
  | _ => none

/-- The code of a post-modification. -/
def Post.code : Post → Nat
  | .none => 0
  | .size => 1
  | .byM => 2

/-- The conversion codes; 18 to 31 are illegal (R296). -/
def convOf (n : Nat) : Option Conv := if n < 17 then some (.word (Fin.ofNat 17 n)) else if n = 17 then some .p24 else none

/-- The code of a conversion. -/
def Conv.code : Conv → Nat
  | .word k => k
  | .p24 => 17

/-- The command of a POST field, or an illegal code. -/
def withPost (n : Nat) (f : Post → Except Nat Instr) : Except Nat Instr :=
  match postOf n with
  | some p => f p
  | none => .error 0

/-- STA (R297). -/
def decodeSta (t : TileNo) (last : Bool) (w : Nat) : Except Nat Instr :=
  match convOf (fld w 14 10) with
  | none => .error 0
  | some c => withPost (fld w 6 5) (fun post =>
    if bit w 4 then slotOk (fld w 1 0 == 0) true (.sta t last (fin 2 w 15 15) c (fin 8 w 9 7) post (.one (fin 4 w 3 2)))
    else slotOk (fld w 1 0 == 0) (fld w 3 2 == 0) (.sta t last (fin 2 w 15 15) c (fin 8 w 9 7) post .four))

/-- The M slot, 20 bits (R290 to R298). -/
def decodeM (t : TileNo) (last : Bool) (w : Nat) : Except Nat Instr :=
  let ptr := fin 8 w 9 7
  let post (f : Post → Except Nat Instr) : Except Nat Instr := withPost (fld w 6 5) f
  let v := fin 16 w 15 12
  match fld w 19 16 with
  | 0x0 => slotOk (fld w 15 0 == 0) true (.nop t last)
  | 0x1 => post (fun p => slotOk true (regOk (fld w 15 14) (fld w 13 10))
      (.lds t last (regOf (fld w 15 14) (fld w 13 10)) ptr p (bit w 4) (fin 16 w 3 0)))
  | 0x2 => post (fun p => slotOk true (regOk (fld w 15 14) (fld w 13 10))
      (.sts t last (regOf (fld w 15 14) (fld w 13 10)) ptr p (bit w 4) (fin 16 w 3 0)))
  | 0x3 => post (fun p => slotOk (fld w 11 10 == 0) true (.ldv t last v ptr p (fin 32 w 4 0)))
  | 0x4 => post (fun p => slotOk (fld w 11 10 == 0) true (.stv t last v ptr p (fin 32 w 4 0)))
  | 0x5 => post (fun p => slotOk (fld w 11 10 == 0) true (.ldb t last v ptr p (fin 32 w 4 0)))
  | 0x6 => post (fun p => .ok (.ldl t last v (fin 4 w 11 10) ptr p (bit w 4) (fin 16 w 3 0)))
  | 0x7 => post (fun p => .ok (.stl t last v (fin 4 w 11 10) ptr p (bit w 4) (fin 16 w 3 0)))
  | 0x8 => withPost (fld w 9 8) (fun a => withPost (fld w 4 3) (fun b =>
      if fld w 1 0 == 0 && fld w 12 10 == fld w 7 5 && Post.code a != 0 && Post.code b != 0 then .error 2
      else slotOk (fld w 1 0 == 0) true (.ldd t last (fin 8 w 15 13) (fin 8 w 12 10) a (fin 8 w 7 5) b (bit w 2))))
  | 0x9 => decodeSta t last w
  | 0xA => .ok (.lea t last (fin 8 w 15 13) (fin 8 w 12 10) (vec 10 w 9 0))
  | 0xB => slotOk (fld w 15 10 == 0 && fld w 6 0 == 0) true (.stepPtr t last ptr)
  | _ => .error 0

/-! ## L slot -/

/-- FORM (R301). -/
def formOf (n : Nat) : MacForm :=
  match n with
  | 0 => .coef
  | 1 => .sample
  | 2 => .square
  | _ => .integer

/-- The code of a form. -/
def MacForm.code : MacForm → Nat
  | .coef => 0
  | .sample => 1
  | .square => 2
  | .integer => 3

/-- MAC (R301). -/
def decodeMac (t : TileNo) (last : Bool) (w : Nat) : Except Nat Instr :=
  let form := formOf (fld w 15 14)
  let acc := fin 2 w 11 11
  let va := fin 16 w 10 7
  let vb := fin 16 w 6 3
  match fld w 13 12 with
  | 0 => slotOk (fld w 2 0 == 0) true (.mul t last form acc va vb)
  | 1 => slotOk (fld w 2 0 == 0) true (.mac t last form acc va vb)
  | 2 => slotOk (fld w 2 0 == 0) true (.msu t last form acc va vb)
  | _ => .error 0

/-- ACC (R303). -/
def decodeAcc (t : TileNo) (last : Bool) (w : Nat) : Except Nat Instr :=
  let acc := fin 2 w 12 12
  let v := fin 16 w 11 8
  let rest := fld w 7 0 == 0
  match fld w 15 13 with
  | 0 => slotOk rest (fld w 11 8 == 0) (.clr t last acc)
  | 1 => slotOk rest true (.lda t last acc v)
  | 2 => slotOk rest true (.adda t last acc v)
  | 3 => slotOk rest true (.suba t last acc v)
  | 4 => slotOk rest (fld w 11 8 == 0) (.suma t last acc)
  | _ => .error 0

/-- VALU (R304). -/
def decodeValu (t : TileNo) (last : Bool) (w : Nat) : Except Nat Instr :=
  let d := fin 16 w 15 12
  let a := fin 16 w 11 8
  let b := fin 16 w 7 4
  let one (i : Instr) : Except Nat Instr := slotOk true (fld w 7 4 == 0) i
  match fld w 3 0 with
  | 0x0 => .ok (.vadd t last d a b)
  | 0x1 => .ok (.vsub t last d a b)
  | 0x2 => .ok (.vadds t last d a b)
  | 0x3 => .ok (.vsubs t last d a b)
  | 0x4 => .ok (.vmin t last d a b)
  | 0x5 => .ok (.vmax t last d a b)
  | 0x6 => one (.vabs t last d a)
  | 0x7 => one (.vneg t last d a)
  | 0x8 => .ok (.vand t last d a b)
  | 0x9 => .ok (.vor t last d a b)
  | 0xA => .ok (.vxor t last d a b)
  | 0xB => .ok (.vandn t last d a b)
  | 0xC => .ok (.vcmpgt t last d a b)
  | 0xD => .ok (.vcmpeq t last d a b)
  | 0xE => one (.vmov t last d a)
  | _ => .error 0

/-- The L slot, 20 bits (R300 to R306). -/
def decodeL (t : TileNo) (last : Bool) (w : Nat) : Except Nat Instr :=
  let d := fin 16 w 15 12
  let a := fin 16 w 11 8
  match fld w 19 16 with
  | 0x0 => slotOk (fld w 15 0 == 0) true (.nop t last)
  | 0x1 => decodeMac t last w
  | 0x2 => match convOf (fld w 10 6) with
    | some c => slotOk (fld w 5 0 == 0) true (.cvt t last d (fin 2 w 11 11) c)
    | none => .error 0
  | 0x3 => decodeAcc t last w
  | 0x4 => decodeValu t last w
  | 0x5 =>
    let k := fin 32 w 4 0
    slotOk (fld w 5 5 == 0) true (match fld w 7 6 with
      | 0 => .vshl t last d a k
      | 1 => .vshr t last d a k
      | 2 => .vasr t last d a k
      | _ => .vshls t last d a k)
  | 0x6 => .ok (.vperm t last d a (vec 8 w 7 0))
  | _ => .error 0

/-! ## The bundle -/

/-- The C, M and L slots of a bundle (R269). -/
def slotC (b : Nat) : Nat := fld b 63 40
def slotM (b : Nat) : Nat := fld b 39 20
def slotL (b : Nat) : Nat := fld b 19 0

/-- The commands of a bundle of tile t, C, M, L, a slot of zeros left out (R271); `last` marks the last one.  Or the DETAIL
of the first slot that is illegal. -/
def decodeBundle (t : TileNo) (b : Nat) : Except Nat (List Instr) :=
  let c := slotC b
  let m := slotM b
  let l := slotL b
  match decodeC t (m == 0 && l == 0) c, decodeM t (l == 0) m, decodeL t true l with
  | .error d, _, _ => .error d
  | _, .error d, _ => .error d
  | _, _, .error d => .error d
  | .ok i, .ok j, .ok k =>
    if c = 0 ∧ m = 0 ∧ l = 0 then .ok [.nop t true]
    else .ok ((if c = 0 then [] else [i]) ++ (if m = 0 then [] else [j]) ++ (if l = 0 then [] else [k]))

/-- DETAIL of a bundle that is an illegal encoding. -/
def bundleDetail (b : Nat) : Option Nat :=
  match decodeBundle 0 b with
  | .error d => some d
  | .ok _ => none

/-! ## The words of the instructions -/

/-- Class and number of a register of class 0 to 3. -/
def SReg.code : SReg → Nat × Nat
  | .s i => (0, i)
  | .p i => (1, i)
  | .m i => (2, i)
  | .n i => (3, i)

/-- Class, register and lane of a MOVX source. -/
def MovSrc.code : MovSrc → Nat × Nat × Nat
  | .reg r => ((SReg.code r).1, (SReg.code r).2, 0)
  | .stat => (4, 0, 0)
  | .mode => (5, 0, 0)
  | .ldepth => (6, 0, 0)
  | .lane v l => (7, v, l)
  | .scyc => (9, 0, 0)

/-- Class, register and lane of a MOVX destination. -/
def MovDst.code : MovDst → Nat × Nat × Nat
  | .reg r => ((SReg.code r).1, (SReg.code r).2, 0)
  | .stat => (4, 0, 0)
  | .lane v l => (7, v, l)
  | .allLanes v => (8, v, 0)

/-- A field value, or a pair of them, that no word of the command may carry: COUNT of RPT above 1,024 (R284), a MOVX between
two registers neither of which is an s register (R279), and an LDD that steps one pointer twice (R295). -/
def Instr.illegalForm : Instr → Bool
  | .rpt _ _ (.imm k) => decide (1024 < k.toNat)
  | .movx _ _ d s => (MovDst.code d).1 != 0 && (MovSrc.code s).1 != 0
  | .ldd _ _ _ pa posta pb postb _ => pa == pb && posta != .none && postb != .none
  | _ => false

/-- The word of a C slot; none for a command of another kind, or a MOVX from lane to lane, which has one LANE field. -/
def encodeC (i : Instr) : Option Nat :=
  let sys (sub w : Nat) : Option Nat := some (sub * 2 ^ 16 + w)
  let alu (op d a b : Nat) (s : Bool) : Option Nat := some (2 ^ 20 + d * 2 ^ 16 + a * 2 ^ 12 + b * 2 ^ 8 + bitN s * 2 ^ 7 + op)
  let alui (op d a x : Nat) : Option Nat := some (2 * 2 ^ 20 + d * 2 ^ 16 + a * 2 ^ 12 + op * 2 ^ 8 + x)
  let br (major : Nat) (c : Cond) (ann : Bool) (x : Nat) : Option Nat := some (major * 2 ^ 20 + Cond.code c * 2 ^ 16 + bitN ann * 2 ^ 15 + x)
  let fu (op d a b : Nat) : Option Nat := some (0xB * 2 ^ 20 + d * 2 ^ 16 + a * 2 ^ 12 + b * 2 ^ 8 + op)
  match i with
  | .nop _ _ => sys 0 0
  | .yield _ _ => sys 1 0
  | .cret _ _ => sys 2 0
  | .setmodeImm _ _ nosat trunc => sys 3 (2 * bitN nosat + bitN trunc)
  | .setmodeS _ _ a => sys 4 (a * 2 ^ 12)
  | .waits _ _ cycle => sys 5 cycle.toNat
  | .gang _ _ sec => sys 6 sec
  | .add _ _ d a b s => alu 0x00 d a b s
  | .sub _ _ d a b s => alu 0x01 d a b s
  | .and _ _ d a b s => alu 0x02 d a b s
  | .or _ _ d a b s => alu 0x03 d a b s
  | .xor _ _ d a b s => alu 0x04 d a b s
  | .andn _ _ d a b s => alu 0x05 d a b s
  | .shl _ _ d a b s => alu 0x06 d a b s
  | .shr _ _ d a b s => alu 0x07 d a b s
  | .asr _ _ d a b s => alu 0x08 d a b s
  | .min _ _ d a b s => alu 0x09 d a b s
  | .max _ _ d a b s => alu 0x0A d a b s
  | .minu _ _ d a b s => alu 0x0B d a b s
  | .maxu _ _ d a b s => alu 0x0C d a b s
  | .mull _ _ d a b s => alu 0x0D d a b s
  | .mulh _ _ d a b s => alu 0x0E d a b s
  | .abs _ _ d a s => alu 0x0F d a 0 s
  | .neg _ _ d a s => alu 0x10 d a 0 s
  | .cls _ _ d a s => alu 0x11 d a 0 s
  | .clz _ _ d a s => alu 0x12 d a 0 s
  | .cmp _ _ a b => alu 0x13 0 a b true
  | .tst _ _ a b => alu 0x14 0 a b true
  | .addsat _ _ d a b s => alu 0x15 d a b s
  | .subsat _ _ d a b s => alu 0x16 d a b s
  | .addi _ _ d a x => alui 0x0 d a x.toNat
  | .andi _ _ d a x => alui 0x1 d a x.toNat
  | .ori _ _ d a x => alui 0x2 d a x.toNat
  | .xori _ _ d a x => alui 0x3 d a x.toNat
  | .shli _ _ d a k => alui 0x4 d a k
  | .shri _ _ d a k => alui 0x5 d a k
  | .asri _ _ d a k => alui 0x6 d a k
  | .cmpi _ _ a x => alui 0x7 0 a x.toNat
  | .mini _ _ d a x => alui 0x8 d a x.toNat
  | .maxi _ _ d a x => alui 0x9 d a x.toNat
  | .ldi _ _ d x => some (3 * 2 ^ 20 + d * 2 ^ 16 + x.toNat)
  | .ldih _ _ d x => some (4 * 2 ^ 20 + d * 2 ^ 16 + x.toNat)
  | .b _ _ c ann x => br 5 c ann x.toNat
  | .bal _ _ c ann x => br 6 c ann x.toNat
  | .br _ _ c ann a => br 7 c ann (a * 2 ^ 11)
  | .loop _ _ a lend => some (8 * 2 ^ 20 + a * 2 ^ 11 + lend.toNat)
  | .loopi _ _ n lend => some (9 * 2 ^ 20 + n.toNat * 2 ^ 11 + lend.toNat)
  | .rpt _ _ (.imm n) => some (0xA * 2 ^ 20 + n.toNat)
  | .rpt _ _ (.reg a) => some (0xA * 2 ^ 20 + a * 2 ^ 16 + 2 ^ 15)
  | .rcp _ _ d a => fu 0 d a 0
  | .rsq _ _ d a => fu 1 d a 0
  | .log2 _ _ d a => fu 2 d a 0
  | .exp2 _ _ d a => fu 3 d a 0
  | .div _ _ d a b => fu 4 d a b
  | .movx _ _ d s =>
    let (dc, dr, dl) := MovDst.code d
    let (sc, sr, sl) := MovSrc.code s
    if dc = 7 ∧ sc = 7 then none
    else some (0xC * 2 ^ 20 + dr * 2 ^ 16 + sr * 2 ^ 12 + dc * 2 ^ 8 + sc * 2 ^ 4 + (dl + sl) * 2 ^ 2)
  | _ => none

/-- The word of an M slot. -/
def encodeM (i : Instr) : Option Nat :=
  let mem (major x ptr : Nat) (post : Post) (y : Nat) : Option Nat := some (major * 2 ^ 16 + x + ptr * 2 ^ 7 + Post.code post * 2 ^ 5 + y)
  let reg (r : SReg) : Nat := (SReg.code r).1 * 2 ^ 14 + (SReg.code r).2 * 2 ^ 10
  match i with
  | .nop _ _ => some 0
  | .lds _ _ r ptr post rot off => mem 1 (reg r) ptr post (bitN rot * 2 ^ 4 + off)
  | .sts _ _ r ptr post rot off => mem 2 (reg r) ptr post (bitN rot * 2 ^ 4 + off)
  | .ldv _ _ v ptr post off => mem 3 (v * 2 ^ 12) ptr post off
  | .stv _ _ v ptr post off => mem 4 (v * 2 ^ 12) ptr post off
  | .ldb _ _ v ptr post off => mem 5 (v * 2 ^ 12) ptr post off
  | .ldl _ _ v lane ptr post p3 off => mem 6 (v * 2 ^ 12 + lane * 2 ^ 10) ptr post (bitN p3 * 2 ^ 4 + off)
  | .stl _ _ v lane ptr post p3 off => mem 7 (v * 2 ^ 12 + lane * 2 ^ 10) ptr post (bitN p3 * 2 ^ 4 + off)
  | .ldd _ _ pair pa posta pb postb bc =>
    some (8 * 2 ^ 16 + pair * 2 ^ 13 + pa * 2 ^ 10 + Post.code posta * 2 ^ 8 + pb * 2 ^ 5 + Post.code postb * 2 ^ 3 + bitN bc * 2 ^ 2)
  | .sta _ _ acc c ptr post sel =>
    mem 9 (acc * 2 ^ 15 + Conv.code c * 2 ^ 10) ptr post (match sel with | .four => 0 | .one l => 2 ^ 4 + l * 2 ^ 2)
  | .lea _ _ pd pa x => some (0xA * 2 ^ 16 + pd * 2 ^ 13 + pa * 2 ^ 10 + x.toNat)
  | .stepPtr _ _ ptr => some (0xB * 2 ^ 16 + ptr * 2 ^ 7)
  | _ => none

/-- The word of an L slot. -/
def encodeL (i : Instr) : Option Nat :=
  let mac (op : Nat) (f : MacForm) (acc va vb : Nat) : Option Nat :=
    some (2 ^ 16 + MacForm.code f * 2 ^ 14 + op * 2 ^ 12 + acc * 2 ^ 11 + va * 2 ^ 7 + vb * 2 ^ 3)
  let acc (op a v : Nat) : Option Nat := some (3 * 2 ^ 16 + op * 2 ^ 13 + a * 2 ^ 12 + v * 2 ^ 8)
  let valu (op d a b : Nat) : Option Nat := some (4 * 2 ^ 16 + d * 2 ^ 12 + a * 2 ^ 8 + b * 2 ^ 4 + op)
  let vsh (op d a k : Nat) : Option Nat := some (5 * 2 ^ 16 + d * 2 ^ 12 + a * 2 ^ 8 + op * 2 ^ 6 + k)
  match i with
  | .nop _ _ => some 0
  | .mul _ _ f a va vb => mac 0 f a va vb
  | .mac _ _ f a va vb => mac 1 f a va vb
  | .msu _ _ f a va vb => mac 2 f a va vb
  | .cvt _ _ vd a c => some (2 * 2 ^ 16 + vd * 2 ^ 12 + a * 2 ^ 11 + Conv.code c * 2 ^ 6)
  | .clr _ _ a => acc 0 a 0
  | .lda _ _ a v => acc 1 a v
  | .adda _ _ a v => acc 2 a v
  | .suba _ _ a v => acc 3 a v
  | .suma _ _ a => acc 4 a 0
  | .vadd _ _ d a b => valu 0x0 d a b
  | .vsub _ _ d a b => valu 0x1 d a b
  | .vadds _ _ d a b => valu 0x2 d a b
  | .vsubs _ _ d a b => valu 0x3 d a b
  | .vmin _ _ d a b => valu 0x4 d a b
  | .vmax _ _ d a b => valu 0x5 d a b
  | .vabs _ _ d a => valu 0x6 d a 0
  | .vneg _ _ d a => valu 0x7 d a 0
  | .vand _ _ d a b => valu 0x8 d a b
  | .vor _ _ d a b => valu 0x9 d a b
  | .vxor _ _ d a b => valu 0xA d a b
  | .vandn _ _ d a b => valu 0xB d a b
  | .vcmpgt _ _ d a b => valu 0xC d a b
  | .vcmpeq _ _ d a b => valu 0xD d a b
  | .vmov _ _ d a => valu 0xE d a 0
  | .vshl _ _ d a k => vsh 0 d a k
  | .vshr _ _ d a k => vsh 1 d a k
  | .vasr _ _ d a k => vsh 2 d a k
  | .vshls _ _ d a k => vsh 3 d a k
  | .vperm _ _ d a sel => some (6 * 2 ^ 16 + d * 2 ^ 12 + a * 2 ^ 8 + sel.toNat)
  | _ => none

/-- The tile and the `last` mark of a slot, where the command is one. -/
def Instr.slotOf : Instr → Option (TileNo × Bool)
  | .nop t last | .yield t last | .cret t last => some (t, last)
  | .setmodeImm t last _ _ | .setmodeS t last _ | .waits t last _ | .gang t last _ => some (t, last)
  | .add t last _ _ _ _ | .sub t last _ _ _ _ | .and t last _ _ _ _ | .or t last _ _ _ _ | .xor t last _ _ _ _ => some (t, last)
  | .andn t last _ _ _ _ | .shl t last _ _ _ _ | .shr t last _ _ _ _ | .asr t last _ _ _ _ | .min t last _ _ _ _ => some (t, last)
  | .max t last _ _ _ _ | .minu t last _ _ _ _ | .maxu t last _ _ _ _ | .mull t last _ _ _ _ | .mulh t last _ _ _ _ => some (t, last)
  | .abs t last _ _ _ | .neg t last _ _ _ | .cls t last _ _ _ | .clz t last _ _ _ | .cmp t last _ _ | .tst t last _ _ => some (t, last)
  | .addsat t last _ _ _ _ | .subsat t last _ _ _ _ | .addi t last _ _ _ | .andi t last _ _ _ | .ori t last _ _ _ => some (t, last)
  | .xori t last _ _ _ | .shli t last _ _ _ | .shri t last _ _ _ | .asri t last _ _ _ | .cmpi t last _ _ | .mini t last _ _ _ => some (t, last)
  | .maxi t last _ _ _ | .ldi t last _ _ | .ldih t last _ _ | .movx t last _ _ | .b t last _ _ _ | .bal t last _ _ _ => some (t, last)
  | .br t last _ _ _ | .loop t last _ _ | .loopi t last _ _ | .rpt t last _ | .rcp t last _ _ | .rsq t last _ _ => some (t, last)
  | .log2 t last _ _ | .exp2 t last _ _ | .div t last _ _ _ | .lds t last _ _ _ _ _ | .sts t last _ _ _ _ _ => some (t, last)
  | .ldv t last _ _ _ _ | .stv t last _ _ _ _ | .ldb t last _ _ _ _ | .ldl t last _ _ _ _ _ _ | .stl t last _ _ _ _ _ _ => some (t, last)
  | .ldd t last _ _ _ _ _ _ | .sta t last _ _ _ _ _ | .lea t last _ _ _ | .stepPtr t last _ | .mul t last _ _ _ _ => some (t, last)
  | .mac t last _ _ _ _ | .msu t last _ _ _ _ | .cvt t last _ _ _ | .clr t last _ | .lda t last _ _ | .adda t last _ _ => some (t, last)
  | .suba t last _ _ | .suma t last _ | .vadd t last _ _ _ | .vsub t last _ _ _ | .vadds t last _ _ _ | .vsubs t last _ _ _ => some (t, last)
  | .vmin t last _ _ _ | .vmax t last _ _ _ | .vabs t last _ _ | .vneg t last _ _ | .vand t last _ _ _ | .vor t last _ _ _ => some (t, last)
  | .vxor t last _ _ _ | .vandn t last _ _ _ | .vcmpgt t last _ _ _ | .vcmpeq t last _ _ _ | .vmov t last _ _ => some (t, last)
  | .vshl t last _ _ _ | .vshr t last _ _ _ | .vasr t last _ _ _ | .vshls t last _ _ _ | .vperm t last _ _ _ => some (t, last)
  | _ => none

/-- The bundle of three slot words. -/
def packBundle (c m l : Nat) : Nat := c * 2 ^ 40 + m * 2 ^ 20 + l

end Sys2Proof.Machine
end

