-- ==== Sys2Proof/Machine/NodeOps.lean ====
section
/-!
DEFINITION. The arithmetic the built-in nodes share (R121 to R127): gain and level conversion, time constants and
smoothing, deterministic noise, sines, biquad sections, silence detectors.
-/

namespace Sys2Proof.Machine

/-- Mute (R8). -/
abbrev muteG : Int := -32768

/-- R122: the mantissa m (Q2.30) and exponent i of a gain other than mute. -/
def gainParts (v : Int) : Nat × Int :=
  let x := v * 43541
  let i := x / 2 ^ 24
  (exp2Q30 ((x - i * 2 ^ 24).toNat * 2 ^ 7), i)

/-- A number of 2^−30 shifted by an exponent, bits shifted out rounded half to even. -/
def shiftRne (m i : Int) : Int := if 0 ≤ i then m * 2 ^ i.toNat else divRne m (2 ^ (-i).toNat)

/-- An exact product with m × 2^i, stored by R6: the gain of a node whose range goes beyond +6 dB (R122). -/
def gainStore (v x : Int) : Int :=
  if v = muteG then 0 else let p := gainParts v; sat32 (shiftRne (p.1 * x) (p.2 - 30))

/-- A value num/den that a rule leaves without a rounding: the integer below or above it, whichever `up` says. -/
def nearInt (num den : Int) (up : Bool) : Int := num / den + if num % den ≠ 0 ∧ up then 1 else 0

/-- R122: a gain as one Q2.30 word; mute is 0. -/
def gainQ30 (v : Int) : Int := if v = muteG then 0 else let p := gainParts v; shiftRne p.1 p.2

/-- A gain in 2^−16 of 1/64 dB as a Q2.30 word (R122, R125). -/
def gainOf16 (e : Int) : Int := gainQ30 (divRne e 65536)

/-- An exact product of a Q2.30 word and a sample, stored by R6. -/
def mulStore (g x : Int) : Int := sat32 (divRne (g * x) (2 ^ 30))

/-- R123, steps 2 to 7: the level of V with unit exponent `u` and factor word `k`. -/
def levelOf (v : Nat) (u : Nat) (k : Int) : Int :=
  if v = 0 then -9216
  else
    let b := msbBelow 80 v
    let m := if b ≤ 30 then v * 2 ^ (30 - b) else v / 2 ^ (b - 30)
    let l : Int := ((b : Int) - u) * 2 ^ 31 + log2Q31 m
    max (-9216) (divRne (k * l) (2 ^ 47))

/-- Peak level of a sample (R123). -/
def peakLevel (x : Int) : Int := levelOf (magQ31 x).toNat 31 25252226

/-- RMS level of a mean square in 2^−62 (R123). -/
def rmsLevel (q : Nat) : Int := levelOf (2 * q) 62 12626113

/-- The threshold word of an L threshold (R124); none is "exactly zero". -/
def threshWord (v : Int) : Option Nat :=
  if v = muteG then none
  else
    let p := gainParts v
    some (min 0x7FFFFFFF (shiftRne p.1 (p.2 + 1)).toNat)

/-- A sample is below an L threshold (R124). -/
def below (v x : Int) : Bool :=
  match threshWord v with
  | some t => decide (magQ31 x < t)
  | none => x == 0

/-- α of R125 for a time constant of `t` units, `perS` units to the second. -/
def alphaQ31 (fs t perS : Nat) : Int :=
  if t = 0 then 0x7FFFFFFF else min 0x7FFFFFFF (divRne (2 ^ 96 - expNeg96 perS (t * fs)) (2 ^ 65))

/-- R125: one smoothing step of `e` toward num/den, in the step of `e`. -/
def smooth (a e num : Int) (den : Nat) : Int := e + divRne (a * (num - e * den)) (den * 2 ^ 31)

/-- R126. -/
def noise (a b : Word) : Word :=
  let x := a ^^^ (b * 0x9E3779B9#32)
  let x := (x ^^^ (x >>> 16)) * 0x7FEB352D#32
  let x := (x ^^^ (x >>> 15)) * 0x846CA68B#32
  x ^^^ (x >>> 16)

/-- R127: the sine of a 32-bit phase. -/
def sinePhase (phi : Nat) : Int :=
  let i := phi / 2 ^ 22 % 1024
  let r : Int := ((phi / 64 % 65536 : Nat) : Int)
  sineT i + (sineT (i + 1) - sineT i) * r / 2 ^ 16

/-- One biquad section with state words at keys k to k + 3 (R121). -/
def biquad (w : SMap Int) (k : Nat) (c : List Int) (x : Int) : Int × SMap Int :=
  let y := sat32 (divRne (tap c 0 * x + tap c 1 * mget 0 w k + tap c 2 * mget 0 w (k + 1) + tap c 3 * mget 0 w (k + 2)
    + tap c 4 * mget 0 w (k + 3)) (2 ^ 30))
  (y, mset 0 (mset 0 (mset 0 (mset 0 w (k + 1) (mget 0 w k)) k x) (k + 3) (mget 0 w (k + 2))) (k + 2) y)

/-- Sections in cascade, the first with state at `k`, each 4 words further. -/
def biquads (w : SMap Int) : Nat → List (List Int) → Int → Int × SMap Int
  | _, [], x => (x, w)
  | k, c :: cs, x => let (y, w) := biquad w k c x; biquads w (k + 4) cs y

/-- A silence detector at key `k`, which holds 1 + 2 × its quiet count + 1 when silent; 0 stands for the state after a clear:
silent, with the count at HOLD.  Only a pass that is not quiet ends silence (R173, R174).  Answers whether the channel is
silent. -/
def silenceStep (w : SMap Int) (k : Nat) (thresh hold x : Int) : Bool × SMap Int :=
  let v := mget 0 w k
  let n := if v = 0 then hold else (v - 1) / 2
  let was := v = 0 ∨ (v - 1) % 2 = 1
  if below thresh x then
    let n := min 65535 (n + 1)
    let sil := decide (was ∨ hold ≤ n)
    (sil, mset 0 w k (1 + 2 * n + if sil then 1 else 0))
  else (false, mset 0 w k 1)

/-! ## What a node sees in a pass -/

/-- The surroundings of one run of a node. -/
structure NodeIn where
  fs : Nat
  /-- G. -/
  g : Nat
  r : NodeRec
  /-- Parameter words as they stand, and as the handler last read them. -/
  p : Nat → Int
  h : Nat → Int
  /-- 32-bit words of the coefficients; of a ganged node those of a member tile. -/
  coef : Nat → Word
  coefOf : Nat → Nat → Word
  ins : List Int

/-- What a run gives: output words, state, words written from the start of the state area. -/
structure NodeOut where
  outs : List Int
  st : NodeSt
  mem : List (Nat × Word) := []

/-- Input i. -/
def NodeIn.x (e : NodeIn) (i : Nat) : Int := tap e.ins i

/-- Passes of a time in milliseconds, a whole number at both rates. -/
def NodeIn.ms (e : NodeIn) (t : Int) : Int := t * (e.fs / 1000 : Nat)

/-- The largest magnitude of the inputs 0 to n − 1. -/
def NodeIn.maxMag (e : NodeIn) (n : Nat) : Int := (upto n).foldl (fun m i => max m (magQ31 (e.x i))) 0

/-- Word k of the active bank of a banked block of `n` words per bank (R120). -/
def NodeIn.bank (e : NodeIn) (n k : Nat) : Int := (e.coef (2 + (if (e.coef 0).getLsbD 0 then n else 0) + k)).toInt

/-- Section k of the active bank, `n` words to the bank. -/
def NodeIn.sect (e : NodeIn) (n k : Nat) : List Int := (upto 5).map (fun j => e.bank n (5 * k + j))

/-- State with w replaced. -/
def NodeSt.put (x : NodeSt) (w : SMap Int) : NodeSt := { x with w := w }

end Sys2Proof.Machine
end

