-- ==== Sys2Proof/Machine/Design.lean ====
section
/-!
DEFINITION. The filters that control handlers design, and the words of the banked blocks they write (R120, R121, R125, R132,
R134, R138, R141, R159, R160).  A prototype is mapped by the bilinear transform with prewarping, exactly to 2^-90 or so; the
word that the library stores is free within the 4 units of the last place that R121 allows (assumption 6).
-/

namespace Sys2Proof.Machine

/-! ## Prototypes -/

/-- A normalised analogue prototype, its coefficients with 96 fraction bits: (n2 s² + n1 s + n0) / (d2 s² + d1 s + d0), or of
first order (n1 s + n0) / (d1 s + d0) (R121). -/
structure Proto where
  first : Bool := false
  n2 : Int := 0
  n1 : Int := 0
  n0 : Int := 0
  d2 : Int := 0
  d1 : Int := 0
  d0 : Int := 0
  deriving DecidableEq, Repr

/-- 1 with 96 fraction bits. -/
abbrev one96 : Int := 2 ^ 96

/-- s / (s + 1). -/
def protoHp1 : Proto := { first := true, n1 := one96, d1 := one96, d0 := one96 }
/-- 1 / (s + 1). -/
def protoLp1 : Proto := { first := true, n0 := one96, d1 := one96, d0 := one96 }
/-- (1 − s) / (1 + s). -/
def protoAp1 : Proto := { first := true, n1 := -one96, n0 := one96, d1 := one96, d0 := one96 }
/-- s² / (s² + s/q + 1), `r` being 1/q with 96 fraction bits. -/
def protoHp2 (r : Int) : Proto := { n2 := one96, d2 := one96, d1 := r, d0 := one96 }
/-- 1 / (s² + s/q + 1). -/
def protoLp2 (r : Int) : Proto := { n0 := one96, d2 := one96, d1 := r, d0 := one96 }
/-- (s² − s/q + 1) / (s² + s/q + 1). -/
def protoAp2 (r : Int) : Proto := { n2 := one96, n1 := -r, n0 := one96, d2 := one96, d1 := r, d0 := one96 }

/-- 1/q with 96 fraction bits, q being the table's number of four decimals (assumption 122). -/
def inv4 (q : Nat) : Int := 2 ^ 96 * 10000 / (q : Int)

/-- The prototype of an EQ band of TYPE 1 to 7: its gain in 1/64 dB and Q × 256 (R134). -/
def protoEq (type gain q256 : Int) : Proto :=
  let a := pow10Q96 gain 2560
  let ra := pow10Q96 gain 5120
  let q := max 1 q256.toNat
  let by_ (x : Int) : Int := x * 256 / (q : Int)
  let r := by_ one96
  if type = 1 then { n2 := one96, n1 := by_ a, n0 := one96, d2 := one96, d1 := r * one96 / a, d0 := one96 }
  else if type = 2 then { n2 := a, n1 := a * by_ ra / one96, n0 := a * a / one96, d2 := a, d1 := by_ ra, d0 := one96 }
  else if type = 3 then { n2 := a * a / one96, n1 := a * by_ ra / one96, n0 := a, d2 := one96, d1 := by_ ra, d0 := a }
  else if type = 4 then protoLp2 r
  else if type = 5 then protoHp2 r
  else if type = 6 then { n2 := one96, n0 := one96, d2 := one96, d1 := r, d0 := one96 }
  else { n1 := r, d2 := one96, d1 := r, d0 := one96 }

/-! ## Design -/

/-- Numerators of b0, b1, b2, −a1 and −a2, and their common denominator, for K with 96 fraction bits (R121). -/
def Proto.design (p : Proto) (k : Int) : List Int × Int :=
  if p.first then
    ([p.n1 * one96 + p.n0 * k, p.n0 * k - p.n1 * one96, 0, p.d1 * one96 - p.d0 * k, 0], p.d1 * one96 + p.d0 * k)
  else
    let k2 := k * k
    let o2 : Int := one96 * one96
    let k1 := k * one96
    ([p.n2 * o2 + p.n1 * k1 + p.n0 * k2, 2 * (p.n0 * k2 - p.n2 * o2), p.n2 * o2 - p.n1 * k1 + p.n0 * k2,
      2 * (p.d2 * o2 - p.d0 * k2), p.d1 * k1 - p.d2 * o2 - p.d0 * k2], p.d2 * o2 + p.d1 * k1 + p.d0 * k2)

/-- The word for a design value num/den: one within 4 units of the last place of Q2.30, whichever `free` picks; where no word
is that close, any (R121). -/
def nearWord (num den : Int) (free : Word) : Word :=
  let lo := max (-2147483648) (-((4 * den - num * 2 ^ 30) / den))
  let hi := min 2147483647 ((num * 2 ^ 30 + 4 * den) / den)
  if den ≤ 0 ∨ hi < lo then free else BitVec.ofInt 32 (lo + (free.toNat : Int) % (hi - lo + 1))

/-- The words of a section of prototype `p` at frequency `f`; `tag` names the prototype to the free choice.  The last
coefficients of a first-order section are 0 (R121). -/
def sectionWords (fs : Nat) (p : Proto) (f : Nat) (tag : List Int) : List Word :=
  let free (k : Nat) : Word := Config.biquadWord fs f tag k
  let (ns, den) := if f = 0 ∨ fs ≤ 2 * f then ([], (0 : Int)) else p.design (tanPi f fs)
  (upto 5).map (fun k => if p.first ∧ (k = 2 ∨ k = 4) then 0 else nearWord ((ns[k]?).getD 0) den (free k))

/-- The words of the unity section (R132). -/
def unityWords : List Word := [0x40000000#32, 0, 0, 0, 0]

/-! ## The blocks -/

/-- The two sections of a high-pass filter (R132); an undefined SLOPE acts as 0 (R118). -/
def hpfWords (fs : Nat) (freq slope : Int) : List Word :=
  let f := freq.toNat
  let one : List Word := sectionWords fs protoHp1 f [1]
  let two (q : Nat) : List Word := sectionWords fs (protoHp2 (inv4 q)) f [2, q]
  if slope = 1 then one ++ unityWords
  else if slope = 2 then two 7071 ++ unityWords
  else if slope = 3 then one ++ two 10000
  else if slope = 4 then two 5412 ++ two 13066
  else unityWords ++ unityWords

/-- One band of the EQ (R134); an undefined TYPE acts as 0 (R118). -/
def eqWords (fs : Nat) (type freq gain q : Int) : List Word :=
  let g := if gain = muteG then -1536 else gain
  if type ≤ 0 ∨ 7 < type then unityWords else sectionWords fs (protoEq type g q) freq.toNat [3, type, g, q]

/-- The sections of a crossover (R159, R160), in the order LP(F1) twice, HP(F1) twice, and for three bands the all-pass at
F2, LP(F2) twice, HP(F2) twice; an undefined KIND acts as 0 (R118). -/
def xoverWords (fs w : Nat) (kind f1 f2 : Int) : List Word :=
  let r := inv4 7071
  let lr2 := decide (kind = 1)
  let lp (f : Nat) : List Word := if lr2 then sectionWords fs protoLp1 f [4] else sectionWords fs (protoLp2 r) f [5]
  let hp (f : Nat) : List Word := if lr2 then sectionWords fs protoHp1 f [1] else sectionWords fs (protoHp2 r) f [2, 7071]
  let ap (f : Nat) : List Word := if lr2 then sectionWords fs protoAp1 f [6] else sectionWords fs (protoAp2 r) f [7]
  let a := f1.toNat
  let b := max f2.toNat (2 * a)
  lp a ++ lp a ++ hp a ++ hp a ++ if w = 2 then [] else ap b ++ lp b ++ lp b ++ hp b ++ hp b

/-- Words per bank of a node whose handler keeps a banked block; 0 for another (R133, R135, R138, R141, R160). -/
def bankWords (r : NodeRec) : Nat :=
  match r.type with
  | 0x02 => 10
  | 0x03 => 40
  | 0x04 | 0x05 => 4
  | 0x0F => if r.nOut = 2 * r.nIn then 20 else 45
  | _ => 0

/-- The words of a bank from the parameters a handler run has read (R120).  Which of the four words of a gate's or a
compressor's bank holds which value is the model's choice (assumption 123). -/
def blockWords (fs : Nat) (r : NodeRec) (h : Nat → Int) : List Word :=
  let alpha (t : Int) (perS : Nat) : Word := BitVec.ofInt 32 (alphaQ31 fs t.toNat perS)
  match r.type with
  | 0x02 => hpfWords fs (h 0) (h 1)
  | 0x03 => (upto 8).flatMap (fun k => eqWords fs (h (4 * k)) (h (4 * k + 1)) (h (4 * k + 2)) (h (4 * k + 3)))
  | 0x04 => [alpha (h 4) 10000, BitVec.ofInt 32 (h 5 * (fs / 1000 : Nat)), alpha (h 6) 1000, 0]
  | 0x05 => [alpha (h 3) 100000, alpha (h 4) 1000, if h 6 = 1 then 1 else 0, alpha (h 7) 1000]
  | 0x0F => xoverWords fs (if r.nOut = 2 * r.nIn then 2 else 3) (h 0) (h 1) (h 2)
  | _ => []

end Sys2Proof.Machine
end

