-- ==== Sys2Proof/Machine/NodeLib.lean ====
section
/-!
DEFINITION. The built-in nodes: one pass of each type (R129 to R174).
-/

namespace Sys2Proof.Machine

/-! ## Strip nodes -/

/-- Trim and polarity (R129, R130): bit 0 of FLAGS_c inverts, whatever its reserved bits hold (assumption 124). -/
def nodeTrim (e : NodeIn) (x : NodeSt) : NodeOut :=
  { st := x, outs := (upto e.r.nOut).map (fun c =>
      let v := e.p (2 * c)
      let y := if v = muteG then 0 else
        let p := gainParts v
        let inv : Int := if (e.p (2 * c + 1)) % 2 = 0 then 1 else -1
        shiftRne (inv * p.1 * e.x c) (p.2 - 30)
      sat32 y) }

/-- Channels through a cascade of sections, with `n` state words per channel. -/
def nodeCascade (e : NodeIn) (x : NodeSt) (cs : List (List Int)) : NodeOut :=
  let (ys, w) := (upto e.r.nOut).foldl (fun (a : List Int × SMap Int) c =>
    let (y, w) := biquads a.2 (4 * cs.length * c) cs (e.x c)
    (a.1 ++ [y], w)) ([], x.w)
  { outs := ys, st := x.put w }

/-- Moves a gain at key `k` toward num/den in 2^−16 of 1/64 dB with the factor of its direction (R125). -/
def moveGain (w : SMap Int) (k : Nat) (num : Int) (den : Nat) (up dn : Int) : SMap Int :=
  let g := mget 0 w k
  mset 0 w k (smooth (if g * den < num then up else dn) g num den)

/-- Gate/expander (R136 to R138): gain at key 0, open at 1, passes of hold left at 2; its bank holds the factor of ATTACK, the
hold in passes and the factor of RELEASE. -/
def nodeGate (e : NodeIn) (x : NodeSt) : NodeOut :=
  let l := peakLevel (e.maxMag e.r.nIn)
  let was := mget 0 x.w 1
  let open_ : Bool := decide (e.p 0 ≤ l) || (was == 1 && decide (e.p 0 - e.p 3 ≤ l))
  let hold := if open_ then 0 else if was = 1 then e.bank 4 1 else mget 0 x.w 2
  let range := e.p 2 * 65536
  let target : Int :=
    if open_ || decide (0 < hold) then 0
    else if e.p 1 = 0x7FFF then range else max range ((l - e.p 0) * (e.p 1 - 16) * 4096)
  let w := mset 0 (mset 0 x.w 1 (if open_ then 1 else 0)) 2 (if open_ then 0 else max 0 (hold - 1))
  let w := moveGain w 0 target 1 (e.bank 4 0) (e.bank 4 2)
  let g := gainOf16 (mget 0 w 0)
  { outs := (upto e.r.nOut).map (fun c => mulStore g (e.x c)), st := x.put w }

/-- The static gain of a compressor at level `l` in 2^−16 of 1/64 dB, as a fraction (R140). -/
def staticGain (l thresh ratio knee : Int) : Int × Nat :=
  let o := l - thresh
  let (kn, kd) : Int × Nat := if ratio = 0x7FFF then (-1, 1) else (16 - ratio, ratio.toNat)
  if 2 * o < -knee then (0, 1)
  else if 2 * (o.natAbs : Int) ≤ knee ∧ 0 < knee then (kn * (2 * o + knee) ^ 2 * 65536, kd * 8 * knee.toNat)
  else (kn * o * 65536, kd)

/-- Compressor/limiter (R139 to R141): gain at key 0, mean squares from key 8; its bank holds the factors of ATTACK and
RELEASE, DETECT and the factor of RMS_TIME.  The static gain is an exact fraction; ATTACK 0 stores it rounded half to even in
2^−16 of 1/64 dB (assumption 125).  The sum of g and MAKEUP goes beyond +6 dB, so that its mantissa and exponent stay apart
(R122). -/
def nodeComp (e : NodeIn) (x : NodeSt) : NodeOut :=
  let (l, w) :=
    if e.bank 4 2 = 1 then
      let a := e.bank 4 3
      let w := (upto e.r.nIn).foldl (fun w c => mset 0 w (8 + c) (smooth a (mget 0 w (8 + c)) (e.x c * e.x c) 1)) x.w
      (rmsLevel ((upto e.r.nIn).foldl (fun m c => max m (mget 0 w (8 + c))) 0).toNat, w)
    else (peakLevel (e.maxMag e.r.nIn), x.w)
  let (num, den) := staticGain l (e.p 0) (e.p 1) (e.p 2)
  let g := mget 0 w 0
  let w :=
    if num < g * den ∧ e.bank 4 0 = 0x7FFFFFFF then mset 0 w 0 (divRne num den)
    else moveGain w 0 num den (e.bank 4 1) (e.bank 4 0)
  let gv := divRne (mget 0 w 0) 65536 + e.p 5
  { outs := (upto e.r.nOut).map (fun c => gainStore gv (e.x c)), st := x.put w }

/-! ## Mixing nodes -/

/-- Sparse matrix mixer (R144, R145): the list words name input and output, the gain words follow them. -/
def nodeSparse (e : NodeIn) (x : NodeSt) : NodeOut :=
  let n := e.r.paramWords
  { st := x, outs := (upto e.r.nOut).map (fun o =>
      let sum := (upto n).foldl (fun (a : Int) p =>
        let l := e.coef p
        if bits l 15 8 = o then a + (e.coef (n + p)).toInt * e.x (bits l 7 0) else a) 0
      sat32 (divRne sum (2 ^ 30))) }

/-- Ganged matrix mixer (R146): outputs in order; output o lies in lane o mod 4 of member (o mod 32) / 4. -/
def nodeGanged (e : NodeIn) (x : NodeSt) : NodeOut :=
  let j := ceilDiv e.r.nOut 32
  { st := x, outs := (upto e.r.nOut).map (fun o =>
      let sum := (upto e.r.nIn).foldl (fun (a : Int) i =>
        a + (e.coefOf (o % 32 / 4) ((i * j + o / 32) * 4 + o % 4)).toInt * e.x i) 0
      sat32 (divRne sum (2 ^ 30))) }

/-- The target coefficient of a bus for N active inputs; none keeps the previous one (R106). -/
def busTarget (mode : Int) (n : Nat) : Option Int :=
  if mode = 1 then (if n = 0 then none else some (2 ^ 30 / 2 ^ ceilLog2 8 n))
  else if mode = 2 then (if n = 0 then none else some (divRne (2 ^ 30) n))
  else some (2 ^ 30)

/-- Bus (R105 to R107, R147, R148): the linear gains are the coefficients, a mute one is 0; detectors from key 1000, their silent bits (as 1 for not-silent) from 2000; the ramp's
start less 2^30 at 0, target less 2^30 at 1, passes still to run at 2; coefficient in use less 2^30 at 3. -/
def nodeBus (e : NodeIn) (x : NodeSt) : NodeOut :=
  let n := e.r.nIn
  let act := ((upto n).filter (fun k => e.coef k ≠ 0 ∧ mget 0 x.w (2000 + k) = 1)).length
  let start := mget 0 x.w 0 + 2 ^ 30
  let tgt := mget 0 x.w 1 + 2 ^ 30
  let left := mget 0 x.w 2
  let k := 65 - left
  let c := if left ≤ 0 then tgt else if left = 1 then tgt else start + (tgt - start) * k / 64
  let w := mset 0 x.w 2 (max 0 (left - 1))
  let tgt' := (busTarget (e.p n) act).getD tgt
  let w := if tgt' = tgt then w else mset 0 (mset 0 (mset 0 w 0 (c - 2 ^ 30)) 1 (tgt' - 2 ^ 30)) 2 64
  let sum := (upto n).foldl (fun (a : Int) k => a + (e.coef k).toInt * e.x k) 0
  let y := sat32 (divRne (c * sum * gainQ30 (e.p (n + 3))) (2 ^ 90))
  let w := (upto n).foldl (fun w k =>
    let (sil, w) := silenceStep w (1000 + k) (e.p (n + 1)) (e.p (n + 2)) (e.x k)
    mset 0 w (2000 + k) (if sil then 0 else 1)) w
  { outs := [y], st := x.put w }

/-- The smallest power sum, in 2^−62, that is not below the floor power of a sine at FLOOR (R123, R149). -/
def floorPower (floor : Int) : Int := -(-(pow10Q96 floor 640) / 2 ^ 35)

/-- The reciprocal of `v` as a program forms it with the function unit: `v` is brought into [1.0, 2.0) of Q2.30 by a shift, its low
bits dropped, and RCP answers a Q2.30 word (R244, R286).  1/v is the first part × 2^−(the second). -/
def recip (v : Int) : Int × Nat :=
  let n := v.toNat
  let k := Nat.log2 n
  let x := if k ≤ 30 then n * 2 ^ (30 - k) else n / 2 ^ (k - 30)
  ((fuResult .rcp (BitVec.ofNat 32 x) 0).1.toNat, 30 + k)

/-- 1/M as a Q2.30 word, rounded up or down (R149, assumption 6). -/
def evenShare (m : Nat) : Int := nearInt (2 ^ 30) m (Config.libUp 0x0A 1 [m])

/-- The share P × (1/Σ) as a Q2.30 word, from the one reciprocal of the pass; no further from P/Σ than the two words next to it,
so that M shares sum to 1.0 within M units (R149, R150, assumption 6). -/
def shareWord (p sum : Int) (r : Int × Nat) : Int :=
  let x := nearInt (p * r.1 * 2 ^ 30) (2 ^ r.2) (Config.libUp 0x0A 0 [p, sum])
  clampI (nearInt (p * 2 ^ 30) sum false) (nearInt (p * 2 ^ 30) sum true) x

/-- A mean square of the auto-mixer as the unsigned 64-bit word that holds it; one that goes beyond the word is a free value
(R125, R149, assumption 126). -/
def wideSquare (x : Int) (from_ : List Int) : Int := if x < 2 ^ 64 then x else (Config.libWide 0x0A from_).toNat

/-- Auto-mixer (R149, R150): mean squares from key 0, in 2^−62, shares less 1/M from key 1000. -/
def nodeAuto (e : NodeIn) (x : NodeSt) : NodeOut :=
  let m := e.r.nIn
  let a := alphaQ31 e.fs (e.h m).toNat 1000
  let w := (upto m).foldl (fun w i =>
    let v := e.h i
    let (num, den) : Int × Nat :=
      if v = muteG then (0, 1) else
        let p := gainParts v
        if 0 ≤ p.2 then (p.1 * 2 ^ p.2.toNat * e.x i * e.x i, 2 ^ 30) else (p.1 * e.x i * e.x i, 2 ^ (30 + (-p.2).toNat))
    mset 0 w i (wideSquare (smooth a (mget 0 w i) num den) [a, mget 0 w i, num, den])) x.w
  let sum := (upto m).foldl (fun (a : Int) i => a + mget 0 w i) 0
  let even : Int := evenShare m
  let r := recip sum
  let w :=
    if floorPower (e.h (m + 1)) ≤ sum then
      (upto m).foldl (fun w i => mset 0 w (1000 + i) (shareWord (mget 0 w i) sum r - even)) w
    else if e.p (m + 2) = 1 then w
    else (upto m).foldl (fun w i => mset 0 w (1000 + i) 0) w
  let sh (i : Nat) : Int := mget 0 w (1000 + i) + even
  let total := (upto m).foldl (fun (a : Int) i => a + sh i * e.x i) 0
  { outs := (upto m).map (fun i => mulStore (sh i) (e.x i)) ++ [sat32 (divRne total (2 ^ 30))], st := x.put w }

/-! ## Zone nodes -/

/-- Trump ducker (R151, R152): gains from key 0, detectors from 1000, activity bits from 2000, hold of the release from
3000: 0 not in a run of 0 dB after ducking, else 1 + passes still held; 4000: ducked in the pass before.  The gain of a
mute DUCK stands at −6,144 when the held word of 2^−16 does, not when it rounds there (assumption 127). -/
def nodeDucker (e : NodeIn) (x : NodeSt) : NodeOut :=
  let n := e.r.nIn
  let a := (upto n).foldl (fun (b : Int) k => if mget 0 x.w (2000 + k) = 1 then max b (e.p (3 * k)) else b) (-1)
  let up := alphaQ31 e.fs (e.h (3 * n + 4)).toNat 1000
  let dn := alphaQ31 e.fs (e.h (3 * n + 3)).toNat 10000
  let (w, sum) := (upto n).foldl (fun (acc : SMap Int × Int) k =>
    let (w, sum) := acc
    let duck := decide (e.p (3 * k) < a) && decide (e.p (3 * k) < 7)
    let d := e.p (3 * k + 1)
    let mute := duck && d == muteG
    let target : Int := if !duck then 0 else if d = muteG then -6144 * 65536 else d * 65536
    let hold : Int := if duck then 0 else if mget 0 w (4000 + k) = 1 then e.ms (e.h (3 * n + 5)) else mget 0 w (3000 + k)
    let w := mset 0 w (4000 + k) (if duck then 1 else 0)
    let w := mset 0 w (3000 + k) (max 0 (hold - 1))
    let w := if !duck && decide (0 < hold) then w
      else moveGain w k target 1 up dn
    let g := if mute && mget 0 w k == -6144 * 65536 then 0 else gainOf16 (mget 0 w k)
    (w, sum + g * e.x k)) (x.w, 0)
  let force := e.p (3 * n)
  let w := (upto n).foldl (fun w k =>
    let (sil, w) := silenceStep w (1000 + k) (e.p (3 * n + 1)) (e.p (3 * n + 2)) (e.x k)
    mset 0 w (2000 + k) (if !sil || (BitVec.ofInt 16 force).getLsbD k then 1 else 0)) w
  { outs := [sat32 (divRne sum (2 ^ 30))], st := x.put w, mem := [(0, if a < 0 then 0xFF else BitVec.ofInt 32 a)] }

/-- The target gain of the zone gain in 2^−16 of 1/64 dB (R153). -/
def zoneTarget (e : NodeIn) (n : Int) : Int :=
  clampI (e.h 2 * 65536) (e.h 3 * 65536) (e.h 1 * (n - e.h 0) * 256)

/-- The state of a zone gain once it has run after a clear: N is LEARNED, word 0 of its coefficients (assumption 123), and g
its target (R154).  Keys: N at 0, sum of gap passes at 2, their count at 3, g in 2^−16 of 1/64 dB at 4, the lowest N of the
hour at 5, handler runs of the hour at 6, 1 at 7. -/
def zoneOpen (e : NodeIn) (w : SMap Int) : SMap Int :=
  if mget 0 w 7 = 1 then w
  else
    let l := low16 (e.coef 0)
    msetAll 0 w [(0, l), (4, zoneTarget e l), (5, l), (7, 1)]

/-- Noise-adaptive zone gain (R153, R154), one pass; the sum's mean is rounded half to even to 2^−62 (assumption 128), and the
gain's mantissa and exponent stay apart (R122). -/
def nodeZone (e : NodeIn) (x : NodeSt) : NodeOut :=
  let c := e.r.nOut
  let s := e.r.nIn - c
  let w := zoneOpen e x.w
  let w := if below (e.h 6) (e.maxMag c) then
      let q := (upto s).foldl (fun (a : Int) i => a + e.x (c + i) * e.x (c + i)) 0
      let sum := mget 0 w 2 + q
      let n := mget 0 w 3 + 1
      if e.ms (e.h 7) ≤ n then mset 0 (mset 0 (mset 0 w 2 0) 3 0) 0 (rmsLevel (divRne sum (s * n.toNat)).toNat)
      else mset 0 (mset 0 w 2 sum) 3 n
    else w
  let g := divRne (mget 0 w 4) 65536
  { outs := (upto c).map (fun i => gainStore g (e.x i)), st := x.put w }

/-- The zone gain's handler, every 64 passes (R153, R154): g moves toward its target by steps rounded half to even to 2^−16 of
1/64 dB (assumption 128); the lowest N of the hour is kept. -/
def zoneHandler (e : NodeIn) (x : NodeSt) : NodeSt :=
  let w := zoneOpen e x.w
  let n := mget 0 w 0
  let g := mget 0 w 4
  let t := zoneTarget e n
  let up := divRne (e.h 4 * 64 * 65536) e.fs
  let dn := divRne (e.h 5 * 64 * 65536) e.fs
  let g' := if g < t then min t (g + up) else max t (g - dn)
  x.put (msetAll 0 w [(4, g'), (5, min (mget 0 w 5) n), (6, mget 0 w 6 + 1)])

/-- An hour of passes is over: as many handler runs as it holds (R154). -/
def hourOver (fs : Nat) (x : NodeSt) : Bool := decide ((3600 * fs / 64 : Nat) ≤ mget 0 x.w 6)

/-! ## Filters -/

/-- 2^(−1/480) with 128 fraction bits. -/
def rootHalf480 : Int := 339791334538830297317520613318555140964

/-- Echo canceller (R155 to R157): the step of a weight, in Q2.30, is μ × e × x × (1/(E + δ)) with the function unit's one
reciprocal of the pass, the decayed envelope the exact value, each rounded up or down (assumption 6); weights from key 1000, E at 0, R_env at 1, passes of double talk left at 2, RESET seen
at 3; the reference history in line 0, newest first. -/
def nodeAec (e : NodeIn) (x : NodeSt) : NodeOut :=
  let l := (e.r.stateBytes - 64) / 8
  let d := e.x 0
  let r := e.x 1
  let hist := mget [] x.line 0
  let newHist := push (l + 1) hist r
  let w := x.w
  let reset := e.p 5 ≠ mget 0 w 3 - 40000
  let first := mget 0 w 3 = 0
  let w := mset 0 w 3 (e.p 5 + 40000)
  let w := if reset ∧ !first then (upto l).foldl (fun w k => mset 0 w (1000 + k) 0) w else w
  let en := mget 0 w 0 + r * r - tap newHist l * tap newHist l
  let w := mset 0 w 0 en
  let env := max (magQ31 r) (nearInt (mget 0 w 1 * rootHalf480) (2 ^ 128) (Config.libUp 0x0D 1 [mget 0 w 1]))
  let w := mset 0 w 1 env
  let talk := decide (e.p 2 * env ≤ magQ31 d * 256)
  let held : Int := if talk then e.ms (e.h 3) + 1 else mget 0 w 2
  let w := mset 0 w 2 (max 0 (held - 1))
  let sum := (upto l).foldl (fun (a : Int) k => a + mget 0 w (1000 + k) * tap newHist k) 0
  let err := sat32 (divRne (d * 2 ^ 30 - sum) (2 ^ 30))
  let adapt := e.p 1 ≠ 1 ∧ (l : Int) * 2 ^ 42 ≤ en ∧ held ≤ 0 ∧ (!reset ∨ first) ∧ e.p 0 ≠ 0
  let rc := recip (en + l * 2 ^ 38)
  let w := if adapt then
      (upto l).foldl (fun w k =>
        let num := e.p 0 * err * tap newHist k * 2 ^ 15
        let dw := nearInt (num * rc.1) (2 ^ rc.2) (Config.libUp 0x0D 0 [num, en + l * 2 ^ 38])
        mset 0 w (1000 + k) (clampI (-(2 ^ 28 - 1)) (2 ^ 28 - 1) (mget 0 w (1000 + k) + dw))) w
    else w
  let loud := match threshWord (-3840) with | some t => decide ((t : Int) < env) | none => false
  let y := if loud && decide (held ≤ 0) then mulStore (gainQ30 (e.p 4)) err else err
  { outs := [y], st := { x with w := w, line := mset [] x.line 0 newHist } }

/-- FIR filter (R158): h_0 first in the coefficients; history in line 0. -/
def nodeFir (e : NodeIn) (x : NodeSt) : NodeOut :=
  let n := e.r.coefBytes / 4
  let l := push n (mget [] x.line 0) (e.x 0)
  let sum := (upto n).foldl (fun (a : Int) k => a + (e.coef k).toInt * tap l k) 0
  { outs := [sat32 (divRne sum (2 ^ 30))], st := { x with line := mset [] x.line 0 l } }

/-- Crossover (R159, R160): sections of the active bank 0, 1 LP(F1); 2, 3 HP(F1); 4 all-pass at F2; 5, 6 LP(F2); 7, 8
HP(F2).  The high band is negated for LR2, KIND 1 as the handler run that wrote the bank read it. -/
def nodeXover (e : NodeIn) (x : NodeSt) : NodeOut :=
  let two := decide (e.r.nOut = 2 * e.r.nIn)
  let co (k : Nat) : List Int := e.sect (if two then 20 else 45) k
  let neg (y : Int) : Int := if e.h 0 = 1 then sat32 (-y) else y
  let (ys, w) := (upto e.r.nIn).foldl (fun (a : List Int × SMap Int) c =>
    let b := 36 * c
    let (lo, w) := biquads a.2 b [co 0, co 1] (e.x c)
    let (hi, w) := biquads w (b + 8) [co 2, co 3] (e.x c)
    if two then (a.1 ++ [lo, neg hi], w)
    else
      let (lo, w) := biquads w (b + 16) [co 4] lo
      let (mid, w) := biquads w (b + 20) [co 5, co 6] hi
      let (hi, w) := biquads w (b + 28) [co 7, co 8] hi
      (a.1 ++ [lo, mid, neg hi], w)) ([], x.w)
  { outs := ys, st := x.put w }

/-! ## Sources -/

/-- RATIO_p × 100 and PLEVEL_p of a timbre (R161). -/
def timbre (t : Int) : List (Int × Int) :=
  if t = 1 then [(100, 0), (200, -768), (300, -1152), (420, -1536)]
  else if t = 2 then [(100, 0), (276, -384), (540, -640), (893, -896)] else [(100, 0)]

/-- Chime and tone generator (R161, R162): 1 + pass of the sequence at key 0 (0: none), TRIGGER seen at 1 (plus 40,000),
tone level 0 to 480 at 2; phases from 100 + 8 j + p, which advance in every pass.  The level of a decaying partial is rounded
half to even to 1/64 dB, the partials are summed exactly and stored once (assumption 129). -/
def nodeChime (e : NodeIn) (x : NodeSt) : NodeOut :=
  let trig := mget 0 x.w 1 ≠ 0 ∧ e.p 0 ≠ mget 0 x.w 1 - 40000
  let w := mset 0 x.w 1 (e.p 0 + 40000)
  let w := if trig then mset 0 w 0 1 else w
  let t := mget 0 w 0 - 1
  let tone := e.p 3 = 1
  let up : Int := if tone ∧ e.p 4 = 1 then min 480 (mget 0 w 2 + 1) else max 0 (mget 0 w 2 - 1)
  let w := mset 0 w 2 (if tone then up else 0)
  let (sum, w) := (upto 8).foldl (fun (a : Int × SMap Int) j =>
    (timbre (e.h 2)).zipIdx.foldl (fun (a : Int × SMap Int) q =>
      let (sum, w) := a
      let ((ratio, pl), p) := q
      let f100 := ratio * e.h (8 + 4 * j)
      let key := 100 + 8 * j + p
      let ph := (mget 0 w key).toNat
      let w := mset 0 w key ((ph + divRne (f100 * 2 ^ 32) (100 * e.fs)) % 2 ^ 32)
      let since := t - divRne (e.h (10 + 4 * j) * e.fs) 1000
      let decay := e.ms (e.h (11 + 4 * j))
      let level := e.h (9 + 4 * j) + pl
      if f100 * 100 ≥ 45 * e.fs * 100 ∨ e.h 1 ≤ j then (sum, w)
      else if tone then (if j = 0 then sum + divRne (gainQ30 level * up) 480 * sinePhase ph else sum, w)
      else if t < 0 ∨ since < 0 ∨ decay ≤ since then (sum, w)
      else (sum + gainOf16 (level * 65536 - divRne (3840 * 65536 * since) decay.toNat) * sinePhase ph, w)) a) (0, w)
  let w := if 0 < mget 0 w 0 then mset 0 w 0 (mget 0 w 0 + 1) else w
  let y := sat32 (divRne sum (2 ^ 30))
  { outs := List.replicate e.r.nOut y, st := x.put w }

/-- √1.5 and √24/16 as Q2.30 words, rounded half to even (R169). -/
def rootWord (num den : Nat) : Int := ((isqrt 40 (num * 2 ^ 62 / den) + 1) / 2 : Nat)

/-- Test generator (R169, R170). -/
def nodeTest (e : NodeIn) (x : NodeSt) : NodeOut :=
  let a := gainQ30 (e.p 1)
  let seed (ch : Nat) : Word := BitVec.ofNat 32 ((e.p 3) % 65536).toNat ||| BitVec.ofNat 32 (ch * 65536)
  let g : Word := BitVec.ofNat 32 e.g
  let k24 := divRne (a * rootWord 24 256) (2 ^ 30)
  let k15 := divRne (a * rootWord 3 2) (2 ^ 30)
  { st := x, outs := (upto e.r.nOut).map (fun ch =>
      let sum : Int :=
        if e.p 0 = 1 then
          let inc := (divRne (e.p 2 * 2 ^ 32) e.fs).toNat
          a * sinePhase (e.g * inc % 2 ^ 32)
        else if e.p 0 = 2 then k15 * (noise g (seed ch)).toInt
        else if e.p 0 = 3 then
          (upto 16).foldl (fun (s : Int) k => s + k24 * (noise (g >>> k) (seed ch ||| BitVec.ofNat 32 (k * 2 ^ 24))).toInt) 0
        else if e.p 0 = 4 then (if e.p 4 ≠ 0 ∧ (e.g : Int) % e.p 4 = 0 then a * 0x7FFFFFFF else 0)
        else 0
      sat32 (divRne sum (2 ^ 30))) }

/-! ## Detectors -/

/-- Meter, one pass (R171): the peak falls per pass by DECAY × 65,536 / fs rounded half to even (assumption 130); per channel from key 8 c: peak level less −9,216 in 2^−16, hold left, mean square, peak held
less −9,216, clips. -/
def nodeMeter (e : NodeIn) (x : NodeSt) : NodeOut :=
  let a := alphaQ31 e.fs (e.h 0).toNat 1000
  let w := (upto e.r.nIn).foldl (fun w c =>
    let k := 8 * c
    let l := peakLevel (e.x c)
    let cur := mget 0 w k - 9216 * 65536
    let w := if cur ≤ l * 65536 then mset 0 (mset 0 w k ((l + 9216) * 65536)) (k + 1) (e.ms (e.h 2))
      else if 0 < mget 0 w (k + 1) then mset 0 w (k + 1) (mget 0 w (k + 1) - 1)
      else mset 0 w k (max 0 (mget 0 w k - divRne (e.h 1 * 65536) e.fs))
    let w := mset 0 w (k + 2) (smooth a (mget 0 w (k + 2)) (e.x c * e.x c) 1)
    let w := mset 0 w (k + 3) (max (mget 0 w (k + 3)) (l + 9216))
    if 2 ^ 31 - 2 ^ 23 ≤ magQ31 (e.x c) then mset 0 w (k + 4) (min 0xFFFFFFFF (mget 0 w (k + 4) + 1)) else w) x.w
  { outs := [], st := x.put w }

/-- The meter's handler (R171, R172): a record per channel; a PEAK_HOLD word that has been written, marked at key 8 c + 5,
resets that word and CLIPS. -/
def meterHandler (e : NodeIn) (x : NodeSt) : NodeSt × List (Nat × Word) :=
  (upto e.r.nIn).foldl (fun (a : NodeSt × List (Nat × Word)) c =>
    let (x, ms) := a
    let k := 8 * c
    let w := if mget 0 x.w (k + 5) ≠ 0 then msetAll 0 x.w [(k + 3, 0), (k + 4, 0), (k + 5, 0)] else x.w
    let peak := divRne (mget 0 w k) 65536 - 9216
    let rms := rmsLevel (mget 0 w (k + 2)).toNat
    let held := mget 0 w (k + 3) - 9216
    let w0 : Word := BitVec.ofNat 32 ((BitVec.ofInt 16 peak).toNat + (BitVec.ofInt 16 rms).toNat * 65536)
    (x.put w, ms ++ [(16 * c, w0), (16 * c + 4, BitVec.ofInt 32 held), (16 * c + 8, BitVec.ofInt 32 (mget 0 w (k + 4)))]))
    (x, [])

/-- Silence detector (R173, R174). -/
def nodeSilence (e : NodeIn) (x : NodeSt) : NodeOut :=
  let (w, sil) := (upto e.r.nIn).foldl (fun (a : SMap Int × List Nat) c =>
    let (s, w) := silenceStep a.1 c (e.p 0) (e.p 1) (e.x c)
    (w, if s then a.2 ++ [c] else a.2)) (x.w, [])
  let word (k : Nat) : Word := BitVec.ofNat 32 (sil.foldl (fun n c => if c / 32 = k then n + 2 ^ (c % 32) else n) 0)
  { outs := [], st := x.put w, mem := (upto (ceilDiv e.r.nIn 32)).map (fun k => (4 * k, word k)) }

/-! ## Dispatch over types -/

/-- One pass of a node of a type that needs no Millpond (R114). -/
def nodeRun (e : NodeIn) (x : NodeSt) : NodeOut :=
  match e.r.type with
  | 0x01 => nodeTrim e x
  | 0x02 => nodeCascade e x ((upto 2).map (e.sect 10))
  | 0x03 => nodeCascade e x ((upto 8).map (e.sect 40))
  | 0x04 => nodeGate e x
  | 0x05 => nodeComp e x
  | 0x07 => nodeSparse e x
  | 0x08 => nodeGanged e x
  | 0x09 => nodeBus e x
  | 0x0A => nodeAuto e x
  | 0x0B => nodeDucker e x
  | 0x0C => nodeZone e x
  | 0x0D => nodeAec e x
  | 0x0E => nodeFir e x
  | 0x0F => nodeXover e x
  | 0x10 => nodeChime e x
  | 0x13 => nodeTest e x
  | 0x14 => nodeMeter e x
  | 0x15 => nodeSilence e x
  | _ => { outs := [], st := x }

end Sys2Proof.Machine
end

