-- ==== Sys2Proof/Machine/NodeExec.lean ====
section
/-!
DEFINITION. Nodes in their tiles: clips and recordings, control handlers, library calls of a pass (R94, R108, R119, R120,
R144, R163 to R168, R186).
-/

namespace Sys2Proof.Machine

/-- The sample program that runs holds library calls only (assumption 8). -/
def State.isLib (s : State) (n : Nat) : Bool :=
  match (s.tile n).onBack, mget none s.scn.backs n with
  | true, some p => p.lib
  | _, _ => (s.prog n).lib

/-- The state of a node instance. -/
def State.nodeSt (s : State) (i : Nat) : NodeSt := mget {} s.nodes i
/-- The state with a node instance's state replaced. -/
def State.setNodeSt (s : State) (i : Nat) (x : NodeSt) : State := { s with nodes := mset {} s.nodes i x }

/-- The tile a node runs on; a ganged node's is tile 0 of its cluster. -/
def nodeTile (r : NodeRec) : Nat := 8 * r.cluster + r.tile.getD 0

/-- A ganged matrix mixer of the library. -/
def isGanged (r : NodeRec) : Bool := r.type == 0x08 && !r.custom

/-- The handler of node `r` runs on tile n: of a ganged mixer, on every member over its own slice (R146). -/
def handlerOn (r : NodeRec) (n : Nat) : Bool := if isGanged r then n / 8 == r.cluster else nodeTile r == n

/-- What node `r` sees in this pass with the given inputs. -/
def State.nodeIn (s : State) (r : NodeRec) (x : NodeSt) (ins : List Int) : NodeIn :=
  { fs := s.fs, g := s.grid.tick % 2 ^ 32, r := r, ins := ins,
    p := fun k => let c := s.codeOf r k; c.value (s.param r k),
    h := fun k => let c := s.codeOf r k; c.value ((x.h[k]?).getD 0),
    coef := fun k => s.rd32 (tileBase (nodeTile r) + r.coefAddr + 4 * k),
    coefOf := fun t k => s.rd32 (tileBase (8 * r.cluster + t) + r.coefAddr + 4 * k) }

/-! ## Clips and recordings -/

/-- The directory entry of a clip or recording. -/
def State.clip (s : State) (i : Int) : Option ClipRec :=
  match s.image with
  | some im => im.clips.find? (fun c => (c.index : Int) == i)
  | none => none

/-- Field of a clip's header: `n` bytes at offset `o` (R163). -/
def State.clipFld (s : State) (a o n : Nat) : Nat := leNat (s.rdBytes (a + o) n)

/-- Channel ch of frame f of the clip at `a`, read with error checking (R163, R527). -/
def State.clipSample (s : State) (a f ch : Nat) : Word × State :=
  let b := s.clipFld a 0 1
  let o := a + 32 + (f * s.clipFld a 1 1 + ch) * b
  if b = 4 then s.readWord o else s.readWord3 o

/-- One pass of a clip player (R164, R165): playing at key 0, next frame at 1, fade passes left at 2.  The 64 samples of a
STOP fade carry 63/64 down to 0/64 of the scaled sample, rounded a second time; a CLIP change while it plays goes on at the
same frame of the new clip (assumption 131).  With LOOP 0 the last frame ends the playing. -/
def State.clipRun (s : State) (r : NodeRec) (x : NodeSt) : List Int × NodeSt × State :=
  let e := s.nodeIn r x []
  let zero := List.replicate r.nOut (0 : Int)
  match s.clip (e.h 0) with
  | none => (zero, x, s)
  | some c =>
    let frames := s.clipFld c.addr 4 4
    let bad := frames = 0 ∨ s.clipFld c.addr 2 1 ≠ (if s.rate96 then 1 else 0)
    let f := (mget 0 x.w 1).toNat
    if mget 0 x.w 0 = 0 then (zero, x, s)
    else if bad ∨ frames ≤ f then (zero, x.put (mset 0 (mset 0 x.w 2 0) 0 0), s)
    else
      let (ys, s) := (upto r.nOut).foldl (fun (a : List Int × State) ch =>
        if s.clipFld c.addr 1 1 ≤ ch then (a.1 ++ [0], a.2)
        else let (w, s) := a.2.clipSample c.addr f ch; (a.1 ++ [w.toInt], s)) ([], s)
      let fade := mget 0 x.w 2
      let g := gainQ30 (e.p 4)
      let ys := ys.map (fun y => let v := mulStore g y; if fade = 0 then v else divRne (v * (fade - 1)) 64)
      let ls := s.clipFld c.addr 8 4
      let le := s.clipFld c.addr 12 4
      let le' := if ls = 0 ∧ le = 0 then frames else le
      let loops := e.h 3 = 1 ∧ f + 1 = le'
      let done := fade = 1 ∨ (!decide loops && decide (frames ≤ f + 1))
      let w := mset 0 x.w 1 (if loops then ls else f + 1)
      let w := if done then mset 0 (mset 0 w 2 0) 0 0 else if 0 < fade then mset 0 w 2 (fade - 1) else w
      (ys, x.put w, s)

/-- A recorded word (R168). -/
def recWord (e : NodeIn) (fmt ch : Nat) (v : Int) : Word :=
  if fmt = 4 then BitVec.ofInt 32 v
  else
    let g : Word := BitVec.ofNat 32 e.g
    let b : Word := BitVec.ofNat 32 ((e.p 5) % 65536).toNat ||| BitVec.ofNat 32 (ch * 65536)
    let t : Int := if e.p 4 = 1 then ((noise g b).toNat / 2 ^ 24 + (noise g (b ||| 0x80000000#32)).toNat / 2 ^ 24 : Nat) - 255 else 0
    BitVec.ofInt 32 (clampI (-8388608) 8388607 (divRne (v + t) 256) * 256)

/-- One pass of a clip recorder: the input frame joins the block (R166, R167); recording at key 0, the recording that
ARM named at key 6. -/
def State.recRun (s : State) (r : NodeRec) (x : NodeSt) (ins : List Int) : NodeSt :=
  let e := s.nodeIn r x ins
  match s.clip (mget 0 x.w 6) with
  | none => x
  | some c =>
    if mget 0 x.w 0 = 0 then x
    else
      let fmt := s.clipFld c.addr 0 1
      let fr := (upto (s.clipFld c.addr 1 1)).map (fun ch => (recWord e fmt ch (e.x ch)).toInt)
      { x with line := mset [] x.line 0 (mget [] x.line 0 ++ fr) }

/-- Writes a recording's block of frames, then FRAMES and WRITE_FRAME (R167); `part` also writes a part-block. -/
def State.recFlush (s : State) (r : NodeRec) (x : NodeSt) (part : Bool) : NodeSt × State :=
  let e := s.nodeIn r x []
  match s.clip (mget 0 x.w 6) with
  | none => (x, s)
  | some c =>
    let a := c.addr
    let fmt := s.clipFld a 0 1
    let ch := max 1 (s.clipFld a 1 1)
    let cap := s.clipFld a 16 4
    let buf := mget [] x.line 0
    let n := buf.length / ch
    let n := if part then n else n / 32 * 32
    let wf := s.clipFld a 20 4
    let n := if e.h 3 = 1 then n else min n (cap - wf)
    if cap = 0 then ({ x with line := [], w := mset 0 x.w 0 0 }, s)
    else
      let s' := (upto n).foldl (fun s i => (upto ch).foldl (fun s k =>
        let w := BitVec.ofInt 32 (tap buf (i * ch + k))
        let o := a + 32 + (((wf + i) % cap) * ch + k) * fmt
        if fmt = 4 then s.wr32 o w else s.wrBytes o (leBytes 3 (w.toNat / 256))) s) s
      let wrapped := cap ≤ wf + n ∧ e.h 3 = 1
      let full := cap ≤ wf + n ∧ e.h 3 ≠ 1
      let old := s.clipFld a 3 1
      let s' := s'.wrBytes (a + 4) (leBytes 4 (if wrapped ∨ old % 2 = 1 then cap else wf + n))
      let s' := s'.wrBytes (a + 20) (leBytes 4 (if wrapped then (wf + n) % cap else wf + n))
      let s' := if wrapped then s'.wrBytes (a + 3) [BitVec.ofNat 8 (old / 2 * 2 + 1)] else s'
      let w := if full ∨ part then mset 0 x.w 0 0 else x.w
      ({ x with line := if full ∨ part then [] else mset [] x.line 0 (buf.drop (n * ch)), w := w }, s')

/-! ## Control handlers -/

/-- A trigger word at key `k` has changed since it was last read; a clear stores it as read (R162). -/
def seenNew (w : SMap Int) (k : Nat) (v : Int) : Bool := mget 0 w k != 0 && mget 0 w k != v + 40000
/-- The trigger word as read. -/
def seen (w : SMap Int) (k : Nat) (v : Int) : SMap Int := mset 0 w k (v + 40000)

/-- Unity sections of a banked block, by the parameters of the handler run that wrote it (R133, R135). -/
def unitySecs (type : Nat) (h : Nat → Int) : List Nat :=
  if type = 0x02 then
    (if h 1 ≤ 0 ∨ 4 < h 1 then [0] else []) ++ (if h 1 = 3 ∨ h 1 = 4 then [] else [1])
  else if type = 0x03 then (upto 8).filter (fun k => h (4 * k) ≤ 0 ∨ 7 < h (4 * k)) else []

/-- A meter's handler has run: the monitors of its levels take a sample of its record (R171, R644). -/
def State.meterSample (s : State) (r : NodeRec) : State :=
  let b := tileBase (nodeTile r) + r.stateAddr
  s.tly.mons.foldl (fun (s : State) e =>
    let c := s.reg (aTlyMonCfg e.1)
    if bits c 29 24 = 9 ∧ bits c 12 0 = r.inst then
      let w := s.rd32 (b + 16 * bits c 21 16)
      s.monSample e.1 (if c.getLsbD 23 then sbits w 31 16 else sbits w 15 0)
    else s) s

/-- Clears the state of the sections that come into use (R133, R135). -/
def clearNewSecs (r : NodeRec) (secs : Nat) (old new : List Nat) (w : SMap Int) : SMap Int :=
  (old.filter (fun k => !new.contains k)).foldl (fun w k =>
    (upto r.nIn).foldl (fun w c => (upto 4).foldl (fun w j => mset 0 w (4 * secs * c + 4 * k + j) 0) w) w) w

/-- A recorder that is armed starts a recording in clip `i`, when that is one with room (R167). -/
def State.recArm (s : State) (r : NodeRec) (y : NodeSt) (arm : Bool) (i : Int) : State :=
  match arm, s.clip i with
  | true, some c =>
    if s.clipFld c.addr 16 4 = 0 ∨ c.recording = false then s.setNodeSt r.inst y
    else
      let s := s.wrBytes (c.addr + 3) [BitVec.ofNat 8 (s.clipFld c.addr 3 1 / 2 * 2)]
      let s := s.wrBytes (c.addr + 20) (leBytes 4 0)
      let s := s.wrBytes (c.addr + 24) (leBytes 4 s.grid.tick)
      s.setNodeSt r.inst { y with w := mset 0 (mset 0 y.w 0 1) 6 i, line := [] }
  | _, _ => s.setNodeSt r.inst y

/-- Word k of a node's coefficients, in the tile of number n. -/
def coefAddrOn (r : NodeRec) (n k : Nat) : Nat := tileBase n + r.coefAddr + 4 * k

/-- In the pass that COMMIT names, the inactive bank becomes active (R120); answers whether it did. -/
def State.bankTurn (s : State) (r : NodeRec) : State × Bool :=
  let n := nodeTile r
  if s.rd32 (coefAddrOn r n 1) = BitVec.ofNat 32 s.grid.tick then
    (s.wr32 (coefAddrOn r n 0) (s.rd32 (coefAddrOn r n 0) ^^^ 1), true)
  else (s, false)

/-- What a type does besides when the values `l` of its handler run take effect. -/
def State.typeEffect (s : State) (r : NodeRec) (y : NodeSt) (val : Nat → Int) : State :=
  match r.type with
  | 0x0C => s.setNodeSt r.inst (zoneHandler (s.nodeIn r y []) y)
  | 0x11 =>
    let w := y.w
    let play := seenNew w 4 (val 1)
    let stop := seenNew w 5 (val 2)
    let w := seen (seen w 4 (val 1)) 5 (val 2)
    let w := if stop ∧ mget 0 w 0 ≠ 0 ∧ mget 0 w 2 = 0 then mset 0 w 2 64 else w
    let w := if play then mset 0 (mset 0 (mset 0 w 0 1) 1 0) 2 0 else w
    s.setNodeSt r.inst (y.put w)
  | 0x12 =>
    let stop := seenNew y.w 5 (val 2)
    let arm := seenNew y.w 4 (val 1)
    let (y, s) := if mget 0 y.w 0 = 1 then s.recFlush r y stop else (y, s)
    s.recArm r (y.put (seen (seen y.w 4 (val 1)) 5 (val 2))) arm (val 0)
  | 0x14 =>
    let b := tileBase (nodeTile r) + r.stateAddr
    let (y, ms) := meterHandler (s.nodeIn r y []) y
    (ms.foldl (fun s m => s.wr32 (b + m.1) m.2) (s.setNodeSt r.inst y)).meterSample r
  | _ => s.setNodeSt r.inst y

/-- What a handler run in the pass before has prepared takes effect (R119, R120, R144): the gains it has converted reach the
coefficients, the bank it has written becomes active, the values it has read apply. -/
def State.handlerEffect (s : State) (r : NodeRec) : State :=
  let x := s.nodeSt r.inst
  let s := if x.gains = [] then s
    else (x.gains.foldl (fun (s : State) g => s.wr32 g.1 g.2) s).setNodeSt r.inst { x with gains := [] }
  match x.hNext with
  | none => s
  | some l =>
    let val (l : List Word) (k : Nat) : Int := let c := s.codeOf r k; c.value ((l[k]?).getD 0)
    let x := { x with gains := [], hNext := none }
    if bankWords r = 0 then s.typeEffect r { x with h := l } (val l)
    else
      let (s, turned) := s.bankTurn r
      if !turned then s.setNodeSt r.inst x
      else
        let secs := if r.type = 0x02 then 2 else 8
        let w := if r.type = 0x02 ∨ r.type = 0x03 then clearNewSecs r secs (unitySecs r.type (val x.h)) (unitySecs r.type (val l)) x.w
          else x.w
        s.setNodeSt r.inst { x with h := l, w := w }

/-- The gains of the slice that a crosspoint handler on tile n converts, as parameter and coefficient word numbers (R144 to
R146, R148). -/
def gainSlice (r : NodeRec) (n : Nat) : List (Nat × Nat) :=
  let p (k : Nat) : Nat := tileBase n + r.paramAddr + 4 * k
  match r.type with
  | 0x07 => (upto r.paramWords).map (fun k => (p k, coefAddrOn r n (r.paramWords + k)))
  | 0x08 => (upto (r.nIn * ceilDiv r.nOut 32 * 4)).map (fun k => (p k, coefAddrOn r n k))
  | 0x09 => (upto r.nIn).map (fun k => (p k, coefAddrOn r n k))
  | _ => []

/-- A run of node r's handler on tile n reads the parameter words (R119): a crosspoint handler converts 64 gains of its slice
(R144), the handler of a banked block writes the inactive bank and COMMIT (R120), another keeps the values. -/
def State.handlerRead (s : State) (n : Nat) (r : NodeRec) : State :=
  let x := s.nodeSt r.inst
  let cur := (upto r.paramWords).map (fun k => s.param r k)
  if r.type = 0x07 ∨ r.type = 0x08 ∨ r.type = 0x09 then
    let l := gainSlice r n
    let j := mget 0 x.runs n
    let now := (l.drop (64 * (j % max 1 (ceilDiv l.length 64)))).take 64
    s.setNodeSt r.inst { x with
      runs := mset 0 x.runs n (j + 1),
      gains := x.gains ++ now.map (fun e => (e.2, BitVec.ofInt 32 (gainQ30 (low16 (s.rd32 e.1))))) }
  else
    let s := s.setNodeSt r.inst { x with hNext := some cur }
    let b := bankWords r
    if b = 0 then s
    else
      let val (k : Nat) : Int := let c := s.codeOf r k; c.value ((cur[k]?).getD 0)
      let at_ := 2 + if (s.rd32 (coefAddrOn r n 0)).getLsbD 0 then 0 else b
      let s := (blockWords s.fs r val).zipIdx.foldl (fun (s : State) w => s.wr32 (coefAddrOn r n (at_ + w.2)) w.1) s
      s.wr32 (coefAddrOn r n 1) (BitVec.ofNat 32 (s.grid.tick + 1))

/-- What handler runs have prepared takes effect on the tiles whose program is library code (assumption 8). -/
def State.handlersTurn (s : State) : State :=
  s.scn.nodes.foldl (fun s r =>
    let n := nodeTile r
    if s.isLib n ∧ r.custom = false ∧ s.domOn n ∧ (s.tile n).run ≠ .halted then s.handlerEffect r else s) s

/-! ## Handler runs -/

/-- Of the handlers that `pick` names, the runs due in this pass join tile n's pending runs, or merge with an earlier run
(R94, R319, R321). -/
def State.releaseOf (s : State) (n at_ : Nat) (pick : NodeRec → Bool) : State :=
  let t := s.tile n
  if t.run = .halted then s
  else
    let due := (s.scn.nodes.filter (fun r => pick r && handlerOn r n && decide (0 < r.ctrlCost) &&
      decide ((s.grid.tick % 2 ^ 32 + 2 ^ 32 - r.ctrlPhase) % 2 ^ r.ctrlPeriodLog2 = 0))).map (·.inst)
    let due := due.mergeSort (fun a b => decide (a ≤ b))
    let (old, new) := due.partition (fun i => t.runs.any (fun r => r.inst == i))
    s.setTile n { t with merged := satAdd 16 t.merged old.length,
                         runs := t.runs ++ new.map (fun i => { inst := i, due := s.grid.tick, at_ := at_ }) }

/-- The handler runs due in this pass are released on tile n. -/
def State.releaseRuns (s : State) (n at_ : Nat) : State := s.releaseOf n at_ (fun _ => true)

/-- The control allowance A (R49). -/
def State.allowance (s : State) : Nat := if s.rate96 then 1024 else 2048

/-- A run that does not fit the allowance waits with every run after it; each is counted once (R321). -/
def Tile.deferRuns (t : Tile) : Tile :=
  { t with deferred := satAdd 16 t.deferred (t.runs.filter (fun x => !x.deferred)).length,
           runs := t.runs.map (fun x => { x with deferred := true }) }

/-- The pending runs of a library tile, oldest first, as long as each fits the allowance with its cost and two switch cycles
(R94, R321). -/
def State.libRuns (n : Nat) : List HRun → State → State
  | [], s => s
  | h :: rest, s =>
    let t := s.tile n
    match s.node h.inst with
    | none => State.libRuns n rest (s.setTile n { t with runs := rest })
    | some r =>
      if s.allowance < t.ctlCyc + r.ctrlCost + 2 then s.setTile n t.deferRuns
      else
        let late := (s.grid.tick - h.due) * s.cyc + t.ctlCyc
        let s := s.setTile n { t with runs := rest, ctlCyc := t.ctlCyc + r.ctrlCost + 2 }
        State.libRuns n rest ((if r.custom then s else s.handlerRead n r).monitor 3 n late)

/-- The control work of a library tile in a pass: its due handlers run at the start (R94, R319, R320).  In a cluster with
ganged sections they run after the last one (R101), and what they prepare takes effect in the next pass all the same. -/
def State.libControl (s : State) (n : Nat) : State :=
  let s := s.setTile n { s.tile n with ctlCyc := 0 }
  let s := s.releaseRuns n 0
  if (s.tile n).run = .halted then s else State.libRuns n (s.tile n).runs s

/-- The trigger words of a type that a clear stores as already read: the key of its state and the parameter index (R156, R162,
R165, R167). -/
def trigKeys (type : Nat) : List (Nat × Nat) :=
  match type with
  | 0x0D => [(3, 5)]
  | 0x10 => [(1, 0)]
  | 0x11 | 0x12 => [(4, 1), (5, 2)]
  | _ => []

/-- A node's state as after a clear, its handler's values being those its tables hold, its triggers as read (R120, R128, R154,
R162). -/
def State.nodeClear (s : State) (r : NodeRec) (first : Bool) : State :=
  let x := s.nodeSt r.inst
  let h := if first then (upto r.paramWords).map (fun k => s.param r k) else x.h
  let w : SMap Int := if r.custom then [] else (trigKeys r.type).foldl (fun w e => seen w e.1 (low16 (s.param r e.2))) []
  s.setNodeSt r.inst { h := h, w := w, runs := if first then [] else x.runs }

/-! ## Learned floors -/

/-- LEARNED of a zone gain: its latest record, or N_REF (R154). -/
def State.loadLearned (s : State) (r : NodeRec) : State :=
  if r.type ≠ 0x0C ∨ r.custom then s
  else
    let hit (j : JRec) : Bool := j.type == 5 && leNat (j.data.take 8) == s.build && leNat ((j.data.drop 8).take 2) == r.inst
    let l := match (s.nvm.recs.filter hit).getLast? with
      | some j => low16 (BitVec.ofNat 32 (leNat ((j.data.drop 10).take 2)))
      | none => low16 (s.param r 0)
    s.wr32 (coefAddrOn r (nodeTile r) 0) (word16 l)

end Sys2Proof.Machine
end

