-- ==== Sys2Proof/Machine/TileOps.lean ====
section
/-!
DEFINITION. Issuing a bundle: slots are collected until the bundle's last slot, then the bundle issues, with its fetch,
its placement checks, its stalls, its results at their hazard distances and the flow of its context (chapters Tile
Datapath and Memory, Tile Instruction Set, and Tile Program Flow, Contexts and Exceptions).  A command is one slot of the
bundle at its tile's program position; each repetition of an RPT is an issue of its own.
-/

namespace Sys2Proof.Machine

/-! ## Contexts -/

/-- The bank of the active context (R231). -/
def Tile.bank (t : Tile) : Bank := if t.ctx then t.ctl else t.smp
/-- The flow of the active context. -/
def Tile.flow (t : Tile) : Flow := if t.ctx then t.cf else t.sf
/-- The tile with the active context's bank replaced. -/
def Tile.setBank (t : Tile) (b : Bank) : Tile := if t.ctx then { t with ctl := b } else { t with smp := b }
/-- The tile with the active context's flow replaced. -/
def Tile.setFlow (t : Tile) (f : Flow) : Tile := if t.ctx then { t with cf := f } else { t with sf := f }

/-- `k` cycles pass in the active context: the schedule-cycle counter counts those of the sample context (R287, R325,
R341). -/
def Tile.spend (t : Tile) (k : Nat) : Tile :=
  { t with fu := { t.fu with left := t.fu.left - k },
           scyc := if t.ctx then t.scyc else t.scyc + k,
           ctlCyc := if t.ctx then t.ctlCyc + k else t.ctlCyc }

/-- `k` further issues of a waiting bundle: schedule cycles and issued bundles of the sample context (R287, R288). -/
def Tile.waited (t : Tile) (k : Nat) : Tile :=
  { t with fu := { t.fu with left := t.fu.left - k }, scyc := t.scyc + k,
           sf := { t.sf with issued := t.sf.issued + k } }

/-- A WAITS still in progress ends: its counter value is reached and the bundle after it is next (R287). -/
def Tile.waitEnds (t : Tile) : Tile :=
  match t.ctx, t.sf.wait with
  | false, some c => let u := t.waited (c - t.scyc); { u with sf := { u.sf with wait := none, pc := u.sf.pc + 1 } }
  | _, _ => t

/-- A bundle opens: the results due have become visible (R237). -/
def Tile.openBundle (t : Tile) : Tile :=
  let t := t.waitEnds
  let f := t.flow
  (t.setBank (retire t.bank f.pend f.issued)).setFlow { f with pend := inFlight f.pend f.issued }

/-- The tiles that execute a bundle of tile n: all members in a ganged section (R265). -/
def State.membersOf (s : State) (n : Nat) : List Nat :=
  if n % 8 = 0 && (s.cluster (n / 8)).gang.isSome && !(s.tile n).ctx then (upto 8).map (fun t => n + t) else [n]

/-- Tile n issues bundles: it is powered and not halted, and its clock runs (R52, R289, R327). -/
def State.mayIssue (s : State) (n : Nat) : Bool :=
  let t := s.tile n
  s.domOn n && !s.isLib n && t.run != .halted && (t.ctx || (t.run == .running && !t.waiting))

/-- The handler's code lies in the back memory: the topology recall that runs adds its instance, or changes it: lists a record
of its number (R323). -/
def State.handlerBack (s : State) (inst : Nat) : Bool :=
  match s.scn.running, s.image with
  | some r, some im =>
    r.started && !r.swapped && im.scenes.any (fun c => c.scene == r.req.scene &&
      c.deltas.any (fun d => some d.from_ == r.topo && d.added.any (fun a => a.inst == inst)))
  | _, _ => false

/-- The active context fetches from the back memory (R262, R323). -/
def State.fetchBack (s : State) (n : Nat) : Bool :=
  let t := s.tile n
  if t.ctx then s.handlerBack t.handler else t.onBack

/-- Where the marks of the two words of bundle i are kept. -/
def State.fetchAddr (s : State) (n i : Nat) : Nat :=
  let phys := (s.tile n).frontIsB != s.fetchBack n
  tileBase n + (if phys then 0x28000 else 0x20000) + 8 * i

/-- Bundle i as tile n fetches it: the low word first, the lowest byte first (R260, R262). -/
def State.fetchBundle (s : State) (n i : Nat) : Nat :=
  let phys := (s.tile n).frontIsB != s.fetchBack n
  leNat ((upto 8).map (fun k => mget 0 s.imem (32768 * n + (if phys then 16384 else 0) + 8 * i + k)))

/-- The two words of the bundle that issues are read: a single-bit error is corrected, counted and reported (R258). -/
def State.fetchSeen (s : State) (n : Nat) : State :=
  let fa := s.fetchAddr n (s.tile n).flow.pc
  forAll [fa, fa + 4] s (fun a s => if mget 0 s.ms.ecc a < 64 then (s.readWord a).2 else s)

/-! ## Slots -/

/-- What a slot sees at issue: the state, the tile that issues and the tiles that execute (R265, R270). -/
structure Issue where
  s : State
  n : Nat
  members : List Nat
  deriving DecidableEq, Repr

/-- The issuing tile. -/
def Issue.tile (i : Issue) : Tile := i.s.tile i.n
/-- The issuing tile's bank. -/
def Issue.bank (i : Issue) : Bank := i.tile.bank
/-- The bundle's index. -/
def Issue.pc (i : Issue) : Nat := i.tile.flow.pc
/-- A member's bank. -/
def Issue.bankOf (i : Issue) (m : Nat) : Bank := (i.s.tile m).bank
/-- An accumulator lane of a member as a MAC or ACC operation reads it (R238, R303). -/
def Issue.chain (i : Issue) (m : Nat) (r : Fin 2) (l : Fin 4) : Acc := chainAcc (i.bankOf m) (i.s.tile m).flow.pend r l

/-- A slot of the bundle that is open joins it, in place of an earlier slot of its kind. -/
def Tile.addSlot (t : Tile) (e : SlotEffect) : Tile :=
  { t with buf := t.buf.filter (fun x => !(x.kind == e.kind)) ++ [e] }

/-- The bundle of tile n is open. -/
def State.openBundle (s : State) (n : Nat) : State :=
  if (s.tile n).bufOpen then s
  else
    let s := forAll (s.membersOf n) s (fun m s => s.setTile m (s.tile m).openBundle)
    s.setTile n { s.tile n with bufOpen := true, buf := [] }

/-! ## Exceptions -/

/-- The first exception of a list. -/
def firstExc (l : List (Option (Exc × Nat))) : Option (Exc × Nat) := l.findSome? id

/-- One flag at its place in a word. -/
def flagAt (n : Nat) (b : Bool) : Nat := if b then 2 ^ n else 0

/-- A SETMODE of the bundle before is in its shadow: the value it writes (R328). -/
def Flow.shadow (f : Flow) : Option (BitVec 2) :=
  f.pend.findSome? (fun e => match e.w with
    | .mode x => if e.due = f.issued + 1 then some x else none
    | _ => none)

/-- The exception record of tile n, of the issue stream of tile `src` (R328, R331, R335 to R340). -/
def State.excRecord (s : State) (n src : Nat) (x : Exc) (annul : Bool) (gang : Option Nat) (atStrobe : Bool) : SMap Word :=
  let t := s.tile n
  let u := s.tile src
  let f := u.flow
  let b := u.bank
  let w (v : Nat) : Word := BitVec.ofNat 32 v
  let (ds, taken, brAt, tgt) : Nat × Bool × Nat × Nat := match f.br with
    | some r => (r.slot + 1, r.taken, r.at_, r.target)
    | none => (0, false, 0, 0)
  let wait := atStrobe && (f.wait.isSome || u.waiting)
  let xstat := 2 ^ 31 + (gang.getD 0) * 2 ^ 24 + flagAt 23 gang.isSome + flagAt 22 f.rpt.isSome + flagAt 21 wait
    + flagAt 20 annul + ds * 2 ^ 18 + flagAt 17 taken + flagAt 16 f.shadow.isSome + flagAt 15 (s.fetchBack src)
    + flagAt 14 u.ctx + x.detail * 16 + x.cause
  let mode := b.mode.toNat
  let (dn, rem) : Nat × Nat := match f.rpt with
    | some r => (r.done, max r.count 1 - r.done)
    | none => (0, 0)
  let left := if atStrobe then t.fu.left - (s.cyc - (t.scyc + t.ctlCyc)) else t.fu.left
  let busy := decide (0 < left)
  let op : Nat := match t.fu.op with | .rcp => 0 | .rsq => 1 | .log2 => 2 | .exp2 => 3 | .div => 4
  let xfu := if busy then 2 ^ 31 + flagAt 30 t.fu.cancel + flagAt 29 t.fu.ctx + t.fu.dest * 2 ^ 16 + op * 16 + (left - 1) else 0
  let pcyc := if atStrobe then 0 else t.scyc + t.ctlCyc
  let scyc := if atStrobe then 0 else t.scyc
  let cnt := mget 0 t.xrec 0x82C
  let ovr := satAdd 16 (bits cnt 31 16) (if x.cause = 5 then 1 else 0)
  let m : SMap Word := msetAll 0 [] [
    (0x800, w xstat), (0x804, w (brAt % 2048 * 2 ^ 16 + f.pc % 2048)), (0x808, w tgt), (0x80C, w (x.addr % 2 ^ 17)),
    (0x810, w (pcyc % 16384 * 2 ^ 16 + scyc % 16384)), (0x814, w s.grid.tick),
    (0x818, w ((match f.shadow with | some p => p.toNat | none => mode) * 256 + mode)), (0x81C, w (rem * 2 ^ 16 + dn)),
    (0x820, w xfu), (0x824, w b.loops.length), (0x828, if u.ctx then w (u.sf.pc % 2048) else 0),
    (0x82C, w (ovr * 2 ^ 16 + satAdd 16 (bits cnt 15 0) 1))]
  b.loops.zipIdx.foldl (fun m e =>
    let a := 0x840 + 16 * e.2
    mset 0 (mset 0 (mset 0 m a e.1.lcount) (a + 4) (w (e.1.lstart % 2048))) (a + 8) (w (e.1.lend % 2048))) m

/-- The report of an exception (R329, R335). -/
def State.excReport (s : State) (unit : Nat) (x : Exc) (ctx gang inj : Bool) : State :=
  let d := x.detail + x.cause * 16 + flagAt 8 ctx + flagAt 9 gang
  if inj then s.raiseInj 0x0C unit 1 d else s.raise 0x0C unit 1 d

/-- What an uncorrectable error found by port A brings beside the exception (R334, R527). -/
def State.excEcc (s : State) (fa : Nat) (x : Exc) (m : Nat) : State :=
  if x.cause ≠ 2 then s
  else if x.detail = 2 then
    forAll [fa, fa + 4] s (fun a s => if mget 0 s.ms.ecc a = 64 then (s.eccSeen a true 0).ueAction a else s)
  else
    let a := tileBase m + x.addr
    (s.eccSeen a true 0).ueAction a

/-- A bundle of tile n raises an exception: the records are written, the tile, or in a ganged section the cluster, stops
(R327 to R329, R332, R335). -/
def State.tileExc (s : State) (n m : Nat) (x : Exc) (annul atStrobe : Bool) : State :=
  let c := n / 8
  let ctx := (s.tile n).ctx
  let ms := s.membersOf n
  let gang := ms.length ≠ 1
  let fa := s.fetchAddr n (s.tile n).flow.pc
  let inj := (s.tile n).injYield
  let recs := ms.map (fun k => (k, s.excRecord k n x annul (if gang then some (m % 8) else none) atStrobe))
  let s := recs.foldl (fun (s : State) e => (s.setTile e.1 { s.tile e.1 with xrec := e.2, injYield := false }).stopTile e.1) s
  let cl := s.cluster c
  let s := s.setCluster c (if gang then { cl with gang := none, arrived := [] } else { cl with arrived := cl.arrived.filter (fun a => !(a.1 == n)) })
  (s.excReport (if gang then m else n) x ctx gang inj).excEcc fa x m

/-! ## Placement -/

/-- The loop stack after the test of a taken branch's target (R313); the innermost level is last. -/
def popLevels (target : Nat) (l : List Level) : List Level :=
  (l.reverse.dropWhile (fun v => !(decide (v.lstart ≤ target) && decide (target ≤ v.lend)))).reverse

/-- Two slots of a bundle name one destination (R241, R272). -/
def dupDest : List Dest → Bool
  | [] => false
  | d :: ds => ds.contains d || dupDest ds

/-- Whether a bundle is annulled: a delay slot of an annulling branch, a skipped body, a repeat of 0 (R282 to R284). -/
def Flow.annulled (f : Flow) : Bool :=
  (match f.br with | some b => b.annulled | none => false) || f.skip.isSome ||
    (match f.rpt with | some r => r.count == 0 | none => false)

/-- A placement rule of R307, R308 or R314 forbids the bundle. -/
def badPlace (f : Flow) (loops : List Level) (slots : List SlotEffect) (ctx gang first : Bool) : Bool :=
  let i := f.pc
  let isLend (k : Nat) : Bool := loops.any (fun v => v.lend == k)
  let c := slots.find? (fun e => e.kind == .c)
  let transfer := slots.any (fun e => e.transfer)
  (transfer && (f.br.isSome || first || isLend i))
    || (f.rpt.isSome && c.isSome)
    || (match c with
      | none => false
      | some e => match e.ctl with
        | .branch _ _ _ _ => isLend (i + 1) || isLend (i + 2)
        | .rpt _ => isLend (i + 1)
        | .yield | .waits _ => ctx || gang
        | .gang _ => ctx || gang || slots.any (fun e => e.kind != .c)
        | .cret => !ctx
        | _ => false)

/-- A loop field or nesting is wrong, also where the bundle is annulled (R283, R326): a count of 0 pushes nothing. -/
def badLoop (f : Flow) (loops : List Level) : Ctl → Option Exc
  | .loop count lend =>
    if lend ≤ f.pc then some { cause := 1, detail := 1 }
    else if count = 0 then none
    else if 4 ≤ loops.length then some { cause := 1, detail := 5 }
    else match loops.getLast? with
      | some v => if v.lend ≤ lend then some { cause := 1, detail := 5 } else none
      | none => none
  | _ => none

/-- The exception a bundle raises at issue, with the member that raises it (R326). -/
def State.bundleExc (s : State) (n : Nat) (loops : List Level) (annul : Bool) : Option (Exc × Nat) :=
  let t := s.tile n
  let f := t.flow
  let ms := s.membersOf n
  let ctl := (t.buf.find? (fun e => e.kind == .c)).elim Ctl.none (·.ctl)
  let place (b : Bool) (x : Exc) : Option (Exc × Nat) := if b then some (x, n) else none
  let bad (a : Nat) : Bool := mget 0 s.ms.ecc a == 64
  let fa := s.fetchAddr n f.pc
  let first := match f.skip with | some k => k.first | none => false
  firstExc [
    place (decide (2047 < f.pc)) { cause := 1, detail := 4 },
    place (bad fa || bad (fa + 4)) { cause := 2, detail := 2, addr := 8 * f.pc },
    (bundleDetail (s.fetchBundle n f.pc)).map (fun d => (({ cause := 1, detail := d } : Exc), n)),
    (t.buf.findSome? (·.illegal)).map (fun x => (x, n)),
    place (dupDest (t.buf.flatMap (·.dests))) { cause := 1, detail := 2 },
    place (badPlace f loops t.buf t.ctx (ms.length != 1) first) { cause := 1, detail := 3 },
    (badLoop f loops ctl).map (fun x => (x, n)),
    (ms.find? (fun m => !s.domOn m)).map (fun m => (({ cause := 4, detail := if t.buf.any (·.gangSts) then 1 else 0 } : Exc), m)),
    if annul then none else t.buf.findSome? (·.exc)]

/-! ## Issue -/

/-- The flow after a bundle that is no taken control transfer, and the loop stack (R282 to R284, R312). -/
def Flow.advance (f : Flow) (loops : List Level) (annul : Bool) : Flow × List Level :=
  match f.br, f.skip, f.rpt with
  | some b, _, _ =>
    if b.slot = 0 then ({ f with pc := f.pc + 1, br := some { b with slot := 1 } }, loops)
    else ({ f with pc := if b.taken then b.target else b.at_ + 3, br := none, atTarget := b.taken }, loops)
  | none, some k, _ =>
    if k.left ≤ 1 then ({ f with pc := k.next, skip := none }, loops)
    else ({ f with pc := f.pc + 1, skip := some { k with left := k.left - 1, first := false } }, loops)
  | none, none, some r =>
    if r.count ≤ r.done + 1 then ({ f with pc := f.pc + 1, rpt := none }, loops)
    else ({ f with rpt := some { r with done := r.done + 1 } }, loops)
  | none, none, none =>
    match loops.getLast? with
    | some v =>
      if v.lend = f.pc ∧ annul = false then
        if 1 < v.lcount.toNat then ({ f with pc := v.lstart }, loops.dropLast ++ [{ v with lcount := v.lcount - 1 }])
        else ({ f with pc := f.pc + 1 }, loops.dropLast)
      else ({ f with pc := f.pc + 1 }, loops)
    | none => ({ f with pc := f.pc + 1 }, loops)

/-- The flow and loop stack after a bundle with its control transfer. -/
def Flow.after (f : Flow) (loops : List Level) (annul : Bool) (c : Ctl) : Flow × List Level :=
  let f := { f with atTarget := false }
  match c with
  | .branch taken target ann _ =>
    ({ f with pc := f.pc + 1, br := some { at_ := f.pc, slot := 0, taken := taken, target := target, annulled := !taken && ann } }, loops)
  | .loop count lend =>
    if count = 0 then ({ f with pc := f.pc + 1, skip := some { left := min (lend - f.pc) 2, next := lend + 1 } }, loops)
    else ({ f with pc := f.pc + 1 }, loops ++ [{ lcount := BitVec.ofNat 32 count, lstart := f.pc + 1, lend := lend }])
  | .rpt count => ({ f with pc := f.pc + 1, rpt := some { done := 0, count := count } }, loops)
  | .waits _ | .gang _ => (f, loops)
  | .yield | .cret => ({ f with pc := f.pc + 1 }, loops)
  | .none => f.advance loops annul

/-- The due handler runs of a tile that issues bundles are released now (R319). -/
def State.releaseNow (s : State) (n : Nat) : State :=
  if s.isLib n then s else s.releaseRuns n ((s.tile n).scyc + (s.tile n).ctlCyc)

/-- The record of ganged section `sec` of a cluster. -/
def State.gangRec (s : State) (c sec : Nat) : Option GangRec := (s.cluster c).gangs[sec]?

/-- Tile n's GANG has issued: the section begins when all eight members have arrived (R288). -/
def State.gangArrive (s : State) (n sec : Nat) : State :=
  let c := n / 8
  let cl := s.cluster c
  let arrived := cl.arrived ++ [(n, sec)]
  let s := s.setTile n { s.tile n with waiting := true }
  let ms := (upto 8).map (fun t => 8 * c + t)
  match s.gangRec c sec with
  | some g =>
    if !ms.all (fun m => arrived.contains (m, sec)) then s.setCluster c { cl with arrived := arrived }
    else
      let now (m : Nat) : Nat := (s.tile m).scyc + (s.tile m).ctlCyc
      let last := ms.foldl (fun x m => max x (now m)) 0
      let s := ms.foldl (fun (s : State) m => s.setTile m ((s.tile m).waited (last - now m))) s
      let t := s.tile (8 * c)
      let s := s.setTile (8 * c) { t with waiting := false, sf := { t.sf with pc := g.leadBundle } }
      s.setCluster c { cl with arrived := [], gang := some { sec := sec, left := g.length, ret := t.sf.pc + 1 } }
  | none => s

/-- `k` schedule cycles of a ganged section have passed; at its end every member goes on with the bundle after its own
GANG, and after the pass's last section the held handler runs are released (R100, R101, R267, R288, R319). -/
def State.gangPass (s : State) (c k : Nat) : State :=
  let cl := s.cluster c
  match cl.gang with
  | none => s
  | some g =>
    if k < g.left then s.setCluster c { cl with gang := some { g with left := g.left - k } }
    else
      let s := forAll (upto 8) s (fun i s =>
        let t := s.tile (8 * c + i)
        let f := if i = 0 then { t.sf with pc := g.ret, br := none, skip := none, rpt := none, atTarget := false }
          else { t.sf with pc := t.sf.pc + 1 }
        s.setTile (8 * c + i) { t with waiting := false, sf := f })
      let cl := { cl with gang := none, gangsDone := cl.gangsDone + 1 }
      let s := s.setCluster c cl
      if cl.gangs.length ≤ cl.gangsDone then forAll (upto 8) s (fun i s => s.releaseNow (8 * c + i)) else s

/-- YIELD: issue stops, results in flight complete and the clock stops (R289). -/
def Tile.yield (t : Tile) (at_ : Nat) : Tile :=
  let drain := t.sf.pend.foldl (fun x e => max x (e.due - t.sf.issued)) 0
  { t with run := .idle, yielded := true, yieldScyc := at_, drainEnd := t.scyc + t.ctlCyc + drain,
           smp := retireAll t.smp t.sf.pend, sf := { t.sf with pend := [] } }

/-- CRET: the control context ends; its results retire into its bank (R289, R322). -/
def Tile.cret (t : Tile) : Tile :=
  { t with ctx := false, afterCret := !t.yielded, ctl := retireAll t.ctl t.cf.pend, cf := { t.cf with pend := [] } }

/-- The results of a bundle's slots for member m, as results in flight. -/
def pendOf (m issued : Nat) (slots : List SlotEffect) : List Pend :=
  (slots.flatMap (·.writes)).filterMap (fun w => if w.1 = m then some { due := issued + w.2.1, w := w.2.2 } else none)

/-- The issuing tile after its bundle of `cyc` cycles, `pre` of them before the issue: the function unit starts `fu`, the
flow goes on by `ctl`, the slots are gone; `inj` is an injected YIELD. -/
def Tile.issued (u : Tile) (fu : Option (FuOp × Fin 16)) (loops : List Level) (annul : Bool) (ctl : Ctl) (inj : Bool)
    (at_ pre cyc : Nat) : Tile :=
  let u := match fu with
    | some (op, d) => { u with fu := { left := 8 - (cyc - pre), op := op, dest := d, cancel := annul, ctx := u.ctx } }
    | none => u
  let r := u.flow.after loops annul ctl
  let f := match ctl with
    | .waits c => if c ≤ u.scyc then { r.1 with pc := r.1.pc + 1 } else { r.1 with wait := some c }
    | _ => r.1
  let u := (u.setFlow f).setBank (u.bank.setLoops r.2)
  let u := { u with buf := [], bufOpen := false, afterCret := u.afterCret && u.ctx, injYield := u.injYield || inj }
  match ctl with
  | .yield => if inj then u else u.yield at_
  | .cret => u.cret
  | _ => u

/-- The bundle issues without an exception. -/
def State.commitBundle (s : State) (n : Nat) (loops : List Level) (annul : Bool) : State :=
  let t := s.tile n
  let ms := s.membersOf n
  let slots := if annul then [] else t.buf
  let fu := t.buf.findSome? (·.fu)
  let pre := if fu.isSome then t.fu.left else 0
  let ctl := (slots.find? (fun e => e.kind == .c)).elim Ctl.none (·.ctl)
  let inj := ctl == .yield && s.injFor 0x0C 0 n
  let at_ := t.scyc + pre
  let cyc := 1 + pre + (slots.map (·.stall)).foldl (· + ·) 0
  -- results and cycles of every member
  let s := ms.foldl (fun (s : State) m =>
    let u := s.tile m
    let f := u.flow
    s.setTile m ((u.setFlow { f with pend := f.pend ++ pendOf m f.issued slots, issued := f.issued + 1 }).spend cyc)) s
  let s := s.setTile n ((s.tile n).issued fu loops annul ctl inj at_ pre cyc)
  let s := if inj then s.disarm else s
  -- memory
  let s := (slots.flatMap (·.reads)).foldl (fun (s : State) a => (s.readWord a).2) s
  let s := (slots.flatMap (·.stores)).foldl (fun (s : State) w => s.wrBytes w.1 w.2) s
  match ctl with
  | .gang sec => s.gangArrive n sec
  | .cret =>
    match s.node (s.tile n).handler with
    | some r => if r.type = 0x14 ∧ r.custom = false then s.meterSample r else s
    | none => s
  | _ => if ms.length ≠ 1 then s.gangPass (n / 8) cyc else s

/-- The bundle of tile n waits for a function unit that is busy before it issues, an exception or not (R245, R318). -/
def State.fuStall (s : State) (n : Nat) : State :=
  if ((s.tile n).buf.findSome? (·.fu)).isSome then
    (s.membersOf n).foldl (fun (s : State) m => s.setTile m ((s.tile m).spend (s.tile n).fu.left)) s
  else s

/-- The bundle of tile n issues (R270, R327). -/
def State.issueBundle (s : State) (n : Nat) : State :=
  let t := s.tile n
  let f := t.flow
  let loops := if f.atTarget then popLevels f.pc t.bank.loops else t.bank.loops
  let annul := f.annulled
  match s.bundleExc n loops annul with
  | some (x, m) => ((s.fetchSeen n).fuStall n).tileExc n m x annul false
  | none => (s.fetchSeen n).commitBundle n loops annul

/-- One slot of the bundle at tile t's program position: `f` is what it does; the bundle issues at its last slot.  A tile
that issues nothing (stopped, waiting, off) takes no slot. -/
def State.slot (s : State) (t : TileNo) (last : Bool) (f : Issue → SlotEffect) : Host.Outcome State Fault Refusal :=
  if s.mayIssue t.val then
    let s := s.openBundle t.val
    let s := s.setTile t.val ((s.tile t.val).addSlot (f { s := s, n := t.val, members := s.membersOf t.val }))
    .next (if last then s.issueBundle t.val else s)
  else .next s

/-- A slot that does nothing (R271). -/
def State.noSlot (s : State) (t : TileNo) (last : Bool) : Host.Outcome State Fault Refusal :=
  if s.mayIssue t.val then
    let s := s.openBundle t.val
    .next (if last then s.issueBundle t.val else s)
  else .next s

/-! ## Starting, stopping, restarting -/

/-- A tile as a strobe finds it: a WAITS or a rendezvous has gone on issuing until then, and the results due for the next
bundle are in place (R237, R287, R288, R328). -/
def Tile.atStrobe (t : Tile) (cyc : Nat) : Tile :=
  let idle := cyc - (t.scyc + t.ctlCyc)
  let t := match t.ctx, t.sf.wait, t.waiting with
    | false, some c, _ => t.waited (min idle (c - t.scyc))
    | false, none, true => t.waited idle
    | _, _, _ => t
  if t.bufOpen then t
  else (t.setBank (retire t.bank t.flow.pend t.flow.issued)).setFlow { t.flow with pend := inFlight t.flow.pend t.flow.issued }

/-- A tile that has not yielded, or whose control context is active, takes the pass overrun exception at the strobe
(R311, R331, R335). -/
def State.overrun (s : State) (n : Nat) : State :=
  let t := s.tile n
  let annul := t.flow.annulled
  if s.isLib n ∨ t.run = .halted then s
  else if t.ctx then (s.setTile n (t.atStrobe s.cyc)).tileExc n n { cause := 5, detail := 1 } annul true
  else if t.run = .running then
    -- a member of a running section is stopped with its tile 0
    if n % 8 ≠ 0 ∧ (s.cluster (n / 8)).gang.isSome then s
    else (s.setTile n (t.atStrobe s.cyc)).tileExc n n { cause := 5, detail := 0 } annul true
  else s

/-- The state area of tile n is cleared (R81). -/
def State.clearState (s : State) (n : Nat) : State :=
  let p := s.prog n
  let s := s.zeroRange (tileBase n + p.stateBase) p.stateBytes
  s.scn.nodes.foldl (fun s r => if nodeTile r = n then s.nodeClear r false else s) s

/-- Tile n wakes from retention: every register and the state area are 0 (R81, R232, R263, R586). -/
def State.wakeTile (s : State) (n : Nat) : State :=
  let t := s.tile n
  (s.clearState n).setTile n { frontIsB := t.frontIsB, onBack := t.onBack }

/-- Tile n is cleared as on a power-up from retention, but its exception record and run counts stay (R332, R665). -/
def State.clearTile (s : State) (n : Nat) : State :=
  let t := s.tile n
  let s := s.wakeTile n
  s.setTile n { s.tile n with xrec := t.xrec, merged := t.merged, deferred := t.deferred }

/-- The sample program of tile n starts at a strobe; it waits for the drain of the pass before (R83, R310). -/
def State.startTile (s : State) (n entry : Nat) : State :=
  let t := s.tile n
  let late := t.drainEnd - s.cyc
  let idle := s.cyc - (t.scyc + t.ctlCyc)
  let s := s.wr32 (tileBase n) (BitVec.ofNat 32 s.grid.tick)
  s.setTile n { t with run := .running, scyc := late, libNext := 0, ctlCyc := if s.isLib n ∧ t.scyc = 0 then t.ctlCyc else 0, yieldScyc := 0, yielded := false, drainEnd := 0,
                       waiting := false, afterCret := false, buf := [], bufOpen := false,
                       fu := { t.fu with left := t.fu.left - idle - late },
                       sf := { t.sf with pc := entry, atTarget := false, br := none, skip := none, rpt := none, wait := none } }

/-- The program that runs on tile n in this pass is another one: it starts at `entry` in place of the one the strobe has
started, and the pass's cycles count on (R185, R310).  A tile that no strobe has started starts here. -/
def State.turnTile (s : State) (n entry : Nat) : State :=
  let t := s.tile n
  if t.run = .running then
    s.setTile n { t with libNext := 0, waiting := false, afterCret := false, buf := [], bufOpen := false,
                         sf := { t.sf with pc := entry, atTarget := false, br := none, skip := none, rpt := none, wait := none } }
  else s.startTile n entry

/-- A tile restarts: registers and state area 0, pending runs discarded, the program starts at ENTRY and its words ramp in
(R232, R332, R333). -/
def State.restartTile (s : State) (n : Nat) : State :=
  let t := s.tile n
  let s := s.clearTile n
  let s := s.setTile n { s.tile n with rampK := 1 }
  let entry := match t.onBack, mget none s.scn.backs n with
    | true, some p => p.xfEntry
    | _, _ => (s.prog n).entry
  s.startTile n entry

/-- The tiles that restart with tile n: those of its cluster when a ganged section has stopped them (R335). -/
def State.restartsWith (s : State) (n : Nat) : List Nat :=
  if (mget 0 (s.tile n).xrec 0x800).getLsbD 23 then (upto 8).map (fun t => n / 8 * 8 + t) else [n]

/-- RESTART (R332 to R335): after the strobe at which its restart, and that of every tile stopped with it, is due. -/
def execRestart (t : TileNo) (s : State) : Host.Outcome State Fault Refusal :=
  let x := s.tile t.val
  let due := (s.restartsWith t.val).all (fun m => (s.tile m).restartIn == 0 && !s.eccHeld m)
  .next (if x.run = .halted ∧ due ∧ s.graphRuns ∧ s.domOn t.val then s.restartTile t.val else s)

/-! ## The control context -/

/-- A WAITS in progress has issued again since the last CRET (R287, R322). -/
def Tile.waitedFor (t : Tile) (spent : Nat) : Bool :=
  match t.sf.wait with
  | some c => decide (0 < min spent (c - t.scyc))
  | none => false

/-- CONTROL_SWITCH (R320 to R323): at a boundary that is not excluded, with a pending run that fits the allowance; where the
cluster has ganged sections, after the last one of the pass (R101).
`spent` counts the cycles of a WAITS in progress that have passed. -/
def execControlSwitch (n : TileNo) (spent : Nat) (s : State) : Host.Outcome State Fault Refusal :=
  let t := s.tile n.val
  let cl := s.cluster (n.val / 8)
  let boundary := !t.ctx && !t.bufOpen && t.sf.br.isNone && t.sf.skip.isNone && t.sf.rpt.isNone && cl.gang.isNone &&
    cl.arrived.isEmpty && decide (cl.gangs.length ≤ cl.gangsDone) && (!t.afterCret || t.waitedFor spent) && (t.run == .running || (t.run == .idle && t.yielded))
  .next (if !boundary ∨ !s.domOn n.val ∨ s.isLib n.val then s
    else match t.runs with
      | [] => s
      | r :: rest =>
        match s.node r.inst with
        | none => s.setTile n.val { t with runs := rest }
        | some nd =>
          if s.allowance < t.ctlCyc + nd.ctrlCost + 2 then
            s.setTile n.val t.deferRuns
          else
            let t := match t.sf.wait with
              | some c => t.waited (min spent (c - t.scyc))
              | none => t
            let b := { t.ctl.setLoops [] with mode := 0 }
            let b := [RegWrite.p 0 (BitVec.ofNat 17 nd.stateAddr), .p 1 (BitVec.ofNat 17 nd.paramAddr),
              .p 2 (BitVec.ofNat 17 nd.coefAddr), .s 15 0x7FF#32].foldl applyWrite b
            let t := ({ t with ctx := true, handler := r.inst, runs := rest, ctl := b,
                               cf := { issued := t.cf.issued, pc := nd.ctrlEntry } } : Tile).spend 1
            let late := (s.grid.tick - r.due) * s.cyc + t.scyc + t.ctlCyc
            (s.setTile n.val t).monitor 3 n.val ((late : Int) - r.at_))

end Sys2Proof.Machine
end

