-- ==== Sys2Proof/Machine/TileAlu.lean ====
section
/-!
DEFINITION. The C slot: system instructions, scalar arithmetic, constants, moves, branches, loops and repeats, the
function unit (R273 to R289).
-/

namespace Sys2Proof.Machine

/-! ## Shapes -/

/-- s register i as the bundle sees it. -/
def Issue.s_ (i : Issue) (a : Fin 16) : Word := i.bank.getS a

/-- A scalar result at distance 1 with an optional flag write at distance 1 (R237, R275). -/
def Issue.scalar (i : Issue) (d : Fin 16) (r : Word) (f : Option FlagWrite) : SlotEffect :=
  { writes := (i.n, 1, .s d r) :: (f.map (fun x => (i.n, 1, RegWrite.flags x))).toList, dests := [.s d] }

/-- Flags alone at distance 1. -/
def Issue.flagsOnly (i : Issue) (f : FlagWrite) : SlotEffect := { writes := [(i.n, 1, .flags f)] }

/-- The flag write when the S bit is set (R275). -/
def whenS (sf : Bool) (f : FlagWrite) : Option FlagWrite := if sf then some f else none

/-- An illegal encoding of the slot itself (R272). -/
def illegalIf (b : Bool) (detail : Nat) : Option Exc := if b then some { cause := 1, detail := detail } else none

/-! ## System instructions -/

/-- NOP (R271). -/
def execNop (t : TileNo) (last : Bool) (s : State) : Host.Outcome State Fault Refusal := s.noSlot t last

/-- YIELD (R289). -/
def execYield (t : TileNo) (last : Bool) (s : State) : Host.Outcome State Fault Refusal :=
  s.slot t last (fun _ => { ctl := .yield, transfer := true })

/-- CRET (R289). -/
def execCret (t : TileNo) (last : Bool) (s : State) : Host.Outcome State Fault Refusal :=
  s.slot t last (fun _ => { ctl := .cret, transfer := true })

/-- SETMODE imm (R274). -/
def execSetmodeImm (t : TileNo) (last : Bool) (nosat trunc : Bool) (s : State) : Host.Outcome State Fault Refusal :=
  s.slot t last (fun i => { writes := [(i.n, 2, .mode (BitVec.ofNat 2 ((if nosat then 2 else 0) + (if trunc then 1 else 0))))] })

/-- SETMODE s (R274). -/
def execSetmodeS (t : TileNo) (last : Bool) (a : Fin 16) (s : State) : Host.Outcome State Fault Refusal :=
  s.slot t last (fun i => { writes := [(i.n, 2, .mode ((i.s_ a).truncate 2))] })

/-- WAITS (R287). -/
def execWaits (t : TileNo) (last : Bool) (cycle : BitVec 13) (s : State) : Host.Outcome State Fault Refusal :=
  s.slot t last (fun _ => { ctl := .waits cycle.toNat, transfer := true })

/-- GANG (R288): a section without a record is an illegal encoding. -/
def execGang (t : TileNo) (last : Bool) (sec : Fin 16) (s : State) : Host.Outcome State Fault Refusal :=
  s.slot t last (fun i => { ctl := .gang sec, transfer := true, illegal := illegalIf (i.s.gangRec (i.n / 8) sec).isNone 1 })

/-! ## Scalar arithmetic (R275 to R277) -/

/-- ADD. -/
def execAdd (t : TileNo) (last : Bool) (d a b : Fin 16) (sf : Bool) (s : State) : Host.Outcome State Fault Refusal :=
  s.slot t last (fun i => i.scalar d (i.s_ a + i.s_ b) (whenS sf (flagsAdd (i.s_ a) (i.s_ b))))

/-- SUB. -/
def execSub (t : TileNo) (last : Bool) (d a b : Fin 16) (sf : Bool) (s : State) : Host.Outcome State Fault Refusal :=
  s.slot t last (fun i => i.scalar d (i.s_ a - i.s_ b) (whenS sf (flagsSub (i.s_ a) (i.s_ b))))

/-- An operation whose flags are N and Z. -/
def Issue.logic (i : Issue) (d : Fin 16) (r : Word) (sf : Bool) : SlotEffect := i.scalar d r (whenS sf (flagsNZ r))

/-- AND. -/
def execAnd (t : TileNo) (last : Bool) (d a b : Fin 16) (sf : Bool) (s : State) : Host.Outcome State Fault Refusal :=
  s.slot t last (fun i => i.logic d (i.s_ a &&& i.s_ b) sf)

/-- OR. -/
def execOr (t : TileNo) (last : Bool) (d a b : Fin 16) (sf : Bool) (s : State) : Host.Outcome State Fault Refusal :=
  s.slot t last (fun i => i.logic d (i.s_ a ||| i.s_ b) sf)

/-- XOR. -/
def execXor (t : TileNo) (last : Bool) (d a b : Fin 16) (sf : Bool) (s : State) : Host.Outcome State Fault Refusal :=
  s.slot t last (fun i => i.logic d (i.s_ a ^^^ i.s_ b) sf)

/-- ANDN. -/
def execAndn (t : TileNo) (last : Bool) (d a b : Fin 16) (sf : Bool) (s : State) : Host.Outcome State Fault Refusal :=
  s.slot t last (fun i => i.logic d (i.s_ a &&& ~~~(i.s_ b)) sf)

/-- A left shift by `k`, 0 to 31, and the last bit shifted out (R276). -/
def shlOut (x : Word) (k : Nat) : Word × Bool := (x <<< k, x.getLsbD (32 - k))
/-- A logical right shift. -/
def shrOut (x : Word) (k : Nat) : Word × Bool := (x >>> k, x.getLsbD (k - 1))
/-- An arithmetic right shift. -/
def asrOut (x : Word) (k : Nat) : Word × Bool := (x.sshiftRight k, x.getLsbD (k - 1))

/-- A shift by a register's low 5 bits (R275, R276). -/
def Issue.shift (i : Issue) (op : Word → Nat → Word × Bool) (d a b : Fin 16) (sf : Bool) : SlotEffect :=
  let k := (i.s_ b).toNat % 32
  let (r, c) := op (i.s_ a) k
  i.scalar d r (whenS sf (flagsShift r k c))

/-- SHL. -/
def execShl (t : TileNo) (last : Bool) (d a b : Fin 16) (sf : Bool) (s : State) : Host.Outcome State Fault Refusal :=
  s.slot t last (fun i => i.shift shlOut d a b sf)

/-- SHR. -/
def execShr (t : TileNo) (last : Bool) (d a b : Fin 16) (sf : Bool) (s : State) : Host.Outcome State Fault Refusal :=
  s.slot t last (fun i => i.shift shrOut d a b sf)

/-- ASR. -/
def execAsr (t : TileNo) (last : Bool) (d a b : Fin 16) (sf : Bool) (s : State) : Host.Outcome State Fault Refusal :=
  s.slot t last (fun i => i.shift asrOut d a b sf)

/-- The signed minimum of two words. -/
def minS (x y : Word) : Word := if x.toInt ≤ y.toInt then x else y
/-- The signed maximum. -/
def maxS (x y : Word) : Word := if x.toInt ≤ y.toInt then y else x
/-- The unsigned minimum. -/
def minU (x y : Word) : Word := if x.toNat ≤ y.toNat then x else y
/-- The unsigned maximum. -/
def maxU (x y : Word) : Word := if x.toNat ≤ y.toNat then y else x

/-- MIN. -/
def execMin (t : TileNo) (last : Bool) (d a b : Fin 16) (sf : Bool) (s : State) : Host.Outcome State Fault Refusal :=
  s.slot t last (fun i => i.logic d (minS (i.s_ a) (i.s_ b)) sf)

/-- MAX. -/
def execMax (t : TileNo) (last : Bool) (d a b : Fin 16) (sf : Bool) (s : State) : Host.Outcome State Fault Refusal :=
  s.slot t last (fun i => i.logic d (maxS (i.s_ a) (i.s_ b)) sf)

/-- MINU. -/
def execMinu (t : TileNo) (last : Bool) (d a b : Fin 16) (sf : Bool) (s : State) : Host.Outcome State Fault Refusal :=
  s.slot t last (fun i => i.logic d (minU (i.s_ a) (i.s_ b)) sf)

/-- MAXU. -/
def execMaxu (t : TileNo) (last : Bool) (d a b : Fin 16) (sf : Bool) (s : State) : Host.Outcome State Fault Refusal :=
  s.slot t last (fun i => i.logic d (maxU (i.s_ a) (i.s_ b)) sf)

/-- MULL. -/
def execMull (t : TileNo) (last : Bool) (d a b : Fin 16) (sf : Bool) (s : State) : Host.Outcome State Fault Refusal :=
  s.slot t last (fun i => i.logic d (i.s_ a * i.s_ b) sf)

/-- Bits [63:32] of the signed product. -/
def mulHigh (x y : Word) : Word := BitVec.ofInt 32 (asr (x.toInt * y.toInt) 32)

/-- MULH. -/
def execMulh (t : TileNo) (last : Bool) (d a b : Fin 16) (sf : Bool) (s : State) : Host.Outcome State Fault Refusal :=
  s.slot t last (fun i => i.logic d (mulHigh (i.s_ a) (i.s_ b)) sf)

/-- A saturating result with its flags N, Z and V (R276). -/
def Issue.saturating (i : Issue) (d : Fin 16) (x : Int) (sf : Bool) : SlotEffect :=
  let (r, v) := satLane x
  i.scalar d r (whenS sf (flagsSat r v))

/-- ABS. -/
def execAbs (t : TileNo) (last : Bool) (d a : Fin 16) (sf : Bool) (s : State) : Host.Outcome State Fault Refusal :=
  s.slot t last (fun i => i.saturating d ((i.s_ a).toInt.natAbs : Int) sf)

/-- NEG. -/
def execNeg (t : TileNo) (last : Bool) (d a : Fin 16) (sf : Bool) (s : State) : Host.Outcome State Fault Refusal :=
  s.slot t last (fun i => i.scalar d (0 - i.s_ a) (whenS sf (flagsSub 0 (i.s_ a))))

/-- CLS. -/
def execCls (t : TileNo) (last : Bool) (d a : Fin 16) (sf : Bool) (s : State) : Host.Outcome State Fault Refusal :=
  s.slot t last (fun i => i.logic d (BitVec.ofNat 32 (countSign (i.s_ a))) sf)

/-- CLZ. -/
def execClz (t : TileNo) (last : Bool) (d a : Fin 16) (sf : Bool) (s : State) : Host.Outcome State Fault Refusal :=
  s.slot t last (fun i => i.logic d (BitVec.ofNat 32 (countZero (i.s_ a))) sf)

/-- CMP. -/
def execCmp (t : TileNo) (last : Bool) (a b : Fin 16) (s : State) : Host.Outcome State Fault Refusal :=
  s.slot t last (fun i => i.flagsOnly (flagsSub (i.s_ a) (i.s_ b)))

/-- TST. -/
def execTst (t : TileNo) (last : Bool) (a b : Fin 16) (s : State) : Host.Outcome State Fault Refusal :=
  s.slot t last (fun i => i.flagsOnly (flagsNZ (i.s_ a &&& i.s_ b)))

/-- ADDSAT. -/
def execAddsat (t : TileNo) (last : Bool) (d a b : Fin 16) (sf : Bool) (s : State) : Host.Outcome State Fault Refusal :=
  s.slot t last (fun i => i.saturating d ((i.s_ a).toInt + (i.s_ b).toInt) sf)

/-- SUBSAT. -/
def execSubsat (t : TileNo) (last : Bool) (d a b : Fin 16) (sf : Bool) (s : State) : Host.Outcome State Fault Refusal :=
  s.slot t last (fun i => i.saturating d ((i.s_ a).toInt - (i.s_ b).toInt) sf)

/-- An immediate of 8 bits, sign-extended (R277). -/
def imm8 (x : BitVec 8) : Word := x.signExtend 32

/-- An ALUI result, which leaves STAT alone (R277). -/
def Issue.imm (i : Issue) (d : Fin 16) (r : Word) : SlotEffect := i.scalar d r none

/-- ADDI. -/
def execAddi (t : TileNo) (last : Bool) (d a : Fin 16) (imm : BitVec 8) (s : State) : Host.Outcome State Fault Refusal :=
  s.slot t last (fun i => i.imm d (i.s_ a + imm8 imm))

/-- ANDI. -/
def execAndi (t : TileNo) (last : Bool) (d a : Fin 16) (imm : BitVec 8) (s : State) : Host.Outcome State Fault Refusal :=
  s.slot t last (fun i => i.imm d (i.s_ a &&& imm8 imm))

/-- ORI. -/
def execOri (t : TileNo) (last : Bool) (d a : Fin 16) (imm : BitVec 8) (s : State) : Host.Outcome State Fault Refusal :=
  s.slot t last (fun i => i.imm d (i.s_ a ||| imm8 imm))

/-- XORI. -/
def execXori (t : TileNo) (last : Bool) (d a : Fin 16) (imm : BitVec 8) (s : State) : Host.Outcome State Fault Refusal :=
  s.slot t last (fun i => i.imm d (i.s_ a ^^^ imm8 imm))

/-- SHLI. -/
def execShli (t : TileNo) (last : Bool) (d a : Fin 16) (amt : Fin 32) (s : State) : Host.Outcome State Fault Refusal :=
  s.slot t last (fun i => i.imm d (shlOut (i.s_ a) amt).1)

/-- SHRI. -/
def execShri (t : TileNo) (last : Bool) (d a : Fin 16) (amt : Fin 32) (s : State) : Host.Outcome State Fault Refusal :=
  s.slot t last (fun i => i.imm d (shrOut (i.s_ a) amt).1)

/-- ASRI. -/
def execAsri (t : TileNo) (last : Bool) (d a : Fin 16) (amt : Fin 32) (s : State) : Host.Outcome State Fault Refusal :=
  s.slot t last (fun i => i.imm d (asrOut (i.s_ a) amt).1)

/-- CMPI. -/
def execCmpi (t : TileNo) (last : Bool) (a : Fin 16) (imm : BitVec 8) (s : State) : Host.Outcome State Fault Refusal :=
  s.slot t last (fun i => i.flagsOnly (flagsSub (i.s_ a) (imm8 imm)))

/-- MINI. -/
def execMini (t : TileNo) (last : Bool) (d a : Fin 16) (imm : BitVec 8) (s : State) : Host.Outcome State Fault Refusal :=
  s.slot t last (fun i => i.imm d (minS (i.s_ a) (imm8 imm)))

/-- MAXI. -/
def execMaxi (t : TileNo) (last : Bool) (d a : Fin 16) (imm : BitVec 8) (s : State) : Host.Outcome State Fault Refusal :=
  s.slot t last (fun i => i.imm d (maxS (i.s_ a) (imm8 imm)))

/-! ## Constants and moves (R278 to R280) -/

/-- LDI. -/
def execLdi (t : TileNo) (last : Bool) (d : Fin 16) (imm : BitVec 16) (s : State) : Host.Outcome State Fault Refusal :=
  s.slot t last (fun i => i.imm d (imm.signExtend 32))

/-- LDIH. -/
def execLdih (t : TileNo) (last : Bool) (d : Fin 16) (imm : BitVec 16) (s : State) : Host.Outcome State Fault Refusal :=
  s.slot t last (fun i => i.imm d ((imm.zeroExtend 32 <<< 16) ||| (i.s_ d &&& 0x0000FFFF#32)))

/-- A MOVX source as it reads (R279). -/
def Issue.movSrc (i : Issue) : MovSrc → Word
  | .reg r => readSReg i.bank r
  | .stat => i.bank.stat
  | .mode => i.bank.mode.zeroExtend 32
  | .ldepth => BitVec.ofNat 32 i.bank.loops.length
  | .lane v l => i.bank.getV v l
  | .scyc => BitVec.ofNat 32 i.tile.scyc

/-- The writes of a MOVX and its destination, all at distance 1 (R279). -/
def Issue.movDst (i : Issue) (x : Word) : MovDst → List RegWrite × Dest
  | .reg r => ([writeSReg r x], destSReg r)
  | .stat => ([.stat x], .stat)
  | .lane v l => ([.v v l x], .v v)
  | .allLanes v => (lanes.map (fun l => .v v l x), .v v)

/-- Class 0: an s register. -/
def srcIsS : MovSrc → Bool
  | .reg (.s _) => true
  | _ => false
/-- Class 0: an s register. -/
def dstIsS : MovDst → Bool
  | .reg (.s _) => true
  | _ => false

/-- MOVX: one of source and destination is class 0 (R279). -/
def execMovx (t : TileNo) (last : Bool) (dst : MovDst) (src : MovSrc) (s : State) : Host.Outcome State Fault Refusal :=
  s.slot t last (fun i =>
    let (ws, d) := i.movDst (i.movSrc src) dst
    { writes := ws.map (fun w => (i.n, 1, w)), dests := [d], illegal := illegalIf (!srcIsS src && !dstIsS dst) 0 })

/-! ## Branches, loops, repeats (R281 to R284) -/

/-- A branch to an index; BAL links into s15 when taken, visible from the next bundle (R282). -/
def Issue.branch (i : Issue) (cond : Cond) (annul link : Bool) (target : Nat) : SlotEffect :=
  let taken := condHolds cond i.bank.stat
  { ctl := .branch taken target annul link, transfer := true,
    writes := if link && taken then [(i.n, 1, .s 15 (BitVec.ofNat 32 (i.pc + 3)))] else [],
    dests := if link then [.s 15] else [] }

/-- B. -/
def execB (t : TileNo) (last : Bool) (cond : Cond) (annul : Bool) (target : BundleIx) (s : State) : Host.Outcome State Fault Refusal :=
  s.slot t last (fun i => i.branch cond annul false target.toNat)

/-- BAL. -/
def execBal (t : TileNo) (last : Bool) (cond : Cond) (annul : Bool) (target : BundleIx) (s : State) : Host.Outcome State Fault Refusal :=
  s.slot t last (fun i => i.branch cond annul true target.toNat)

/-- BR. -/
def execBr (t : TileNo) (last : Bool) (cond : Cond) (annul : Bool) (a : Fin 16) (s : State) : Host.Outcome State Fault Refusal :=
  s.slot t last (fun i => i.branch cond annul false (i.s_ a).toNat)

/-- LOOP. -/
def execLoop (t : TileNo) (last : Bool) (a : Fin 16) (lend : BundleIx) (s : State) : Host.Outcome State Fault Refusal :=
  s.slot t last (fun i => { ctl := .loop (i.s_ a).toNat lend.toNat, transfer := true })

/-- LOOPI. -/
def execLoopi (t : TileNo) (last : Bool) (count : BitVec 9) (lend : BundleIx) (s : State) : Host.Outcome State Fault Refusal :=
  s.slot t last (fun _ => { ctl := .loop count.toNat lend.toNat, transfer := true })

/-- RPT: a COUNT above 1,024 is illegal, a register value above it acts as 1,024 (R284). -/
def execRpt (t : TileNo) (last : Bool) (count : RptCount) (s : State) : Host.Outcome State Fault Refusal :=
  s.slot t last (fun i => match count with
    | .imm c => { ctl := .rpt c.toNat, transfer := true, illegal := illegalIf (decide (1024 < c.toNat)) 1 }
    | .reg a => { ctl := .rpt (min (i.s_ a).toNat 1024), transfer := true })

/-! ## Function unit (R244, R245, R285, R286) -/

/-- A function-unit operation: result and STAT.FUR at distance 8. -/
def Issue.unit (i : Issue) (op : FuOp) (d a b : Fin 16) : SlotEffect :=
  let (r, out) := fuResult op (i.s_ a) (i.s_ b)
  { fu := some (op, d), dests := [.s d],
    writes := (i.n, 8, .s d r) :: (if out then [(i.n, 8, .sticky (bitWord statFur true))] else []) }

/-- RCP. -/
def execRcp (t : TileNo) (last : Bool) (d a : Fin 16) (s : State) : Host.Outcome State Fault Refusal :=
  s.slot t last (fun i => i.unit .rcp d a 0)

/-- RSQ. -/
def execRsq (t : TileNo) (last : Bool) (d a : Fin 16) (s : State) : Host.Outcome State Fault Refusal :=
  s.slot t last (fun i => i.unit .rsq d a 0)

/-- LOG2. -/
def execLog2 (t : TileNo) (last : Bool) (d a : Fin 16) (s : State) : Host.Outcome State Fault Refusal :=
  s.slot t last (fun i => i.unit .log2 d a 0)

/-- EXP2. -/
def execExp2 (t : TileNo) (last : Bool) (d a : Fin 16) (s : State) : Host.Outcome State Fault Refusal :=
  s.slot t last (fun i => i.unit .exp2 d a 0)

/-- DIV. -/
def execDiv (t : TileNo) (last : Bool) (d a b : Fin 16) (s : State) : Host.Outcome State Fault Refusal :=
  s.slot t last (fun i => i.unit .div d a b)

end Sys2Proof.Machine
end

