-- ==== Sys2Proof/Machine/TileMem.lean ====
section
/-!
DEFINITION. The M slot: loads, stores and pointer arithmetic (R248 to R256, R290 to R299).
-/

namespace Sys2Proof.Machine

/-! ## Accesses -/

/-- The byte address of offset x of tile m, modulo the memory's size (R248, R254). -/
def tileByte (m x : Nat) : Nat := tileBase m + x % 131072

/-- The words that k bytes from offset x touch, in order. -/
def touched (m x k : Nat) : List Nat := ((upto k).map (fun j => tileByte m (x + j) / 4 * 4)).eraseDups

/-- Bytes of tile m from offset x, each address modulo 2^17 (R254). -/
def Issue.bytes (i : Issue) (m x k : Nat) : List Byte := (upto k).map (fun j => i.s.rdB (tileByte m (x + j)))

/-- A word of tile m from offset x, least significant byte first. -/
def Issue.word (i : Issue) (m x : Nat) : Word := BitVec.ofNat 32 (leNat (i.bytes m x 4))

/-- Of words read, those with a corrected error, and the exception of the first uncorrectable one (R258, R326). -/
def Issue.check (i : Issue) (detail : Nat) (ws : List (Nat × Nat)) : List Nat × Option (Exc × Nat) :=
  let e (a : Nat) : Nat := mget 0 i.s.ms.ecc a
  ((ws.map (·.2)).filter (fun a => decide (e a ≠ 0) && decide (e a < 64)),
   (ws.find? (fun w => e w.2 == 64)).map (fun w => (({ cause := 2, detail := detail, addr := w.2 - tileBase w.1 } : Exc), w.1)))

/-- The misaligned-access exception (R253). -/
def Issue.misaligned (i : Issue) (x k : Nat) : Option (Exc × Nat) :=
  if x % k = 0 then none else some ({ cause := 3, detail := if k = 16 then 1 else 0, addr := x }, i.n)

/-- A load of k bytes at offset x by each member of a list; `align` is 1 for a rotating or packed access. -/
def Issue.loading (i : Issue) (ms : List Nat) (x k align : Nat) (e : SlotEffect) : SlotEffect :=
  let (r, u) := i.check 0 (ms.flatMap (fun m => (touched m x k).map (fun a => (m, a))))
  { e with kind := .m, reads := e.reads ++ r, exc := firstExc [e.exc, i.misaligned x align, u] }

/-- A store of bytes at offset x of tile m, word by word; each byte's address is taken modulo 2^17 (R254, R256). -/
def storeBytes (m x : Nat) (bs : List Byte) : List (Nat × List Byte) :=
  (touched m x bs.length).map (fun w =>
    let mine := (bs.zipIdx.filter (fun e => tileByte m (x + e.2) / 4 * 4 == w))
    (match mine.head? with | some e => tileByte m (x + e.2) | none => w, mine.map (·.1)))

/-- A store at offset x by each member, of the bytes `f m`; words written in part are merged (R256, R258). -/
def Issue.storing (i : Issue) (ms : List Nat) (x align : Nat) (f : Nat → List Byte) (e : SlotEffect) : SlotEffect :=
  let st := ms.flatMap (fun m => (storeBytes m x (f m)).map (fun w => (m, w)))
  let part := (st.filter (fun w => decide (w.2.2.length ≠ 4))).map (fun w => (w.1, w.2.1 / 4 * 4))
  let (r, u) := i.check 1 part
  { e with kind := .m, stores := st.map (·.2), reads := e.reads ++ r, exc := firstExc [e.exc, i.misaligned x align, u] }

/-- The access address and the post-modification of a pointer, as writes and destinations of the issuing tile (R291). -/
def Issue.post (i : Issue) (ptr : Fin 8) (size : Nat) (post : Post) : SlotEffect :=
  { kind := .m, writes := (postWrite i.bank ptr size post).map (fun w => (i.n, 1, w)), dests := postDest ptr post }

/-- The access address of pointer `ptr` with an offset (R248). -/
def Issue.addr (i : Issue) (ptr : Fin 8) (off : Nat) : Nat := accessAddr i.bank ptr off

/-- A slot's effect with further writes and a further destination. -/
def SlotEffect.plus (e : SlotEffect) (ws : List (Nat × Nat × RegWrite)) (ds : List Dest) : SlotEffect :=
  { e with writes := ws ++ e.writes, dests := ds ++ e.dests }

/-! ## Scalar and vector access -/

/-- LDS (R292): a load whose destination is its own post-modified pointer is illegal. -/
def execLds (t : TileNo) (last : Bool) (r : SReg) (ptr : Fin 8) (post : Post) (rot : Bool) (off : Fin 16) (s : State) :
    Host.Outcome State Fault Refusal :=
  s.slot t last (fun i =>
    let x := i.addr ptr (4 * off)
    i.loading [i.n] x 4 (if rot then 1 else 4) ((i.post ptr 4 post).plus [(i.n, 2, writeSReg r (i.word i.n x))] [destSReg r]))

/-- STS (R292); in a ganged section every member's memory takes tile 0's value (R308). -/
def execSts (t : TileNo) (last : Bool) (r : SReg) (ptr : Fin 8) (post : Post) (rot : Bool) (off : Fin 16) (s : State) :
    Host.Outcome State Fault Refusal :=
  s.slot t last (fun i =>
    { i.storing i.members (i.addr ptr (4 * off)) (if rot then 1 else 4) (fun _ => leBytes 4 (readSReg i.bank r).toNat) (i.post ptr 4 post) with
      gangSts := true })

/-- The writes of a vector load into v_r of each member, at distance 2. -/
def Issue.vector (i : Issue) (r : Fin 16) (x : Nat) : List (Nat × Nat × RegWrite) :=
  i.members.flatMap (fun m => lanes.map (fun l => (m, 2, RegWrite.v r l (i.word m (x + 4 * l)))))

/-- The writes of a broadcast load. -/
def Issue.broadcast (i : Issue) (r : Fin 16) (x : Nat) : List (Nat × Nat × RegWrite) :=
  i.members.flatMap (fun m => lanes.map (fun l => (m, 2, RegWrite.v r l (i.word m x))))

/-- LDV (R293). -/
def execLdv (t : TileNo) (last : Bool) (v : Fin 16) (ptr : Fin 8) (post : Post) (off : Fin 32) (s : State) :
    Host.Outcome State Fault Refusal :=
  s.slot t last (fun i =>
    let x := i.addr ptr (16 * off)
    i.loading i.members x 16 16 ((i.post ptr 16 post).plus (i.vector v x) [.v v]))

/-- STV (R293). -/
def execStv (t : TileNo) (last : Bool) (v : Fin 16) (ptr : Fin 8) (post : Post) (off : Fin 32) (s : State) :
    Host.Outcome State Fault Refusal :=
  s.slot t last (fun i =>
    i.storing i.members (i.addr ptr (16 * off)) 16 (fun m => lanes.flatMap (fun l => leBytes 4 ((i.bankOf m).getV v l).toNat)) (i.post ptr 16 post))

/-- LDB (R293). -/
def execLdb (t : TileNo) (last : Bool) (v : Fin 16) (ptr : Fin 8) (post : Post) (off : Fin 32) (s : State) :
    Host.Outcome State Fault Refusal :=
  s.slot t last (fun i =>
    let x := i.addr ptr (4 * off)
    i.loading i.members x 4 4 ((i.post ptr 4 post).plus (i.broadcast v x) [.v v]))

/-- The word of a packed load: three bytes in bits [31:8] (R254). -/
def Issue.packed (i : Issue) (m x : Nat) : Word := BitVec.ofNat 32 (256 * leNat (i.bytes m x 3))

/-- LDL (R294). -/
def execLdl (t : TileNo) (last : Bool) (v : Fin 16) (lane : Fin 4) (ptr : Fin 8) (post : Post) (p3 : Bool) (off : Fin 16) (s : State) :
    Host.Outcome State Fault Refusal :=
  s.slot t last (fun i =>
    let x := i.addr ptr off
    let k := if p3 then 3 else 4
    i.loading i.members x k 1 ((i.post ptr k post).plus
      (i.members.map (fun m => (m, 2, RegWrite.v v lane (if p3 then i.packed m x else i.word m x)))) [.v v]))

/-- STL (R294, R254). -/
def execStl (t : TileNo) (last : Bool) (v : Fin 16) (lane : Fin 4) (ptr : Fin 8) (post : Post) (p3 : Bool) (off : Fin 16) (s : State) :
    Host.Outcome State Fault Refusal :=
  s.slot t last (fun i =>
    let k := if p3 then 3 else 4
    i.storing i.members (i.addr ptr off) 1 (fun m =>
      let w := ((i.bankOf m).getV v lane).toNat
      if p3 then leBytes 3 (w / 256) else leBytes 4 w) (i.post ptr k post))

/-- Bank and row of a byte offset (R251). -/
def bankRow (x : Nat) : Nat × Nat := (x / 16 % 4, x / 64)

/-- LDD (R295): one stall when its accesses fall in different rows of one bank (R255); a pointer used twice is modified
at most once. -/
def execLdd (t : TileNo) (last : Bool) (pair : Fin 8) (pa : Fin 8) (posta : Post) (pb : Fin 8) (postb : Post) (bc : Bool) (s : State) :
    Host.Outcome State Fault Refusal :=
  s.slot t last (fun i =>
    let va : Fin 16 := Fin.ofNat 16 (2 * pair)
    let vb : Fin 16 := Fin.ofNat 16 (2 * pair + 1)
    let xa := i.addr pa 0
    let xb := i.addr pb 0
    let sb := if bc then 4 else 16
    let ea := i.post pa 16 posta
    let eb := i.post pb sb postb
    let e := i.loading i.members xa 16 16 (ea.plus eb.writes eb.dests)
    let e := i.loading i.members xb sb sb e
    let (ba, ra) := bankRow xa
    let (bb, rb) := bankRow xb
    { e.plus (i.vector va xa ++ (if bc then i.broadcast vb xb else i.vector vb xb)) [.v va, .v vb] with
      stall := if ba = bb ∧ ra ≠ rb then 1 else 0,
      illegal := if pa = pb ∧ posta ≠ .none ∧ postb ≠ .none then some { cause := 1, detail := 2 } else none })

/-- STAT.SAT bits of lanes that went out of range, at a distance, of member m. -/
def satWrites (m d : Nat) (ls : List (Fin 4 × Bool)) : List (Nat × Nat × RegWrite) :=
  let w := ls.foldl (fun (x : Word) e => if e.2 then x ||| satBit e.1 else x) 0
  if w = 0 then [] else [(m, d, .sticky w)]

/-- STA (R297): the conversion of R246 with the MODE at issue, reading the accumulator as any non-MAC reader does. -/
def execSta (t : TileNo) (last : Bool) (acc : Fin 2) (conv : Conv) (ptr : Fin 8) (post : Post) (sel : StaLanes) (s : State) :
    Host.Outcome State Fault Refusal :=
  s.slot t last (fun i =>
    let cv (m : Nat) (l : Fin 4) : Word × Bool := convert i.bank.mode conv ((i.bankOf m).getA acc l)
    let ls : List (Fin 4) := match sel with | .four => lanes | .one l => [l]
    let k := match sel with | .four => 16 | .one _ => 4
    let e := i.storing i.members (i.addr ptr 0) k (fun m => ls.flatMap (fun l => leBytes 4 (cv m l).1.toNat)) (i.post ptr k post)
    e.plus (i.members.flatMap (fun m => satWrites m 2 (ls.map (fun l => (l, (cv m l).2))))) [])

/-! ## Pointer arithmetic (R298) -/

/-- LEA. -/
def execLea (t : TileNo) (last : Bool) (pd pa : Fin 8) (imm : BitVec 10) (s : State) : Host.Outcome State Fault Refusal :=
  s.slot t last (fun i => { kind := .m, writes := [(i.n, 1, .p pd (i.bank.getP pa + imm.signExtend 17))], dests := [.p pd] })

/-- STEP. -/
def execStepPtr (t : TileNo) (last : Bool) (ptr : Fin 8) (s : State) : Host.Outcome State Fault Refusal :=
  s.slot t last (fun i => i.post ptr 0 .byM)

end Sys2Proof.Machine
end

