-- ==== Sys2Proof/Machine/TileLane.lean ====
section
/-!
DEFINITION. The L slot: products, accumulator operations, conversions, lane arithmetic, shifts and permutations, in every
executing member (R242 to R247, R265, R300 to R306).
-/

namespace Sys2Proof.Machine

/-! ## Accumulators -/

/-- An accumulator write of every lane of every member at distance 2: `f m l` is the exact sum, and whether a wrap sets
STAT.AOV. -/
def Issue.accumulate (i : Issue) (acc : Fin 2) (wraps : Bool) (f : Nat → Fin 4 → Int) : SlotEffect :=
  { kind := .l, dests := [.a acc],
    writes := i.members.flatMap (fun m =>
      let aov := lanes.foldl (fun (x : Word) l => if wraps && accWraps (f m l) then x ||| aovBit l else x) 0
      lanes.map (fun l => (m, 2, RegWrite.a acc l (BitVec.ofInt 72 (f m l)))) ++ (if aov = 0 then [] else [(m, 2, .sticky aov)])) }

/-- The aligned product of a lane (R301). -/
def Issue.product (i : Issue) (form : MacForm) (va vb : Fin 16) (m : Nat) (l : Fin 4) : Int :=
  macProduct form ((i.bankOf m).getV va l) ((i.bankOf m).getV vb l)

/-- A v register's lane times 2^32 (R303). -/
def Issue.lifted (i : Issue) (v : Fin 16) (m : Nat) (l : Fin 4) : Int := ((i.bankOf m).getV v l).toInt * 2 ^ 32

/-- MUL (R301). -/
def execMul (t : TileNo) (last : Bool) (form : MacForm) (acc : Fin 2) (va vb : Fin 16) (s : State) : Host.Outcome State Fault Refusal :=
  s.slot t last (fun i => i.accumulate acc false (i.product form va vb))

/-- MAC (R301). -/
def execMac (t : TileNo) (last : Bool) (form : MacForm) (acc : Fin 2) (va vb : Fin 16) (s : State) : Host.Outcome State Fault Refusal :=
  s.slot t last (fun i => i.accumulate acc true (fun m l => (i.chain m acc l).toInt + i.product form va vb m l))

/-- MSU (R301). -/
def execMsu (t : TileNo) (last : Bool) (form : MacForm) (acc : Fin 2) (va vb : Fin 16) (s : State) : Host.Outcome State Fault Refusal :=
  s.slot t last (fun i => i.accumulate acc true (fun m l => (i.chain m acc l).toInt - i.product form va vb m l))

/-- CLR (R303). -/
def execClr (t : TileNo) (last : Bool) (acc : Fin 2) (s : State) : Host.Outcome State Fault Refusal :=
  s.slot t last (fun i => i.accumulate acc false (fun _ _ => 0))

/-- LDA (R303). -/
def execLda (t : TileNo) (last : Bool) (acc : Fin 2) (v : Fin 16) (s : State) : Host.Outcome State Fault Refusal :=
  s.slot t last (fun i => i.accumulate acc false (i.lifted v))

/-- ADDA (R303). -/
def execAdda (t : TileNo) (last : Bool) (acc : Fin 2) (v : Fin 16) (s : State) : Host.Outcome State Fault Refusal :=
  s.slot t last (fun i => i.accumulate acc true (fun m l => (i.chain m acc l).toInt + i.lifted v m l))

/-- SUBA (R303). -/
def execSuba (t : TileNo) (last : Bool) (acc : Fin 2) (v : Fin 16) (s : State) : Host.Outcome State Fault Refusal :=
  s.slot t last (fun i => i.accumulate acc true (fun m l => (i.chain m acc l).toInt - i.lifted v m l))

/-- SUMA (R303): the sum of each member's four lanes, into lane 0. -/
def execSuma (t : TileNo) (last : Bool) (acc : Fin 2) (s : State) : Host.Outcome State Fault Refusal :=
  s.slot t last (fun i => i.accumulate acc true (fun m l =>
    if l = 0 then lanes.foldl (fun (x : Int) k => x + (i.chain m acc k).toInt) 0 else 0))

/-- CVT (R302). -/
def execCvt (t : TileNo) (last : Bool) (vd : Fin 16) (acc : Fin 2) (conv : Conv) (s : State) : Host.Outcome State Fault Refusal :=
  s.slot t last (fun i =>
    let cv (m : Nat) (l : Fin 4) : Word × Bool := convert i.bank.mode conv ((i.bankOf m).getA acc l)
    { kind := .l, dests := [.v vd],
      writes := i.members.flatMap (fun m => lanes.map (fun l => (m, 2, RegWrite.v vd l (cv m l).1)) ++
        satWrites m 2 (lanes.map (fun l => (l, (cv m l).2)))) })

/-! ## Lane arithmetic -/

/-- A lane result at distance 1 from lane l of member m, with its saturation event. -/
def Issue.lane (i : Issue) (vd : Fin 16) (f : Nat → Fin 4 → Word × Bool) : SlotEffect :=
  { kind := .l, dests := [.v vd],
    writes := i.members.flatMap (fun m => lanes.map (fun l => (m, 1, RegWrite.v vd l (f m l).1)) ++
      satWrites m 1 (lanes.map (fun l => (l, (f m l).2)))) }

/-- An operation on two lanes without a saturation event. -/
def Issue.lane2 (i : Issue) (vd va vb : Fin 16) (f : Word → Word → Word) : SlotEffect :=
  i.lane vd (fun m l => (f ((i.bankOf m).getV va l) ((i.bankOf m).getV vb l), false))

/-- A saturating operation on two lanes. -/
def Issue.lane2s (i : Issue) (vd va vb : Fin 16) (f : Int → Int → Int) : SlotEffect :=
  i.lane vd (fun m l => satLane (f ((i.bankOf m).getV va l).toInt ((i.bankOf m).getV vb l).toInt))

/-- An operation on one lane without a saturation event. -/
def Issue.lane1 (i : Issue) (vd va : Fin 16) (f : Word → Word) : SlotEffect :=
  i.lane vd (fun m l => (f ((i.bankOf m).getV va l), false))

/-- A saturating operation on one lane. -/
def Issue.lane1s (i : Issue) (vd va : Fin 16) (f : Int → Int) : SlotEffect :=
  i.lane vd (fun m l => satLane (f ((i.bankOf m).getV va l).toInt))

/-- All ones or 0 (R304). -/
def ones (b : Bool) : Word := if b then 0xFFFFFFFF#32 else 0

/-- VADD. -/
def execVadd (t : TileNo) (last : Bool) (vd va vb : Fin 16) (s : State) : Host.Outcome State Fault Refusal :=
  s.slot t last (fun i => i.lane2 vd va vb (fun x y => x + y))
/-- VSUB. -/
def execVsub (t : TileNo) (last : Bool) (vd va vb : Fin 16) (s : State) : Host.Outcome State Fault Refusal :=
  s.slot t last (fun i => i.lane2 vd va vb (fun x y => x - y))
/-- VADDS. -/
def execVadds (t : TileNo) (last : Bool) (vd va vb : Fin 16) (s : State) : Host.Outcome State Fault Refusal :=
  s.slot t last (fun i => i.lane2s vd va vb (fun x y => x + y))
/-- VSUBS. -/
def execVsubs (t : TileNo) (last : Bool) (vd va vb : Fin 16) (s : State) : Host.Outcome State Fault Refusal :=
  s.slot t last (fun i => i.lane2s vd va vb (fun x y => x - y))
/-- VMIN. -/
def execVmin (t : TileNo) (last : Bool) (vd va vb : Fin 16) (s : State) : Host.Outcome State Fault Refusal :=
  s.slot t last (fun i => i.lane2 vd va vb (fun x y => if x.toInt ≤ y.toInt then x else y))
/-- VMAX. -/
def execVmax (t : TileNo) (last : Bool) (vd va vb : Fin 16) (s : State) : Host.Outcome State Fault Refusal :=
  s.slot t last (fun i => i.lane2 vd va vb (fun x y => if x.toInt ≤ y.toInt then y else x))
/-- VABS. -/
def execVabs (t : TileNo) (last : Bool) (vd va : Fin 16) (s : State) : Host.Outcome State Fault Refusal :=
  s.slot t last (fun i => i.lane1s vd va (fun x => (x.natAbs : Int)))
/-- VNEG. -/
def execVneg (t : TileNo) (last : Bool) (vd va : Fin 16) (s : State) : Host.Outcome State Fault Refusal :=
  s.slot t last (fun i => i.lane1s vd va (fun x => -x))
/-- VAND. -/
def execVand (t : TileNo) (last : Bool) (vd va vb : Fin 16) (s : State) : Host.Outcome State Fault Refusal :=
  s.slot t last (fun i => i.lane2 vd va vb (fun x y => x &&& y))
/-- VOR. -/
def execVor (t : TileNo) (last : Bool) (vd va vb : Fin 16) (s : State) : Host.Outcome State Fault Refusal :=
  s.slot t last (fun i => i.lane2 vd va vb (fun x y => x ||| y))
/-- VXOR. -/
def execVxor (t : TileNo) (last : Bool) (vd va vb : Fin 16) (s : State) : Host.Outcome State Fault Refusal :=
  s.slot t last (fun i => i.lane2 vd va vb (fun x y => x ^^^ y))
/-- VANDN. -/
def execVandn (t : TileNo) (last : Bool) (vd va vb : Fin 16) (s : State) : Host.Outcome State Fault Refusal :=
  s.slot t last (fun i => i.lane2 vd va vb (fun x y => x &&& ~~~y))
/-- VCMPGT. -/
def execVcmpgt (t : TileNo) (last : Bool) (vd va vb : Fin 16) (s : State) : Host.Outcome State Fault Refusal :=
  s.slot t last (fun i => i.lane2 vd va vb (fun x y => ones (decide (y.toInt < x.toInt))))
/-- VCMPEQ. -/
def execVcmpeq (t : TileNo) (last : Bool) (vd va vb : Fin 16) (s : State) : Host.Outcome State Fault Refusal :=
  s.slot t last (fun i => i.lane2 vd va vb (fun x y => ones (x == y)))
/-- VMOV. -/
def execVmov (t : TileNo) (last : Bool) (vd va : Fin 16) (s : State) : Host.Outcome State Fault Refusal :=
  s.slot t last (fun i => i.lane1 vd va (fun x => x))
/-- VSHL (R305). -/
def execVshl (t : TileNo) (last : Bool) (vd va : Fin 16) (amt : Fin 32) (s : State) : Host.Outcome State Fault Refusal :=
  s.slot t last (fun i => i.lane1 vd va (fun x => x <<< amt.val))
/-- VSHR. -/
def execVshr (t : TileNo) (last : Bool) (vd va : Fin 16) (amt : Fin 32) (s : State) : Host.Outcome State Fault Refusal :=
  s.slot t last (fun i => i.lane1 vd va (fun x => x >>> amt.val))
/-- VASR. -/
def execVasr (t : TileNo) (last : Bool) (vd va : Fin 16) (amt : Fin 32) (s : State) : Host.Outcome State Fault Refusal :=
  s.slot t last (fun i => i.lane1 vd va (fun x => x.sshiftRight amt.val))
/-- VSHLS. -/
def execVshls (t : TileNo) (last : Bool) (vd va : Fin 16) (amt : Fin 32) (s : State) : Host.Outcome State Fault Refusal :=
  s.slot t last (fun i => i.lane1s vd va (fun x => x * ((2 ^ amt.val : Nat) : Int)))
/-- VPERM (R306): lane j takes lane SEL[2j + 1 : 2j]. -/
def execVperm (t : TileNo) (last : Bool) (vd va : Fin 16) (sel : BitVec 8) (s : State) : Host.Outcome State Fault Refusal :=
  s.slot t last (fun i => i.lane vd (fun m l => ((i.bankOf m).getV va (Fin.ofNat 4 (sel.toNat / 4 ^ l.val)), false)))

end Sys2Proof.Machine
end

