-- ==== Sys2Proof/Machine/TileCmds.lean ====
section
/-!
DEFINITION. Steward work on tiles: restoring a word after an uncorrectable error, powering a domain up and taking a zone
gain's learned floor (R154, R264, R334, R527, R582).
-/

namespace Sys2Proof.Machine

/-- The parts of a run of bytes that starts at offset `o` of an area made of ranges. -/
def spread : List (Nat × Nat) → Nat → List Byte → List (Nat × List Byte)
  | [], _, _ => []
  | r :: l, o, bs =>
    if bs = [] then []
    else if r.2 ≤ o then spread l (o - r.2) bs
    else (r.1 + o, bs.take (r.2 - o)) :: spread l 0 (bs.drop (r.2 - o))

/-- Bytes written to the scene staging area from offset `o` up (R193). -/
def State.stageWrite (s : State) (im : Image) (o : Nat) (bs : List Byte) : State :=
  (spread (areaRanges im.mpdMap 2) o bs).foldl (fun (s : State) e => s.wrBytes e.1 e.2) s

/-- `n` bytes of the scene staging area from offset `o` up. -/
def State.stageRead (s : State) (im : Image) (o n : Nat) : List Byte :=
  (spread (areaRanges im.mpdMap 2) o (List.replicate n 0)).flatMap (fun e => s.rdBytes e.1 e.2.length)

/-- Where a scene's record lies in the staging area: hot records one after the other, then the cold slots (R192, R193,
assumption 139). -/
def State.stageAt (s : State) (im : Image) (c : SceneRec) : Option Nat :=
  if c.hot then some (hotOffset im c.scene)
  else (s.scn.coldSlots.find? (fun e => e.2 == c.scene)).map (fun e => hotOffset im 1024 + e.1 * coldSize im)

/-- A directory entry (R216). -/
def dirEntry (c : SceneRec) : List Byte :=
  let flags := (if c.hot then 1 else 0) + (if c.topo.isSome then 2 else 0) + (if c.full then 4 else 0)
  leBytes 4 c.offset ++ leBytes 4 c.bytes.length ++ leBytes 2 flags ++ leBytes 1 c.priority ++ leBytes 1 c.law ++ leBytes 2 c.xfMs
    ++ leBytes 2 c.rampMs ++ c.digest

/-- A scene as its staged record has it: what the image holds, or, when a write has changed the staged bytes, what they say;
none when they say nothing (assumption 139). -/
def State.staged (s : State) (im : Image) (c : SceneRec) : Option SceneRec :=
  match s.stageAt im c with
  | some o =>
    let b := s.stageRead im o c.bytes.length
    if b = c.bytes then some c else (readRecord im.rate96 c.scene (dirEntry c) b).map (sceneParams im.tiles)
  | none => some c

/-- The record of a scene (R175, R216). -/
def State.sceneRec (s : State) (scene : Nat) : Option SceneRec :=
  match s.image with
  | some im => (im.scenes.find? (fun c => c.scene == scene)).bind (s.staged im)
  | none => none

/-- An uncorrectable error stands in a scene's staged record (R228, R527). -/
def State.stageBad (s : State) (scene : Nat) : Bool :=
  match s.image with
  | some im =>
    match im.scenes.find? (fun c => c.scene == scene) with
    | some c =>
      match s.stageAt im c with
      | some o => (spread (areaRanges im.mpdMap 2) o c.bytes).any (fun e =>
          (wordsOf e.1 e.2.length).any (fun w => decide (64 ≤ mget 0 s.ms.ecc w)))
      | none => false
    | none => false
  | none => false

/-- Flash address and length of a scene's record in the booted slot, and its digest (R193, R216). -/
def State.recordAt (s : State) (scene : Nat) : Nat × Nat × List Byte :=
  match s.image with
  | some im =>
    match im.scenes.find? (fun c => c.scene == scene) with
    | some c => (s.nvm.slotBase s.nvm.booted + im.scenesAt + c.offset, c.bytes.length, c.digest)
    | none => (0, 0, [])
  | none => (0, 0, [])

/-- The word of a parameter in a scene's record, coded, when it names one (R176). -/
def State.sceneWord (s : State) (scene : Nat) (r : NodeRec) (k : Nat) : Option Word :=
  match s.sceneRec scene with
  | some c => ((c.entries.reverse).find? (fun e => e.inst == r.inst && e.param == k)).map (fun e => (s.codeOf r k).store e.value)
  | none => none

/-- The word of tile data memory at device-bus address `a` as the image has it (R334, R527). -/
def State.imageWord (s : State) (a : Nat) : Word :=
  let par := s.scn.nodes.findSome? (fun r =>
    ((upto r.paramWords).find? (fun k => paramAddr r k == a)).map (fun k => (r, k)))
  match par with
  | some (r, k) => (s.sceneWord s.scn.current r k).getD ((r.params[k]?).getD 0)
  | none =>
    let n := tileOf a
    initWord (s.liveInit n) (a - tileBase n)

/-- The code word a physical instruction memory holds at `a`, from the program of its role (R334). -/
def State.codeWord (s : State) (a : Nat) : Word :=
  let n := tileOf a
  let o := a % 0x40000
  let phys := decide (0x28000 ≤ o)
  let code := if phys == (s.tile n).frontIsB then (s.prog n).code
    else match mget none s.scn.backs n with | some p => p.code | none => []
  let b := (code[o % 0x4000 / 8]?).getD (0, 0)
  if o % 8 = 0 then b.1 else b.2

/-- An instruction-memory word written with new check bits: `o` is the byte offset in physical memory `x` of tile n. -/
def State.wrImem (s : State) (n x o : Nat) (bs : List Byte) : State :=
  let a := tileBase n + 0x20000 + 0x8000 * x + o
  let s := { s with imem := memPut s.imem (32768 * n + 16384 * x + o) bs }
  if s.ms.ecc.isEmpty && s.flt.armed.isNone then s else s.eccWrite (wordsOf a bs.length)

/-- A flash read for the rewrite of a tile word. -/
def rewriteOf (a : Nat) : FlashFor → Bool
  | .tileWord b => b == a
  | _ => false

/-- ECC_WORD_REWRITE: the steward's read of a word's source from flash is over and the word is written back; the tile restarts
at the next strobe (R334, R611). -/
def execEccWordRewrite (a : Word) (s : State) : Host.Outcome State Fault Refusal :=
  let a := a.toNat
  .next (if s.ms.tileBad.contains a ∧ s.reading (rewriteOf a) then
      let n := tileOf a
      let s := ({ s with ms := { s.ms with tileBad := s.ms.tileBad.filter (· ≠ a) } } : State).readOver (rewriteOf a)
      let s := if a % 0x40000 < 0x20000 then s.wr32 a (s.imageWord a)
        else s.wrImem n (if a % 0x40000 < 0x28000 then 0 else 1) (a % 0x4000) (leBytes 4 (s.codeWord a).toNat)
      s.setTile n { s.tile n with restartIn := 1 }
    else s)

/-- A domain that powers up from off: its memories hold 0 with valid check bits (R264, R520).  A tile that powers up from
retention keeps its memories but for its state area; its registers are 0 (R81, R232, R263). -/
def State.powerUp (s : State) (d : Nat) : State :=
  if s.domSt d ≠ .off then
    if d < 64 ∧ s.domSt d = .retention then (s.setDom d .on).wakeTile d else s.setDom d .on
  else
    let s := s.setDom d .on
    if d < 64 then
      let s := s.zeroRange (tileBase d) 0x40000
      let s := { s with imem := s.imem.filter (fun c => c.1 / 32768 ≠ d) }
      s.setTile d {}
    else if 72 ≤ d ∧ d < 76 then s.zeroRange (mpdBase + 0x00600000 * (d - 72)) 0x00600000
    else s

/-- DOMAIN_POWER_UP: a switched domain becomes usable; a tile only while its cluster fabric is on (R581, R582). -/
def execDomainPowerUp (d : Fin 80) (s : State) : Host.Outcome State Fault Refusal :=
  .next (if d.val < 64 ∧ !s.domOn (64 + d.val / 8) then s else s.powerUp d)

/-- LEARNED_FLOOR: an hour of passes is over, and the lowest noise estimate of a zone gain in it becomes LEARNED, which the
steward journals (R154). -/
def execLearnedFloor (inst : Nat) (s : State) : Host.Outcome State Fault Refusal :=
  .next (match s.node inst, s.image with
    | some r, some im =>
      let x := s.nodeSt inst
      if r.type ≠ 0x0C ∨ r.custom ∨ hourOver s.fs x = false then s
      else
        let l := mget 0 x.w 5
        let s := s.setNodeSt inst (x.put (msetAll 0 x.w [(5, mget 0 x.w 0), (6, 0)]))
        let s := s.wr32 (coefAddrOn r (nodeTile r) 0) (word16 l)
        s.journal 5 (leBytes 8 im.build ++ leBytes 2 inst ++ leBytes 2 (l % 65536).toNat)
    | _, _ => s)

end Sys2Proof.Machine
end

