-- ==== Sys2Proof/Machine/RaceOps.lean ====
section
/-!
DEFINITION. The race links: registers, synchronisation and validity of received frames, the transmit side, the commit of
the race channels (R481 to R496, R513 to R516).
-/

namespace Sys2Proof.Machine

/-- Link 3 of a twin is the twin link (R563). -/
def State.twinLink (s : State) (k : Nat) : Bool := s.twin.on && k == 3

/-- Most slots of a frame (R483). -/
def State.slotMax (s : State) : Nat := if s.rate96 then 768 else 1536

/-- Domain settings of the image that runs. -/
def State.domSet (s : State) : Option DomainSettings :=
  match s.image with
  | some im => im.domain
  | none => none

/-! ## Registers -/

/-- EN of link k is recognised as 1: it searches, and its first frame leaves in the next pass (R488, R489, R513). -/
def State.linkOn (s : State) (k : Nat) : State :=
  if s.flag (aRaceCtrl k) 0 = false ∨ (s.link k).st ≠ 0 then s
  else s.setLink k { on := true, first := s.grid.tick + 1, st := 1 }

/-- EN of link k is recognised as 0 (R513): it is OFF, its uncommitted frames are gone. -/
def State.linkOff (s : State) (k : Nat) : State :=
  if s.flag (aRaceCtrl k) 0 then s
  else
    let s := s.setLink k {}
    ({ s with race := { s.race with frames := s.race.frames.filter (fun r => r.link != k) } } : State).candStops (4 + k)

/-- A write of RACE_CTRLk: fields other than EN only while OFF; a change of EN is recognised in the next pass (R488, R513,
R697). -/
def State.writeRaceCtrl (s : State) (k : Nat) (v : Word) : State :=
  let old := s.reg (aRaceCtrl k)
  let v := v &&& 0x00FF0E01#32
  if (s.link k).st ≠ 0 ∧ (v ^^^ old) &&& 0xFFFFFFFE#32 ≠ 0 then s.setFlag (aRaceStat k) 8 true
  else
    let s := s.setReg (aRaceCtrl k) v
    if v.getLsbD 0 && !old.getLsbD 0 then s.nextly (.linkOn k) (fun s => s.linkOn k)
    else if !v.getLsbD 0 && old.getLsbD 0 then s.nextly (.linkOff k) (fun s => s.linkOff k)
    else s

/-- A write of another field of link k, in the register at `a` (R513). -/
def State.writeRaceField (s : State) (k a : Nat) (mask v : Word) : State :=
  if (s.link k).st ≠ 0 then (if v &&& mask = s.reg a &&& mask then s else s.setFlag (aRaceStat k) 8 true)
  else s.setReg a ((s.reg a &&& ~~~mask) ||| (v &&& mask))

/-! ## Reception -/

/-- The partial messages of a link are discarded (R486). -/
def State.dropParts (s : State) (k : Nat) : State :=
  let l := s.link k
  if l.part = [] then s else (s.setLink k { l with part := [] }).count aDomCntDup 15 0 l.part.length

/-- A reassembly buffer receives the bytes of a cell; the last one completes the message, whose length its header gives (R486,
R502). -/
def State.racePart (s : State) (k b : Nat) (x : RacePart) : State :=
  let l := s.link k
  if x.left = 0 then s.setLink k { l with part := mset {} l.part b {}, inbox := l.inbox ++ [x.bytes.take (40 + beAt x.bytes 2 2)] }
  else s.setLink k { l with part := mset {} l.part b x }

/-- A message that a link's cells have brought is handled: `some` is the state with it taken out (R486). -/
def State.raceTake (s : State) (k : Nat) (bs : List Byte) : Option State :=
  let l := s.link k
  if l.inbox.contains bs then some (s.setLink k { l with inbox := l.inbox.erase bs }) else none

/-- The control cells of a valid frame: messages start and go on in the reassembly buffers (R486, R506).  A message of
LENGTH bytes of payload takes 24 bytes of header and 16 of MAC beside them. -/
def State.raceCells (s : State) (k : Nat) (cells : List (List Byte)) : State :=
  cells.foldl (fun s (c : List Byte) =>
    let l := s.link k
    let b := beAt c 1 1 % 4
    let x := mget {} l.part b
    if beAt c 0 1 = 2 then
      let s := if x.left ≠ 0 then s.count aDomCntDup 15 0 1 else s
      s.racePart k b { left := ceilDiv (40 + beAt c 4 2) 30 - 1, bytes := c.drop 2 }
    else if beAt c 0 1 = 3 ∧ x.left ≠ 0 then s.racePart k b { left := x.left - 1, bytes := x.bytes ++ c.drop 2 }
    else s) s

/-- The graph pass a frame is for: the one of the three passes nearest the arrival of its comma pair whose index ends in
PASS_LO (R490). -/
def State.racePass (s : State) (fr : RaceIn) : Option Int :=
  let b : Int := (2 * fr.comma + s.cyc) / (2 * s.cyc : Nat)
  ([b, b - 1, b + 1].find? (fun (d : Int) => (s.grid.p + BitVec.ofInt 48 d).truncate 16 == fr.passLo)).map
    (fun d => s.grid.tick + d)

/-- The judgement of a frame received in SYNC: its pass when it is valid; the failed condition is counted (R490).  A bad
CRC or an invalid code is a report of SRC 0x05 (R546). -/
def State.raceJudge (s : State) (k : Nat) (fr : RaceIn) : Option Int × State :=
  let dev := match s.domSet with | some d => d.device | none => 0
  if !fr.commas then (none, s)
  else if !fr.crcOk s.rate96 || !fr.codeOk then
    let s := if fr.crcOk s.rate96 then s else s.count (aRaceErr k) 31 16 1
    let s := if fr.codeOk then s else s.count (aRaceErr k) 15 0 1
    (none, s.raise 0x05 k 0 0)
  else if fr.version ≠ 1 then (none, s)
  else if fr.mapId ≠ s.reg (aRaceMap k) then (none, s.setFlag (aRaceStat k) 7 true)
  else if fr.any = false ∧ fr.dst.toNat ≠ dev then (none, s.setFlag (aRaceStat k) 6 true)
  else
    match s.racePass fr with
    | none => (none, s.count (aRaceLate k) 15 0 1)
    | some f =>
      if 960 + s.cyc * (f + 1 - s.grid.tick) < fr.done then (none, s.count (aRaceLate k) 31 16 1)
      else (some f, s)

/-- The phase of the local strobe against the sender's, from a comma pair `a` cycles after the strobe of a pass, reduced
to half a pass either way (R498). -/
def State.racePhase (s : State) (k : Nat) (a : Int) : Int :=
  let c : Int := s.cyc
  (-(a - s.fld (aRaceCtrl k) 23 16) + c / 2) % c - c / 2

/-- The grid lets race slots carry audio: it is ALIGNED, or LOCAL in a standalone engine (R36, R484, R488, R490; log entry 148). -/
def State.slotsOn (s : State) : Bool := s.grid.state == .aligned || (s.grid.state == .localRef && s.grid.fnOn)

/-- Slots are used while the grid lets them, and while their audio fades before a re-anchoring (R42). -/
def State.slotsUsed (s : State) : Bool := s.slotsOn || s.grid.fnFade.isSome

/-- A frame takes its place in the order in which their CRCs completed, the lower link first in a tie (R492). -/
def frameIn (r : RaceRec) : List RaceRec → List RaceRec
  | [] => [r]
  | x :: xs => if r.done < x.done ∨ (r.done = x.done ∧ r.link < x.link) then r :: x :: xs else x :: frameIn r xs

/-- The frame as the receiver of link k reads it: PINV inverts lanes, LSWAP exchanges them (R514). -/
def State.raceWired (s : State) (k : Nat) (fr : RaceIn) : RaceIn :=
  let v := s.reg (aRaceCtrl k)
  let a := if v.getLsbD 10 then fr.lane0.map (~~~·) else fr.lane0
  let b := if v.getLsbD 11 then fr.lane1.map (~~~·) else fr.lane1
  if v.getLsbD 9 then { fr with lane0 := b, lane1 := a } else { fr with lane0 := a, lane1 := b }

/-- A valid frame of link k for pass f: its link cell and control cells are used; its slots wait for the commit, to be
used when both grids are aligned (R490, R36). -/
def State.raceValid (s : State) (k : Nat) (f : Int) (fr : RaceIn) : State :=
  let st := putBits (putBits (s.reg (aRaceStat k)) 26 16 fr.src.toNat) 5 5 (if fr.aligned then 1 else 0)
  let s := s.setReg (aRaceStat k) st
  let s := s.setLink k { s.link k with cell := some (fr.pass, s.grid.tick, fr.comma) }
  let s := if s.twinLink k then s else s.raceCells k (fr.msgs s.rate96)
  let ok := s.twin.on && k == 3
  let race := { s.race with
    frames := frameIn { link := k, f := f, done := s.grid.tick * s.cyc + fr.done, usable := fr.aligned && s.slotsUsed && !ok,
                        slots := if ok then [] else fr.slots s.rate96, twin := if ok then fr.twin s.rate96 else none }
      (s.race.frames.filter (fun r => !(r.link == k && r.f == f))),
    peerOk := if ok ∧ 2 ≤ f then mset 0 s.race.peerOk (f.toNat - 2) (16 + fr.rxok.toNat) else s.race.peerOk }
  { s with race := race }

/-- A frame on link k: SEARCH counts good frames, SYNC judges the frame (R489, R490). -/
def State.raceFrame (s : State) (k : Nat) (fr : RaceIn) : Option Int × State :=
  let l := s.link k
  if l.st = 0 ∨ s.domOn 78 = false then (none, s)
  else
    let s := if fr.commas then s.setFld (aRaceStat k) 15 12 (min 15 fr.skew) else s
    if l.st = 1 then
      (none, s.setLink k { l with good := if fr.commas && decide (fr.skew ≤ 8) && fr.crcOk s.rate96 then l.good + 1 else 0 })
    else
      let (v, s) := s.raceJudge k fr
      let miss := if fr.commas then 0 else l.missing + 1
      match v with
      | some f =>
        let skew := (fr.comma - s.fld (aRaceCtrl k) 23 16 + s.cyc / 2) % s.cyc - s.cyc / 2
        (some f, ((s.monitor 8 k skew).setLink k { s.link k with missing := 0, bad := 0 }).raceValid k f fr)
      | none => (none, (s.setLink k { s.link k with missing := miss, bad := l.bad + 1 }).dropParts k)

/-! ## Transmission -/

/-- The code of a twin state (R575). -/
def TwinSt.code : TwinSt → Nat
  | .none_ => 0 | .start => 1 | .active => 2 | .shadow => 3 | .copy => 4 | .verify => 5 | .diag => 6 | .failed => 7

/-- The code of a grid state (R35). -/
def GridState.code : GridState → Nat
  | .stopped => 0 | .localRef => 1 | .free => 2 | .slew => 3 | .aligned => 4 | .hold => 5

/-- The cells a message takes: header, payload and MAC, 30 bytes a cell (R486, R502). -/
def DomMsg.cells (m : DomMsg) : Nat := ceilDiv (40 + msgLen m.body) 30

/-- A message enters a link's queue of 16, or is dropped and counted (R506). -/
def State.raceQueue (s : State) (k : Nat) (m : DomMsg) : State :=
  let l := s.link k
  if l.on = false ∨ s.twinLink k ∨ s.domOn 78 = false then s
  else if 16 ≤ l.queue.length then s.count (aRaceTx k) 31 16 1
  else s.setLink k { l with queue := l.queue ++ [(m, m.cells)] }

/-- At most `n` cells of a frame are filled in queue order: the cells, and the queue left (R486). -/
def fillCells : Nat → List (DomMsg × Nat) → List (List Byte) × List (DomMsg × Nat)
  | _, [] => ([], [])
  | n, (m, c) :: q =>
    let cs := msgCells m.bytes c n
    if c ≤ n then let (d, r) := fillCells (n - c) q; (cs ++ d, r) else (cs, (m, c - n) :: q)

/-- RXOK for the frame that leaves in this pass: the links' validity in the previous pass, or in a twin link two passes
before (R487, R494). -/
def State.rxok (s : State) (k : Nat) : Nat :=
  let f : Int := (s.grid.tick : Int) - (if s.twinLink k then 2 else 1)
  (upto 4).foldl (fun n l => if s.race.frames.any (fun r => r.link == l && r.f == f) then n + 2 ^ l else n) 0

/-- The audio slots of the frame of this pass (R488, R491, R496, R550): the transmit ring frame that the output exchange
of the pass before wrote; 0 while the grid is not aligned; in the safe state only the sluice sample in slot 0. -/
def State.raceSlots (s : State) (k : Nat) : List Word :=
  let n := min s.slotMax (s.fld (aRaceTx k) 10 0)
  let base := (s.reg (aRaceTxring k)).toNat
  if s.flt.safe then
    if s.fld aFltSluiceOut 19 16 = k ∧ !s.twin.on then [s.flt.slRace] else []
  else if s.twinLink k ∨ s.slotsUsed = false ∨ base = 0 then List.replicate n 0
  else (upto n).map (fun i =>
    BitVec.ofInt 32 (s.fnScale s.grid.tick (s.rd32 (base + 4 * (n * (s.grid.tick % 2 ^ 32 % 4) + i))).toInt))

/-- The frame's header (R484): frames leave under the pair number (R25). -/
def State.raceHeader (s : State) (k n : Nat) : List Byte :=
  beBytes 1 1 ++ beBytes 1 (bit01 (s.slotsOn && !s.flt.safe) + 2 * bit01 s.flt.safe) ++ beBytes 2 s.p32 ++ beBytes 2 s.pairNo
    ++ beBytes 2 (Config.raceDst s.build k &&& 0x87FF#16).toNat ++ beBytes 1 k ++ [0] ++ beBytes 2 n
    ++ beBytes 4 (s.reg (aRaceMap k)).toNat

/-- The link cell (R487): PASS, GRID, RXOK and the engine's own number. -/
def State.linkCell (s : State) (k : Nat) : List Byte :=
  cell 1 0 (beBytes 6 s.grid.p.toNat ++ beBytes 1 s.grid.state.code ++ beBytes 1 (s.rxok k) ++ beBytes 2 s.ownNo)

/-- READY: the state is SHADOW, TWIN_PEER_ACT is consistent and the twin is not leaving (R565, R567, R592). -/
def State.twinReady (s : State) : Bool := s.twin.st == .shadow && !s.twin.notReady && s.pwr.leaving.isNone

/-- The STATE record of the frame of this pass (R563). -/
def State.twinCell (s : State) : List Byte :=
  let t := s.twin
  let start := if t.cmd = 1 then t.startP else none
  cell 4 0 (beBytes 1 t.st.code ++ beBytes 1 (bit01 t.selB + 2 * bit01 s.twinReady + 4 * bit01 s.graphRuns) ++ beBytes 2 t.matches_
    ++ beBytes 4 (s.grid.tick - 1) ++ beBytes 6 (s.grid.p - 1).toNat ++ beBytes 1 t.cmd ++ [0]
    ++ beBytes 4 (if start.isSome then t.startG else 0) ++ beBytes 6 (start.getD 0).toNat)

/-- N and c of converter c for the pass that has ended (R405): a standby's own values are not used. -/
def State.srcPair (s : State) (c : Nat) : Nat × Nat := ((s.src c).lag[1]?).getD (0, 0)

/-- The twin block of the frame of this pass, for the pass before it (R563).  The events that waited for this frame from an
earlier pass come first. -/
def State.twinBlock (s : State) : List Byte :=
  let t := s.twin
  let evs := (frameEvents 16 t.out).1
  let recs := (evs.zipIdx).flatMap (fun e => (TwinEv.parts e.1).map (evRecord (decide (e.2 < t.held))))
  let ok := (upto 128).foldl (fun (n : Nat) j => if (mget {} s.net.rx j).ownOk.contains (s.grid.tick + 1) then n + 2 ^ j else n) 0
  let l := s.link 3
  padTo (4 * slotsOf s.rate96) (beBytes 16 ok
    ++ (upto 8).flatMap (fun c => beBytes 4 (s.srcPair c).1 ++ beBytes 2 (s.srcPair c).2 ++ [0, 0])
    ++ padTo 128 recs.flatten
    ++ (match t.toSend with | some (w, d) => beBytes 4 w ++ [0, 0, 0, 0] ++ beBytes 8 d.toNat | none => List.replicate 16 0)
    ++ List.replicate 48 0
    ++ beBytes 2 l.copy.length ++ beBytes 2 t.sweeps ++ [0, 0, 0, 0]
    ++ l.copy.flatMap (fun a => beBytes 4 a ++ s.rdBytes a 64))

/-- The slot area of a frame: the twin block on the twin link, the audio slots on any other (R483, R563). -/
def State.raceArea (s : State) (k : Nat) : List Byte :=
  if s.twinLink k then s.twinBlock else padTo (4 * slotsOf s.rate96) ((s.raceSlots k).flatMap (fun w => beBytes 4 w.toNat))

/-- The CRC of a frame (R485); an injection of SRC 0x05 inverts it (R546). -/
def State.raceCrc (s : State) (k : Nat) (bs : List Byte) : Nat :=
  if s.injFor 0x05 0 k then crc32 bs ^^^ 0xFFFFFFFF else crc32 bs

/-- The frame of this pass leaves on link k (R484 to R488): the link cell, on a twin link the twin cell, then messages in
queue order. -/
def State.raceSend (s : State) (k : Nat) : State :=
  let l := s.link k
  if l.on = false ∨ s.grid.tick < l.first ∨ s.domOn 78 = false then s
  else
    let n := cellsOf s.rate96
    let (msgs, q) := fillCells (n - 1) l.queue
    let own := if s.twinLink k then [s.twinCell] else []
    let cells := s.linkCell k :: own ++ msgs
    let cells := cells ++ List.replicate (n - cells.length) (cell 0 0 [])
    let header := s.raceHeader k (if s.twinLink k then 0 else min s.slotMax (s.fld (aRaceTx k) 10 0))
    let area := s.raceArea k
    let tx : RaceTx :=
      { rd0 := l.rd0, rd1 := l.rd1, header := header, cells := cells, area := area, crc := s.raceCrc k (header ++ cells.flatten ++ area) }
    let s := if s.injFor 0x05 0 k then s.disarm else s
    s.setLink k { l with queue := q, tx := tx, copy := [], rd0 := (RaceTx.lane tx s.rate96 false).2, rd1 := (RaceTx.lane tx s.rate96 true).2 }

/-- The level of transmit lane `one` of link k, `n` quarters of a core cycle after the strobe (R481, R482, R488): the frame's bits
begin 0 to 3 cycles after it.  Before that the frame of the pass before ends, with K28.0. -/
def State.raceTxd (s : State) (k : Nat) (one : Bool) (n : Nat) : Option Bool :=
  let d := 4 * (Config.raceLaunch k).toNat
  if d ≤ n then some (RaceTx.level (s.link k).tx s.rate96 one (n - d)) else none

/-! ## Commit -/

/-- Race channel c. -/
def State.chan (s : State) (c : Nat) : Chan := mget {} s.race.chans c

/-- Links whose frames of pass f count as valid, jointly with the peer in a twin pair (R494). -/
def State.jointOk (s : State) (f : Int) (k : Nat) : Bool :=
  !s.twin.on || (decide (0 ≤ f) && (mget 0 s.race.peerOk f.toNat / 2 ^ k % 2 == 1) && decide (16 ≤ mget 0 s.race.peerOk f.toNat))

/-- The race channel that slot i of link k carries, by its slot map (R491). -/
def State.slotChan (s : State) (k i : Nat) : Option Nat :=
  let b := (s.reg (aRaceRxmap k)).toNat
  if b = 0 then none
  else
    let e := leNat (s.rdBytes (b + 2 * i) 2)
    if e = 0xFFFF ∨ s.fld aRaceNch 10 0 ≤ e % 2048 then none else some (e % 2048)

/-- The words of the complete channels of pass f: the first valid frame that carries a channel gives its word (R492). -/
def State.chanWords (s : State) (f : Int) : SMap (Option Word) :=
  (s.race.frames.filter (fun r => r.f == f && r.usable && s.jointOk f r.link)).reverse.foldl (fun m r =>
    ((upto s.slotMax).reverse).foldl (fun m i =>
      match s.slotChan r.link i with
      | some c => mset none m c (some ((r.slots[i]?).getD 0))
      | none => m) m) []

/-- The commit of pass f into the receive ring (R492, R493): a channel's word, scaled by its fade or ramp, or 0; before a
re-anchoring every channel fades (R42). -/
def State.raceCommit (s : State) (f : Int) : State :=
  let ring := (s.reg aRaceRxring).toNat
  let n := min s.slotMax (s.fld aRaceNch 10 0)
  let ok := (upto 4).foldl (fun v k =>
    if s.race.frames.any (fun r => r.link == k && r.f == f) && s.jointOk f k then v + 2 ^ k else v) 0
  let words := s.chanWords f
  let p := f.toNat
  let s := if ring = 0 then s
    else forAll (upto n) s (fun c s =>
      let w := mget none words c
      let x := s.chan c
      let x := ({ x with st := if x.st = .off then .idle else x.st } : Chan).step p (w.isSome && s.grid.fnFade.isNone)
      let s := { s with race := { s.race with chans := mset {} s.race.chans c x } }
      let y : Int := match w with | some v => x.word p v.toInt | none => 0
      s.wr32 (ring + 4 * (n * (p % 2 ^ 32 % 4) + c)) (BitVec.ofInt 32 y))
  { s with race := { s.race with valid := ok, committed := s.grid.tick + 1,
                                 frames := s.race.frames.filter (fun r => decide (f < r.f)),
                                 peerOk := s.race.peerOk.filter (fun e => decide (f < (e.1 : Int))) } }

end Sys2Proof.Machine
end

