-- ==== Sys2Proof/Machine/DomOps.lean ====
section
/-!
DEFINITION. The domain: sending, accepting and passing on domain messages, the roster, stream changes at epochs, the acting
manager (R499 to R512).
-/

namespace Sys2Proof.Machine

/-- Domain state with `f` applied. -/
def State.updDom (s : State) (f : Dom → Dom) : State := { s with dom := f s.dom }

/-- The secure region's slot holds a domain key (R503). -/
def State.keyIn (s : State) (key1 : Bool) : Bool := if key1 then s.nvm.slot1.isSome else s.nvm.slot0.isSome

/-- The engine sends domain messages: it has domain settings and a key (R503). -/
def State.domLive (s : State) : Bool :=
  match s.domSet with
  | some d => s.keyIn (d.keyId == 1)
  | none => false

/-- The configured role: 0 standalone, 1 worker, 2 standby, 3 manager (R499, R515). -/
def State.role (s : State) : Nat := match s.domSet with | some d => d.role | none => 0

/-- The engine is the acting manager. -/
def State.manages (s : State) : Bool := s.dom.st == 4

/-- FLT_STATUS as read (R574). -/
def State.fltStatus (s : State) : Word :=
  let b (n : Nat) (x : Bool) : Nat := if x then 2 ^ n else 0
  BitVec.ofNat 32 (b 31 s.flt.lock + b 30 s.flt.safe + b 29 s.sluiceAct + s.flt.lastSrc % 256 * 2 ^ 16
    + s.flt.queue.length * 2 ^ 8 + b 2 s.flt.fatal + s.fld aFltStatus 1 0)

/-! ## The sequence windows -/

/-- The key of a source's window: by source and by OWN (R504). -/
def winKey (src : Nat) (own : Bool) : Nat := 2 * src + (if own then 1 else 0)

/-- The outcomes of a sequence check. -/
inductive SeqRes where
  | fresh | duplicate
  deriving DecidableEq, Repr

/-- A window takes a sequence number (R504, R516). -/
def seqTake (w : Option SeqWindow) (q : BitVec 32) : SeqRes × SeqWindow :=
  match w with
  | none => (.fresh, { h := q, seen := [q] })
  | some w =>
    let d := (q - w.h).toInt
    if 0 < d then (.fresh, { h := q, seen := q :: w.seen.filter (fun x => decide ((q - x).toInt ≤ 1023) && decide (0 ≤ (q - x).toInt)) })
    else if -1023 ≤ d then
      if w.seen.contains q then (.duplicate, w) else (.fresh, { w with seen := q :: w.seen })
    else (.fresh, { h := q, seen := [q] })

/-- Records a sequence number of a source. -/
def State.winPut (s : State) (k : Nat) (w : SeqWindow) : State :=
  s.updDom (fun d => { d with windows := mset none d.windows k (some w) })

/-! ## Sending -/

/-- A message as it is sent: its fields and its bytes. -/
def MsgHdr.sent (h : MsgHdr) (body : MsgBody) : DomMsg :=
  { src := h.src.toNat, dst := h.dst, own := h.own, seq := h.seq, sec := h.sec, ms := h.ms, key1 := h.key1, body := body,
    bytes := msgBytes h body ++ h.mac }

/-- A message leaves on UDP and on the race links in use but `except_` (R445, R506). -/
def State.domOut (s : State) (m : DomMsg) (udp : Bool) (except_ : Option Nat) : State :=
  let s := if udp then s.netSend (.domain m) 0 else s
  forAll (upto 4) s (fun k s => if except_ = some k then s else s.raceQueue k m)

/-- Sends a domain message: an own message of a twin under its own number and counter, any other under the pair number
and the pair counter (R502 to R504); while the steward restarts it waits (R548). -/
def State.domSend (s : State) (own : Bool) (dst : MsgDst) (body : MsgBody) : State :=
  if !s.domLive then s
  else if s.svc.stewDown then { s with svc := { s.svc with waitSends := s.svc.waitSends ++ [(own, dst, body)] } }
  else
    let o := own && s.twin.on
    let p := s.grid.p.toNat
    let h : MsgHdr :=
      { domain := match s.domSet with | some d => d.domain | none => 0,
        src := BitVec.ofNat 11 (if o then s.ownNo else s.pairNo), dst := dst, own := o,
        seq := if o then s.dom.seqOwn else s.dom.seq, sec := p / s.fs, ms := p % s.fs * 1000 / s.fs,
        key1 := match s.domSet with | some d => d.keyId == 1 | none => false }
    let m := MsgHdr.sent { h with mac := s.msgMac h body } body
    let s := s.updDom (fun d => if o then { d with seqOwn := d.seqOwn + 1 } else { d with seq := d.seq + 1 })
    let k := winKey m.src o
    let s := s.winPut k (seqTake (mget none s.dom.windows k) m.seq).2
    s.domOut m true none

/-! ## Acceptance -/

/-- DST includes this engine (R502, R504). -/
def State.dstMine (s : State) (d : MsgDst) : Bool :=
  match d with
  | .all => true
  | .segment n => n.toNat == s.pairNo / 16
  | .device n => n.toNat == s.ownNo || n.toNat == s.pairNo
  | .manager => s.manages

/-- DST includes an engine of this engine's segment (R506). -/
def State.dstSegment (s : State) (d : MsgDst) : Bool :=
  match d with
  | .all | .manager => true
  | .segment n => n.toNat == s.pairNo / 16
  | .device n => n.toNat / 16 == s.pairNo / 16

/-- A message fails its MAC, DOMAIN or TIME check: counted, at most one NOTICE record a second (R504). -/
def State.authFail (s : State) : State :=
  let s := s.count aDomCntAuth 31 16 1
  if s.dom.authRec ≠ 0 ∧ s.grid.tick < s.dom.authRec - 1 + s.fs then s
  else (s.updDom (fun d => { d with authRec := s.grid.tick + 1 })).event sevNotice aDomCntAuth 16 31 (s.fld aDomCntAuth 31 16) 0

/-- TIME lies within 2 s of the receiver's own P / fs; times are compared in milliseconds (R504). -/
def State.timeNear (s : State) (h : MsgHdr) : Bool :=
  let p := s.grid.p.toNat
  let mine : Int := p * 1000 / s.fs
  let d := (h.sec * 1000 + h.ms : Int) - mine
  decide (-2000 ≤ d) && decide (d ≤ 2000)

/-- A received message is passed on once: from UDP to the race links by a gate engine when DST includes an engine of its
segment, from a race link to the other links and, by a gate engine, to UDP (R506). -/
def State.passOn (s : State) (h : MsgHdr) (body : MsgBody) : State :=
  let gate := match s.domSet with | some d => d.gate | none => false
  let m := MsgHdr.sent h body
  match h.link with
  | some k => s.domOut m gate (some k.val)
  | none => if gate && s.dstSegment h.dst then forAll (upto 4) s (fun k s => s.raceQueue k m) else s

/-- MESSAGE_ACCEPT (R503, R504, R506): whether the message is acted on here, and the state with windows, counts and
copies passed on.  A message that only DST keeps from this engine is passed on (assumption 38). -/
def State.domAccept (s : State) (h : MsgHdr) (body : MsgBody) : Bool × State :=
  match s.domSet with
  | none => (false, s)
  | some d =>
    if s.keyIn h.key1 = false ∨ s.graphRuns = false then (false, s)
    else if !s.macOk h body ∨ h.domain ≠ d.domain ∨ !s.timeNear h then (false, s.authFail)
    else if h.version ≠ 1 ∨ 1024 < msgLen body then (false, s)
    else
      let k := winKey h.src.toNat h.own
      match seqTake (mget none s.dom.windows k) h.seq with
      | (.duplicate, _) => (false, s.count aDomCntDup 31 16 1)
      | (.fresh, w) =>
        let s := (s.winPut k w).passOn h body
        (s.dstMine h.dst, s)

/-- The interface that a message comes through: an Ethernet port that is up, whose receive buffer the handler drains, or a race
link (R447, R486, R506).  `some` is the state with the message taken from it. -/
def State.msgIn (s : State) (h : MsgHdr) (body : MsgBody) : Option State :=
  if h.held then some s
  else
    match h.link with
    | none => let p := if h.port1 then 1 else 0; if s.portUp p then some (s.rxTake p) else none
    | some k => s.raceTake k.val (msgBytes h body ++ h.mac)

/-- Acts on a message that is accepted; while the steward restarts the message waits (R548). -/
def State.onMsg (s : State) (h : MsgHdr) (body : MsgBody) (f : State → State) : State :=
  match s.msgIn h body with
  | none => s
  | some s =>
    if s.svc.stewDown then { s with svc := { s.svc with waitMsgs := s.svc.waitMsgs ++ [({ h with held := true }, body)] } }
    else
      let (ok, s) := s.domAccept h body
      if ok then f s else s

/-- A message whose TYPE is none of R505 is discarded after acceptance and counted (R505). -/
def State.staleMsg (s : State) (h : MsgHdr) (body : MsgBody) : State := s.onMsg h body (fun s => s.count aDomCntAuth 15 0 1)

/-- The reassembled messages of link k whose TYPE is none of R505. -/
def State.raceStale (s : State) (k : LinkNo) : State :=
  ((s.link k).inbox.filterMap unknownMsg).foldl (fun s m => s.staleMsg { m.1 with link := some k } m.2) s

/-- The domain message that a frame without a tag carries by UDP to GROUP and UDP_PORT (R506). -/
def State.ethMsg (s : State) (f : EthFrame) : Option (List Byte) :=
  match s.domSet with
  | some d =>
    let o := if beAt f.bytes 12 2 = 0x8100 then 18 else 14
    if beAt f.bytes (o - 2) 2 = 0x0800 ∧ beAt f.bytes (o + 9) 1 = 17 ∧ beAt f.bytes (o + 16) 4 = d.group.toNat ∧ beAt f.bytes (o + 22) 2 = d.udpPort then
      some (f.bytes.drop (o + 28))
    else none
  | none => none

/-- A received frame; a domain message in it whose TYPE is none of R505 is judged (R446, R447, R505). -/
def State.ethHeard (s : State) (port : Nat) (f : EthFrame) : State :=
  let t := s.ethFrame port f
  match (s.ethMsg f).bind unknownMsg with
  | some m => if f.fcsOk && decide ((s.rxBuf port).length < (t.rxBuf port).length) then t.staleMsg { m.1 with port1 := port == 1 } m.2 else t
  | none => t

/-! ## Stream changes -/

/-- The first epoch boundary at least fs/5 passes after this one (R509). -/
def State.nextEpoch (s : State) : PassIx :=
  BitVec.ofNat 48 ((s.grid.p.toNat + s.fs / 5 + 65535) / 65536 * 65536)

/-- Stream changes wait for their epoch (R508). -/
def State.streamsAt (s : State) (e : PassIx) (es : List StreamEntry) : State :=
  if es = [] then s else s.updDom (fun d => { d with epochs := d.epochs ++ [(e, es)] })

/-- The manager sends one STREAMS message and acts on it itself (R508). -/
def State.sendStreams (s : State) (e : PassIx) (es : List StreamEntry) : State :=
  if es = [] then s else (s.domSend false .all (.streams e es)).streamsAt e es

/-- One entry takes effect (R508): streams of this engine start, stop, or stay off with a MAJOR record. -/
def State.streamEntry (s : State) (x : StreamEntry) : State :=
  let me (n : Nat) : Bool := n == s.pairNo || n == s.ownNo
  let s := if me x.sender ∧ x.tx < 128 then
      if x.action = 0 then s.setFlag (aStrmTx x.tx) 31 true
      else if x.action = 1 then s.setFlag (aStrmTx x.tx) 31 false
      else (s.setFlag (aStrmTx x.tx) 31 false).event sevMajor (aStrmTx x.tx) 31 31 0 x.tx
    else s
  match x.receiver with
  | some r =>
    if me r ∧ x.rx < 128 ∧ x.action < 2 then
      (s.setFlag (aStrmRx x.rx) 31 (x.action == 0)).rxEnable x.rx
    else s
  | none => s

/-- The entries whose epoch has come take effect (R508). -/
def State.streamEpoch (s : State) : State :=
  let due := s.dom.epochs.filter (fun e => decide (0 ≤ (s.grid.p - e.1).toInt))
  let s := s.updDom (fun d => { d with epochs := d.epochs.filter (fun e => decide ((s.grid.p - e.1).toInt < 0)) })
  due.foldl (fun s e => e.2.foldl (fun s x => s.streamEntry x) s) s

/-! ## The roster -/

/-- Roster entry of device n. -/
def State.rosterE (s : State) (n : Nat) : RosterE := mget {} s.dom.roster n
/-- The state with a roster entry replaced. -/
def State.setRoster (s : State) (n : Nat) (e : RosterE) : State :=
  s.updDom (fun d => { d with roster := mset {} d.roster n e })

/-- The domain stream table of the image (R617). -/
def State.streamRows (s : State) : List StreamRow := match s.image with | some im => im.streamTable | none => []

/-- The manager mirrors changes to the standby before it sends them to others (R500). -/
def State.sendMirror (s : State) (cs : List MirrorChange) : State :=
  match s.domSet with
  | some d => s.domSend false (.device (BitVec.ofNat 11 (if d.device = d.standby then d.manager else d.standby))) (.mirror cs)
  | none => s

/-- A device leaves the roster (R511): ABSENT, ROSTER_VER, a MAJOR record, its streams withdrawn at the next epoch.  The
streams of a twin pair are withdrawn when neither twin is present (assumption 39). -/
def State.markAbsent (s : State) (n : Nat) : State :=
  let e := s.rosterE n
  if !e.present then s
  else
    let pair := if e.twin then n / 2 * 2 else n
    let s := s.sendMirror [.device n false e.twin]
    let s := s.setRoster n { e with present := false }
    let s := (s.updDom (fun d => { d with ver := d.ver + 1 })).count aDomCntMgr 15 0 1
    let s := s.event sevMajor aDomTables 0 11 ((s.dom.roster.filter (fun x => x.2.present)).length) n
    if e.twin && (s.rosterE pair).present || e.twin && (s.rosterE (pair + 1)).present then s
    else
      let tx := s.dom.table.filter (fun r => r.sender == pair)
      let rx := s.streamRows.filter (fun r => r.receiver == pair && r.sender != pair)
      let es := tx.map (fun r => ({ sender := r.sender, tx := r.tx, action := 1, receiver := some r.receiver, rx := r.rx } : StreamEntry))
        ++ rx.map (fun r => ({ sender := pair, tx := 255, action := 1, receiver := some r.receiver, rx := r.rx } : StreamEntry))
      let s := s.sendMirror (tx.map (fun r => .stream r.sender r.tx r.receiver r.rx false))
      let s := s.updDom (fun d => { d with table := d.table.filter (fun r => r.sender != pair) })
      s.sendStreams s.nextEpoch es

/-- Entries of the stream table in use: one per transmit stream (R512). -/
def usedOf (t : List StreamRow) : Nat := ((t.map (fun r => (r.sender, r.tx))).eraseDups).length

/-- The reason to refuse a JOIN, if there is one (R510). -/
def State.joinReason (s : State) (own : Nat) (rate96 twin twinB : Bool) (build : Nat) : Option Nat :=
  match s.domSet with
  | none => some 5
  | some d =>
    if !s.manages then some 5
    else if rate96 ≠ s.rate96 then some 1
    else if (s.rosterE own).present then some 2
    else if build ≠ d.build then some 3
    else if twin && decide (own % 2 ≠ (if twinB then 1 else 0)) then some 4
    else none

/-- The manager's answer to a JOIN, in the pass after its acceptance (R510). -/
def State.joinAnswer (s : State) (own : Nat) (rate96 twin twinB : Bool) (build : Nat) : State :=
  let to_ : MsgDst := .device (BitVec.ofNat 11 own)
  match s.joinReason own rate96 twin twinB build with
  | some r => (s.domSend false to_ (.refuse r)).count aDomCntMgr 31 16 1
  | none =>
    let ep := s.nextEpoch
    let pair := if twin then own / 2 * 2 else own
    let rows := s.streamRows.filter (fun r => r.sender == pair)
    let fresh := rows.filter (fun r => !s.dom.table.contains r)
    let free := 4096 - usedOf s.dom.table
    let txs := (fresh.map (·.tx)).eraseDups.take free
    let fit := fresh.filter (fun r => txs.contains r.tx)
    let rest := ((fresh.filter (fun r => !txs.contains r.tx)).map (·.tx)).eraseDups
    let s := s.sendMirror (.device own true twin :: fit.map (fun r => .stream r.sender r.tx r.receiver r.rx true))
    let s := s.setRoster own { present := true, twin := twin, heard := s.grid.tick }
    let s := s.updDom (fun d => { d with ver := d.ver + 1, table := d.table ++ fit })
    let s := s.domSend false to_ (.admission s.dom.ver ep)
    let es := fit.map (fun r => ({ sender := r.sender, tx := r.tx, action := 0, receiver := some r.receiver, rx := r.rx } : StreamEntry))
      ++ rest.map (fun t => ({ sender := pair, tx := t, action := 2, receiver := none, rx := 0 } : StreamEntry))
    let s := s.sendStreams ep es
    if rest = [] then s
    else (s.count aDomCntMgr 31 16 rest.length).event sevMajor aDomTables 16 28 (usedOf s.dom.table) own

/-- The answers that are due leave (R510). -/
def State.joinsDue (s : State) : State :=
  let js := s.dom.joins
  let s := s.updDom (fun d => { d with joins := [] })
  js.foldl (fun s j => s.joinAnswer j.1 j.2.1 j.2.2.1 j.2.2.2.1 j.2.2.2.2) s

/-- The engine sends JOIN to the acting manager (R507, R510). -/
def State.joinSend (s : State) : State :=
  match s.domSet with
  | some d =>
    let n := ((upto 128).filter (fun i => s.fld (aStrmTx i) 22 16 != 0)).length
    let s := s.domSend true .manager (.join s.ownNo s.rate96 d.twin (d.twin && s.twin.selB) d.build n)
    s.updDom (fun x => { x with st := 1, joinAt := some s.grid.tick })
  | none => s

/-- An engine that leaves sends LEAVE (R511). -/
def State.leaveSend (s : State) : State := if s.dom.st = 2 then s.domSend true .manager .leave else s

end Sys2Proof.Machine
end

