-- ==== Sys2Proof/Machine/TwinOps.lean ====
section
/-!
DEFINITION. Twin pairs: the STATE record, relayed events, digests, hand-over, diagnosis and rejoining (R559 to R576).
-/

namespace Sys2Proof.Machine

/-- Twin state with `f` applied. -/
def State.updTwin (s : State) (f : Twin → Twin) : State := { s with twin := f s.twin }

/-- The recall that a word written to SCN_RECALL asks for (R220). -/
def State.recallOf (s : State) (v : Word) : RecallReq :=
  let ms := bits v 29 16
  let n := bits v 9 0
  let prio := match s.image with
    | some im => (match im.scenes.find? (fun r => r.scene == n) with | some r => r.priority | none => 0)
    | none => 0
  { scene := n, priority := prio, rank := 0, xf := if ms = 0x3FFF then none else some (min 10000 ms, bits v 10 10) }

/-! ## Relayed events -/

/-- A relayed event takes effect in the current pass, its acting pass (R206, R354, R396, R405). -/
def State.applyEv (s : State) (e : TwinEv) : State :=
  let n := s.grid.tick
  match e with
  | .trigger i => { s with cue := { s.cue with relayed := s.cue.relayed ++ [(n, i)] } }
  | .level pin up => s.levelAct pin up n
  | .recall v => { s with scn := { s.scn with written := s.scn.written ++ [(n + 1, s.recallOf v)] } }
  | .lock k p => s.lockAct k p n
  | .slip k => s.slipAct k n
  | .loss k => s.lossAct k n
  | .recovery k => s.recoveryAct k n
  | .cls k c => s.setClass k c
  | .naOn k j sp => s.naOn k j sp
  | .naOff k j => s.naOff k j n
  | .rate k r prev => s.rateAct k r prev n
  | .frame0 c p cyc => s.srcNumber c p cyc
  | .micStuck m => s.micStuckAct m n
  | .micBack m => s.micBackAct m n
  | .clkStuck c => s.clkStuckAct c n
  | .clkBack c => s.clkBackAct c n
  | .write a v =>
    if a = aPdmCtrl then s.writePdmCtrl v
    else if a = aPdmMicEn then s.writeMicEn v
    else if a = aPdmTrim 0 then s.writeTrim 0 v
    else if a = aPdmTrim 1 then s.writeTrim 1 v
    else if a = aPdmTrim 2 then s.writeTrim 2 v
    else if a = aPdmTrim 3 then s.writeTrim 3 v
    else forAll (upto 8) s (fun c s => if a = aSrcCtrl c then s.writeSrcCtrl c v else s)
  | .param i k v p => (s.rawWrite i k v p).2

/-- An event from the peer: in the pass of its commit, or one pass later when it missed the frame of its pass (R563). -/
def State.peerEv (s : State) (e : TwinEv × Bool) : State :=
  if e.2 then s.later (s.grid.tick + 1) (.ev e.1) else s.applyEv e.1

/-- One recognition or decision acts in the current pass. -/
def State.act (s : State) (x : Act) : State :=
  let n := s.grid.tick
  match x with
  | .ev e => s.applyEv e
  | .portOn k => s.portStart k n
  | .portOff k => (s.portStop k n).candStops (8 + k)
  | .portFade k => s.portFade k n
  | .pdmOn => s.pdmStart n
  | .pdmOff => s.pdmStop n
  | .pdmClk => s.pdmClocksOn
  | .micOn m => s.micStart m n
  | .micOff m => s.micStop m n
  | .micGo m w => s.micGo m w
  | .micAgain m => if (s.mic m).st = .off then s else s.micStart m n
  | .srcOn c => s.srcStart c
  | .srcOff c => s.srcStop c n
  | .refList => s.newList
  | .crystal => s.crystalLock
  | .outs => s.regate
  | .maint => s.maintDue
  | .quietOff => s.leaveQuiet
  | .netOn => s.netStart
  | .ptpRole old => s.ptpRecognised old
  | .rxOn j => s.rxEnable j
  | .linkOn k => s.linkOn k
  | .linkOff k => s.linkOff k

/-- Recognitions that need no graph: they are due at the strobes of BOOT too (R421). -/
def Act.early : Act → Bool
  | .refList | .crystal | .outs | .maint | .quietOff => true
  | _ => false

/-- What the current pass recognises and acts on, in the order it came (R354, R355, R396); while a twin waits in BOOT, the clocks'
recognitions alone. -/
def State.actsDue (s : State) (boot : Bool) : State :=
  let now (e : Nat × Act) : Bool := decide (e.1 ≤ s.grid.tick) && (!boot || e.2.early)
  let due := (s.grid.acts.filter now).map (·.2)
  forAll due { s with grid := { s.grid with acts := s.grid.acts.filter (fun e => !now e) } } (fun x s => s.act x)

/-! ## Rejoining -/

/-- Step 1 of a rejoin: the twin drives no shared line and waits (R572). -/
def State.rejoinStart (s : State) : State :=
  s.updTwin (fun t => { t with st := .copy, act := false, rejoinFrom := none, startP := none, returns := 0 })

/-- Step 2: REJOIN_REQ leaves in the next frame (R572). -/
def State.rejoinAsk (s : State) : State :=
  s.updTwin (fun t => { t with st := .copy, act := false, rejoinFrom := some s.grid.tick, startP := none, cmd := 2 })

/-- Link 3 is in SYNC and the skew has stayed within 16 cycles for 48 passes (R572). -/
def State.rejoinMay (s : State) : Bool := (s.link 3).st == 2 && decide (48 ≤ s.twin.skewGood)

/-- The copy set: data memory of every powered tile, Millpond areas 1 and 2, the steward state block (R572).  The block
has no address here: it comes whole with COPY_END (assumption 40). -/
def State.copySet (s : State) : List (Nat × Nat) :=
  let map := match s.image with | some im => im.mpdMap | none => []
  let areas := if map.isEmpty then [(0x11000000, 0x11400000), (0x11400000, 0x11600000)]
    else (map.filter (fun e => e.area == 1 || e.area == 2)).map (fun e => (e.base, e.base + e.bytes))
  areas ++ ((upto 64).filter (fun n => s.domOn n)).map (fun n => (tileBase n, tileBase n + 131072))

/-- Takes up to `k` blocks of 64 bytes from a list of ranges. -/
def takeBlocks : Nat → List (Nat × Nat) → List Nat × List (Nat × Nat)
  | 0, l => ([], l)
  | _, [] => ([], [])
  | k + 1, (a, b) :: l =>
    if b ≤ a then takeBlocks k l
    else let (bs, r) := takeBlocks k (if a + 64 < b then (a + 64, b) :: l else l); (a :: bs, r)

/-- A block lies in the state area of a tile (R79, R572). -/
def State.inStateArea (s : State) (b : Nat) : Bool :=
  decide (0x20000000 ≤ b) && (let p := s.prog (tileOfAddr b)
    let o := (b - 0x20000000) % 0x40000
    decide (p.stateBase < o + 64) && decide (o < p.stateBase + p.stateBytes))

/-- One pass of the active twin's copying (R572): the blocks of this frame; at the end of a sweep the dirty blocks are
swept, the last sweep being the first that finds only blocks of state areas; then COPY_END. -/
def State.copyPass (s : State) : State :=
  match s.twin.copyFrom with
  | none => s
  | some f =>
    if s.grid.tick < f then s
    else
      let s := if s.grid.tick = f then
          s.updTwin (fun t => { t with copyLeft := s.copySet, dirty := [], sweeps := 0, dirtyFound := 0, lastSweep := false })
        else s
      let (bs, rest) := takeBlocks (if s.rate96 then 41 else 86) s.twin.copyLeft
      let s := s.setLink 3 { s.link 3 with copy := bs }
      let s := s.updTwin (fun t => { t with copyLeft := rest, dirty := t.dirty.filter (fun b => !bs.contains b) })
      if rest ≠ [] then s
      else if s.twin.lastSweep then
        s.updTwin (fun t => { t with copyFrom := none, dirty := [], cmd := 3, sweeps := t.sweeps + 1, dirtyFound := 0 })
      else
        let d := s.twin.dirty
        s.updTwin (fun t => { t with sweeps := t.sweeps + 1, dirtyFound := d.length, dirty := [],
                                     copyLeft := d.map (fun b => (b, b + 64)), lastSweep := d.all (fun b => s.inStateArea b) })

/-- The answer to a REJOIN_REQ when no topology recall runs: START, for the first graph pass that is a multiple of 48 and
at least 96 passes on (R572). -/
def State.rejoinAnswer (s : State) : State :=
  if s.scn.running.isSome then s.updTwin (fun t => { t with rejoinHeld := true })
  else
    let g := (s.grid.tick + 96 + 47) / 48 * 48
    s.updTwin (fun t => { t with rejoinHeld := false, cmd := 1, startG := g % 2 ^ 32, copyFrom := some g,
                                 startP := some (s.grid.p + BitVec.ofNat 48 (g - s.grid.tick)) })

/-! ## Digests, mismatch, diagnosis -/

/-- A mismatch (R566, R570): MATCH cleared, counted, reported as SRC 0x10; diagnosis starts unless the pair is still
verifying (R576). -/
def State.mismatch (s : State) : State :=
  let s := (s.updTwin (fun t => { t with matches_ := 0 })).count aTwinEvents 15 8 1
  let s := s.raise 0x10 0 0 0
  let verifying := s.twin.st == .verify || s.twin.st == .copy || (s.twin.st == .active && (s.twin.peerSt == 4 || s.twin.peerSt == 5))
  if verifying ∨ s.twin.diagFrom.isSome then s
  else s.updTwin (fun t => { t with diagFrom := some s.grid.tick, st := if t.st = .shadow then .diag else t.st })

/-- DIGEST_COMPARE: the peer's digest of a window meets this twin's own (R566); the thousandth match makes a verifying
twin a SHADOW (R567, R572). -/
def State.digestCompare (s : State) (w : Nat) (d : BitVec 64) : State :=
  match s.twin.windowDigests.find? (fun e => e.1 == w) with
  | none => s
  | some (_, own) =>
    let s := s.updTwin (fun t => { t with peer := d, window := w, windowDigests := t.windowDigests.filter (fun e => decide (w < e.1)) })
    if (s.twin.st = .verify ∧ w < s.twin.verifyFrom) ∨ s.twin.st = .copy then s
    else if own ≠ d then s.mismatch
    else
      let s := s.updTwin (fun t => { t with matches_ := satAdd 16 t.matches_ 1 })
      if s.twin.st = .verify ∧ 1000 ≤ s.twin.matches_ then
        s.updTwin (fun t => { t with st := .shadow, yieldPin := false, returns := 0, rejoinFrom := none })
      else s

/-- REVERT: twin B yields when twin A is ready and 1,000 digests have matched (R573). -/
def State.revertDue (s : State) : State :=
  if s.twin.st = .active ∧ s.twin.selB ∧ s.flag aTwinCtrl 0 ∧ s.twin.peerReady ∧ 1000 ≤ s.twin.matches_ then s.decideYield true
  else s

/-! ## The STATE record and the twin block -/

/-- A strap conflict (R560): the graph does not run, TWIN_ACT is low, SLUICE with LOCK clear, FAILED, CRITICAL. -/
def State.strapConflict (s : State) : State :=
  let s := s.updTwin (fun t => { t with st := .failed, act := false })
  s.enterBootFail.event sevCritical aTwinState 0 2 7 0

/-- The STATE record of a valid twin frame (R560, R563, R564). -/
def State.twinState (s : State) (t : TwinIn) : State :=
  if t.b = s.twin.selB then (if s.twin.st = .failed then s else s.strapConflict)
  else
    let s := s.updTwin (fun x => { x with peerSeen := true, peerSt := t.tstate, peerReady := t.ready, peerGraph := t.graph, peerG := t.g.toNat })
    if s.twin.st = .start ∧ s.twin.selB = false ∧ s.twin.startP.isNone then
      let p := (s.grid.p.toNat + 1 + 96 + 47) / 48 * 48
      s.updTwin (fun x => { x with cmd := 1, startG := 0, startP := some (BitVec.ofNat 48 p) })
    else s

/-- The strobe skew against the peer (R562); an injection of SRC 0x11 shows 64 cycles. -/
def State.twinSkew (s : State) (a : Int) : State :=
  let k := if s.injFor 0x11 0 0 then 64 else s.racePhase 3 a
  let s := s.setReg aTwinSkew (BitVec.ofInt 32 k)
  s.updTwin (fun t => if k.natAbs ≤ 16 then { t with skewGood := t.skewGood + 1, skewBad := 0 }
    else { t with skewGood := 0, skewBad := t.skewBad + 1 })

/-- A standby's converter takes the active twin's N and c of two passes before and makes the step of the current pass (R405). -/
def State.srcHeard (s : State) (c : Nat) (v : Option (Nat × Nat)) : State :=
  (s.setSrc c { s.src c with heard := v }).srcStep c s.grid.tick

/-- The twin block of the frame of the pass before is committed (R405, R470, R563, R566, R572). -/
def State.twinCommit (s : State) (b : Option TwinIn) : State :=
  let standby := s.twin.st != .active
  let s : State := match b with
    | some t =>
      let s := if standby then forAll t.events s (fun e s => s.peerEv e) else s
      let s := if s.twin.st = .copy then t.copy.foldl (fun (s : State) e => { s with mem := memPut s.mem e.1 (e.2.take 64) }) s else s
      let s := match t.digest with | some (w, d) => s.digestCompare w.toNat d | none => s
      s.updTwin (fun x => { x with peerStrmOk := t.strmOk })
    | none => s.updTwin (fun x => { x with peerStrmOk := 0 })
  let s := if standby then forAll (upto 8) s (fun c s => s.srcHeard c (b.bind (fun t => t.srcs[c]?))) else s
  s.rxStrobe ((upto 128).filter (fun j => !s.twin.peerStrmOk.getLsbD j))

/-- The twin link has left SYNC (R571, R576): the peer counts as not READY; a copy returns to step 1. -/
def State.twinLinkLost (s : State) : State :=
  let s := s.updTwin (fun t => { t with peerReady := false, peerSeen := false, lostAt := some s.grid.tick, skewGood := 0 })
  let s := s.raise 0x11 0 0 0
  if s.twin.st = .copy then s.rejoinStart else s

/-! ## The strobe -/

/-- The graph pass P and G that a START names has come: an engine whose graph does not run starts it (R564, R572). -/
def State.startNow (s : State) : Bool :=
  match s.twin.startP with
  | some p => s.twin.on && s.pwr.mode == .boot && s.image.isSome && p == s.grid.p
  | none => false

/-- The shared lines follow TWIN_ACT: driven from the strobe at which it rises, released one pass after it falls (R568). -/
def State.linesStrobe (s : State) : State :=
  s.updTwin (fun t =>
    if t.act && !t.lines then { t with lines := true, linesFrom := s.grid.tick }
    else if !t.act && t.taking.isNone then t.dropLines (s.grid.tick + 1) else t)

/-- What a strobe does for the twin pins and waits (R564, R565, R568): `act`, `yield` and `peer` are the levels read
back. -/
def State.twinStrobe (s : State) (act yield_ peer : Bool) : State :=
  if !s.twin.on then s
  else
    let bad (k : Nat) (b : Bool) (m : SMap Nat) : SMap Nat := mset 0 m k (if b then mget 0 m k + 1 else 0)
    let st := bad 0 (act != s.twin.act) (bad 1 (yield_ != s.twin.yieldPin) (bad 2 (peer && s.twin.peerSeen && s.twin.peerSt != 2) s.twin.stuck))
    let s := s.updTwin (fun t => { t with stuck := st, notReady := t.notReady && mget 0 st 2 != 0, peerAct := peer, wait := t.wait - 1, out := (frameEvents 16 t.out).2, held := (frameEvents 16 t.out).2.length, cmd := 0, toSend := none })
    let s : State := match s.twin.yielding with
      | some (n, rev) =>
        if n + 1 ≤ s.grid.tick ∨ s.graphRuns = false then
          let s := s.updTwin (fun t => { t with yielding := none, act := false, yieldPin := !rev,
                                                st := if s.flt.lock then .failed else .shadow })
          let s := if s.pwr.mode = .run then s.setMode .shadow else s
          if rev ∨ s.flt.lock then s else s.rejoinStart
        else s
      | none => s
    let s : State := match s.twin.taking with
      | some n =>
        if n ≤ s.grid.tick then
          let s := s.updTwin (fun t => { t with taking := none, act := true })
          if s.pwr.mode = .shadow then s.setMode .run else s
        else s
      | none => s
    let s := if s.twin.st = .copy ∧ s.twin.rejoinFrom.isNone ∧ s.rejoinMay then s.rejoinAsk else s
    let s := if s.twin.rejoinHeld then s.rejoinAnswer else s
    s.linesStrobe.copyPass

end Sys2Proof.Machine
end

