-- ==== Sys2Proof/Machine/SceneOps.lean ====
section
/-!
DEFINITION. Scenes and recalls: arbitration, staging, the start, audible and swap passes, deals (R175 to R203).
-/

namespace Sys2Proof.Machine

/-- Scene state with `f` applied. -/
def State.updScn (s : State) (f : Scenes → Scenes) : State := { s with scn := f s.scn }

/-- Base addresses of the blocks whose records name no register (R650). -/
abbrev scnBase : Nat := 0x40710000
/-- The cue block. -/
abbrev cueBase : Nat := 0x40700000

/-! ## What a recall brings -/

/-- Passes of a time in milliseconds. -/
def State.msPasses (s : State) (ms : Nat) : Nat := ms * (s.fs / 1000)

/-- The delta set of a scene from the front identity (R183). -/
def State.deltaOf (s : State) (c : SceneRec) : Option DeltaSet := c.deltas.find? (fun d => d.from_ == s.scn.frontTopo)

/-- A recall of the scene needs topology work: it names an identity other than the front's (R183). -/
def State.topoWork (s : State) (c : SceneRec) : Bool :=
  match c.topo with
  | some t => t != s.scn.frontTopo
  | none => false

/-- The staging lead L (R192). -/
def State.lead (s : State) (d : Option DeltaSet) : Nat :=
  match d with
  | some d => if s.rate96 && d.tiles.any (·.powerUp) then 6 else 4
  | none => 4

/-- F, the allowance for a cold fetch (R193). -/
def State.coldF (s : State) : Nat := if s.rate96 then 1920 else 960

/-- The crossfade length K and law of a request (R179, R208, R220). -/
def State.xfOf (s : State) (c : SceneRec) (r : RecallReq) : Nat × Nat :=
  match r.xf with
  | some (ms, law) => (s.msPasses ms, law)
  | none => (s.msPasses c.xfMs, c.law)

/-- The ramp length of an entry (R180, R181): E and T parameters and MODE 1 step. -/
def State.rampLen (s : State) (c : SceneRec) (r : NodeRec) (e : SceneEntry) : Nat :=
  if e.mode ≠ 0 ∨ (s.codeOf r e.param).ramps = false then 0 else s.msPasses (e.rampMs.getD c.rampMs)

/-- An instance lies in a scene's scope (R177). -/
def sceneInScope (c : SceneRec) (i : Nat) : Bool :=
  c.full || c.scope.any (fun r => decide (r.1 ≤ i) && decide (i ≤ r.2))

/-- The entries of a recall in order of application: the image's values of the instances in scope that the scene does not
name, then the scene's own (R176, R177). -/
def State.allEntries (s : State) (c : SceneRec) : List SceneEntry :=
  (s.scn.nodes.filter (fun r => sceneInScope c r.inst)).flatMap (fun r =>
    ((upto r.paramWords).filter (fun k => !c.entries.any (fun e => e.inst == r.inst && e.param == k))).map (fun k =>
      { inst := r.inst, param := k, value := (r.params[k]?).getD 0 }))
    ++ c.entries

/-- The longest ramp of a recall's entries for the instances that are live, less one (R179). -/
def State.rampSpan (s : State) (c : SceneRec) : Nat :=
  (s.allEntries c).foldl (fun m e => match s.node e.inst with
    | some r => max m (s.rampLen c r e - 1)
    | none => m) 0

/-- The last pass of a recall that reaches its pass S (R179): of its crossfade, of its longest ramp and, without topology
work, the pass E of its entries of MODE 2. -/
def State.lastOf (s : State) (c : SceneRec) (r : Recall) : Nat :=
  max (r.s + s.rampSpan c)
    (if r.topo.isSome then r.e - 1 else if c.entries.any (fun e => e.mode == 2) then r.e else r.s)

/-! ## Recalls -/

/-- A recall recognised in pass n begins (R192, R193); a deal keeps its own pass (R199) unless its staging cannot be complete
by then, in which case it is late (R202, R223). -/
def State.newRecall (s : State) (c : SceneRec) (req : RecallReq) (n : Nat) : Recall :=
  let topo := s.topoWork c
  let d := if topo then s.deltaOf c else none
  let cold := !c.hot && req.dealId.isNone
  let pre := match d with | some d => d.preroll | none => 0
  let s0 := n + s.lead d + (if cold then s.coldF else 0)
  let own := match req.dealS with | some a => a - pre | none => s0
  let s0 := if req.dealS.isSome then max (n + s.lead d - 1) own else s0
  let (k, law) := s.xfOf c req
  { req := req, n := n, s0 := s0, s := s0 + pre, e := s0 + pre + k, topo := d.map (·.from_), xfLen := k, law := law,
    fetching := cold, late := decide (own < s0) || (req.dealId.isSome && req.dealS.isNone) }

/-- A recall is refused or dropped: a NOTICE record names the scene (R175, R183, R194). -/
def State.recallNotice (s : State) (scene : Nat) : State := s.event sevNotice scnBase 0 0 0 scene

/-- A pending or same-pass recall is dropped (R194, R196, R223). -/
def State.dropRecall (s : State) (r : RecallReq) : State := (s.count aScnCounts 15 0 1).recallNotice r.scene

/-- A topology request becomes the pending recall in place of an earlier one (R194). -/
def State.setPending (s : State) (r : RecallReq) : State :=
  let s := match s.scn.pending with | some p => s.dropRecall p | none => s
  s.updScn (fun x => { x with pending := some r })

/-- A cold record is asked for (R193, R611). -/
def State.fetchScene (s : State) (scene : Nat) : State :=
  (s.flashAsk { kind := .read, prio := 1, use := .coldScene scene, addr := (s.recordAt scene).1 }).updScn (fun x => { x with coldBusy := true })

/-- A recall enters the arbiter's work: topology recalls run alone, the others beside them.  A deal that has waited past its
pass is recorded (R63, R202). -/
def State.beginRecall (s : State) (c : SceneRec) (req : RecallReq) (n : Nat) : State :=
  let r := s.newRecall c req n
  let s := if r.late ∧ req.dealS.isSome then s.event sevMajor scnBase 0 0 0 c.scene else s
  let s := if r.fetching then s.fetchScene c.scene else s
  let s := s.leaveQuiet
  s.updScn (fun x => if r.topo.isSome then { x with running := some r } else { x with others := x.others ++ [r] })

/-- The delta set of a running recall. -/
def State.deltaRun (s : State) (r : Recall) : Option DeltaSet :=
  match s.sceneRec r.req.scene, r.topo with
  | some c, some f => c.deltas.find? (fun d => d.from_ == f)
  | _, _ => none

/-- The running recall is abandoned before its S: the front is unchanged (R194).  Added instances are live no longer. -/
def State.abandonRecall (s : State) : State :=
  match s.scn.running with
  | none => s
  | some r =>
    let added := match s.sceneRec r.req.scene with
      | some c => (c.deltas.filter (fun (d : DeltaSet) => some d.from_ == r.topo)).flatMap (fun (d : DeltaSet) => d.added.map (fun (i : NodeRec) => i.inst))
      | none => []
    let s := (upto 64).foldl (fun (s : State) n => if (s.tile n).onBack then s.setTile n { s.tile n with onBack := false } else s) s
    let ups := match s.deltaRun r with | some d => (d.tiles.filter (fun p => p.powerUp)).map (fun p => 8 * p.cluster + p.tile) | none => []
    let s := forAll ups s (fun n s => if (s.prog n).code = [] ∧ (s.prog n).lib = false then (s.setTile n {}).setDom n .off else s)
    let s := (upto 8).foldl (fun (s : State) c => s.setCluster c { s.cluster c with xfDescs := none, newDescs := none, xfRing := [] }) s
    s.updScn (fun x => { x with running := none, backs := [],
                                nodes := if r.started then x.nodes.filter (fun i => !added.contains i.inst) ++ x.replaced else x.nodes,
                                replaced := [] })

/-- The order of application: ascending PRIORITY, then rank (R196). -/
def reqLe (a b : RecallReq) : Bool := decide (a.priority < b.priority) || (a.priority == b.priority && decide (a.rank ≤ b.rank))

/-- Insertion of a request in the order of application, after its equals. -/
def insertReq (r : RecallReq) : List RecallReq → List RecallReq
  | [] => [r]
  | x :: l => if reqLe x r then x :: insertReq r l else r :: x :: l

/-- Requests in the order of application. -/
def sortReqs (l : List RecallReq) : List RecallReq := l.foldl (fun a r => insertReq r a) []

/-- The winning topology request of pass n against the recall that runs (R194, R199): a deal of equal or higher PRIORITY cuts
it in every phase, so that it keeps its pass; one whose record is still being fetched has nothing to run and is abandoned
(log entry 136). -/
def State.arbTopo (s : State) (c : SceneRec) (req : RecallReq) (n : Nat) : State :=
  match s.scn.running with
  | none => s.beginRecall c req n
  | some r =>
    let deal := req.dealId.isSome
    if req.priority < r.req.priority ∨ (req.priority = r.req.priority ∧ !deal) then s.setPending req
    else if (n < r.s ∧ !deal) ∨ r.fetching then (s.abandonRecall).beginRecall c req n
    else
      -- the running recall cuts: its E is the next pass, in which the request counts as recognised
      let last := match s.sceneRec r.req.scene with | some c => if r.audible then max n (r.s + s.rampSpan c) else r.last | none => n
      let s := s.updScn (fun x => { x with running := some { r with e := n + 1, s := min r.s (n + 1), s0 := min r.s0 (n + 1), last := last },
                                           written := x.written ++ [(n + 1, req)] })
      s.recallNotice r.req.scene

/-- RECALL_ARBITRATION: the requests recognised in pass n (R183, R192 to R196). -/
def State.arbitrate (s : State) (n : Nat) : State :=
  let reqs := sortReqs s.scn.recognised
  let s := s.updScn (fun x => { x with recognised := [] })
  let (s, topo) := reqs.foldl (fun (a : State × List (SceneRec × RecallReq)) r =>
    let (s, l) := a
    match s.sceneRec r.scene with
    | none => (s.recallNotice r.scene, l)
    | some c =>
      if s.topoWork c then
        if (s.deltaOf c).isSome then (s, l ++ [(c, r)]) else (s.recallNotice r.scene, l)
      else (s.beginRecall c r n, l)) (s, [])
  match topo.reverse with
  | [] => s
  | (c, r) :: rest =>
    let s := (rest.drop 1).foldl (fun (s : State) x => s.dropRecall x.2) s
    let s := match rest with | x :: _ => s.setPending x.2 | [] => s
    s.arbTopo c r n

/-! ## Staging -/

/-- Code bytes of a program (R260). -/
def codeBytes (l : List (Word × Word)) : List Byte := l.flatMap (fun b => leBytes 4 b.1.toNat ++ leBytes 4 b.2.toNat)

/-- A physical instruction memory of tile n holds `code` and 0 above it. -/
def State.loadCode (s : State) (n x : Nat) (code : List (Word × Word)) : State :=
  let base := 32768 * n + 16384 * x
  let a := tileBase n + 0x20000 + 0x8000 * x
  { s with imem := memPut (s.imem.filter (fun c => !(decide (base ≤ c.1) && decide (c.1 < base + 16384)))) base (codeBytes code),
           ms := { s.ms with ecc := s.ms.ecc.filter (fun e => !(decide (a ≤ e.1) && decide (e.1 < a + 16384))),
                             tileBad := s.ms.tileBad.filter (fun e => !(decide (a ≤ e) && decide (e < a + 16384))) } }

/-- The initialisation list of a tile is applied to its data memory (R80). -/
def State.loadInit (s : State) (n : Nat) (l : List InitChunk) : State :=
  l.foldl (fun (s : State) c => s.wrBytes (tileBase n + c.1) c.2) s

/-- The rings of a table whose base the old table does not hold: base and bytes (R190). -/
def newRings (old ds : List XDesc) : List (Nat × Nat) :=
  let bases := old.flatMap (fun d => (if d.srcRing then [d.src] else []) ++ (if d.dstRing then [d.dst] else []))
  let sides := ds.flatMap (fun d => (if d.srcRing then [(d.src, d.srcLen * d.srcFrame)] else []) ++
    (if d.dstRing then [(d.dst, d.dstLen * d.dstFrame)] else []))
  sides.filter (fun r => !bases.contains r.1)

/-- The loads of the pass before S0 (R80, R184, R190, R192). -/
def State.stageRecall (s : State) (r : Recall) : State :=
  match s.deltaRun r with
  | none => s
  | some d =>
    let s := d.tiles.foldl (fun (s : State) p =>
      let n := 8 * p.cluster + p.tile
      let s := if p.powerUp ∧ s.domSt n = .off then s.powerUp n else s
      let back := if (s.tile n).frontIsB then 0 else 1
      let s := (s.loadCode n back p.code).loadInit n p.init
      s.updScn (fun x => { x with backs := mset none x.backs n (some p) })) s
    d.xchg.foldl (fun (s : State) p =>
      let cl := s.cluster p.cluster
      let s := (newRings cl.descs p.xf ++ newRings (cl.descs ++ p.xf) p.new).foldl (fun (s : State) z => s.zeroRange z.1 z.2) s
      s.setCluster p.cluster { s.cluster p.cluster with xfDescs := some p.xf, newDescs := some p.new }) s

/-- The POWER_UP tiles of the running recall start to power up in pass S0 − L + 1 (R189, R192). -/
def State.powerDue (s : State) (t : Nat) : State :=
  match s.scn.running with
  | some r =>
    let d := s.deltaRun r
    if r.staged = false ∧ r.fetching = false ∧ r.s0 + 1 ≤ t + s.lead d then
      match d with
      | some d => forAll ((d.tiles.filter (fun p => p.powerUp)).map (fun p => 8 * p.cluster + p.tile)) s
          (fun n s => if s.domSt n = .off then s.powerUp n else s)
      | none => s
    else s
  | none => s

/-- The strobe's part of recalls in pass `t`: what is due the pass before S0 is staged. -/
def State.stageDue (s : State) (t : Nat) : State :=
  match s.scn.running with
  | some r =>
    if r.staged = false ∧ r.fetching = false ∧ r.s0 ≤ t + 1 then
      let s := s.stageRecall r
      s.updScn (fun x => { x with running := some { r with staged := true } })
    else s
  | none => s

/-! ## The start, audible and swap passes -/

/-- The handler runs of added instances that are due in pass S0 itself are released at the start; in a cluster with ganged
sections they wait for the last one (R189, R319). -/
def State.releaseAdded (s : State) (fresh : List NodeRec) (n : Nat) : State :=
  let t := s.tile n
  if !fresh.any (fun a => handlerOn a n) ∨ !s.domOn n ∨ (s.isLib n = false ∧ (s.cluster (n / 8)).gangs ≠ []) then s
  else
    let s := s.releaseOf n (t.scyc + t.ctlCyc) (fun r => fresh.any (fun a => a.inst == r.inst))
    if s.isLib n ∧ t.run ≠ .halted then State.libRuns n (s.tile n).runs s else s

/-- The recall starts: added instances are live, a record of a live number takes its place, the tiles of its parts run X from
the back memory at position 0, the XF tables run (R184, R185, R189, R190, R323). -/
def State.startRecall (s : State) (r : Recall) : State :=
  match s.deltaRun r with
  | none => s
  | some d =>
    let again (n : NodeRec) : Bool := d.added.any (fun a => a.inst == n.inst)
    let fresh := d.added.filter (fun a => !s.scn.nodes.any (fun n => n.inst == a.inst))
    let s := s.updScn (fun x => { x with nodes := x.nodes.filter (fun n => !again n) ++ d.added, replaced := x.nodes.filter again,
                                         running := some { r with started := true } })
    let s := if r.late then s.count aScnCounts 31 16 1 else s
    let s := d.added.foldl (fun (s : State) n => (s.loadLearned n).nodeClear n true) s
    let s := forAll (upto 64) s (fun n s => s.releaseAdded fresh n)
    let s := if r.e = r.s0 then s else d.tiles.foldl (fun (s : State) p =>
      let n := 8 * p.cluster + p.tile
      let s := s.setTile n { s.tile n with onBack := true }
      if (s.tile n).run = .halted then s else s.turnTile n p.xfEntry) s
    d.xchg.foldl (fun (s : State) p =>
      let cl := s.cluster p.cluster
      s.setCluster p.cluster { cl with xfRing := ringContinue cl.descs cl.ring p.xf, next := 0 }) s

/-- A parameter word steps to a value in this pass, unless a raw write of this pass has landed on it (R98, R181, R182). -/
def State.stepParam (s : State) (r : NodeRec) (k : Nat) (v : Word) : State :=
  if (s.cluster r.cluster).landed.contains (r.inst, k) then s else s.startRamp r.inst k v 0

/-- A ramp starts with k = 1 in this pass (R180 to R182). -/
def State.rampNow (s : State) (r : NodeRec) (k : Nat) (v : Word) (len : Nat) : State :=
  if (s.cluster r.cluster).landed.contains (r.inst, k) then s
  else
    let s := s.startRamp r.inst k v len
    let cl := s.cluster r.cluster
    match cl.ramps.find? (fun x => x.inst == r.inst && x.param == k) with
    | none => s
    | some x =>
      let s := s.moveParam r k (x.word (s.codeOf r k))
      let mine (y : RampSlot) : Bool := y.inst == r.inst && y.param == k
      let left := if x.len ≤ 1 then cl.ramps.filter (fun y => !mine y)
        else cl.ramps.map (fun y => if mine y then { y with k := 2 } else y)
      let cl' := s.cluster r.cluster
      s.setCluster r.cluster { cl' with ramps := left }

/-- The instances of a scene's entries of MODE 2 that are live now (R181). -/
def State.liveLate (s : State) (c : SceneRec) : List Nat :=
  ((c.entries.filter (fun e => e.mode == 2 && (s.node e.inst).isSome)).map (fun e => e.inst)).eraseDups

/-- The entries of a recall that apply in pass S, or (`last`) its entries of MODE 2 in pass E, for the instances `live` that
were live in pass S (R180, R181). -/
def State.applyEntries (s : State) (c : SceneRec) (k : Nat) (last : Bool) (live : List Nat) : State :=
  (s.allEntries c).foldl (fun (s : State) e => match s.node e.inst with
    | none => s
    | some r =>
      if r.paramWords ≤ e.param ∨ (last ∧ !live.contains e.inst) then s
      else
        let atEnd := e.mode == 2 && k != 0
        if atEnd != last then s
        else
          let v := (s.codeOf r e.param).store e.value
          let len := s.rampLen c r e
          if len = 0 then s.stepParam r e.param v else s.rampNow r e.param v len) s

/-- A recall reaches its pass S: it becomes the current scene (R179 to R181, R221).  A late one without topology work starts
here (R223). -/
def State.audible (s : State) (r : Recall) : State :=
  let s := s.updScn (fun x => { x with current := r.req.scene })
  let s := if r.late ∧ r.topo.isNone then s.count aScnCounts 31 16 1 else s
  match s.sceneRec r.req.scene with
  | some c => s.applyEntries c r.xfLen false []
  | none => s

/-- Recalls in the order of application: earlier recognition first, then the order of R196. -/
def recallLe (a b : Recall) : Bool := decide (a.n < b.n) || (a.n == b.n && reqLe a.req b.req)

/-- Insertion in the order of application. -/
def insertRecall (r : Recall) : List Recall → List Recall
  | [] => [r]
  | x :: l => if recallLe x r then x :: insertRecall r l else r :: x :: l

/-- The other recalls whose entries of MODE 2 have been applied in this pass and prevail over those of recall `r`
(R196). -/
def State.lateAfter (s : State) (r : Recall) : List Recall :=
  (s.scn.others.filter (fun y => y.topo.isNone && y.swapped && y.xfLen != 0 && y.e == s.grid.tick && !recallLe y r)).foldl
    (fun l y => insertRecall y l) []

/-- The roles swap in pass E: the new front runs alone (R185, R189, R190, R194). -/
def State.swapRecall (s : State) (r : Recall) : State :=
  match s.deltaRun r, s.sceneRec r.req.scene with
  | some d, some c =>
    let s := d.tiles.foldl (fun (s : State) p =>
      let n := 8 * p.cluster + p.tile
      let old := s.prog n
      let g : TileProg := { code := p.code, entry := p.entry, schedCycles := p.schedCycles, region := p.region, gang := old.gang,
                            init := old.init ++ p.init, stateBase := p.stateBase, stateBytes := p.stateBytes, calls := p.callsN, lib := p.lib }
      if p.powerDown then
        let s := s.updScn (fun x => { x with progs := mset {} x.progs n {} })
        (s.setTile n {}).setDom n .off
      else
        let s := s.updScn (fun x => { x with progs := mset {} x.progs n g })
        let t := s.tile n
        let s := s.setTile n { t with frontIsB := !t.frontIsB, onBack := false }
        if t.run = .halted then s else s.turnTile n p.entry) s
    let s := d.xchg.foldl (fun (s : State) p =>
      let cl := s.cluster p.cluster
      s.setCluster p.cluster { cl with descs := p.new, ring := ringContinue p.xf cl.xfRing p.new, xfDescs := none, newDescs := none, xfRing := [], next := 0 }) s
    let s := s.updScn (fun x => { x with nodes := x.nodes.filter (fun i => !d.removed.contains i.inst || d.added.any (fun a => a.inst == i.inst)),
                                         replaced := [], backs := [], running := none,
                                         frontTopo := c.topo.getD x.frontTopo,
                                         others := if s.grid.tick < r.last ∨ r.audible = false then x.others ++ [{ r with swapped := true }] else x.others })
    let s := if r.xfLen = 0 then s else s.applyEntries c r.xfLen true r.live
    let s := (s.lateAfter r).foldl (fun (s : State) y => match s.sceneRec y.req.scene with
      | some c => s.applyEntries c y.xfLen true y.live
      | none => s) s
    match s.scn.pending with
    | some p => s.updScn (fun x => { x with pending := none, recognised := x.recognised ++ [p] })
    | none => s
  | _, _ => s

/-- MODE 2 entries of recalls without topology work whose pass E is this one (R181). -/
def State.lateEntries (s : State) : State :=
  (s.scn.others.foldl (fun l r => insertRecall r l) []).foldl (fun (s : State) r =>
    if r.topo.isNone ∧ r.audible ∧ r.swapped = false ∧ r.xfLen ≠ 0 ∧ r.e ≤ s.grid.tick then
      let s := match s.sceneRec r.req.scene with | some c => s.applyEntries c r.xfLen true r.live | none => s
      s.updScn (fun x => { x with others := x.others.map (fun y => if y.n = r.n ∧ y.req = r.req then { y with swapped := true } else y) })
    else s) s

/-! ## Deals -/

/-- A PTP time as a pass index: the first pass that begins at or after it (R34). -/
def State.passOf (s : State) (t : PtpTime) : PassIx :=
  BitVec.ofNat 48 (t.sec * s.fs + ceilDiv (t.ns * s.fs) 1000000000)

/-- Signed difference of two pass indices (R31). -/
def passDiff (a b : PassIx) : Int := (a - b).toInt

/-- An engine is targeted by a deal (R198). -/
def State.dealMine (s : State) (d : DealMsg) : Bool :=
  (match d.segments with | some m => m.getLsbD (s.pairNo / 16) | none => true)
    && (match d.device with | some n => n.toNat == s.ownNo || n.toNat == s.pairNo | none => true)

/-- The manager notes an answer other than READY (R202). -/
def State.dealBad (s : State) (dev : Nat) : State := s.event sevMajor scnBase 0 0 0 dev

/-- The manager takes a device's answer (R200, R202). -/
def State.dealAnswer (s : State) (dev id status : Nat) : State :=
  match s.scn.issued.find? (fun i => i.id == id) with
  | none => s
  | some i =>
    let pair (n : Nat) : Nat := if (s.rosterE n).twin then n / 2 * 2 else n
    let i' : IssuedDeal := { i with targets := i.targets.filter (fun n => n != pair dev && n != dev),
                                    ready := if status = 0 then i.ready ++ [dev] else i.ready }
    let s := s.updScn (fun x => { x with issued := x.issued.map (fun y => if y.id = id then i' else y) })
    if status = 0 then s else s.dealBad dev

/-- The engine answers a deal (R200); a manager's own answer needs no message. -/
def State.dealAck (s : State) (id scene status : Nat) (p : PassIx) : State :=
  if s.manages then s.dealAnswer s.pairNo id status
  else s.domSend false .manager (.dealAck (BitVec.ofNat 32 id) scene status p)

/-- Pass S of a deal and the pass in which its request is entered, for the front identity (R199). -/
def State.dealPasses (s : State) (c : SceneRec) (t : PtpTime) : PassIx × PassIx :=
  let d := if s.topoWork c then s.deltaOf c else none
  let p := s.passOf t
  (p, p - BitVec.ofNat 48 ((match d with | some d => d.preroll | none => 0) + s.lead d))

/-- A deal that is late is recorded (R63, R202). -/
def State.dealLate (s : State) (scene : Nat) : State := s.event sevMajor scnBase 0 0 0 scene

/-- The deals staged or completed within the last 1,024 identifiers, the newest being `id` or a later one (R203). -/
def recentWith (id scene : Nat) (p : PassIx) (l : List (Nat × Nat × PassIx)) : List (Nat × Nat × PassIx) :=
  let diff (a b : Nat) : Int := (BitVec.ofNat 32 a - BitVec.ofNat 32 b).toInt
  let newest := l.foldl (fun h e => if 0 < diff e.1 h then e.1 else h) id
  ((id, scene, p) :: l).filter (fun e => decide (diff newest e.1 < 1024))

/-- A targeted engine receives a deal (R199 to R203). -/
def State.takeDeal (s : State) (d : DealMsg) : State :=
  let id := d.id.toNat
  let dup := s.scn.recentDeals.any (fun e => e.1 == id)
  if !s.dealMine d ∨ dup then s
  else
    let t : PtpTime := { sec := d.sec, ns := d.ns }
    match s.sceneRec d.scene with
    | none => s.dealAck id d.scene 2 (s.passOf t)
    | some c =>
      if s.topoWork c ∧ (s.deltaOf c).isNone then s.dealAck id d.scene 3 (s.passOf t)
      else if 16 ≤ s.scn.deals.length then s.dealAck id d.scene 4 (s.passOf t)
      else
        let (p, due) := s.dealPasses c t
        let late := s.grid.fnOn && decide (passDiff due s.grid.p < 0)
        let e : Deal := { id := id, scene := d.scene, priority := d.prio, xf := d.xf, time := t,
                          s := if late then none else some p, due := some (if late then s.grid.p + 1 else due), staged := c.hot }
        let s := s.updScn (fun x => { x with deals := x.deals ++ [e], recentDeals := recentWith id d.scene p x.recentDeals })
        if !c.hot then s.fetchScene d.scene
        else if late then (s.dealLate d.scene).dealAck id d.scene 1 p
        else s.dealAck id d.scene 0 p

/-- The manager issues a deal in pass n (R197): t = (n + 1) / fs + DEAL_LEAD_MS, its mirror first, and takes it itself. -/
def State.issueDeal (s : State) (c : SceneRec) (xf : Option (Nat × Nat)) : State :=
  let id := (s.scn.lastDealId + 1) % 2 ^ 32
  let lead := match s.image with | some im => im.dealLeadMs | none => 50
  let q := s.grid.p.toNat + 1 + s.msPasses lead
  let d : DealMsg := { id := BitVec.ofNat 32 id, scene := c.scene, prio := c.priority, xf := xf, sec := q / s.fs,
                       ns := q % s.fs * 1000000000 / s.fs }
  let devs := ((s.dom.roster.filter (fun e => e.2.present)).map (fun e => if e.2.twin then e.1 / 2 * 2 else e.1)).eraseDups
  let s := s.updScn (fun x => { x with lastDealId := id, issued := x.issued ++
    [{ id := id, time := { sec := d.sec, ns := d.ns }, targets := devs.filter (fun n => n != s.pairNo), ready := [] }] })
  ((s.sendMirror [.deal (BitVec.ofNat 32 id)]).domSend false .all (.deal d)).takeDeal d

/-- Deals and time triggers run (R36, R37, R42). -/
def State.timed (s : State) : Bool := s.grid.state == .localRef || (s.grid.fnOn && s.grid.fnFade.isNone)

/-- The deals that are due are entered as recalls recognised in this pass (R199); a late one takes effect before the grid
is aligned again (R42). -/
def State.dealsDue (s : State) : State :=
    let due (d : Deal) : Bool := !s.svc.stewDown && d.staged && (s.timed || d.s.isNone) &&
      (match d.due with | some p => decide (0 ≤ passDiff s.grid.p p) | none => false)
    let now := s.scn.deals.filter due
    let s := s.updScn (fun x => { x with deals := x.deals.filter (fun d => !due d) })
    now.foldl (fun (s : State) d =>
      let gone : Bool := match d.due with | some p => decide (0 < passDiff s.grid.p p) | none => false
      let s := if gone ∧ d.s.isSome then s.dealLate d.scene else s
      let t : Option Nat := match d.s, gone with
        | some p, false => some (s.tickOf p).toNat
        | _, _ => none
      s.updScn (fun x => { x with recognised := x.recognised ++
        [{ scene := d.scene, priority := d.priority, xf := d.xf, rank := 513, dealS := t, dealId := some d.id }] })) s

/-- Every pending deal keeps its PTP time when the grid is anchored or re-anchored (R42, R63): one whose pass has gone
takes effect in pass `act`, late. -/
def State.dealsAgain (s : State) (act : PassIx) : State :=
  s.scn.deals.foldl (fun (s : State) d => match s.sceneRec d.scene with
    | none => s
    | some c =>
      let (p, due) := s.dealPasses c d.time
      let late := decide (passDiff due s.grid.p < 0)
      let d' : Deal := { d with s := if late then none else some p, due := some (if late then act else due) }
      let s := s.updScn (fun x => { x with deals := x.deals.map (fun y => if y.id = d.id then d' else y) })
      if late ∧ d.s.isSome then s.dealLate d.scene else s) s

end Sys2Proof.Machine
end

