-- ==== Sys2Proof/Machine/RuleOps.lean ====
section
/-!
DEFINITION. The cue rules: which triggers act, what rules do, detector triggers, time triggers, status pins (R204 to R214).
-/

namespace Sys2Proof.Machine

/-- Trigger i of the image. -/
def State.trigger (s : State) (i : Nat) : Option Trigger := match s.image with | some im => im.triggers[i]? | none => none

/-- Rule i of the image. -/
def State.rule (s : State) (i : Nat) : Option CueRule := match s.image with | some im => im.rules[i]? | none => none

/-- Adds a trigger to those recognised in this pass; the cue engine recognises one once in a pass. -/
def State.addHit (s : State) (h : TrigHit) : State :=
  if s.cue.hits.any (fun x => x.trig == h.trig) then s else s.updCue (fun c => { c with hits := c.hits ++ [h] })

/-- Adds a trigger to those of the next pass. -/
def State.addNext (s : State) (h : TrigHit) : State :=
  if s.cue.nextHits.any (fun x => x.trig == h.trig) then s else s.updCue (fun c => { c with nextHits := c.nextHits ++ [h] })

/-- LEVEL of a recognised trigger. -/
def State.hitLevel (s : State) (h : TrigHit) : Nat := match s.trigger h.trig with | some t => t.level | none => 0

/-- Rule that a recognised trigger feeds. -/
def State.hitRule (s : State) (h : TrigHit) : Nat := match s.trigger h.trig with | some t => t.rule | none => 0

/-- Triggers of one rule: the higher LEVEL first, then the lower index (R210). -/
def State.insertHit (s : State) (h : TrigHit) : List TrigHit → List TrigHit
  | [] => [h]
  | x :: l =>
    if s.hitLevel x < s.hitLevel h ∨ (s.hitLevel x = s.hitLevel h ∧ h.trig < x.trig) then h :: x :: l
    else x :: s.insertHit h l

/-- What acts for a rule, what is queued and how many are dropped (R210). -/
def queueRule (queued : Option TrigHit) (hs : List TrigHit) : Option TrigHit × Option TrigHit × Nat :=
  match queued, hs with
  | some q, h :: r => (some q, some h, r.length)
  | some q, [] => (some q, none, 0)
  | none, h :: k :: r => (some h, some k, r.length)
  | none, h :: [] => (some h, none, 0)
  | none, [] => (none, none, 0)

/-- Acting rules: descending LEVEL of the acting trigger, then ascending rule index (R211). -/
def State.insertAct (s : State) (e : Nat × TrigHit) : List (Nat × TrigHit) → List (Nat × TrigHit)
  | [] => [e]
  | x :: l =>
    if s.hitLevel x.2 < s.hitLevel e.2 ∨ (s.hitLevel x.2 = s.hitLevel e.2 ∧ e.1 < x.1) then e :: x :: l
    else x :: s.insertAct e l

/-- The effect of rule `i` in pass n, its RELAY apart (R197, R208, R209). -/
def State.ruleAction (s : State) (i level : Nat) : RuleAction → State
  | .none => s
  | .recall scene deal over_ law xfMs =>
    let xf := if over_ then some (xfMs, law) else none
    match s.sceneRec scene, deal && s.manages with
    | some c, true => s.issueDeal c xf
    | some c, false =>
      s.updScn (fun x => { x with recognised := x.recognised ++ [{ scene := scene, priority := c.priority, xf := xf, rank := 512 - i }] })
    | none, _ => s.recallNotice scene
  | .ramp inst param value ms =>
    match s.node inst with
    | some r =>
      if r.paramWords ≤ param then s
      else s.updCue (fun c => { c with rampStarts := c.rampStarts ++
        [{ inst := inst, param := param, value := (s.codeOf r param).store value, len := s.msPasses ms }] })
    | none => s
  | .statusPin pin op pulse => s.updCue (fun c => { c with pinChanges := c.pinChanges ++ [{ pin := pin, op := op, pulse := pulse }] })
  | .mark code sev => s.mark sev code 0 level i

/-- A rule and its chain execute with the acting trigger's LEVEL; a rule that has executed in the pass stops them (R210,
R211).  `ran` lists the rules that have; a chain has at most 8 rules, so `fuel` is never short. -/
def State.runChain (s : State) (h : TrigHit) : Nat → Nat → List Nat → State × List Nat
  | 0, _, ran => (s, ran)
  | fuel + 1, i, ran =>
    if ran.contains i then (s.count aCueDrops 31 0 1, ran)
    else
      match s.rule i with
      | none => (s, ran)
      | some r =>
        let level := s.hitLevel h
        let s := s.ruleAction i level r.action
        let s := if r.relay then s.updCue (fun c => { c with outCues := c.outCues ++ [(r.relayCue, level, h.time)] }) else s
        match r.chain with
        | none => (s, i :: ran)
        | some k => s.runChain h fuel k (i :: ran)

/-- Rule i in a pass whose triggers are `hs`: the trigger it runs for in its place among those to run, the one it queues,
the triggers it drops (R210). -/
def State.ruleTurn (s : State) (hs : List TrigHit) (a : List (Nat × TrigHit) × SMap (Option TrigHit) × Nat) (i : Nat) :
    List (Nat × TrigHit) × SMap (Option TrigHit) × Nat :=
  let mine := (hs.filter (fun h => s.hitRule h == i)).foldl (fun l h => s.insertHit h l) []
  let r := queueRule (mget none s.cue.queued i) mine
  (match r.1 with | some h => s.insertAct (i, h) a.1 | none => a.1, mset none a.2.1 i r.2.1, a.2.2 + r.2.2)

/-- The rules of a pass (R210, R211): of the triggers recognised in it and of those relayed for it. -/
def State.runRules (s : State) : State :=
  if s.svc.stewDown then s.updCue (fun c => { c with nextHits := c.nextHits ++ c.hits, hits := [] }) else
  let due := s.cue.relayed.filter (fun e => decide (e.1 ≤ s.grid.tick))
  let s := s.updCue (fun c => { c with relayed := c.relayed.filter (fun e => decide (s.grid.tick < e.1)) })
  let s := due.foldl (fun (s : State) e => s.addHit { trig := e.2 }) s
  let hs := s.cue.hits
  let fed := (hs.map (fun h => s.hitRule h) ++ s.cue.queued.map (·.1)).eraseDups
  if fed = [] then s
  else
    let x := fed.foldl (fun a i => s.ruleTurn hs a i) ([], [], 0)
    let s := s.updCue (fun c => { c with hits := [], queued := x.2.1 })
    let s := if x.2.2 = 0 then s else s.count aCueDrops 31 0 x.2.2
    (x.1.foldl (fun (a : State × List Nat) e => a.1.runChain e.2 513 e.1 a.2) (s, [])).1

/-! ## Detector triggers -/

/-- The live node whose result words a trigger of kind 3 or 4 reads, and the word's offset in its state area (R173,
R152). -/
def State.detectorNode (s : State) : TrigKind → Option (NodeRec × Nat)
  | .silence inst chan _ => (s.node inst).map (fun r => (r, 4 * (chan / 32)))
  | .trump zone _ _ => (s.scn.nodes.find? (fun r => r.type == 0x000B && r.custom == false && r.zone == some zone)).map (fun r => (r, 0))
  | _ => none

/-- A trigger of kind 3 or 4 reads the word written in this pass; its change is recognised in the next (R205, R214).  A
word in error keeps the value read before. -/
def State.readDetector (s : State) (i : Nat) (k : TrigKind) : State :=
  match s.detectorNode k with
  | none => s
  | some (r, o) =>
    let n := 8 * r.cluster + r.tile.getD 0
    if !s.domOn n then s
    else
      let a := tileBase n + r.stateAddr + o
      let bad := decide (64 ≤ mget 0 s.ms.ecc a)
      let (w, s) := s.readWord a
      if bad then s
      else
        match k with
        | .silence _ chan dir =>
          let old := if mget 0 s.cue.silence i = 0 then 1 else mget 0 s.cue.silence i - 1
          let new := if w.getLsbD (chan % 32) then 1 else 0
          let s := s.updCue (fun c => { c with silence := mset 0 c.silence i (1 + new) })
          if old ≠ new ∧ (dir = 2 ∨ (dir = 0 ∧ new = 1) ∨ (dir = 1 ∧ new = 0)) then s.addNext { trig := i } else s
        | .trump _ level falling =>
          -- 0xFF counts as below every level: values are kept as A + 1, and 0 for none
          let new := (w.toNat + 1) % 256
          let old := mget 0 s.cue.trump i
          let s := s.updCue (fun c => { c with trump := mset 0 c.trump i new })
          if falling then (if level < old ∧ new ≤ level then s.addNext { trig := i } else s)
          else (if old ≤ level ∧ level < new then s.addNext { trig := i } else s)
        | _ => s

/-- The detector triggers at the end of a pass. -/
def State.readDetectors (s : State) : State :=
  match s.image with
  | none => s
  | some im => im.triggers.zipIdx.foldl (fun (s : State) e => s.readDetector e.2 e.1.kind) s

/-! ## Time triggers -/

/-- A time trigger against pass P (R205, R63).  One whose pass is P fires; one whose pass is past is found late: it fires
in the next pass, or in this one when a re-anchoring has just loaded P (R42). -/
def State.timeTrig (s : State) (i : Nat) (again : Bool) : State :=
  match s.trigger i with
  | some { kind := .time sec0 period, .. } =>
    if s.cue.timeDone.contains i then s
    else
      let sec := if mget 0 s.cue.nextTime i = 0 then sec0 else mget 0 s.cue.nextTime i - 1
      let d := passDiff (s.passOf { sec := sec, ns := 0 }) s.grid.p
      -- the pass of the late firing, counted on from the trigger's own: P itself wraps (R31)
      let act := sec * s.fs + d.natAbs + (if again then 0 else 1)
      let time : Option PtpTime := some { sec := sec, ns := 0 }
      let put (next : Nat) (s : State) : State :=
        if period = 0 then s.updCue (fun c => { c with timeDone := i :: c.timeDone })
        else s.updCue (fun c => { c with nextTime := mset 0 c.nextTime i (1 + next) })
      if d = 0 ∧ again = false then put (sec + period) (s.addHit { trig := i, time := time })
      else if d < 0 then
        let h : TrigHit := { trig := i, time := time, late := true }
        let s := if again then s.addHit h else s.addNext h
        put (sec + period * ((act / s.fs - sec) / max 1 period + 1)) (s.event sevMajor cueBase 0 0 0 i)
      else s
  | _ => s

/-! ## Cue pins -/

/-- Passes a cue pin has shown its level. -/
def State.pinHeld (s : State) (pin : Nat) : Nat := mget 0 s.cue.held pin

/-- The smallest DEBOUNCE of a pin's edge triggers, or 0 (R224). -/
def State.pinDebounce (s : State) (pin : Nat) : Nat :=
  match s.image with
  | some im => ((im.triggers.filterMap (fun t => match t.kind with
      | .pinEdge p _ b => if p = pin then some b else none
      | _ => none)).foldl (fun (m : Option Nat) b => some (match m with | some x => min x b | none => b)) none).getD 0
  | none => 0

/-- Edge trigger i of a pin that has shown its level long enough (R205). -/
def State.pinEdge (s : State) (i dir debounce : Nat) (held : Nat) (level : Bool) : State :=
  let e := mget 0 s.cue.edge i
  let now := if level then 2 else 1
  if held < debounce + 1 ∨ e = 0 ∨ e = now then s
  else
    let s := s.updCue (fun c => { c with edge := mset 0 c.edge i now })
    if dir = 2 ∨ (dir = 0 ∧ level) ∨ (dir = 1 ∧ level = false) then s.hitTrig i else s

/-- CUE_PIN_IN.STATE follows a pin held for the smallest debounce; in a twin pair the active twin decides, and the level shows at the acting pass (R206,
R224). -/
def State.pinLevel (s : State) (pin : Nat) (level : Bool) : State :=
  let latest := match (s.cue.stateDue.filter (fun e => e.2.1 == pin)).getLast? with
    | some e => e.2.2
    | none => s.cue.state.getLsbD pin
  if s.pinHeld pin < s.pinDebounce pin + 1 ∨ latest = level then s
  else s.relayNow (.level pin level) (fun n s => s.levelAct pin level n)

/-- The cue pins are sampled at a strobe; the first sample is each pin's starting level (R205, R224). -/
def State.cueSample (s : State) (pins : BitVec 16) : State :=
  if s.cue.sampled then
    let held := (upto 16).foldl (fun m k => mset 0 m k (if pins.getLsbD k = s.cue.raw.getLsbD k then mget 0 m k + 1 else 1)) s.cue.held
    s.updCue (fun c => { c with raw := pins, held := held })
  else
    let edges := match s.image with
      | some im => im.triggers.zipIdx.foldl (fun m e => match e.1.kind with
        | .pinEdge p _ _ => mset 0 m e.2 (if pins.getLsbD p then 2 else 1)
        | _ => m) []
      | none => []
    s.updCue (fun c => { c with raw := pins, state := pins, sampled := true, edge := edges,
                                held := (upto 16).map (fun k => (k, 1)) })

/-- Recognised levels that take effect in this pass. -/
def State.pinStates (s : State) : State :=
  let now := s.cue.stateDue.filter (fun e => decide (e.1 ≤ s.grid.tick))
  if now = [] then s
  else
    let s := s.updCue (fun c => { c with stateDue := c.stateDue.filter (fun e => decide (s.grid.tick < e.1)) })
    now.foldl (fun (s : State) e => s.setPinState e.2.1 e.2.2) s

/-! ## Status pins -/

/-- One change of a status pin at a strobe (R209, R228). -/
def State.pinChange (s : State) (p : PinChange) : State :=
  let others := s.cue.pulses.filter (fun x => x.pin ≠ p.pin)
  let old := s.flag aCueStatOut p.pin
  let s := s.updCue (fun c => { c with pulses := if p.op = 3 then others ++ [{ pin := p.pin, left := p.pulse }] else others })
  s.setFlag aCueStatOut p.pin (match p.op with | 0 => false | 1 => true | 2 => !old | _ => true)

/-- The strobe's work on status pins: pulses run down, changes take place, readbacks are compared (R207, R209). -/
def State.statStrobe (s : State) (levels : BitVec 8) : State :=
  let bad := (upto 8).foldl (fun m k =>
    mset 0 m k (if levels.getLsbD k = s.flag aCueStatOut k then 0 else mget 0 m k + 1)) s.cue.statBad
  let s := s.updCue (fun c => { c with statBad := bad, pulses := c.pulses.map (fun p => { p with left := p.left - 1 }) })
  let l := s.cue.pinChanges
  l.foldl (fun (s : State) p => s.pinChange p) (s.updCue (fun c => { c with pinChanges := [] }))

/-- Relayed cues leave: a worker's to the manager, a manager's to every engine (R209). -/
def State.cuesOut (s : State) : State :=
  let l := s.cue.outCues
  let r := s.dom.relays
  let s := (s.updCue (fun c => { c with outCues := [] })).updDom (fun d => { d with relays := [] })
  let s := l.foldl (fun (s : State) e =>
    s.domSend false (if s.manages then .all else .manager) (.cue e.1 e.2.1 (e.2.2.map (fun t => (t.sec, t.ns))))) s
  r.foldl (fun (s : State) e => s.domSend false .all (.cue e.1 e.2.1 e.2.2)) s

end Sys2Proof.Machine
end

