-- ==== Sys2Proof/Machine/CueCmds.lean ====
section
/-!
DEFINITION. The commands of cue pins, triggers, domain cues and status pins (R204 to R212).  What a recognised trigger
brings happens at the end of its pass, with the pass's other triggers (R210, R211).
-/

namespace Sys2Proof.Machine

/-- CUE_PIN_EDGE: a pin has shown its level at DEBOUNCE + 1 strobes (R205, R224). -/
def execCuePinEdge (pin : Fin 16) (s : State) : Host.Outcome State Fault Refusal :=
  let level := s.cue.raw.getLsbD pin
  let held := s.pinHeld pin
  .next (match s.image with
    | some im =>
      if s.cue.sampled = false then s
      else
        let s := s.pinLevel pin level
        im.triggers.zipIdx.foldl (fun (s : State) e => match e.1.kind with
          | .pinEdge p dir b => if p = pin.val then s.pinEdge e.2 dir b held level else s
          | _ => s) s
    | none => s)

/-- CUE_PIN_STALE: the strobe completes the stated count without a change (R205). -/
def execCuePinStale (pin : Fin 16) (s : State) : Host.Outcome State Fault Refusal :=
  let held := s.pinHeld pin
  .next (s.recognise (fun k => match k with
    | .pinStale p n => p == pin.val && held == n + 1
    | _ => false))

/-- TIME_TRIGGER: the pass of a time trigger's PTP time or of a later period (R37, R205). -/
def execTimeTrigger (i : Fin 1024) (s : State) : Host.Outcome State Fault Refusal :=
  .next (if s.timed then s.timeTrig i false else s)

/-- TIMED_CUE: the pass of a timed cue's time (R34, R205). -/
def execTimedCue (s : State) : Host.Outcome State Fault Refusal :=
  let due (e : Nat × Nat × PtpTime) : Bool := decide (0 ≤ passDiff s.grid.p (s.passOf e.2.2))
  let now := s.cue.timedCues.filter due
  let t := s.updCue (fun c => { c with timedCues := c.timedCues.filter (fun e => !due e) })
  .next (if s.timed then
      now.foldl (fun (s : State) e => forAll (s.trigsOf (fun k => k == .domainCue e.1)) s (fun i s => s.addHit { trig := i })) t
    else s)

/-- CUE: a domain cue is received; the manager relays one sent to it with the time it carries (R205, R209, R212). -/
def execCueMsg (h : MsgHdr) (n level : Nat) (time : Option (Nat × Nat)) (s : State) : Host.Outcome State Fault Refusal :=
  .next (s.onMsg h (.cue n level time) (fun s =>
    let s := if s.manages ∧ h.dst = .manager then s.updDom (fun d => { d with relays := d.relays ++ [(n, level, time)] }) else s
    match time with
    | some (sec, ns) => s.updCue (fun c => { c with timedCues := c.timedCues ++ [(n, level, { sec := sec, ns := ns })] })
    | none => s.recognise (fun k => k == .domainCue n)))

/-- STAT_STUCK: a status pin is read back wrong at the eighth strobe in a row (R207, R226, R698). -/
def execStatStuck (pin : Fin 8) (s : State) : Host.Outcome State Fault Refusal :=
  .next (if mget 0 s.cue.statBad pin ≠ 8 then s
    else
      let level := !s.flag aCueStatOut pin
      let s := s.updCue (fun c => { c with statBad := mset 0 c.statBad pin 9 })
      let s := s.setFlag aCueStatFault pin true
      let s := s.raise 0x0F pin 0 (if level then 1 else 0)
      s.recognise (fun k => k == .statStuck pin.val))

/-- PULSE_END: a pulse that has run PULSE passes drives its pin low (R209). -/
def execPulseEnd (pin : Fin 8) (s : State) : Host.Outcome State Fault Refusal :=
  .next (if s.cue.pulses.any (fun p => p.pin == pin.val && p.left == 0) then
      (s.updCue (fun c => { c with pulses := c.pulses.filter (fun p => p.pin ≠ pin.val) })).setFlag aCueStatOut pin false
    else s)

end Sys2Proof.Machine
end

