-- ==== Sys2Proof/Machine/DomCmds.lean ====
section
/-!
DEFINITION. The commands of the domain (R500 to R511, R659).
-/

namespace Sys2Proof.Machine

/-- ETH_FRAME (R446, R447, R505). -/
def execEthFrame (one : Bool) (f : EthFrame) (s : State) : Host.Outcome State Fault Refusal :=
  .next (s.ethHeard (portNo one) f)

/-- JOIN: the manager answers in the pass after it accepts it; a standby answers NOT_MANAGER (R510). -/
def execJoinMsg (h : MsgHdr) (own : Nat) (rate96 twin twinB : Bool) (build nTx : Nat) (s : State) :
    Host.Outcome State Fault Refusal :=
  .next (s.onMsg h (.join own rate96 twin twinB build nTx) (fun s =>
    if 2 ≤ s.role then s.updDom (fun d => { d with joins := d.joins ++ [(own, rate96, twin, twinB, build)] }) else s))

/-- ADMIT: the device is a member (R507, R510). -/
def execAdmitMsg (h : MsgHdr) (ver : Nat) (epoch : PassIx) (s : State) : Host.Outcome State Fault Refusal :=
  .next (s.onMsg h (.admission ver epoch) (fun s =>
    if s.manages then s else s.updDom (fun d => { d with st := 2, ver := ver, refusedAt := none })))

/-- REFUSE: the refusal is recorded; the engine retries (R510). -/
def execRefuseMsg (h : MsgHdr) (reason : Nat) (s : State) : Host.Outcome State Fault Refusal :=
  .next (s.onMsg h (.refuse reason) (fun s =>
    if s.manages then s
    else
      let s := s.updDom (fun d => { d with st := 3, reason := reason % 256, refusedAt := some s.grid.tick })
      s.event sevMajor aDomStat 8 15 (reason % 256) h.src.toNat))

/-- LEAVE: the manager marks the device ABSENT (R511). -/
def execLeaveMsg (h : MsgHdr) (s : State) : Host.Outcome State Fault Refusal :=
  .next (s.onMsg h .leave (fun s => if s.manages then s.markAbsent h.src.toNat else s))

/-- MANAGER: the highest TERM acts, on equal TERM the lower device number (R501). -/
def execManagerMsg (h : MsgHdr) (term : BitVec 16) (ver : Nat) (lastDeal : BitVec 32) (used : Nat) (s : State) :
    Host.Outcome State Fault Refusal :=
  .next (s.onMsg h (.manager term ver lastDeal used) (fun s =>
    let src := h.src.toNat
    let d := (term - s.dom.term).toInt
    let wins := !s.dom.mgrSeen || decide (0 < d) || (decide (d = 0) && decide (src ≤ s.dom.mgr))
    if !wins then s
    else
      let s := s.updDom (fun x => { x with mgrSeen := true, mgr := src, term := term, lastMgr := s.grid.tick,
                                           st := if x.st = 4 ∧ src ≠ s.pairNo then 0 else x.st,
                                           ver := if x.st = 4 then x.ver else ver })
      if 2 ≤ s.role ∧ s.manages = false then { s with scn := { s.scn with lastDealId := lastDeal.toNat } } else s))

/-- HEARTBEAT: the manager notes it (R511); an ABSENT device's does nothing. -/
def execHeartbeatMsg (h : MsgHdr) (mode grid twin : Nat) (flt : Word) (s : State) : Host.Outcome State Fault Refusal :=
  .next (s.onMsg h (.heartbeat mode grid twin flt) (fun s =>
    let e := s.rosterE h.src.toNat
    if s.manages && e.present then s.setRoster h.src.toNat { e with heard := s.grid.tick } else s))

/-- One mirrored change at the standby (R500). -/
def State.mirrorApply (s : State) (c : MirrorChange) : State :=
  match c with
  | .device n p t => if n < 2048 then s.setRoster n { present := p, twin := t, heard := s.grid.tick } else s
  | .stream a b c e used =>
    let r : StreamRow := { sender := a, tx := b, receiver := c, rx := e }
    s.updDom (fun d => { d with table := if used then (if d.table.contains r then d.table else d.table ++ [r]) else d.table.filter (fun x => x != r) })
  | .deal l => { s with scn := { s.scn with lastDealId := l.toNat } }

/-- MIRROR: the standby applies the manager's changes (R500). -/
def execMirrorMsg (h : MsgHdr) (cs : List MirrorChange) (s : State) : Host.Outcome State Fault Refusal :=
  .next (s.onMsg h (.mirror cs) (fun s =>
    if 2 ≤ s.role ∧ s.manages = false then cs.foldl (fun s c => s.mirrorApply c) s else s))

/-- STREAMS: changes wait for their epoch (R508). -/
def execStreamsMsg (h : MsgHdr) (epoch : PassIx) (es : List StreamEntry) (s : State) : Host.Outcome State Fault Refusal :=
  .next (s.onMsg h (.streams epoch es) (fun s => s.streamsAt epoch es))

/-- STREAM_EPOCH: at pass EPOCH the named streams start and stop (R508). -/
def execStreamEpoch (s : State) : Host.Outcome State Fault Refusal := .next s.streamEpoch

/-- The records newer than `q` with severity at least `sev`, oldest first (R659). -/
def State.recordsAfter (s : State) (q sev : Nat) : List TRec :=
  let l := s.tly.store.filterMap (fun e => match e.2 with
    | some r => if 0 < seqDiff r.seq q ∧ sev ≤ r.sev then some r else none
    | none => none)
  l.foldl (fun acc r => acc.takeWhile (fun x => decide (seqDiff x.seq r.seq < 0)) ++ [r] ++ acc.dropWhile (fun x => decide (seqDiff x.seq r.seq < 0))) []

/-- TALLY_PULL: a device, in a twin pair the active twin, answers with its records (R659). -/
def execTallyPull (h : MsgHdr) (fromSeq : BitVec 32) (minSev max : Nat) (s : State) : Host.Outcome State Fault Refusal :=
  .next (s.onMsg h (.tallyPull fromSeq minSev max) (fun s =>
    if s.twin.on && s.twin.st != .active then s
    else
      let n := if max = 0 ∨ 31 < max then 31 else max
      let rs := (s.recordsAfter fromSeq.toNat minSev).take n
      let head := match s.newest with | some r => r.seq | none => 0
      s.domSend true (.device h.src) (.tallySummary head (s.reg aTlyDrop).toNat (rs.map (fun r => r.bytes)))))

/-- TALLY_SUMMARY: the manager receives a device's records (R500, R659); the manual gives the engine no store for them. -/
def execTallySummary (h : MsgHdr) (head drops : Nat) (records : List (List Byte)) (s : State) :
    Host.Outcome State Fault Refusal := .next (s.onMsg h (.tallySummary head drops records) (fun s => s))

/-- PARAM: each entry is a raw parameter write (R96, R505). -/
def execParamMsg (h : MsgHdr) (es : List (Nat × Nat × Word)) (s : State) : Host.Outcome State Fault Refusal :=
  .next (s.onMsg h (.param es) (fun s =>
    if 127 < es.length then s else es.foldl (fun s e => (s.rawWrite e.1 e.2.1 e.2.2).2) s))

/-- MANAGER leaves every 100 ms from the acting manager; a configured manager that has heard of none begins to act
(R500, R501). -/
def State.managerSend (s : State) : State :=
  let s := s.updDom (fun d => { d with st := 4, mgr := s.pairNo, mgrSeen := true, lastMgr := s.grid.tick })
  s.domSend false .all (.manager s.dom.term s.dom.ver (BitVec.ofNat 32 s.scn.lastDealId) (usedOf s.dom.table))

/-- MANAGER_SEND. -/
def execManagerSend (s : State) : Host.Outcome State Fault Refusal :=
  .next (if s.grid.p.toNat % (s.fs / 10) = 0 ∧ s.grid.fnOn ∧ s.domLive
      ∧ (s.manages ∨ (s.role = 3 ∧ s.dom.mgrSeen = false)) then s.managerSend else s)

/-- MANAGER_TAKEOVER: 4 × fs/10 passes without a MANAGER message (R501). -/
def execManagerTakeover (s : State) : Host.Outcome State Fault Refusal :=
  .next (if 2 ≤ s.role ∧ s.manages = false ∧ s.grid.fnOn ∧ s.domLive ∧ s.dom.lastMgr + 4 * (s.fs / 10) ≤ s.grid.tick then
      let s := s.updDom (fun d => { d with term := d.term + 1 })
      let s := { s with scn := { s.scn with lastDealId := (s.scn.lastDealId + 1024) % 2 ^ 32 } }
      let s := s.managerSend
      s.event sevMajor aDomStat 16 26 s.pairNo s.dom.term.toNat
    else s)

/-- HEARTBEAT_SEND: once a second, in the device's own pass (R511). -/
def execHeartbeatSend (s : State) : Host.Outcome State Fault Refusal :=
  .next (if s.dom.st = 2 ∧ s.grid.p.toNat % s.fs = s.ownNo * s.fs / 2048 then
      s.domSend true .manager (.heartbeat s.pwr.mode.code s.grid.state.code s.twin.st.code
        s.fltStatus)
    else s)

/-- HEARTBEAT_EXPIRY: 3 × fs passes without a HEARTBEAT (R511). -/
def execHeartbeatExpiry (d : Fin 2048) (s : State) : Host.Outcome State Fault Refusal :=
  .next (if s.manages ∧ (s.rosterE d).present ∧ (s.rosterE d).heard + 3 * s.fs ≤ s.grid.tick then s.markAbsent d else s)

/-- JOIN_RETRY: an engine without an answer sends JOIN again after fs passes, a refused one after 10 s (R510). -/
def execJoinRetry (s : State) : Host.Outcome State Fault Refusal :=
  .next (if s.domLive = false ∨ s.grid.fnOn = false ∨ s.dom.st = 2 ∨ s.dom.st = 4 ∨ (s.role = 3 ∧ s.dom.mgrSeen = false) then s
    else
      match s.dom.refusedAt, s.dom.joinAt with
      | some n, _ => if n + 10 * s.fs ≤ s.grid.tick then ({ s with dom := { s.dom with refusedAt := none } } : State).joinSend else s
      | none, some n => if n + s.fs ≤ s.grid.tick then s.joinSend else s
      | none, none => s.joinSend)

end Sys2Proof.Machine
end

