-- ==== Sys2Proof/Machine/LibOps.lean ====
section
/-!
DEFINITION. Library calls: the crossing of a topology recall, one call of a node, the calls of a tile and of a cluster in a
pass (R108, R184 to R187, R326; assumption 8).
-/

namespace Sys2Proof.Machine

/-! ## Library calls -/

/-- Words of tile memory with error checking. -/
def State.readWords (s : State) (a : Nat) : Nat → List Int × State
  | 0 => ([], s)
  | n + 1 =>
    let (w, s) := s.readWord a
    let (ws, s) := s.readWords (a + 4) n
    (w.toInt :: ws, s)

/-- The factor numerators of a crossing at position k of K (R186, R187): new and old gains in Q1.31; none stores one side
unchanged. -/
def crossGains (law k len : Nat) : Int × Int :=
  let phi := k * 2 ^ 30 / max 1 len
  if law = 1 then (sinePhase phi, sinePhase (2 ^ 30 - phi))
  else let g : Int := (k * 2 ^ 31 / max 1 len : Nat); (g, 2 ^ 31 - 1 - g)

/-- Crossing position of the running topology recall in this pass, its length and law. -/
def State.crossPos (s : State) : Nat × Nat × Nat :=
  match s.scn.running with
  | some r => (if r.audible then min r.xfLen (s.grid.tick + 1 - r.s) else 0, r.xfLen, r.law)
  | none => (0, 0, 0)

/-- Schedule cycle of a call. -/
def callCycle : Call → Nat
  | .node _ c _ _ => c
  | .cross c _ _ _ => c

/-- The words of tile data memory that a call reads through port A: the two sides of a crossing; a node's inputs, parameters
and coefficients (assumption 70). -/
def State.callReads (s : State) (n : Nat) : Call → List Nat
  | .cross _ old new _ => [tileBase n + old, tileBase n + new]
  | .node inst _ ins _ =>
    match s.node inst with
    | none => []
    | some r => (upto r.nIn).map (fun k => tileBase n + ins + 4 * k) ++ (upto r.paramWords).map (fun k => paramAddr r k)
        ++ (upto (r.coefBytes / 4)).map (fun k => tileBase n + r.coefAddr + 4 * k)

/-- The first word in error that a call reads. -/
def State.callBad (s : State) (n : Nat) (c : Call) : Option Nat :=
  if s.ms.ecc = [] then none else (s.callReads n c).find? (fun a => mget 0 s.ms.ecc a == 64)

/-- A call meets an uncorrectable word: its tile takes the exception of a load and stops (R258, R326, R329). -/
def State.callExc (s : State) (n : Nat) (c : Call) (a : Nat) : State :=
  (s.setTile n { s.tile n with scyc := callCycle c }).tileExc n n { cause := 2, detail := 0, addr := a - tileBase n } false false

/-- One library call on tile n (R108, R186). -/
def State.runCall (s : State) (n : Nat) : Call → State
  | .cross _ old new out =>
    let b := tileBase n
    let (o, s) := s.readWord (b + old)
    let (w, s) := s.readWord (b + new)
    let (k, len, law) := s.crossPos
    let y := if k = 0 then o.toInt else if k = len then w.toInt
      else let g := crossGains law k len; sat32 (divRne (g.1 * w.toInt + g.2 * o.toInt) (2 ^ 31))
    s.wr32 (b + out) (BitVec.ofInt 32 y)
  | .node inst _ ins outs =>
    match s.node inst with
    | none => s
    | some r =>
      let b := tileBase n
      let (xs, s) := s.readWords (b + ins) r.nIn
      let x := s.nodeSt inst
      let (ys, x, mem, s) : List Int × NodeSt × List (Nat × Word) × State :=
        if r.type = 0x11 then let (ys, x, s) := s.clipRun r x; (ys, x, [], s)
        else if r.type = 0x12 then ([], s.recRun r x xs, [], s)
        else let o := nodeRun (s.nodeIn r x xs) x; (o.outs, o.st, o.mem, s)
      let s := s.setNodeSt inst x
      let s := mem.foldl (fun s m => s.wr32 (b + r.stateAddr + m.1) m.2) s
      ys.zipIdx.foldl (fun s y =>
        let a := if r.type = 0x08 then tileBase (8 * r.cluster + y.2 % 32 / 4) + outs + 4 * (y.2 / 32 * 4 + y.2 % 4)
          else b + outs + 4 * y.2
        s.wr32 a (BitVec.ofInt 32 y.1)) s

/-- A call of a tile that has not stopped: it runs, or meets a word in error. -/
def State.tryCall (s : State) (n : Nat) (c : Call) : State :=
  if (s.tile n).run = .halted then s
  else match s.callBad n c with
    | some a => s.callExc n c a
    | none => s.runCall n c

/-- The calls a tile runs in this pass: X of a staged part while a topology recall runs, else the front's. -/
def State.liveCalls (s : State) (n : Nat) : List Call :=
  match (s.tile n).onBack, mget none s.scn.backs n with
  | true, some p => p.callsX
  | _, _ => (s.prog n).calls

/-- Runs the calls of a library tile that lie before pass cycle `bound` and have not run yet. -/
def State.runLib (s : State) (n bound : Nat) : State :=
  let t := s.tile n
  if s.isLib n = false ∨ t.run ≠ .running then s
  else
    let todo := ((s.liveCalls n).drop t.libNext).takeWhile (fun c => decide (callCycle c < bound))
    let s := s.setTile n { t with libNext := t.libNext + todo.length }
    todo.foldl (fun s c => s.tryCall n c) s

/-- Runs the library tiles of a cluster up to a pass cycle. -/
def State.runLibs (s : State) (c bound : Nat) : State := forAll (upto 8) s (fun t s => s.runLib (8 * c + t) bound)

end Sys2Proof.Machine
end

