-- ==== Sys2Proof/Machine/GridOps.lean ====
section
/-!
DEFINITION. The pass grid (R28 to R48), the end of a pass and the strobe (R50, R310, R319, R585).
-/

namespace Sys2Proof.Machine

/-- Grid state with `f` applied. -/
def State.updGrid (s : State) (f : Grid → Grid) : State := { s with grid := f s.grid }

/-! ## Time and phase error -/

/-- A core cycle of the PTP timescale in the unit 1/100,000 of 2^−32 cycles: 491,520,000 cycles are one second. -/
abbrev cycleUnit : Int := 100000 * 2 ^ 32

/-- The PTP time of the strobe of the current pass, in that unit. -/
def State.strobeTime (s : State) : Int := (s.net.ptp.t : Int) * 49152

/-- The link cell that times the grid: of the selected race link, while it is in SYNC and brings valid frames (R498). -/
def State.raceCell (s : State) : Option (Nat × PassIx × Nat × Int) :=
  match s.raceRef with
  | some k =>
    let l := s.link k
    match l.cell with
    | some (f, t, a) => if l.st = 2 ∧ s.grid.tick ≤ t + 1 then some (k, f, t, a) else none
    | none => none
  | none => none

/-- The phase error of the strobe of the current pass in core cycles, positive when late, as numerator and denominator
(R40, R498); none without a valid time source. -/
def State.phaseErr (s : State) : Option (Int × Int) :=
  match s.raceRef with
  | some _ => s.raceCell.map (fun c => (s.racePhase c.1 c.2.2.2, 1))
  | none =>
    if s.net.timeValid then
      let pass : Int := s.cyc * cycleUnit
      let x := s.strobeTime
      some ((BitVec.ofInt 48 (x / pass) - s.grid.p).toInt * pass + x % pass, cycleUnit)
    else none

/-- K by R38: from the time of the strobe of the current pass, or from a link cell (R498). -/
def State.anchorK (s : State) : Option PassIx :=
  match s.raceRef with
  | some _ => s.raceCell.map (fun c =>
      let dly : Int := s.fld (aRaceCtrl c.1) 23 16
      c.2.1 + BitVec.ofInt 48 ((s.cyc - 2 * (c.2.2.2 - dly)) / (2 * s.cyc)) - BitVec.ofNat 48 c.2.2.1)
  | none =>
    if s.net.timeValid then
      let pass : Int := s.cyc * cycleUnit
      some (BitVec.ofInt 48 ((2 * s.strobeTime + pass) / (2 * pass)) - BitVec.ofNat 48 s.grid.tick)
    else none

/-- SYS_GRID_CTRL.SLEW_PPM as it acts (R46). -/
def State.slewLimit (s : State) : Nat := min 200 (max 10 (s.fld aSysGridCtrl 7 0))

/-- The slew offset that reduces an error, at the limit until one pass of it would do (R39). -/
def State.slewFor (s : State) (num den : Int) : Int :=
  let m : Int := min s.slewLimit ((num.natAbs : Int) * 1000000 / (den * s.cyc))
  if 0 ≤ num then m else -m

/-- The error of a strobe is measured (R40, R41, R48). -/
def State.measure (s : State) : State :=
  if s.grid.state ≠ .slew ∧ s.grid.state ≠ .aligned then s
  else
    match s.phaseErr with
    | none => s.gridHold
    | some (num, den) =>
      let (e, s) := s.divFree num den
      let run := if (num.natAbs : Int) ≤ 122 * den then s.grid.alignRun + 1 else 0
      let out := s.grid.state == .aligned && decide (491 * den < (num.natAbs : Int))
      let st := if out then .slew else s.grid.state
      let slew := if st = .slew then s.slewFor num den else 0
      let s := s.updGrid (fun g => { g with err := clampI (-(2 ^ 31)) (2 ^ 31 - 1) e, alignRun := if out then 0 else run, state := st, slewPpm := slew })
      if out then s.event sevNotice aSysGridStat 0 2 3 0 else s

/-- A re-anchoring is recognised (R42): the functions of R36 fade, K is to change at the next strobe. -/
def State.reanchor (s : State) (k : PassIx) : State :=
  let n := min 15 (s.grid.reanchors + 1)
  let s := s.updGrid (fun g => { g with pendingK := some k, pendingRe := true, reanchors := n,
                                        fnFade := if g.fnOn then some (g.tick + 1) else none })
  s.event sevMajor aSysGridStat 8 11 n 0

/-- A time source is valid again in HOLD: SLEW within the threshold, else a re-anchoring (R41). -/
def State.gridReturn (s : State) : State :=
  match s.phaseErr, s.anchorK with
  | some (num, den), some k =>
    if (num.natAbs : Int) ≤ (max 1 (s.fld aSysGridCtrl 15 8) : Nat) * s.cyc * den then
      s.updGrid (fun g => { g with state := .slew, alignRun := 0 })
    else s.reanchor k
  | _, _ => s

/-- What the grid does at the end of a pass: the return of R41, also after a step of a grandmaster's own time (R459). -/
def State.gridEnd (s : State) : State :=
  let stepped := s.net.ptp.setTo.isSome && s.raceRef.isNone
  if s.grid.pendingK.isSome then s
  else if s.grid.state = .hold then s.gridReturn
  else if stepped then s.gridHold
  else s

/-- The counters advance at a strobe (R31 to R33, R38). -/
def State.gridStep (s : State) : State :=
  let g := s.grid
  if !g.ran then
    let g' : Grid := { g with ran := true, p := 0, state := if s.inDomain then .free else .localRef, fnOn := !s.inDomain }
    s.updGrid (fun _ => g')
  else
    let tick := g.tick + 1
    match g.pendingK with
    | some k =>
      let g' : Grid := { g with tick := tick, p := k + BitVec.ofNat 48 tick, k := some k, state := .slew, alignRun := 0, pendingK := none }
      s.updGrid (fun _ => g')
    | none => s.updGrid (fun g => { g with tick := tick, p := g.p + 1 })

/-- Deals and time triggers after a re-anchoring: what is past takes effect in this pass (R42). -/
def State.afterReanchor (s : State) : State :=
  if s.grid.pendingRe ∧ s.grid.pendingK.isNone then
    let s := (s.updGrid (fun g => { g with pendingRe := false })).dealsAgain s.grid.p
    forAll (s.trigsOf (fun k => match k with | .time _ _ => true | _ => false)) s (fun i s => s.timeTrig i true)
  else s

/-- The fade of the functions of R36 is over (R42). -/
def State.fnEnd (s : State) : State :=
  match s.grid.fnFade with
  | some f => if f + 32 ≤ s.grid.tick then s.updGrid (fun g => { g with fnOn := false, fnFade := none }) else s
  | none => s

/-! ## Silence gating -/

/-- The words a descriptor has written in this pass, with its destination ring index (R86). -/
def State.wrote (s : State) (d : XDesc) (y : Nat) : List Int :=
  (upto d.count).map (fun i =>
    let a := sideAddr d.dstRing d.dst y d.dstFrame d.dstElem i
    (if d.pack3 then s.read3 a else s.rd32 a).toInt)

/-- A region hears the words that enter its wake-margin rings in this pass: the words that any exchange wrote into a ring
from which a descriptor feeds one of its tiles (R55, R585). -/
def State.regionLoud (s : State) (r : Nat) : Bool :=
  let v := sbits (s.reg (aPwrGate r)) 31 16
  let tables := (upto 8).map (fun c => s.frontTable c)
  let ins := tables.flatMap (fun t => t.1.filter (fun d => d.srcRing && inMpd d.src && !inMpd d.dst && decide ((s.prog (tileOfAddr d.dst)).region = some r)))
  tables.any (fun t => t.1.zipIdx.any (fun e =>
    e.1.dstRing && ins.any (fun d => decide (d.src ≤ e.1.dst) && decide (e.1.dst < d.src + max 1 d.srcFrame)) &&
      (s.wrote e.1 (mget 0 t.2 (2 * e.2 + 1))).any (fun x => !below v x)))

/-- The quiet counts of the regions at the end of a pass; a loud input wakes a gated region (R585, R586). -/
def State.regionsEnd (s : State) : State :=
  let rs := (upto 64).filter (fun r => s.gateHold r != 0 && !(s.regionTiles r).isEmpty)
  let loud := rs.filter (fun r => s.regionLoud r)
  let out := s.pwr.outWords
  let s := { s with pwr := { s.pwr with loud := loud, outWords := [] } }
  forAll rs s (fun r s =>
    if loud.contains r then s.regionWake r
    else
      let n := if out.contains r then 0 else mget 0 s.pwr.quiet r + 1
      { s with pwr := { s.pwr with quiet := mset 0 s.pwr.quiet r n } })

/-- Regions whose tiles run again in this pass (R586). -/
def State.regionsWoken (s : State) : State :=
  let now := s.pwr.waking.filter (fun w => decide (w.due ≤ s.grid.tick))
  if now = [] then s
  else
    let s := { s with pwr := { s.pwr with waking := s.pwr.waking.filter (fun w => decide (s.grid.tick < w.due)),
                                          gated := s.pwr.gated.filter (fun r => !now.any (fun w => w.region == r)) } }
    forAll (now.map (·.region)) s (fun r s => forAll (s.regionTiles r) s (fun n s => (s.setDom n .on).wakeTile n))

/-! ## The end of a pass -/

/-- A tile of library code ends its pass (assumption 8). -/
def State.libEnd (s : State) (n : Nat) : State :=
  let t := s.tile n
  if s.isLib n ∧ t.run = .running then
    let cyc := match t.onBack, mget none s.scn.backs n with | true, some p => p.xfCycles | _, _ => (s.prog n).schedCycles
    s.setTile n { t with run := .idle, yielded := true, yieldScyc := cyc - 1 }
  else s

/-- A tile will take the pass overrun exception (R311). -/
def State.overruns (s : State) (n : Nat) : Bool :=
  let t := s.tile n
  !s.isLib n && t.run != .halted && (t.ctx || t.run == .running)

/-- The monitors' samples of a pass that ends (R644). -/
def State.passSamples (s : State) : State :=
  if s.tly.mons = [] then s
  else
    let s := forAll ((upto 64).filter (fun n => s.domOn n)) s (fun n s =>
      let t := s.tile n
      (s.monitor 1 n (if s.overruns n then (s.cyc : Int) else t.yieldScyc)).monitor 2 n t.ctlCyc)
    s.monitor 11 0 s.grid.err

/-- The end of pass n: exchanges, detector triggers, rules, regions, the arbiter's work, the return of the time source
(R50, R53, R205, R210, R585). -/
def State.endPass (s : State) (i : StrobeIn) : State :=
  let s := forAll (upto 8) s (fun c s => if (s.cluster c).fabricReset then s else (s.runLibs c 1000000).exchangeEnd c)
  let s := forAll (upto 64) s (fun n s => s.libEnd n)
  let s := s.passSamples
  let s := s.pdmPass s.grid.tick i
  let s := s.readDetectors.runRules.regionsEnd
  let s := if s.svc.stewDown then s else s.arbitrate s.grid.tick
  let s := { s with pwr := { s.pwr with quietRun := if s.quietNow then s.pwr.quietRun + 1 else 0 } }
  s.gridEnd

/-! ## The start of a pass -/

/-- The time and frequency part of every strobe (R39, R40, R412, R455). -/
def State.timeStrobe (s : State) : State :=
  let ran := s.grid.ran
  let s := if ran then s.ptpStrobe else s
  s.gridStep.measure.clkStrobe

/-- Messages and frames of the strobe (R445, R465, R488, R500, R563). -/
def State.sendStrobe (s : State) (i : StrobeIn) (graph : Bool) : State :=
  let s := ({ s with net := { s.net with out := [] } } : State).restoresAsk
  let s := s.reportsDue
  let s := if graph then (s.txStrobe.joinsDue).cuesOut else s
  let s := forAll (upto 4) s (fun k s => s.raceSend k)
  (s.twinStrobe i.act i.yield_ i.peer).outsDrive

/-- The clusters start a pass: ring indexes advance, what was kept per pass is cleared (R87, R97). -/
def State.clusterStart (s : State) (c : Nat) (first : Bool) : State :=
  let cl := s.cluster c
  if cl.descs = [] ∧ cl.queue = [] ∧ cl.ramps = [] ∧ cl.gangs = [] ∧ cl = {} then s
  else
    let ring := if first then cl.ring else ringNext cl.descs cl.ring
    let xf := match cl.xfDescs with | some l => ringNext l cl.xfRing | none => cl.xfRing
    s.setCluster c { cl with ring := ring, xfRing := xf, next := 0, landed := [], before := [], gangsDone := 0, arrived := [], gang := none, fabricReset := false }

/-- Tile n at a strobe: a stopped tile waits for its restart, a ramp-in goes on, a running tile starts its program (R83,
R310, R332, R333). -/
def State.tileStart (s : State) (n : Nat) : State :=
  let p := s.prog n
  if !s.domOn n ∨ (p.code = [] ∧ s.isLib n = false ∧ p.gang = false ∧ (s.tile n).onBack = false) then s
  else
    let t := s.tile n
    if t.run = .halted then s.setTile n { t with restartIn := t.restartIn - 1, ctlCyc := 0, yieldScyc := 0 }
    else
      let s := s.setTile n { t with rampK := if t.rampK = 0 ∨ 64 ≤ t.rampK then 0 else t.rampK + 1 }
      let entry := match t.onBack, mget none s.scn.backs n with | true, some b => b.xfEntry | _, _ => p.entry
      s.startTile n entry

/-- Monitors' windows at a strobe (R645). -/
def State.windowStart (s : State) : State :=
  s.tly.mons.foldl (fun (s : State) e =>
    let x := s.mon e.1
    if x.run then s.setMon e.1 { x with left := x.left - 1 }
    else if x.on ∧ x.first ≤ s.grid.tick then
      s.setMon e.1 { x with run := true, cur := {}, ix := 0, stop := x.stop.filter (fun e => decide (s.grid.tick ≤ e.1)),
                            left := s.fld (aTlyMonWin e.1) 31 0 - 1 }
    else s) s

/-- The ramp actions of rules start (R209). -/
def State.rampsStart (s : State) : State :=
  let l := s.cue.rampStarts
  l.foldl (fun (s : State) r => s.startRamp r.inst r.param r.value r.len) (s.updCue (fun c => { c with rampStarts := [] }))

/-- Requests and triggers that this pass recognises (R205, R220). -/
def State.recognised (s : State) : State :=
  let now := (s.scn.written.filter (fun e => decide (e.1 ≤ s.grid.tick))).map (·.2)
  let s := s.updScn (fun x => { x with written := x.written.filter (fun e => decide (s.grid.tick < e.1)), recognised := x.recognised ++ now })
  s.updCue (fun c => { c with hits := c.nextHits, nextHits := [] })

/-- Clock readbacks of the PDM block (R394). -/
def State.pdmClocks (s : State) (ok : BitVec 2) : State :=
  let f (good : Bool) (m : SMap Nat) : SMap Nat :=
    (upto 2).foldl (fun m k => mset 0 m k (if ok.getLsbD k = good then mget 0 m k + 1 else 0)) m
  if s.pdm.en then { s with pdm := { s.pdm with clkGood := f true s.pdm.clkGood, clkBad := f false s.pdm.clkBad } } else s

/-- Pass n of R592 for a request of SERVICE or DORMANT: a domain engine sends LEAVE, an active twin with a READY peer
yields, every enabled port and the PDM block stop.  The EN fields keep their values. -/
def State.leaveNow (s : State) : State :=
  if s.pwr.leaving = some s.grid.tick then
    let s := (s.leaveSend).decideYield false
    let s := forAll (upto 12) s (fun k s => if s.flag (aPortCtrl k) 0 then (s.portStop k s.grid.tick).candStops (8 + k) else s)
    if s.pdm.en then s.pdmStop s.grid.tick else s
  else s

/-- The graph has run through pass n + 32 of R592 when the next strobe comes. -/
def State.lastPass (s : State) : Bool :=
  match s.pwr.leaving with
  | some n => decide (n + 32 ≤ s.grid.tick)
  | none => false

/-- The strobe of pass n + 33 has been. -/
def State.graphOver (s : State) : Bool :=
  match s.pwr.leaving with
  | some n => decide (n + 33 ≤ s.grid.tick)
  | none => false

/-- A strobe at which no graph runs: the counters, the servos, the fades and the frames go on. -/
def State.idleStrobe (s : State) (i : StrobeIn) : State :=
  let s := (s.gridEnd.timeStrobe.actsDue false).pdmStopEnd
  ((forAll (upto 12) s (fun k s => s.portFadeEnd k)).windowStart).sendStrobe i false

/-- A pass of the graph ends and the strobe of the next arrives, in which the clusters whose exchange was not complete
report SRC 0x0D (R53). -/
def State.passOver (s : State) (i : StrobeIn) : State :=
  let late := (upto 8).filter (fun c => s.exchangeLate c)
  forAll late (s.endPass i).timeStrobe (fun c s => s.detect 0x0D 0 c 1 0 true)

/-- The tiles that have not finished their pass stop at the strobe (R311, R331). -/
def State.takeOverruns (s : State) : State :=
  forAll ((upto 64).filter (fun n => s.overruns n && s.domOn n)) s (fun n s => s.overrun n)

/-- The start of a pass of the graph. -/
def State.beginPass (s : State) (i : StrobeIn) (first : Bool) : State :=
  let stopped := (upto 64).filter (fun n => (s.tile n).run == .halted)
  let s := forAll (upto 8) s.takeOverruns (fun c s => s.clusterStart c first)
  let s := (s.fnEnd.recognised.actsDue false).syncOver.leaveNow.afterReanchor.regionsWoken
  let s := s.handlersTurn
  let s := forAll ((upto 64).filter (fun n => s.isLib n && s.domOn n)) s (fun n s => s.libControl n)
  let s := (s.cueSample i.cue).pinStates.statStrobe i.stat
  let s := s.rampsStart
  let s := forAll (upto 8) s (fun c s => (s.rampWrites c).queueWrites c)
  let s := s.rawsDue
  let s := (s.lateEntries.powerDue s.grid.tick).stageDue s.grid.tick
  let s := forAll ((upto 64).filter (fun n => stopped.contains n || (s.tile n).run != .halted)) s (fun n s => s.tileStart n)
  let s := forAll ((upto 64).filter (fun n => (s.cluster (n / 8)).gangs.isEmpty && s.domOn n)) s (fun n s => s.releaseNow n)
  let s := s.pdmClocks i.pdmOk
  let s := (forAll (upto 16) s (fun m s => s.micFadeEnd m)).pdmStopEnd
  let s := forAll (upto 12) s (fun k s => s.portFadeEnd k)
  let s := forAll (upto 8) s (fun c s => (s.srcKeep c s.grid.tick))
  let s := if s.decides then forAll (upto 8) s (fun c s => s.srcStep c s.grid.tick) else s
  let s := if s.twin.on then s else s.rxStrobe []
  s.windowStart.sendStrobe i true

/-- The first pass of the graph: ring indexes and state areas (R81, R87); a handler's values are those the image gave it
(R120). -/
def State.graphStart (s : State) : State :=
  let s := s.setMode .sync
  -- what the image and BOOT's writes left is recognised in the first pass (R355, R390)
  let s := s.updGrid (fun g => { g with acts := g.acts.map (fun e => (0, e.2)) })
  let g : Int := s.grid.tick
  let s := forAll (upto 8) s (fun c s =>
    let cl := s.cluster c
    if cl.descs = [] then s
    else
      let at_ := cl.descs.map (fun d => { d with srcPhase := d.srcPhase + g, dstPhase := d.dstPhase + g })
      s.setCluster c { cl with ring := ringInit at_ })
  let s := forAll ((upto 64).filter (fun n => s.domOn n)) s (fun n s =>
    let p := s.prog n
    s.zeroRange (tileBase n + p.stateBase) p.stateBytes)
  s.scn.nodes.foldl (fun (s : State) r => s.nodeClear r false) s

/-- The first pass of a twin's graph (R564): at a common start twin A is active and raises TWIN_ACT, twin B enters
SHADOW; a twin that starts alone is active; a rejoining one goes on copying. -/
def State.twinFirst (s : State) : State :=
  s.updTwin (fun t => match t.st with
    | .start => if t.selB then { t with st := .shadow, startP := none } else { t with st := .active, act := true, startP := none }
    | .active => { t with act := true, startP := none }
    | _ => { t with startP := none })

/-- STROBE (R50): in a mode whose graph runs a pass ends and the next begins; an applied image starts its graph, a twin
when its START names this pass (R564, R572); where no graph runs, and from the strobe of pass n + 33 of R592 on, only the
grid, the servos and the frames go on, and nothing where the CORE clock does not run (R35). -/
def State.strobe (s : State) (i : StrobeIn) : State :=
  match s.pwr.mode with
  | .dormant => s
  | .boot =>
    if s.image.isNone then s
    else
      let s := (if s.grid.ran then s.windowsStop.gridEnd else s).timeStrobe
      if s.twin.on then
        if s.startNow then
          let s := s.twinFirst
          ((s.updGrid (fun g => { g with tick := s.twin.startG, k := g.k.map (fun _ => g.p - BitVec.ofNat 48 s.twin.startG) })).graphStart).beginPass i true
        else (s.actsDue true).sendStrobe i false
      else s.graphStart.beginPass i true
  | .sync | .run | .quiet | .shadow =>
    if s.graphOver then s.windowsStop.idleStrobe i
    else if s.lastPass then ((s.windowsStop.passOver i).takeOverruns.actsDue false).sendStrobe i false
    else (s.windowsStop.passOver i).beginPass i false
  | .sluice | .service => if s.coreOff then s else s.windowsStop.idleStrobe i

end Sys2Proof.Machine
end

