-- ==== Sys2Proof/Machine/GridCmds.lean ====
section
/-!
DEFINITION. The commands of the pass grid and of the exchange engines (R38, R40, R50, R89).
-/

namespace Sys2Proof.Machine

/-- STROBE. -/
def execStrobe (i : StrobeIn) (s : State) : Host.Outcome State Fault Refusal := .next (s.strobe i)

/-- ANCHORING: a time source is valid while the grid is FREE; K is set for the next strobe (R38). -/
def execAnchoring (s : State) : Host.Outcome State Fault Refusal :=
  .next (match s.anchorK with
    | some k => if s.grid.state = .free ∧ s.grid.pendingK.isNone then s.updGrid (fun g => { g with pendingK := some k }) else s
    | none => s)

/-- ALIGNED: 1,024 consecutive passes within 122 cycles (R40).  The first time after an anchoring the functions of R36
start, a TIME record is written, the engine joins its domain and leaves SYNC (R42, R63, R510, R578, R655). -/
def execAligned (s : State) : Host.Outcome State Fault Refusal :=
  .next (if s.grid.state = .slew ∧ 1024 ≤ s.grid.alignRun then
      let first := !s.grid.fnOn || s.grid.fnFade.isSome
      let s := s.updGrid (fun g => { g with state := .aligned, slewPpm := 0, fnOn := true, alignedAt := g.tick, fnFade := none })
      if first then
        let s := s.timeRec false s.passTime.1 s.passTime.2
        let s := (s.dealsAgain (s.grid.p + 1)).leaveSync
        if s.dom.st = 0 ∧ !(s.role == 3 && !s.dom.mgrSeen) then s.joinSend else s
      else s
    else s)

/-- EXCHANGE_DESCRIPTOR: the next descriptor of cluster c's table starts and moves its elements (R86 to R89).  An injection
keeps the last descriptor of a table from starting, or inverts the parity of its first transfer; over the Millpond fabric that transfer writes nothing (R546, R548). -/
def execExchangeDescriptor (c : ClusterNo) (s : State) : Host.Outcome State Fault Refusal :=
  let (l, m) := s.frontTable c.val
  let cl := s.cluster c.val
  .next (if s.graphRuns = false ∨ cl.fabricReset ∨ s.domOn (64 + c.val) = false then s
    else match l[cl.next]? with
      | none => s
      | some d =>
        if cl.next + 1 = l.length ∧ s.injFor 0x0D 0 c.val then s
        else
          let s := s.runLibs c.val d.mark
          let s := s.setCluster c.val { s.cluster c.val with next := cl.next + 1 }
          let s := if d.count = 0 then s else s.detect 0x03 0 c.val 1 0 false
          let y := mget 0 m (2 * cl.next + 1)
          let a := sideAddr d.dstRing d.dst y d.dstFrame d.dstElem 0
          let t := s.runDesc c.val d (mget 0 m (2 * cl.next)) y
          if d.count ≠ 0 ∧ (inMpd d.src ∨ inMpd d.dst) ∧ s.injFor 0x04 0 c.val ∧ s.xchgReach c.val a then
            (t.wrBytes a (s.rdBytes a (if d.pack3 then 3 else 4))).disarm.raiseInj 0x04 c.val 1 0
          else t)

end Sys2Proof.Machine
end

