-- ==== Sys2Proof/Machine/SceneCmds.lean ====
section
/-!
DEFINITION. The commands of scenes, recalls and deals (R175 to R203, R220, R228).  A command of a pass acts when its pass
has come: one given later acts late, one given earlier does nothing (assumption 4).
-/

namespace Sys2Proof.Machine

/-- A write of SCN_RECALL: the request is recognised in the pass after the write; in a twin pair the active twin takes it
and relays it (R206, R220). -/
def State.writeRecall (s : State) (v : Word) : State :=
  let enter (n : Nat) (s : State) : State := s.updScn (fun x => { x with written := x.written ++ [(n + 1, s.recallOf v)] })
  s.relayNow (.recall v) enter

/-- SCN_RECALL. -/
def execScnRecall (v : Word) (s : State) : Host.Outcome State Fault Refusal := .next (s.writeRecall v)

/-- START_PASS: in pass S0 the back program starts (R185). -/
def execStartPass (s : State) : Host.Outcome State Fault Refusal :=
  .next (match s.scn.running with
    | some r => if r.staged ∧ r.started = false ∧ r.s0 ≤ s.grid.tick then s.startRecall r else s
    | none => s)

/-- A recall is due to become audible. -/
def State.audibleDue (s : State) (r : Recall) : Bool :=
  !r.audible && !r.fetching && decide (r.s ≤ s.grid.tick) && (r.topo.isNone || r.started)

/-- AUDIBLE_START: in pass S the crossfade and the ramps begin (R179 to R181, R196). -/
def execAudibleStart (s : State) : Host.Outcome State Fault Refusal :=
  let now := ((s.scn.others ++ s.scn.running.toList).filter s.audibleDue).foldl (fun l r => insertRecall r l) []
  let mark (r : Recall) : Recall :=
    if s.audibleDue r then
      match s.sceneRec r.req.scene with
      | some c => { r with audible := true, last := s.lastOf c r, live := s.liveLate c }
      | none => { r with audible := true, last := r.s }
    else r
  let t := now.foldl (fun (s : State) r => s.audible r) s
  .next (if now = [] then s else t.updScn (fun x => { x with others := x.others.map mark, running := x.running.map mark }))

/-- SWAP_PASS: in pass E the roles swap and the new front runs alone; the pending recall counts as recognised (R185,
R194). -/
def execSwapPass (s : State) : Host.Outcome State Fault Refusal :=
  .next (match s.scn.running with
    | some r => if r.started ∧ r.e ≤ s.grid.tick then s.swapRecall r else s
    | none => s)

/-- RECALL_COMPLETE: the last pass of the crossfade and of the longest ramp (R179). -/
def execRecallComplete (s : State) : Host.Outcome State Fault Refusal :=
  .next (s.updScn (fun x => { x with others := x.others.filter (fun r => !(r.audible && decide (r.last ≤ s.grid.tick))) }))

/-- A recall whose fetch is over: one that was not complete by the end of pass S0 − 3 starts in the third pass after
(R193). -/
def State.fetched (s : State) (scene : Nat) (r : Recall) : Recall :=
  if r.req.scene ≠ scene ∨ r.fetching = false then r
  else
    let d := if r.late ∨ r.s0 < s.grid.tick + 3 then s.grid.tick + 3 - r.s0 else 0
    { r with fetching := false, s0 := r.s0 + d, s := r.s + d, e := r.e + d, last := r.last + d }

/-- A record's digest does not match: its recalls are refused (R193), its deals answered NO_SCENE
(assumption 41); a deal that is dropped is neither staged nor completed (R203). -/
def State.fetchBad (s : State) (scene : Nat) : State :=
  let hit (r : Recall) : Bool := r.req.scene == scene && r.fetching
  let s := s.event sevMajor scnBase 0 0 0 scene
  let ds := s.scn.deals.filter (fun d => d.scene == scene && !d.staged)
  let s := s.updScn (fun x => { x with others := x.others.filter (fun r => !hit r), deals := x.deals.filter (fun d => !(d.scene == scene && !d.staged)),
                                       recentDeals := x.recentDeals.filter (fun e => !ds.any (fun d => d.id == e.1)) })
  let s := ds.foldl (fun (s : State) d => s.dealAck d.id scene 2 (s.passOf d.time)) s
  match s.scn.running with
  | some r =>
    if hit r then s.abandonRecall.updScn (fun x => { x with recognised := x.recognised ++ x.pending.toList, pending := none }) else s
  | none => s

/-- A recall, a request or a staged deal uses the staged record of a scene. -/
def State.usesRecord (s : State) (scene : Nat) : Bool :=
  (s.scn.running.toList ++ s.scn.others).any (fun r => r.req.scene == scene && !r.fetching)
    || s.scn.recognised.any (fun r => r.scene == scene && r.dealId.isSome) || s.scn.deals.any (fun d => d.scene == scene && d.staged)

/-- A free cold slot of the staging area (R193): the image leaves room for two. -/
def State.freeSlot (s : State) : Option Nat :=
  [0, 1].find? (fun k => !s.scn.coldSlots.any (fun e => e.1 == k && s.usesRecord e.2))

/-- A record's bytes go to cold slot `k`, or to its place among the hot records. -/
def State.stageRecord (s : State) (scene : Nat) (k : Option Nat) (bs : List Byte) : State :=
  match s.image with
  | some im =>
    match k with
    | some k => (s.stageWrite im (hotOffset im 1024 + k * coldSize im) bs).updScn (fun x =>
        { x with coldSlots := (k, scene) :: x.coldSlots.filter (fun e => e.1 ≠ k) })
    | none => s.stageWrite im (hotOffset im scene) bs
  | none => s

/-- The record of a scene is hot (R192). -/
def State.isHot (s : State) (scene : Nat) : Bool :=
  match s.image with
  | some im => im.scenes.any (fun c => c.scene == scene && c.hot)
  | none => false

/-- What a record's digest, once it is right, lets go on: recalls and deals that waited for it (R193, R200, R202). -/
def State.fetchGood (s : State) (scene : Nat) : State :=
  let ds := s.scn.deals.filter (fun d => d.scene == scene && !d.staged)
  let late (d : Deal) : Bool := d.s.isNone || (match d.due with | some q => decide (passDiff q s.grid.p < 0) | none => false)
  let s := s.updScn (fun x => { x with running := x.running.map (s.fetched scene), others := x.others.map (s.fetched scene),
                                       deals := x.deals.map (fun d =>
                                         if d.scene = scene ∧ !d.staged then { d with staged := true, s := if late d then none else d.s } else d) })
  ds.foldl (fun (s : State) d =>
    if late d then (s.dealLate scene).dealAck d.id scene 1 (s.passOf d.time) else s.dealAck d.id scene 0 (s.passOf d.time)) s

/-- The read of a record is over; another cold one may wait (R221). -/
def State.fetchOver (s : State) (scene : Nat) : State :=
  let s := ({ s with nvm := { s.nvm with op := none } } : State).flashNext
  if s.isHot scene then s
  else
    let more := (s.nvm.op.toList ++ s.nvm.waiting).any (fun o => match o.use with | .coldScene k => !s.isHot k | _ => false)
    s.updScn (fun x => { x with coldBusy := more, coldEnd := s.grid.tick + 1 })

/-- COLD_FETCH: the read of a record is over and its digest is checked; its bytes are then in the staging area: those of a
cold scene in a free cold slot, for which the read waits, those of a hot one in their place (R193, R200, R228); `errs` are the
bytes of the record that the flash delivers wrong. -/
def execColdFetch (scene : Nat) (errs : List (Nat × Byte)) (s : State) : Host.Outcome State Fault Refusal :=
  .next (match s.nvm.op with
    | some o =>
      let bs := (s.nvm.misread o.addr errs).fbs o.addr (s.recordAt scene).2.1
      let good := sha256 bs == (s.recordAt scene).2.2
      if o.use ≠ .coldScene scene then s
      else if s.isHot scene then
        if good then (s.stageRecord scene none bs).fetchOver scene else (s.fetchOver scene).event sevMajor scnBase 0 0 0 scene
      else if s.freeSlot.isNone then s
      else if good then ((s.stageRecord scene s.freeSlot bs).fetchOver scene).fetchGood scene
      else (s.fetchOver scene).fetchBad scene
    | none => s)

/-- COLD_FETCH_LATE: a fetch is not complete by the end of pass S0 − 3 (R193); the recall is counted when it starts (R223). -/
def execColdFetchLate (s : State) : Host.Outcome State Fault Refusal :=
  let hit (r : Recall) : Bool := r.fetching && !r.late && decide (r.s0 ≤ s.grid.tick + 2)
  let l := (s.scn.running.toList ++ s.scn.others).filter hit
  let mark (r : Recall) : Recall := if hit r then { r with late := true } else r
  let s := s.updScn (fun x => { x with running := x.running.map mark, others := x.others.map mark })
  .next (l.foldl (fun (s : State) r => s.event sevMajor scnBase 0 0 0 r.req.scene) s)

/-- HOT_RECORD_REFETCH: an error in a hot record's staging refuses the recall; the record is fetched again (R228). -/
def execHotRecordRefetch (scene : Nat) (s : State) : Host.Outcome State Fault Refusal :=
  .next (if s.isHot scene = false ∨ s.stageBad scene = false then s
      else
        let s := s.event sevMajor scnBase 0 0 0 scene
        let s := s.flashAsk { kind := .read, prio := 1, use := .coldScene scene, addr := (s.recordAt scene).1 }
        let s := s.updScn (fun x => { x with others := x.others.filter (fun r => r.req.scene ≠ scene ∨ r.audible),
                                             recognised := x.recognised.filter (fun r => r.scene ≠ scene) })
        match s.scn.running with
        | some r =>
          if r.req.scene = scene ∧ r.staged = false then
            s.abandonRecall.updScn (fun x => { x with recognised := x.recognised ++ x.pending.toList, pending := none })
          else s
        | none => s)

/-- DEAL: a targeted engine receives a deal (R198 to R203). -/
def execDealMsg (h : MsgHdr) (d : DealMsg) (s : State) : Host.Outcome State Fault Refusal :=
  .next (s.onMsg h (.deal d) (fun s => s.takeDeal d))

/-- DEAL_DUE: the deals whose pass S0 − L has come are entered as recalls (R199). -/
def execDealDue (s : State) : Host.Outcome State Fault Refusal := .next s.dealsDue

/-- DEAL_ACK: the manager receives an answer (R200, R202). -/
def execDealAck (h : MsgHdr) (id : BitVec 32) (scene status : Nat) (p : PassIx) (s : State) : Host.Outcome State Fault Refusal :=
  .next (s.onMsg h (.dealAck id scene status p) (fun s => if s.manages then s.dealAnswer h.src.toNat id.toNat status else s))

/-- DEAL_ACK_DEADLINE: at t − 10 ms the manager records every device that has not answered (R202). -/
def execDealAckDeadline (s : State) : Host.Outcome State Fault Refusal :=
  let over_ (i : IssuedDeal) : Bool := decide (0 ≤ passDiff s.grid.p (s.passOf i.time - BitVec.ofNat 48 (s.fs / 100)))
  let l := s.scn.issued.filter over_
  let t := s.updScn (fun x => { x with issued := x.issued.filter (fun i => !over_ i) })
  .next (l.foldl (fun (s : State) i => i.targets.foldl (fun (s : State) n => s.dealBad n) s) t)

/-- DEAL_CANCEL: a deal that is not due is removed and answered CANCELLED, a later cancel TOO_LATE (R201). -/
def execDealCancel (h : MsgHdr) (id : BitVec 32) (s : State) : Host.Outcome State Fault Refusal :=
  .next (s.onMsg h (.dealCancel id) (fun s =>
    let n := id.toNat
    match s.scn.deals.find? (fun d => d.id == n), s.scn.recentDeals.find? (fun e => e.1 == n) with
    | some d, _ =>
      let early := match d.s, d.due with | some _, some q => decide (passDiff s.grid.p q < 0) | _, _ => false
      if early then
        (s.updScn (fun x => { x with deals := x.deals.filter (fun e => e.id ≠ n), recentDeals := x.recentDeals.filter (fun e => e.1 != n) })).dealAck n d.scene 5 (s.passOf d.time)
      else s.dealAck n d.scene 6 (s.passOf d.time)
    | none, some e => s.dealAck n e.2.1 6 e.2.2
    | none, none => s))

end Sys2Proof.Machine
end

