-- ==== Sys2Proof/Machine/FaultCmds.lean ====
section
/-!
DEFINITION. The fault collector and its reactions, injection, the supply monitor and the steward's restart (R542, R546 to
R552, R679).
-/

namespace Sys2Proof.Machine

/-! ## Injection -/

/-- The modes a detector's injection has (R546). -/
def injModes (src : Nat) : List Nat :=
  match src with
  | 0x02 => [1, 2]
  | 0x08 => [0, 1]
  | 0x00 | 0x0E | 0x0F => []
  | _ => if src ≤ 0x12 then [0] else []

/-- An injection is of a fatal class: clocks, supplies, and an uncorrectable error outside the RAMs of R527's contained
reactions. -/
def injFatal (src unit : Nat) : Bool :=
  src == 0x07 || src == 0x08 || src == 0x0A || (src == 0x02 && decide (0x300 ≤ unit))

/-- A write of FLT_INJECT (R547).  An injection into a word is kept by the physical memory that holds it; one whose word
lies in another memory than UNIT never meets its event. -/
def State.writeInject (s : State) (v : Word) : State :=
  let old := s.reg aFltInject
  let keep := if v.getLsbD 30 then old &&& ~~~0x40000000#32 else old
  let s := s.setReg aFltInject ((keep &&& 0x40000000#32) ||| (v &&& 0x0FFFFFFF#32))
  if !v.getLsbD 31 then s
  else
    let src := bits v 27 20
    let mode := bits v 19 16
    let bit := bits v 15 10
    let unit := bits v 9 0
    let bad := (injFatal src unit && s.pwr.mode != .service) || !(injModes src).contains mode
      || (src == 1 && decide (38 < bit)) || (src == 2 && mode == 1 && decide (31 < bit))
    if bad then s.setFlag aFltInject 30 true
    else
      let a := s.busAddr ((s.reg aFltInjArg).toNat / 4 * 4)
      let arg := if (src = 1 ∨ src = 2) ∧ memIdOf a ≠ unit then 2 ^ 33 else a
      { s with flt := { s.flt with armed := some { src := src, mode := mode, unit := unit, bit := bit, arg := arg } } }

/-- INJECT. -/
def execInjectArm (v : Word) (s : State) : Host.Outcome State Fault Refusal := .next (s.writeInject v)

/-! ## Contained reactions -/

/-- A cluster fabric reset (R542): transfers end, the tiles stop and mute; they restart at the next strobe, or one later
when the reset is recognised in the last 128 cycles of the pass. -/
def State.clusterReset (s : State) (c : Nat) (late : Bool) : State :=
  let s := s.setCluster c { s.cluster c with fabricReset := true, arrived := [], gang := none }
  forAll ((upto 8).map (fun t => 8 * c + t)) s (fun n s =>
    let p := s.prog n
    if !s.domOn n ∨ (p.code = [] ∧ p.lib = false ∧ p.gang = false) then s
    else
      let s := s.stopTile n
      if late then s.setTile n { s.tile n with restartIn := 2 } else s)

/-- The network block restarts (R548): streams fade, time is invalid. -/
def State.netRestart (s : State) : State :=
  let rx := s.net.rx.map (fun e => (e.1, { e.2 with have_ := [], ownOk := [] }))
  let s := { s with net := { s.net with rx := rx, buf0 := [], buf1 := [], nodes := [], out := [] } }
  if s.net.timeValid then s.setTimeValid false else s

/-- A parity fault of a fabric or device-bus master (R548). -/
def State.masterFault (s : State) (m : Nat) (late : Bool) : State :=
  if m < 8 then s.clusterReset m late
  else if m = 8 then
    forAll ((upto 12).filter (fun k => s.portRuns k)) s (fun k s =>
      s.relay (.slip k) (fun n s => s.slipAct k n))
  else if m = 9 then { s with net := { s.net with rx := s.net.rx.map (fun e => (e.1, { e.2 with have_ := [], ownOk := [] })) } }
  else if m = 10 then
    let last : Int := if s.race.committed = s.grid.tick + 1 then s.grid.tick else (s.grid.tick : Int) - 1
    { s with race := { s.race with frames := s.race.frames.filter (fun r => decide (last < r.f)) } }
  else s

/-- The unit of a contained report restarts (R548).  Tiles have stopped at their detection, and the master of a hang has
lost its access. -/
def State.containedReaction (s : State) (r : Report) (late : Bool) : State :=
  match r.src with
  | 0x03 | 0x0D => s.clusterReset (r.unit % 8) late
  | 0x04 => s.masterFault r.unit late
  | 0x09 => s.netRestart
  | 0x0B => { s with svc := { s.svc with stewDown := true } }
  | _ => s

/-- What a contained report of a twin's own brings (R568, R576): the active twin yields, a standby rejoins. -/
def State.twinContained (s : State) : State :=
  if !s.twin.on then s
  else
    match s.twin.st with
    | .active => if s.flag aTwinCtrl 1 then s.decideYield false else s
    | .shadow | .verify => s.rejoinStart
    | _ => s

/-! ## The collector -/

/-- A report enters the queue of 16, coalesces with the newest one or is lost (R551). -/
def State.queueReport (s : State) (r : Report) : State :=
  match s.flt.queue.getLast? with
  | some (x, n) =>
    if x.src = r.src ∧ x.unit = r.unit then
      { s with flt := { s.flt with queue := s.flt.queue.dropLast ++ [(x, satAdd 16 n 1)] } }
    else if s.flt.queue.length < 16 then { s with flt := { s.flt with queue := s.flt.queue ++ [(r, 0)] } }
    else s.count aFltLost 31 0 1
  | none => { s with flt := { s.flt with queue := [(r, 0)] } }

/-- The passes of this twin's own contained and uncorrectable reports, for a diagnosis (R570). -/
def State.noteOwnFault (s : State) (r : Report) : State :=
  if !s.twin.on ∨ ¬ (r.cls = 1 ∨ r.src = 0x02) then s
  else s.updTwin (fun t => { t with ownFaults := t.ownFaults.filter (fun p => decide (s.grid.tick < p + 2048)) ++ [s.grid.tick] })

/-- A fatal report (R549, R558, R568, R569): one that takes REF or a supply disables every sluice output port; one that
stops the CORE clock cannot wait for the strobe of a hand-over. -/
def State.fatalReport (s : State) (src : Nat) : State :=
  let s := s.fatalReaction
  let s := if src = 0x07 ∨ src = 0x0A then { s with flt := { s.flt with slDead := true } } else s
  let s := if src = 0x07 ∨ src = 0x08 then s.coreStop else s
  if src = 0x08 ∧ s.twin.yielding.isSome then
    s.updTwin (fun t => { t.dropLines (s.grid.tick + 1) with yielding := none, act := false, yieldPin := true, st := .failed })
  else s

/-- The collector takes a report: it queues it and carries out its class's reaction, whether or not it was queued
(R548, R551). -/
def State.collect (s : State) (r : Report) (late : Bool) : State :=
  let s := { s with flt := { s.flt with lastSrc := r.src } }
  let s := (s.queueReport r).noteOwnFault r
  match r.cls with
  | 0 => (s.count aFltCounts 15 0 1).setFlag aFltStatus 0 true
  | 1 =>
    let s := ((s.count aFltCounts 31 16 1).setFlag aFltStatus 1 true).irq 1
    (s.containedReaction r late).twinContained
  | _ => (s.irq 1).fatalReport r.src

/-- FAULT_REPORT: the collector takes the oldest report a detector has raised.  A parity detector reports with the
command itself, first; `late`: it is recognised in the last 128 cycles of the pass. -/
def execFaultReport (hw : Option ParityHit) (late : Bool) (s : State) : Host.Outcome State Fault Refusal :=
  let s : State := match hw with
    | some (.xbar c) => s.detect 0x03 0 c.val 1 0 true
    | some (.fabric m) => s.detect 0x04 0 m.val 1 0 true
    | none => s
  .next (match s.flt.raised with
    | [] => s
    | r :: l => ({ s with flt := { s.flt with raised := l } } : State).collect r late)

/-- The severity of a report's record (R548, R570, R595, R698). -/
def Report.severity (r : Report) : Nat :=
  match r.cls with
  | 0 => if r.src = 0x0F ∨ r.src = 0x10 ∨ r.src = 0x12 then sevMajor else sevInfo
  | 1 => sevMajor
  | _ => sevCritical

/-- QUEUE_DRAIN: the steward records the oldest queued report and pops it (R552, R650). -/
def execQueueDrain (s : State) : Host.Outcome State Fault Refusal :=
  .next (match s.flt.queue with
    | [] => s
    | (r, n) :: l =>
      if s.svc.stewDown ∨ s.domOn 79 = false then s
      else
        let s := { s with flt := { s.flt with queue := l } }
        s.record 1 r.severity r.inj (r.src % 64 * 2 ^ 10 + r.unit % 1024)
          ([BitVec.ofNat 8 r.cls, 0] ++ leBytes 4 r.pass ++ leBytes 2 r.detail ++ leBytes 2 n ++ List.replicate 8 0))

/-! ## The steward and the supplies -/

/-- WATCHDOG: the steward has not serviced it for 100 ms (R546). -/
def execWatchdog (s : State) : Host.Outcome State Fault Refusal := .next (s.detect 0x0B 0 0 1 0 true)

/-- The state a command answers. -/
def stateOf (s : State) : Host.Outcome State Fault Refusal → State
  | .next t => t
  | _ => s

/-- A domain message that waited for the steward's restart is acted on. -/
def State.waitedMsg (s : State) (h : MsgHdr) (b : MsgBody) : State :=
  stateOf s (match b with
    | .join own r t tb bd n => execJoinMsg h own r t tb bd n s
    | .admission v e => execAdmitMsg h v e s
    | .refuse r => execRefuseMsg h r s
    | .leave => execLeaveMsg h s
    | .manager t v l u => execManagerMsg h t v l u s
    | .heartbeat m g t f => execHeartbeatMsg h m g t f s
    | .mirror cs => execMirrorMsg h cs s
    | .deal d => execDealMsg h d s
    | .dealAck i c st p => execDealAck h i c st p s
    | .dealCancel i => execDealCancel h i s
    | .cue n l t => execCueMsg h n l t s
    | .streams e es => execStreamsMsg h e es s
    | .tallyPull f m x => execTallyPull h f m x s
    | .tallySummary hd d rs => execTallySummary h hd d rs s
    | .param es => execParamMsg h es s
    | .image _ => .next s
    | .other _ _ => .next (s.staleMsg h b))

/-- STEWARD_RESTART: the steward runs again and its waiting work resumes (R548). -/
def execStewardRestart (s : State) : Host.Outcome State Fault Refusal :=
  let ms := s.svc.waitMsgs
  let out := s.svc.waitSends
  let t := { s with svc := { s.svc with stewDown := false, waitMsgs := [], waitSends := [] } }
  let t := out.foldl (fun (s : State) m => s.domSend m.1 m.2.1 m.2.2) t
  .next (if s.svc.stewDown then ms.foldl (fun (s : State) m => s.waitedMsg m.1 m.2) t else s)

/-- Power-on reset is asserted (R579, R679): what a power cycle keeps is the flash and the fuses, and the secure region
while its own rail stays in range. -/
def State.powerLost (s : State) (railHeld : Bool) : State :=
  { pending := s.pending, draws := s.draws,
    nvm := { flash := s.nvm.flash, fuses := s.nvm.fuses },
    mem := if railHeld then s.mem.filter (fun c => decide (c.1 / 0x40000 = 0x600)) else [] }

/-- SUPPLY_MONITOR: rail `rail` crosses its lower (true) or upper (false) threshold for 1 µs; none is a sample in range,
which an injection forces out of it (R546, R679). -/
def execSupplyMonitor (rail : Fin 9) (crossed : Option Bool) (s : State) : Host.Outcome State Fault Refusal :=
  .next (if crossed = some true ∧ (rail.val = 1 ∨ rail.val = 8) then s.powerLost (rail.val == 8)
    else s.detect 0x0A 0 rail.val 2 0 crossed.isSome)

end Sys2Proof.Machine
end

