-- ==== Sys2Proof/Machine/TwinCmds.lean ====
section
/-!
DEFINITION. The commands of twin pairs (R562 to R573).
-/

namespace Sys2Proof.Machine

/-! ## The common start -/

/-- A twin starts alone as ACTIVE in the next pass (R564). -/
def State.startAlone (s : State) : State :=
  s.updTwin (fun t => { t with st := .active, startP := some (s.grid.p + 1), startG := 0 })

/-- TWIN_START_WAIT: twin A's wait for twin B's STATE expires (R564). -/
def execTwinStartWait (s : State) : Host.Outcome State Fault Refusal :=
  .next (if s.twin.on ∧ s.twin.st = .start ∧ s.twin.selB = false ∧ s.twin.wait = 0 ∧ s.twin.peerSeen = false
      ∧ s.twin.startP.isNone then s.startAlone else s)

/-- START: a twin that waits for its first pass, or one that has asked to rejoin, takes the pass and the graph count it
names (R564, R572). -/
def execTwinStart (p : PassIx) (g : Word) (s : State) : Host.Outcome State Fault Refusal :=
  .next (if s.twin.on ∧ ((s.twin.st = .start ∧ s.twin.selB) ∨ (s.twin.st = .copy ∧ s.twin.rejoinFrom.isSome)) then
      s.updTwin (fun t => { t with startP := some p, startG := g.toNat })
    else s)

/-- PEER_WAIT: twin B has waited twice as long as twin A and reads TWIN_PEER_ACT: low, it starts alone; high, it rejoins
(R564). -/
def execPeerWait (peer : Bool) (s : State) : Host.Outcome State Fault Refusal :=
  .next (if s.twin.on ∧ s.twin.st = .start ∧ s.twin.selB ∧ s.twin.wait = 0 ∧ s.twin.startP.isNone then
      let s := s.updTwin (fun t => { t with peerAct := peer })
      if peer then s.rejoinStart else s.startAlone
    else s)

/-! ## Skew and pins -/

/-- TWIN_SKEW: 48 consecutive passes with a skew above 16 cycles are one report (R562, R571). -/
def execTwinSkew (s : State) : Host.Outcome State Fault Refusal :=
  .next (if s.twin.on ∧ 48 ≤ s.twin.skewBad then
      (s.updTwin (fun t => { t with skewBad := 0 })).detect 0x11 0 0 0 0 true
    else s)

/-- TWIN_PIN_STUCK: TWIN_ACT, TWIN_YIELD or TWIN_PEER_ACT is wrong for the eighth pass in a row (R565, R698). -/
def execTwinPinStuck (pin : Fin 3) (s : State) : Host.Outcome State Fault Refusal :=
  .next (if s.twin.on = false ∨ mget 0 s.twin.stuck pin ≠ 8 then s
    else
      let level := if pin.val = 0 then !s.twin.act else if pin.val = 1 then !s.twin.yieldPin else true
      let s := s.updTwin (fun t => { t with stuck := mset 0 t.stuck pin 9, notReady := t.notReady || pin.val == 2 })
      s.raise 0x0F (0x60 + pin) 0 (if level then 1 else 0))

/-! ## Digests and diagnosis -/

/-- The digest of the open window: the XOR of the CRCs of the powered clusters (R566). -/
def State.windowDigest (s : State) : BitVec 64 :=
  (upto 8).foldl (fun (x : BitVec 64) c =>
    if s.domOn (64 + c) then x ^^^ (mget 0 s.twin.crcs c ^^^ 0xFFFFFFFFFFFFFFFF#64) else x) 0

/-- DIGEST_WINDOW: the last pass of a window ends; an injection sends the digest with bit 0 inverted (R546, R566). -/
def execDigestWindow (s : State) : Host.Outcome State Fault Refusal :=
  .next (if s.twin.on ∧ s.graphRuns ∧ s.grid.tick % 2 ^ 32 % 48 = 47 then
      let d := s.windowDigest
      let w := s.grid.tick % 2 ^ 32 / 48
      let sent := if s.injFor 0x10 0 0 then d ^^^ 1#64 else d
      let s := if s.injFor 0x10 0 0 then s.disarm else s
      s.updTwin (fun t => { t with own := d, windowDigests := t.windowDigests ++ [(w, d)], toSend := some (w, sent), crcs := [] })
    else s)

/-- DIAGNOSIS_END: 1,024 passes after a mismatch, each twin counts its own reports since 144 passes before it;
`peerFound`: the peer has found some (R570). -/
def execDiagnosisEnd (peerFound : Bool) (s : State) : Host.Outcome State Fault Refusal :=
  .next (match s.twin.diagFrom with
    | none => s
    | some q =>
      if s.grid.tick < q + 1024 then s
      else
        let own := s.twin.ownFaults.any (fun p => decide (q ≤ p + 144))
        let s := s.updTwin (fun t => { t with diagFrom := none, ownFaults := [] })
        let active := s.twin.st == .active
        let clean := !own && !peerFound
        let s := if clean then
            let again : Bool := match s.twin.cleanAt with | some x => decide (s.rtc ≤ x + 3600) | none => false
            let s := s.event sevMajor aTwinState 0 0 0 0
            let s := if again then s.event sevCritical aTwinState 0 0 0 0 else s
            s.updTwin (fun t => { t with cleanAt := some s.rtc })
          else s
        if active then
          if own && !peerFound then
            ({ s.updTwin (fun t => { t with yielding := some (s.grid.tick, false) }) with } : State).count aTwinEvents 31 24 1
          else s
        else if s.twin.st = .diag then
          if peerFound && !own then s.updTwin (fun t => { t with st := .shadow }) else s.rejoinStart
        else s)

/-! ## Hand-over -/

/-- TWIN_CMD_YIELD: a write of TWIN_CMD.YIELD (R568). -/
def execTwinCmdYield (s : State) : Host.Outcome State Fault Refusal := .next (s.decideYield false)

/-- A standby twin: one whose graph runs behind an active peer, or that rejoins one. -/
def State.standby (s : State) : Bool :=
  s.twin.on && (match s.twin.st with
    | .shadow | .copy | .verify | .diag => true
    | _ => false)

/-- TWIN_CMD_REJOIN: a write of TWIN_CMD.REJOIN; a standby goes to step 2 (R575). -/
def execTwinCmdRejoin (s : State) : Host.Outcome State Fault Refusal := .next (if s.standby then s.rejoinAsk else s)

/-- TWIN_TAKEOVER: a standby reads TWIN_PEER_ACT low.  In SHADOW it takes over, its TWIN_ACT rising at the strobe after
next; when the twin link was lost, only within 4 passes of the loss, with a MAJOR record (R568, R569, R571). -/
def execTwinTakeover (s : State) : Host.Outcome State Fault Refusal :=
  let late : Bool := match s.twin.lostAt with | some n => decide (n + 4 < s.grid.tick) | none => false
  .next (if s.twin.on ∧ s.twin.st = .shadow ∧ s.twin.notReady = false ∧ late = false ∧ s.twin.taking.isNone then
      let s := if s.twin.lostAt.isSome then s.event sevMajor aTwinState 0 2 2 0 else s
      (s.updTwin (fun t => { t with st := .active, peerAct := false, taking := some (s.grid.tick + 1),
                                    lines := true, linesFrom := s.grid.tick + 1 })).count aTwinEvents 23 16 1
    else s)

/-! ## Rejoining -/

/-- REJOIN_REQ: the active twin answers START when no topology recall runs (R572). -/
def execRejoinReq (s : State) : Host.Outcome State Fault Refusal :=
  .next (if s.twin.on ∧ s.twin.st = .active then s.rejoinAnswer else s)

/-- The steward state block of the active twin is taken over, with the power of the regions it gates (R572); a tile that it no
longer gates wakes from retention (R232, R263, R264). -/
def State.takeBlock (s : State) (b : StewBlock) : State :=
  let s := { s with scn := b.scn, cue := b.cue, dom := { s.dom with seq := b.seq } }
  let s := { s with pwr := { s.pwr with gated := b.gated, quiet := b.quiet } }
  let s := forAll (upto 8) s (fun c s => s.setCluster c { s.cluster c with ramps := mget [] b.ramps c, queue := mget [] b.queues c })
  s.scn.progs.foldl (fun (s : State) e => match e.2.region with
    | some r =>
      if b.gated.contains r then (if s.domSt e.1 = .off then s else s.setDom e.1 .retention)
      else if s.domSt e.1 = .retention then (s.setDom e.1 .on).wakeTile e.1
      else s
    | none => s) s

/-- COPY_END: copying ends; digests compare from the first whole window on (R572). -/
def execCopyEnd (b : StewBlock) (s : State) : Host.Outcome State Fault Refusal :=
  .next (if s.twin.on ∧ s.twin.st = .copy ∧ s.twin.rejoinFrom.isSome then
      (s.takeBlock b).updTwin (fun t => { t with st := .verify, matches_ := 0, verifyFrom := s.grid.tick % 2 ^ 32 / 48 + 1 })
    else s)

/-- REJOIN_LIMIT: LIMIT seconds have passed since step 2 (R572). -/
def execRejoinLimit (s : State) : Host.Outcome State Fault Refusal :=
  .next (match s.twin.rejoinFrom with
    | none => s
    | some n =>
      if s.twin.on ∧ (s.twin.st = .copy ∨ s.twin.st = .verify) ∧ n + max 1 (s.fld aTwinCtrl 31 20) * s.fs ≤ s.grid.tick then
        let r := s.twin.returns + 1
        let s := (s.updTwin (fun t => { t with returns := r })).count aTwinEvents 7 0 1
        let s := if r = 3 then s.event sevCritical aTwinEvents 0 7 (s.fld aTwinEvents 7 0) r else s
        s.rejoinAsk
      else s)

end Sys2Proof.Machine
end

