-- ==== Sys2Proof/Machine/Regs.lean ====
section
/-!
DEFINITION. The peripheral registers as the device bus reads them (R10 to R15): stored fields, the fields that show a
state of the engine, latched halves, and the effects of a read.
-/

namespace Sys2Proof.Machine

/-! ## Fields that show a state of the engine -/

/-- A Boolean as a field value. -/
def bn (b : Bool) : Nat := if b then 1 else 0

/-- A number of fields: high bit, low bit, value. -/
abbrev Shown := List (Nat × Nat × Nat)

/-- A whole register that shows a signed number. -/
def whole (x : Int) : Shown := [(31, 0, (BitVec.ofInt 32 x).toNat)]

/-- A whole register that shows a signed number, saturating. -/
def wholeSat (x : Int) : Shown := whole (sat32 x)

/-- A set of bits, from a predicate on bit numbers below `n`. -/
def bitsOf (n : Nat) (p : Nat → Bool) : Nat := (upto n).foldl (fun x k => x + (if p k then 2 ^ k else 0)) 0

/-- SYS_ (R43 to R48, R603). -/
def State.shownSys (s : State) (a : Nat) : Shown :=
  if a = aSysPassLo then [(31, 0, s.p32)]
  else if a = aSysPassHi then [(15, 0, s.grid.p.toNat / 2 ^ 32)]
  else if a = aSysGcount then [(31, 0, if s.pwr.mode = .boot then 0 else s.grid.tick % 2 ^ 32)]
  else if a = aSysGridStat then [(11, 8, s.grid.reanchors), (2, 0, s.grid.state.code)]
  else if a = aSysGridErr then whole s.grid.err
  else if a = aSysMode then [(8, 8, bn s.flt.lock), (2, 0, s.pwr.mode.code)]
  else []

/-- The state of a recall as SCN_STATUS reports it (R221). -/
def State.recallPhase (s : State) (r : Recall) : Nat :=
  if r.fetching || decide (s.grid.tick < r.s0) then 1
  else if s.grid.tick < r.s then 2
  else if r.topo.isSome && decide (s.grid.tick < r.e) then 3
  else 4

/-- A request recognised in this pass is that of a recall: its scene is there, with a delta set where it needs one. -/
def State.wouldRun (s : State) (r : RecallReq) : Bool :=
  match s.image with
  | some im => im.scenes.any (fun c => c.scene == r.scene &&
      (match c.topo with | some t => t == s.scn.frontTopo || c.deltas.any (fun d => d.from_ == s.scn.frontTopo) | none => true))
  | none => false

/-- A request names an identity other than the front's (R183). -/
def State.wouldTopo (s : State) (r : RecallReq) : Bool :=
  match s.image with
  | some im => im.scenes.any (fun c => c.scene == r.scene && (match c.topo with | some t => t != s.scn.frontTopo | none => false))
  | none => false

/-- SCN_ (R221, R222): a request counts from the pass of its recognition. -/
def State.shownScn (s : State) (a : Nat) : Shown :=
  if a = aScnStatus then
    let st := match s.scn.running with
      | some r => s.recallPhase r
      | none =>
        if s.scn.recognised.any (fun r => s.wouldRun r && s.wouldTopo r) then 1
        else if s.scn.others.any (fun r => r.topo.isSome) then 4
        else if s.scn.recognised.any (fun r => s.wouldRun r) then 1
        else match s.scn.others.getLast? with
          | some r => s.recallPhase r
          | none => 0
    [(29, 26, s.scn.frontTopo), (25, 16, s.scn.current), (4, 4, bn (s.scn.coldBusy || s.scn.coldEnd == s.grid.tick + 1)), (3, 3, bn s.scn.pending.isSome), (2, 0, st)]
  else if a = aScnPend then [(9, 0, match s.scn.pending with | some r => r.scene | none => 0)]
  else []

/-- The code of a port state (R373). -/
def PortSt.code : PortSt → Nat
  | .off => 0 | .search => 1 | .runin => 2 | .ramp => 3 | .run => 4 | .fade => 5 | .hold => 6 | .stopping => 7

/-- PORT_ (R372 to R376). -/
def State.shownPort (s : State) (a : Nat) : Shown :=
  let k := (a - 0x40100000) / 0x1000
  let p := s.port k
  if a = aPortPhase k then [(29, 16, p.lockPhase)]
  else if a = aPortStat k then [(7, 7, bn (s.portCfgErr k)), (4, 4, bn p.lost), (2, 0, p.st.code)]
  else if a = aPortRate k then [(31, 28, p.cls), (24, 0, p.rate)]
  else if a = aPortNa k then [(31, 16, bitsOf 16 (fun j => (mget {} p.na j).act))]
  else []

/-- PDM_ (R407). -/
def State.shownPdm (s : State) (a : Nat) : Shown :=
  if a = aPdmStat then [(2, 2, bn s.pdmCfgErr), (1, 0, s.pdm.clkRun.toNat)]
  else if a = aPdmMicStat then
    [(31, 16, bitsOf 16 (fun m => (s.mic m).stuck)),
     (15, 0, bitsOf 16 (fun m => (s.mic m).st == .ramp || (s.mic m).st == .run))]
  else []

/-- The code of a converter state (R403, R409). -/
def SrcSt.code : SrcSt → Nat
  | .off => 0 | .wait => 1 | .acquire => 2 | .locked => 3

/-- SRC_ (R409). -/
def State.shownSrc (s : State) (a : Nat) : Shown :=
  let c := (a - 0x40120000) / 0x40
  let x := s.src c
  if a = aSrcRatioLo c then [(31, 0, x.rho.toNat % 2 ^ 32)]
  else if a = aSrcRatioHi c then [(2, 0, x.rho.toNat / 2 ^ 32)]
  else if a = aSrcStat c then [(6, 6, bn (s.srcCfgErr c)), (5, 4, x.h), (2, 0, x.st.code)]
  else if a = aSrcErr c then wholeSat (coarse x.e 65536)
  else if a = aSrcGd c then [(23, 0, s.srcGd c)]
  else []

/-- The code of a reference state (R421). -/
def RefSt.code : RefSt → Nat
  | .free => 0 | .acquire => 1 | .locked => 2 | .holdover => 3

/-- CLKST2 and CLK_REF_STATE.FALLBACK (R426). -/
def State.clkFallback (s : State) : Bool :=
  s.clk.sel.isNone || s.clk.entry != 0 || s.clk.st == .free || s.clk.st == .holdover

/-- CLK_ (R437 to R439). -/
def State.shownClk (s : State) (a : Nat) : Shown :=
  if a = aClkRefState then
    [(20, 16, s.clk.sel.getD 0x1F), (10, 8, s.clk.entry), (4, 4, bn s.clk.hist), (3, 3, bn s.clkFallback), (2, 2, bn s.clk.hexp),
     (1, 0, s.clk.st.code)]
  else if a = aClkRefValid then [(19, 0, bitsOf 20 (fun r => s.candValid r))]
  else if a = aClkFreq then whole s.clk.f
  else if a = aClkFhold then whole s.clk.fhold
  else if a = aClkPherr then wholeSat s.clk.pherr
  else if a = aClkOutStat then [(15, 8, bitsOf 8 (fun o => s.outEn o && (s.out o).gated)), (7, 0, bitsOf 8 (fun o => s.outCfgErr o))]
  else if a = aClkSync then [(31, 31, bn s.clk.armed)]
  else []

/-- PTP_ (R476). -/
def State.shownPtp (s : State) (a : Nat) : Shown :=
  let x := s.net.ptp
  if a = aPtpStat then [(5, 5, x.port), (4, 4, bn s.net.timeValid), (3, 0, x.st)]
  else if a = aPtpOffset then wholeSat (coarse x.off 4096)
  else if a = aPtpMpd then wholeSat (coarse (x.d.getD 0) 4096)
  else if a = aPtpW then whole x.w
  else []

/-- The code of a stream state (R479). -/
def StrmSt.code : StrmSt → Nat
  | .off => 0 | .idle => 1 | .run => 2 | .fade => 3 | .hold => 4 | .ramp => 5

/-- STRM_ (R478, R479): a descriptor that is not enabled shows no configuration error (assumption 43). -/
def State.shownStrm (s : State) (a : Nat) : Shown :=
  let i := (a - 0x40221000) / 0x20
  let j := (a - 0x40222000) / 0x20
  if a = aStrmTxSsrc i then (if s.image.isNone then [] else [(31, 0, s.pairNo * 65536 + i)])
  else if a = aStrmTxStat i then
    [(0, 0, bn (s.flag (aStrmTx i) 31 && s.fld (aStrmTx i) 22 16 != 0 && s.txCfgErr i))]
  else if 0x40222000 ≤ a ∧ a = aStrmRxState j then
    [(31, 29, (s.rxs j).ch.st.code), (1, 1, bn (s.flag (aStrmRx j) 31 && s.fld (aStrmRx j) 22 16 != 0 && s.rxCfgErr j))]
  else []

/-- RACE_ (R514). -/
def State.shownRace (s : State) (a : Nat) : Shown :=
  let k := (a - 0x40300000) / 0x40
  if a = aRaceValid then [(3, 0, s.race.valid)]
  else if k < 4 ∧ a = aRaceStat k then [(1, 0, (s.link k).st)]
  else []

/-- DOM_ (R515): the tables and the roster version are the manager's only. -/
def State.shownDom (s : State) (a : Nat) : Shown :=
  if a = aDomId then
    match s.domSet with
    | some d => [(31, 16, d.domain), (12, 11, d.role), (10, 0, s.ownNo)]
    | none => []
  else if a = aDomStat then [(26, 16, s.dom.mgr), (15, 8, s.dom.reason), (2, 0, s.dom.st)]
  else if a = aDomTerm then [(15, 0, s.dom.term.toNat)]
  else if a = aDomTables then
    if s.manages then [(28, 16, usedOf s.dom.table), (11, 0, (s.dom.roster.filter (fun e => e.2.present)).length)] else []
  else if a = aDomRosterVer then (if s.manages then [(31, 0, s.dom.ver)] else [])
  else if a = aDomSeq then [(31, 0, s.dom.seq.toNat)]
  else []

/-- MPD_ (R544). -/
def State.shownMpd (s : State) (a : Nat) : Shown :=
  let isMarch (m : Option Maint) : Bool := match m with | some x => x.kind == 1 | none => false
  let k := (a - 0x40800030) / 4
  let e := (a - 0x40800044) / 4
  let t := mget {} s.ms.repair (s.fld aMpdRepairSel 9 0)
  if a = aMpdSweep then [(31, 0, s.ms.sweepTook.foldl (fun m x => max m x.2) 0)]
  else if a = aMpdMarchCtrl then [(31, 31, bn (isMarch s.svc.running || isMarch s.svc.queued))]
  else if a = aMpdMarchStat then [(31, 15, s.ms.marchRow), (7, 4, min 15 s.ms.marchFails.length), (2, 0, s.ms.marchSt)]
  else if aMpdMarchFail 0 ≤ a ∧ a ≤ aMpdMarchFail 3 then
    match s.ms.marchFails[k]? with
    | some r => [(31, 31, 1), (16, 0, r)]
    | none => []
  else if a = aMpdRepair 0 ∨ a = aMpdRepair 1 then
    let row := if e = 0 then t.row0 else t.row1
    [(31, 31, bn row.isSome), (30, 30, bn (if e = 0 then t.bad0 else t.bad1)), (16, 0, row.getD 0)]
  else if a = aMpdSecStat then [(1, 1, bn (s.ms.secLock || s.ms.tamperLow)), (0, 0, bn s.ms.wiping)]
  else []

/-- FLT_ (R574). -/
def State.shownFlt (s : State) (a : Nat) : Shown :=
  if a = aFltStatus then [(31, 0, s.fltStatus.toNat)]
  else if a = aFltInject then [(31, 31, bn s.flt.armed.isSome)]
  else match s.flt.queue.head? with
    | none => []
    | some (r, n) =>
      if a = aFltQ0 then [(31, 24, r.src), (23, 22, r.cls), (21, 21, bn r.inj), (9, 0, r.unit)]
      else if a = aFltQ1 then [(31, 0, r.pass)]
      else if a = aFltQ2 then [(31, 16, n), (15, 0, r.detail)]
      else []

/-- TWIN_ (R575), of an engine that is a twin. -/
def State.shownTwin (s : State) (a : Nat) : Shown :=
  let t := s.twin
  if a = aTwinState then
    [(31, 16, t.matches_), (11, 11, bn t.peerReady), (10, 10, bn t.peerAct), (9, 9, bn t.act), (8, 8, bn t.selB), (2, 0, t.st.code)]
  else if a = aTwinDigestLo then [(31, 0, t.own.toNat % 2 ^ 32)]
  else if a = aTwinDigestHi then [(31, 0, t.own.toNat / 2 ^ 32)]
  else if a = aTwinPeerLo then [(31, 0, t.peer.toNat % 2 ^ 32)]
  else if a = aTwinPeerHi then [(31, 0, t.peer.toNat / 2 ^ 32)]
  else if a = aTwinWindow then [(31, 0, t.window)]
  else if a = aTwinCopy then [(31, 16, t.sweeps), (15, 0, min 65535 t.dirtyFound)]
  else []

/-- PWR_ (R604). -/
def State.shownPwr (s : State) (a : Nat) : Shown :=
  let i := (a - 0x40010000) / 4
  if i < 3 then [(31, 0, bitsOf 32 (fun b => decide (32 * i + b < 80) && s.domOn (32 * i + b)))]
  else if i < 6 then [(31, 0, bitsOf 32 (fun b => s.domSt (32 * (i - 3) + b) == .retention))]
  else if a = aPwrGated 0 ∨ a = aPwrGated 1 then [(31, 0, bitsOf 32 (fun b => s.pwr.gated.contains (32 * (i - 12) + b)))]
  else []

/-- The code of an update session state (R642). -/
def UpdSt.code : UpdSt → Nat
  | .idle => 0 | .erasing => 1 | .open_ => 2 | .verifying => 3 | .done => 4 | .failed => 5

/-- NVM_STAT.OP (R642). -/
def Nvm.opCode (n : Nvm) : Nat :=
  match n.op, n.suspended with
  | some o, _ => match o.kind with | .read => 1 | .program => 2 | .erase => 3
  | none, some _ => 4
  | none, none => 0

/-- NVM_ (R642). -/
def State.shownNvm (s : State) (a : Nat) : Shown :=
  let n := s.nvm
  if a = aNvmCfg then [(12, 8, n.size), (1, 0, n.bus)]
  else if a = aNvmSlotBytes then [(31, 0, n.slotBytes)]
  else if a = aNvmStat then
    [(10, 10, bn n.preferred), (9, 9, bn n.fallback), (8, 8, bn n.failed), (7, 7, bn (s.flag aPwrTherm 16)),
     (6, 6, bn (s.flag aPwrPfail 0)), (2, 0, n.opCode)]
  else if a = aNvmJrn then [(31, 31, n.chain), (30, 30, bn n.compacting), (29, 29, bn !n.spareErased), (19, 0, n.used)]
  else if a = aNvmJrnGen then [(31, 0, n.gen)]
  else if a = aNvmJrnSeq then [(31, 0, n.seq)]
  else if a = aNvmUpdCtrl then [(15, 8, n.sess.err), (7, 7, bn n.sess.domain), (6, 4, n.sess.st.code)]
  else if a = aNvmLc then [(8, 8, bn n.lcBusy), (1, 0, n.fuses.state)]
  else if a = aNvmFuse then
    [(8, 8, bn n.fuses.wrap), (7, 4, bitsOf 4 (fun k => n.fuses.revoked.contains k)), (3, 0, bitsOf 4 (fun k => n.fuses.burned k))]
  else if a = aNvmKeycmd then [(17, 17, bn n.slot1.isSome), (16, 16, bn n.slot0.isSome)]
  else if a = aNvmKeygen then [(31, 0, n.keyGen)]
  else []

/-- A word of the recorder's window: word `w` of slot `k` as it stands (R649, R656). -/
def State.slotWord (s : State) (k w : Nat) : Nat :=
  match mget none s.tly.store k with
  | some r => leNat ((r.bytes.drop (4 * w)).take 4)
  | none => 0

/-- TLY_, without the monitors (R656, R657, R667). -/
def State.shownTly (s : State) (a : Nat) : Shown :=
  let i := (a - 0x40040100) / 4
  if a = aTlyHead then [(10, 0, s.tly.head.getD 0)]
  else if a = aTlyHeadSeq then [(31, 0, match s.newest with | some r => r.seq | none => 0)]
  else if a = aTlyCount then [(11, 0, s.tly.store.length)]
  else if a = aTlyCursor then [(30, 30, bn s.tly.ready), (29, 29, bn s.tly.empty), (10, 0, s.tly.slot)]
  else if aTlyWindow 0 ≤ a ∧ a ≤ aTlyWindow 63 then [(31, 0, s.slotWord ((s.tly.slot + i / 8) % 2048) (i % 8))]
  else []

/-- The registers of monitor m (R645, R647, R668): a monitor that is not enabled shows no configuration error
(assumption 43). -/
def State.shownMon (s : State) (a : Nat) : Shown :=
  let m := (a - 0x40041000) / 0x80
  let o := (a - 0x40041000) % 0x80
  let x := s.mon m
  let h := x.held
  if o = 0x18 then [(8, 8, bn (s.flag (aTlyMonCfg m) 31 && s.monBad m)), (1, 1, bn x.run)]
  else if o = 0x20 ∨ o = 0x78 then [(31, 0, x.heldIx)]
  else if o = 0x24 then whole h.min
  else if o = 0x28 then whole h.max
  else if o = 0x2C then [(31, 0, h.count)]
  else if o = 0x30 then whole h.sum
  else if o = 0x34 then whole (h.sum / 2 ^ 32)
  else if 0x38 ≤ o ∧ o < 0x78 then [(31, 0, mget 0 h.bins ((o - 0x38) / 4))]
  else []

/-- SVC_ (R663, R669). -/
def State.shownSvc (s : State) (a : Nat) : Shown :=
  let kind (m : Option Maint) : Nat := match m with | some x => x.kind | none => 0
  if a = aSvcParamGo then [(10, 8, s.svc.goResult)]
  else if a = aSvcMaintStat then
    [(31, 24, min 255 s.svc.errors), (21, 20, s.svc.result), (18, 16, s.svc.last), (8, 8, bn s.svc.compactPend),
     (6, 4, kind s.svc.queued), (2, 0, kind s.svc.running)]
  else []

/-- The fields of the register at an address that show a state of the engine. -/
def State.shown (s : State) (a : Nat) : Shown :=
  match a / 65536 with
  | 0x4000 => s.shownSys a
  | 0x4001 => s.shownPwr a
  | 0x4002 => s.shownClk a
  | 0x4003 => s.shownFlt a
  | 0x4004 => if a < 0x40041000 then s.shownTly a else s.shownMon a
  | 0x4005 => s.shownNvm a
  | 0x4006 => s.shownSvc a
  | 0x4010 => s.shownPort a
  | 0x4011 => s.shownPdm a
  | 0x4012 => s.shownSrc a
  | 0x4021 => s.shownPtp a
  | 0x4022 => s.shownStrm a
  | 0x4030 => s.shownRace a
  | 0x4060 => s.shownDom a
  | 0x4070 => if a = aCuePinIn then [(31, 16, s.cue.raw.toNat), (15, 0, s.cue.state.toNat)] else []
  | 0x4071 => s.shownScn a
  | 0x4080 => s.shownMpd a
  | 0x4090 => s.shownTwin a
  | _ => []

/-- The value of the register at an address as it stands: WO fields read 0 (R14), an offset without a register reads 0
(R11), the TWIN_ block of a single engine reads 0 (R575). -/
def State.view (s : State) (a : Nat) : Word :=
  match regAt a with
  | none => 0
  | some r =>
    if a / 65536 = 0x4090 ∧ s.twin.on = false then 0
    else (s.shown a).foldl (fun v f => putBits v f.1 f.2.1 f.2.2) (s.reg a &&& ~~~r.mask .wo)

/-! ## Reads with their effects -/

/-- The _LO register of one value whose _HI register follows it (R15). -/
def isLo (a : Nat) : Bool :=
  a == aSysPassLo || a == aClkSyncTsLo || a == aPtpGmidLo || a == aPtpClkidLo || a == aPtpTsetSLo || a == aTwinDigestLo
    || a == aTwinPeerLo || a == aNetMacLo 0 || a == aNetMacLo 1
    || (a / 65536 == 0x4012 && decide (a % 65536 < 0x200) && a % 0x40 == 4)
    || (decide (0x40041000 ≤ a) && decide (a < 0x40043000) && (a - 0x40041000) % 0x80 == 0x30)

/-- A register whose reads return the latched part (R15, R461). -/
def isLatched (a : Nat) : Bool :=
  isLo (a - 4) || a == aPtpTimeSLo || a == aPtpTimeSHi
    || (decide (0x40210080 ≤ a) && decide (a < 0x402100C0) && decide (8 ≤ a % 16))

/-- A 32-bit read of a peripheral register `c` cycles after the strobe, with its effects: RC fields are cleared (R14), a
_LO read latches the _HI part (R15), a nanoseconds read latches its seconds (R461), a semaphore is taken (R539). -/
def State.readReg (s : State) (m : Master) (c a : Nat) : Word × State :=
  match regAt a with
  | none => (0, s)
  | some r =>
    if a = aPtpTimeNs then s.readTimeNs c
    else if 0x40210084 ≤ a ∧ a < 0x402100C0 ∧ a % 16 = 4 then s.readCapNs ((a - 0x40210084) / 16)
    else if 0x40500100 ≤ a ∧ a < 0x40500180 then s.semRead ((a - 0x40500100) / 4) m
    else if isLatched a then (mget 0 s.latch a, s)
    else
      let v := s.view a
      let rc := r.mask .rc
      let s := if rc = 0 then s else s.setReg a (s.reg a &&& ~~~rc)
      (v, if isLo a then { s with latch := mset 0 s.latch (a + 4) (s.view (a + 4)) } else s)

end Sys2Proof.Machine
end

