-- ==== Sys2Proof/Machine/ModeOps.lean ====
section
/-!
DEFINITION. Requests for an operating mode (R592, R593, R603, R605), life-cycle transitions (R640), raw parameter writes
of the service port (R663) and the end of maintenance work (R665, R666).
-/

namespace Sys2Proof.Machine

/-! ## Requests for a mode -/

/-- A request that R578 does not allow sets REQ_ERR. -/
def State.reqErr (s : State) : State := s.setFlag aSysMode 9 true

/-- A request for SERVICE or DORMANT in a mode whose graph runs is recognised in the next pass (R592, R593). -/
def State.askLeave (s : State) (dormant : Bool) : State :=
  let n := match s.pwr.leaving with | some n => n | none => s.grid.tick + 1
  { s with pwr := { s.pwr with leaving := some n, toDormant := s.pwr.toDormant || dormant } }

/-- A request for SERVICE (R578, R592): while the graph runs, and in SLUICE after a boot failure. -/
def State.askService (s : State) : State :=
  if s.graphRuns then s.askLeave false
  else if s.pwr.mode = .sluice ∧ s.pwr.bootFailed ∧ s.flt.lock = false then s.askLeave false
  else s.reqErr

/-- A request for DORMANT (R578, R593). -/
def State.askDormant (s : State) : State :=
  if s.graphRuns then s.askLeave true
  else if s.pwr.mode = .service then { s with pwr := { s.pwr with toDormant := true } }
  else s.reqErr

/-- A request for RUN (R592): in SERVICE the engine restarts through BOOT, after maintenance work in progress. -/
def State.askRun (s : State) : State :=
  if s.pwr.mode = .service then
    if s.svc.running.isSome then { s with pwr := { s.pwr with runReq := true } } else s.reboot 5
  else s.reqErr

/-- A value of SYS_MODE.REQ is written; 0 and 4 to 7 have no effect (R603). -/
def State.askMode (s : State) (req : Nat) : State :=
  match req with
  | 1 => s.askService
  | 2 => s.askDormant
  | 3 => s.askRun
  | _ => s

/-! ## Entry to SERVICE and to DORMANT -/

/-- What the graph leaves behind when it stops at the strobe of pass n + 33 (R592, R605): tiles stop, a recall is
abandoned, every stream is disabled, the functions of R36 end. -/
def State.stopGraph (s : State) : State :=
  let s := s.abandonRecall
  let s := s.updScn (fun x => { x with written := [], recognised := [], others := [], pending := none })
  let idle (t : Tile) : Tile := { t with run := if t.run = .halted then .halted else .idle, ctx := false, runs := [], waiting := false }
  let s := { s with tiles := mupdAll {} s.tiles (fun _ t => idle t) (s.tiles.map (·.1)) }
  let s := forAll (upto 128) s (fun i s => ((s.setFlag (aStrmTx i) 31 false).setFlag (aStrmRx i) 31 false).setRxs i {})
  s.updGrid (fun g => { g with fnOn := false, fnFade := none })

/-- The request of R592 takes effect: pass n + 33 when the graph ran, the pass after the write in SLUICE. -/
def State.enterService (s : State) : State :=
  let after (s : State) : State :=
    (({ s with pwr := { s.pwr with leaving := none, bootFailed := false, quietRun := 0 } } : State).setMode .service).countersRecord
  if s.graphRuns then
    if s.graphOver then after s.stopGraph else s
  else if s.pwr.mode = .sluice ∧ s.pwr.bootFailed then
    match s.pwr.leaving with
    | some n =>
      if n ≤ s.grid.tick then after { s with flt := { s.flt with safe := false, slBuf := [], slOut := [], slRace := 0, slEnded := [] } } else s
    | none => s
  else s

/-- The program in progress ends, well (R593); a read or an erase is given up. -/
def State.commitFlush (s : State) : State :=
  match s.nvm.op with
  | some o =>
    let s := { s with nvm := { s.nvm with op := none } }
    if o.kind = FlashKind.program then
      let s := { s with nvm := { s.nvm with flash := flashProg s.nvm.flash o.addr o.data } }
      if o.use = .commit then s.commitDone true else s
    else s
  | none => s

/-- The commit queue is written to the journal, page by page (R593, R640). -/
def State.flushJournal : Nat → State → State
  | 0, s => s.commitFlush
  | k + 1, s => (s.commitFlush.journalCommit).flushJournal k

/-- The steward's work of R593: maintenance ends, the recorder's records and the counters reach the journal, and every
switched domain goes off. -/
def State.enterDormant (s : State) : State :=
  let s := s.maintAbort.countersRecord.requeueNewest
  let s := s.flushJournal 65
  let s := (s.powerOffBut []).coreStop
  let s := { s with pwr := { s.pwr with mode := .dormant, toDormant := false, wakeHeld := false } }
  s

/-- The entry to DORMANT is over; a wake source that came meanwhile starts the boot sequence (R593, R605). -/
def State.dormantOver (s : State) : State :=
  if s.pwr.toDormant ∧ s.pwr.mode = .service then
    let held := s.pwr.wakeHeld
    let s := s.enterDormant
    if held then s.reboot 4 else s
  else s

/-! ## Life cycle -/

/-- Fuses burned for the state `target` (R640): both of its pair, and for PROVISIONED the wrap key `key`. -/
def Fuses.burn (f : Fuses) (target key : Nat) : Fuses :=
  match target with
  | 1 => { f with pair1 := 2, wrap := true, wrapKey := if f.wrap then f.wrapKey else key }
  | 2 => { f with pair2 := 2 }
  | _ => { f with pair3 := 2 }

/-- A transition is allowed (R639, R640). -/
def Fuses.mayGo (f : Fuses) (target : Nat) : Bool :=
  match f.state, target with
  | 0, 1 => f.burned 0
  | 1, 2 | 1, 3 | 2, 3 => true
  | _, _ => false

/-- The fuses of a transition are burned; the wrap key is a free value (R636, R640; assumption 187). -/
def State.burnFuses (s : State) (target : Nat) : State :=
  { s with nvm := { s.nvm with fuses := s.nvm.fuses.burn target (Config.wrapKey s.draws).toNat }, draws := s.draws + 1 }

/-- The transition of R640: the wipe starts, the LIFE_CYCLE record reaches the journal, the fuses are burned, the engine
restarts. -/
def State.transition (s : State) (target : Nat) : State :=
  let f := s.nvm.fuses
  ((((s.startWipe false).journal 10 [BitVec.ofNat 8 f.state, BitVec.ofNat 8 target, 0, 0]).flushJournal 65).burnFuses target).reboot 5

/-- The window of 1 s that the key opens has not passed (R640). -/
def State.lcKeyed (s : State) : Bool :=
  match s.nvm.lcOpen with
  | some n => decide (s.grid.tick ≤ n + s.fs)
  | none => false

/-- A write of NVM_LC: ERR is cleared by 1; TARGET asks for a transition, in SERVICE within 1 s of the key (R640). -/
def State.writeLc (s : State) (v : Word) : State :=
  let s := if v.getLsbD 9 then s.setFlag aNvmLc 9 false else s
  let target := bits v 17 16
  if target = 0 then s
  else if s.pwr.mode = .service ∧ s.lcKeyed = true ∧ s.nvm.fuses.mayGo target = true then s.transition target
  else ({ s with nvm := { s.nvm with lcOpen := none } } : State).setFlag aNvmLc 9 true

/-! ## Raw parameter writes of the service port -/

/-- The (INSTANCE, PARAM) pairs of this BUILD with a trim, committed or queued (R629). -/
def State.trims (s : State) : List (Nat × Nat) :=
  let n := s.nvm
  (((n.recs ++ n.committing ++ n.queue).filter (fun r => r.type == 6 && leNat (r.data.take 8) == s.build)).map
    (fun r => (leNat ((r.data.drop 8).take 2), leNat ((r.data.drop 10).take 2)))).eraseDups

/-- A write of SVC_PARAM_GO (R663). -/
def State.paramGo (s : State) (v : Word) : Resp × State :=
  if !v.getLsbD 0 then (.ok, s)
  else
    let persist := v.getLsbD 1
    let inst := s.fld aSvcParamId 28 16
    let k := s.fld aSvcParamId 15 0
    let x := s.reg aSvcParamVal
    let result (n : Nat) (s : State) : State := { s with svc := { s.svc with goResult := n } }
    if !s.decides then (.ok, result 4 s)
    else match s.node inst with
      | none => (.ok, result 1 s)
      | some r =>
        if r.paramWords ≤ k then (.ok, result 1 s)
        else if persist ∧ 1024 ≤ s.trims.length ∧ s.trims.contains (inst, k) = false then (.ok, result 3 s)
        else if s.twin.on ∧ s.graphRuns ∧ (s.cluster r.cluster).queue.length < 1024 then
          -- both twins queue it in the acting pass
          let f := frameOf s.twin.out 2
          let n := s.grid.tick + 2 + (if f = 0 then 0 else f + 1)
          (.ok, result 0 ((s.rawLater n inst k x persist).twinOut (.param inst k x persist)))
        else
          match s.rawWrite inst k x persist with
          | (.queued, s) => (.ok, result 0 s)
          | (.unknown, s) => (.ok, result 1 s)
          | (.full, s) => (.busy, result 2 s)

/-! ## Maintenance -/

/-- A write of SVC_MAINT: kinds 2, 3 and 5 (R665, R669); a tile restart of no tile is refused. -/
def State.writeMaint (s : State) (v : Word) : Resp × State :=
  let k := bits v 26 24
  let a := bits v 9 0
  if k = 2 then s.maintRequest { kind := 2, arg := a }
  else if k = 3 then s.maintRequest { kind := 3, arg := 0 }
  else if k = 5 then
    if a < 64 then s.maintRequest { kind := 5, arg := a } else (.ok, { s with svc := { s.svc with last := 5, result := 2 } })
  else (.ok, s)

/-- The work of a tile restart (R665): both banks and the state area are cleared, the exception record kept, the tile
left stopped. -/
def State.tileCleared (s : State) (n : Nat) : State := if s.domOn n then s.clearTile n else s

/-- The running request ends, its work over; a request for RUN that waited for it takes place (R592, R666). -/
def State.endMaint (s : State) : State :=
  match s.svc.running, s.svc.ended with
  | some m, some _ =>
    let s := if m.kind = 5 then s.tileCleared m.arg else s
    let s := s.maintOver
    if s.pwr.runReq then s.reboot 5 else s
  | _, _ => s

end Sys2Proof.Machine
end

