-- ==== Sys2Proof/Machine/Bus.lean ====
section
/-!
DEFINITION. Accesses of the device bus: register writes by block (R10 to R15, R697), the memory windows (R517 to R521,
R528, R259 to R261), the register windows of the tiles (R233, R234, R336 to R341), error responses and hangs (R540, R541).
-/

namespace Sys2Proof.Machine

/-! ## Register writes -/

/-- A write stores RW fields, clears W1C and sets W1S bits that carry 1, and leaves the rest (R12, R14). -/
def State.storeReg (s : State) (a : Nat) (v : Word) : State :=
  match regAt a with
  | none => s
  | some r =>
    let old := s.reg a
    let rw := r.mask .rw
    s.setReg a ((old &&& ~~~rw &&& ~~~(r.mask .w1c &&& v)) ||| (v &&& rw) ||| (v &&& r.mask .w1s))

/-- A write of the register at `a` would change an RW field (R697). -/
def State.changes (s : State) (a : Nat) (v : Word) : Bool := !s.holds a v

/-- An accepted write of another register of a block whose configuration may have become valid: converters whose EN is 1
start (R408). -/
def State.srcRecheck (s : State) : State :=
  forAll (upto 8) s (fun c s =>
    if (s.src c).st = .off ∧ s.flag (aSrcCtrl c) 0 ∧ s.srcCfgErr c = false then s.later s.nextPass (.srcOn c) else s)

/-- A write of a PORT_ register (R366, R697). -/
def State.writePort (s : State) (a : Nat) (v : Word) : State :=
  let k := (a - 0x40100000) / 0x1000
  if a = aPortCtrl k then (s.writePortCtrl k v).srcRecheck
  else if a = aPortNa k then s.storeReg a v
  else if (s.port k).st = .off then
    let s := (s.storeReg a v).srcRecheck
    -- a port without slots drives nothing (R343, R377)
    let s := if s.pSlots k = 0 then s.setPort k { s.port k with bclk := [], fsync := [], sent := [], dout := [] } else s
    forAll (k :: s.members k) s (fun j s => if s.flag (aPortCtrl j) 0 then s.later s.nextPass (.portOn j) else s)
  else if s.changes a v then s.setFlag (aPortStat k) 6 true
  else s.storeReg a v

/-- A write of PDM_CTRL, PDM_MIC_EN or a TRIM register takes effect (R389, R390, R392). -/
def State.pdmSwitch (s : State) (a : Nat) (v : Word) : State :=
  if a = aPdmCtrl then s.writePdmCtrl v
  else if a = aPdmMicEn then s.writeMicEn v
  else s.writeTrim ((a - aPdmTrim 0) / 4) v

/-- A write of a PDM_ register (R393, R396): a standby refuses those its peer relays. -/
def State.writePdm (s : State) (a : Nat) (v : Word) : Resp × State :=
  if a = aPdmCtrl ∨ a = aPdmMicEn ∨ (aPdmTrim 0 ≤ a ∧ a ≤ aPdmTrim 3) then
    if s.decides then (.ok, s.relayWrite a v (fun s => s.pdmSwitch a v)) else (.error, s)
  else (.ok, if s.pdmLocked ∧ s.changes a v then s.setFlag aPdmStat 3 true else s.storeReg a v)

/-- A write of a SRC_ register (R396, R408). -/
def State.writeSrc (s : State) (a : Nat) (v : Word) : Resp × State :=
  let c := (a - 0x40120000) / 0x40
  if a = aSrcCtrl c then
    if s.decides then (.ok, s.relayWrite a v (fun s => s.writeSrcCtrl c v)) else (.error, s)
  else if (s.src c).st ≠ .off ∧ s.changes a v then (.ok, s.setFlag (aSrcStat c) 7 true)
  else (.ok, (s.storeReg a v).srcRecheck)

/-- A write of a CLK_ register (R419, R424, R430, R432, R438). -/
def State.writeClk (s : State) (a : Nat) (v : Word) : State :=
  if a = aClkCtrl then s.writeClkCtrl v
  else if a = aClkRefPrio0 ∨ a = aClkRefPrio1 then (s.storeReg a v).later s.nextPass .refList
  else if a = aClkSync then s.writeClkSync v
  else if a = aClkXtalTrim then s.setReg a (BitVec.ofInt 32 (clampF v.toInt))
  else if aClkMclk 0 ≤ a then (s.storeReg a v).later s.nextPass .outs
  else s.storeReg a v

/-- A write of a STRM_ register (R474). -/
def State.writeStrm (s : State) (a : Nat) (v : Word) : State :=
  let tx := decide (a < 0x40222000)
  let i := (a - (if tx then 0x40221000 else 0x40222000)) / 0x20
  let mask : Word := match regAt a with | some r => r.mask .rw | none => 0
  if a < 0x40221000 then s.storeReg a v
  else if tx ∧ a = aStrmTx i then s.writeTx i v
  else if tx = false ∧ a = aStrmRx i then s.writeRx i v
  else if mask = 0 ∨ (tx ∧ a = aStrmTxStat i) ∨ (tx = false ∧ a = aStrmRxState i) then s.storeReg a v
  else s.writeStrmField tx i a mask v

/-- A write of a RACE_ register (R513). -/
def State.writeRace (s : State) (a : Nat) (v : Word) : State :=
  let k := (a - 0x40300000) / 0x40
  let mask : Word := match regAt a with | some r => r.mask .rw | none => 0
  if 4 ≤ k then s.storeReg a v
  else if a = aRaceCtrl k then s.writeRaceCtrl k v
  else if mask = 0 then s.storeReg a v
  else s.writeRaceField k a mask v

/-- A write of a FLT_ register (R547, R574, R697). -/
def State.writeFlt (s : State) (a : Nat) (v : Word) : Resp × State :=
  if a = aFltInject then (.ok, s.writeInject v)
  else if aFltSluiceIn ≤ a then
    if s.pwr.mode = .boot ∨ s.pwr.mode = .service ∨ s.changes a v = false then (.ok, s.storeReg a v) else (.error, s)
  else (.ok, s.storeReg a v)

/-- A write of a PWR_ register (R604, R697). -/
def State.writePwr (s : State) (a : Nat) (v : Word) : Resp × State :=
  if a = aPwrQuiet then (.ok, s.writePwrQuiet v)
  else if aPwrGate 0 ≤ a then
    if s.pwr.mode = .boot ∨ s.pwr.mode = .service ∨ s.changes a v = false then (.ok, s.storeReg a v) else (.error, s)
  else (.ok, s.storeReg a v)

/-- A write of a TWIN_ register: ignored in an engine without a twin (R575). -/
def State.writeTwin (s : State) (a : Nat) (v : Word) : State :=
  if s.twin.on = false then s
  else if a = aTwinCmd then
    let s := if v.getLsbD 0 then s.decideYield false else s
    if v.getLsbD 1 ∧ s.standby then s.rejoinAsk else s
  else s.storeReg a v

/-- A write of NVM_UPD_CTRL.OP (R622, R642).  CLOSE starts the check, whose end is a step of its own. -/
def State.writeUpd (s : State) (op : Nat) : Resp × State :=
  match op with
  | 1 => s.updOpen
  | 2 => s.updProgram
  | 3 => (.ok, if s.nvm.sess.st ≠ .open_ ∨ s.nvm.sess.domain then s.updErr 8 else s.setSess { s.nvm.sess with st := .verifying })
  | 4 => (.ok, s.sessionAbort)
  | _ => (.ok, s)

/-- A write of NVM_KEYCMD (R641). -/
def State.writeKeycmd (s : State) (v : Word) : State :=
  let s := if v.getLsbD 8 then s.setFlag aNvmKeycmd 8 false else s
  s.keyCmd (bits v 2 0) (bits v 5 4)

/-- A write of an NVM_ register (R622, R640, R641, R642, R697). -/
def State.writeNvm (s : State) (a : Nat) (v : Word) : Resp × State :=
  if a = aNvmUpdCtrl then s.writeUpd (bits v 2 0)
  else if a = aNvmUpdBytes then
    (.ok, if s.nvm.sess.busy && s.changes a v then s.updErr 8 else s.storeReg a v)
  else if a = aNvmLc then (.ok, s.writeLc v)
  else if a = aNvmLcKey then (.ok, s.writeLcKey v)
  else if a = aNvmKeycmd then (.ok, s.writeKeycmd v)
  else if aNvmKeybuf 0 ≤ a then (.ok, { s with nvm := { s.nvm with keybuf := mset 0 s.nvm.keybuf ((a - aNvmKeybuf 0) / 4) v } })
  else (.ok, s.storeReg a v)

/-- A write of a TLY_ register (R645, R648, R657, R664). -/
def State.writeTly (s : State) (a : Nat) (v : Word) : State :=
  let m := (a - 0x40041000) / 0x80
  let mask : Word := match regAt a with | some r => r.mask .rw | none => 0
  if a = aTlyCursor then s.writeCursor v
  else if a = aTlyMark then s.mark (bits v 17 16) (bits v 15 0) 1 0 0xFFFF
  else if a < 0x40041000 then s.storeReg a v
  else if a = aTlyMonCfg m then s.writeMonCfg m v
  else if a = aTlyMonCtrl m then
    let s := s.storeReg a v
    if v.getLsbD 0 then s.closeWindow m else s
  else if mask = 0 then s
  else s.writeMonReg m a mask v

/-- A write of a SYS_ register (R603). -/
def State.writeSys (s : State) (a : Nat) (v : Word) : State :=
  if a = aSysMode then (s.storeReg a v).askMode (bits v 18 16) else s.storeReg a v

/-- A write of an SVC_ register (R663, R665). -/
def State.writeSvc (s : State) (a : Nat) (v : Word) : Resp × State :=
  if a = aSvcParamGo then s.paramGo v
  else if a = aSvcMaint then s.writeMaint v
  else (.ok, s.storeReg a v)

/-- A 32-bit write of a peripheral register, with what its block does (R14). -/
def State.writeReg (s : State) (m : Master) (a : Nat) (v : Word) : Resp × State :=
  match a / 65536 with
  | 0x4000 => (.ok, s.writeSys a v)
  | 0x4001 => s.writePwr a v
  | 0x4002 => (.ok, s.writeClk a v)
  | 0x4003 => s.writeFlt a v
  | 0x4004 => (.ok, s.writeTly a v)
  | 0x4005 => s.writeNvm a v
  | 0x4006 => s.writeSvc a v
  | 0x4010 => (.ok, s.writePort a v)
  | 0x4011 => s.writePdm a v
  | 0x4012 => s.writeSrc a v
  | 0x4020 =>
    (.ok, if a = aNetCtrl then s.writeNetCtrl v else if a = aNetMdio then s.writeMdio v else s.storeReg a v)
  | 0x4021 =>
    (.ok, if a = aPtpCtrl then s.writePtpCtrl v else if a = aPtpTsetGo then s.writeTsetGo v else s.storeReg a v)
  | 0x4022 => (.ok, s.writeStrm a v)
  | 0x4030 => (.ok, s.writeRace a v)
  | 0x4050 =>
    (.ok, if aXbarSem 0 ≤ a ∧ a ≤ aXbarSem 31 then s.semWrite ((a - aXbarSem 0) / 4) m v else s.storeReg a v)
  | 0x4071 => (.ok, if a = aScnRecall then s.writeRecall v else s.storeReg a v)
  | 0x4080 => if a = aMpdMarchCtrl then s.writeMarchCtrl v else (.ok, s.storeReg a v)
  | 0x4090 => (.ok, s.writeTwin a v)
  | _ => (.ok, s.storeReg a v)

/-! ## Address map -/

/-- Where an address lies (R517 to R519). -/
inductive Region where
  | rom
  | mpd (q : Nat)
  | secure
  | tile (n : Nat) (o : Nat)
  | periph (dom : Option Nat)
  | unmapped
  deriving DecidableEq, Repr

/-- The switched domain of an allocated peripheral window; AON and STEW windows have none of their own (R518). -/
def windowDom (a : Nat) : Option (Option Nat) :=
  match a / 65536 with
  | 0x4000 | 0x4001 | 0x4002 | 0x4003 | 0x4004 | 0x4005 | 0x4006 | 0x4050 | 0x4060 | 0x4070 | 0x4071 | 0x4080 | 0x4090 => some none
  | 0x4010 | 0x4011 | 0x4012 => some (some 76)
  | 0x4020 | 0x4021 | 0x4022 => some (some 77)
  | 0x4030 => some (some 78)
  | 0x4040 => if a % 65536 < 0x8000 then some (some (64 + a % 65536 / 0x1000)) else some none
  | _ => none

/-- The region of an address. -/
def regionOf (a : Nat) : Region :=
  if a < 0x10000 then .rom
  else if inMpd a then .mpd (quadOf a)
  else if 0x18000000 ≤ a ∧ a < 0x18040000 then .secure
  else if 0x20000000 ≤ a ∧ a < 0x21000000 then .tile ((a - 0x20000000) / 0x40000) (a % 0x40000)
  else match windowDom a with
    | some d => .periph d
    | none => .unmapped

/-- A domain that may be absent is on. -/
def State.optOn (s : State) : Option Nat → Bool
  | some d => s.domOn d
  | none => true

/-! ## Memory -/

/-- The addressed bytes of a word, at the low end (R10). -/
def pick (v : Word) (a : Nat) (size : AccSize) : Word :=
  BitVec.ofNat 32 (v.toNat / 2 ^ (8 * (a % 4)) % 2 ^ (8 * size.bytes))

/-- A word with the addressed bytes replaced (R256). -/
def merge (v : Word) (a : Nat) (size : AccSize) (x : Word) : Word :=
  let m : Word := BitVec.ofNat 32 ((2 ^ (8 * size.bytes) - 1) * 2 ^ (8 * (a % 4)))
  (v &&& ~~~m) ||| (BitVec.ofNat 32 (x.toNat * 2 ^ (8 * (a % 4))) &&& m)

/-- A write of 1, 2 or 4 aligned bytes of a data memory: a short one is merged into its word, which is read for it
(R256, R259, R521). -/
def State.memWrite (s : State) (a : Nat) (size : AccSize) (v : Word) : State :=
  let w := a / 4 * 4
  let s := { s with ms := { s.ms with clipBad := s.ms.clipBad.filter (· ≠ w) } }
  match size with
  | .word => s.wr32 w v
  | _ =>
    let (x, s) := s.readWord w
    s.wr32 w (merge x a size v)

/-- A write of the service port to a PEAK_HOLD word of a meter's record is noted for the meter's next handler run (R172). -/
def State.meterWritten (s : State) (m : Master) (a : Nat) : State :=
  if m ≠ .svc then s
  else
    s.scn.nodes.foldl (fun (s : State) r =>
      let b := tileBase (nodeTile r) + r.stateAddr
      if r.type = 0x14 ∧ r.custom = false ∧ b ≤ a ∧ a < b + 16 * r.nIn ∧ (a - b) % 16 / 4 = 1 then
        let x := s.nodeSt r.inst
        s.setNodeSt r.inst (x.put (mset 0 x.w (8 * ((a - b) / 16) + 5) 1))
      else s) s

/-- The physical memory, 0 or 1, that an instruction-memory offset of tile n's window addresses by its role (R260). -/
def State.imemOf (s : State) (n o : Nat) : Nat := if (o < 0x28000) = ((s.tile n).frontIsB = true) then 1 else 0

/-- Key of an instruction-memory byte, and the address its error mark is kept at. -/
def imemKey (n x o : Nat) : Nat := 32768 * n + 16384 * x + o % 0x4000
/-- The address of the word's error mark (R524). -/
def imemMark (n x o : Nat) : Nat := tileBase n + 0x20000 + 0x8000 * x + o % 0x4000 / 4 * 4

/-- A word of an instruction memory as the device bus reads it, through port B (R258, R260). -/
def State.imemRead (s : State) (n o : Nat) : Word × State :=
  let x := s.imemOf n o
  let k := imemKey n x (o / 4 * 4)
  let v : Word := BitVec.ofNat 32 (leNat ((upto 4).map (fun i => mget 0 s.imem (k + i))))
  let a := imemMark n x o
  let e := mget 0 s.ms.ecc a
  if e = 0 then (v, s)
  else
    let (_, s) := s.readWord a
    (if e < 64 then v else 0, s)

/-- A write of 1, 2 or 4 aligned bytes of an instruction memory (R260). -/
def State.imemWrite (s : State) (n o : Nat) (size : AccSize) (v : Word) : State :=
  let x := s.imemOf n o
  let (w, s) := if size = .word then (0, s) else s.imemRead n o
  let y := if size = .word then v else merge w o size v
  let s := { s with imem := memPut s.imem (imemKey n x (o / 4 * 4)) (leBytes 4 y.toNat) }
  s.eccWrite [imemMark n x o]

/-- Whether a write of an instruction memory is accepted: by role, mode and recall (R261). -/
def State.imemOpen (s : State) (n o : Nat) : Bool :=
  if s.graphRuns then decide (0x28000 ≤ o) && (mget none s.scn.backs n).isNone else true

/-! ## The register window of a tile -/

/-- The tile's clock is stopped: after YIELD or halted (R234). -/
def Tile.stopped (t : Tile) : Bool := !t.ctx && t.run != .running

/-- A bank with every result in flight retired: the clock has stopped after the drain (R289). -/
def Tile.settled (t : Tile) (ctl : Bool) : Bank := if ctl then retireAll t.ctl t.cf.pend else retireAll t.smp t.sf.pend

/-- The word at an offset of a register bank (R233). -/
def Bank.window (b : Bank) (o : Nat) : Word :=
  let i := o / 4
  let x17 (x : BitVec 17) : Word := BitVec.ofNat 32 x.toNat
  if o < 0x40 then mget 0 b.s i
  else if o < 0x60 then x17 (mget 0 b.p (i - 16))
  else if o < 0x80 then BitVec.ofInt 32 (mget 0 b.m (i - 24)).toInt
  else if o < 0xA0 then x17 (mget 0 b.n (i - 32))
  else if o < 0xE0 then
    let l := b.level ((o - 0xA0) / 16)
    match o % 16 / 4 with
    | 0 => l.lcount
    | 1 => BitVec.ofNat 32 (l.lstart % 2048)
    | 2 => BitVec.ofNat 32 (l.lend % 2048)
    | _ => 0
  else if o = 0xE0 then BitVec.ofNat 32 b.mode.toNat
  else if o = 0xE4 then b.stat
  else if o = 0xE8 then BitVec.ofNat 32 b.loops.length
  else if 0x100 ≤ o ∧ o < 0x200 then mget 0 b.v (i - 64)
  else if 0x200 ≤ o ∧ o < 0x280 then
    let x := mget 0 b.a ((o - 0x200) / 16)
    match o % 16 / 4 with
    | 0 => x.truncate 32
    | 1 => BitVec.ofNat 32 (x.toNat / 2 ^ 32)
    | 2 => BitVec.ofInt 32 (x.toInt / 2 ^ 64)
    | _ => 0
  else 0

/-- Loop level `k` of a bank replaced; LDEPTH does not change (R233). -/
def Bank.setLevel (b : Bank) (k : Nat) (v : Level) : Bank :=
  if k < b.loops.length then { b with loops := b.loops.set k v } else { b with old := mset {} b.old k v }

/-- A word written at an offset of a register bank (R233). -/
def Bank.put (b : Bank) (o : Nat) (v : Word) : Bank :=
  let i := o / 4
  let x17 : BitVec 17 := v.truncate 17
  if o < 0x40 then { b with s := mset 0 b.s i v }
  else if o < 0x60 then { b with p := mset 0 b.p (i - 16) x17 }
  else if o < 0x80 then { b with m := mset 0 b.m (i - 24) x17 }
  else if o < 0xA0 then { b with n := mset 0 b.n (i - 32) x17 }
  else if o < 0xE0 then
    let k := (o - 0xA0) / 16
    let l := b.level k
    match o % 16 / 4 with
    | 0 => b.setLevel k { l with lcount := v }
    | 1 => b.setLevel k { l with lstart := v.toNat % 2048 }
    | 2 => b.setLevel k { l with lend := v.toNat % 2048 }
    | _ => b
  else if o = 0xE0 then { b with mode := v.truncate 2 }
  else if o = 0xE4 then { b with stat := v &&& statDefined }
  else if 0x100 ≤ o ∧ o < 0x200 then { b with v := mset 0 b.v (i - 64) v }
  else if 0x200 ≤ o ∧ o < 0x280 then
    let k := (o - 0x200) / 16
    let x := mget 0 b.a k
    let lo := x.toNat % 2 ^ 32
    let mid := x.toNat / 2 ^ 32 % 2 ^ 32
    let hi := x.toNat / 2 ^ 64
    match o % 16 / 4 with
    | 0 => { b with a := mset 0 b.a k (BitVec.ofNat 72 (hi * 2 ^ 64 + mid * 2 ^ 32 + v.toNat)) }
    | 1 => { b with a := mset 0 b.a k (BitVec.ofNat 72 (hi * 2 ^ 64 + v.toNat * 2 ^ 32 + lo)) }
    | 2 => { b with a := mset 0 b.a k (BitVec.ofNat 72 (v.toNat % 256 * 2 ^ 64 + mid * 2 ^ 32 + lo)) }
    | _ => b
  else b

/-- The word at an offset of a tile's register window, 0x000 to 0xFFF from +0x3_0000 (R233, R336 to R341). -/
def Tile.window (t : Tile) (o : Nat) : Word :=
  if o < 0x800 then (t.settled (decide (0x400 ≤ o))).window (o % 0x400)
  else if o = 0x880 then BitVec.ofNat 32 (min 65535 t.ctlCyc * 65536 + t.yieldScyc % 16384)
  else if o = 0x884 then BitVec.ofNat 32 (min 65535 t.deferred * 65536 + min 65535 t.merged)
  else mget 0 t.xrec o

/-- A word written in a tile's register window: the banks, and TILE_XSTAT.VALID, which 1 clears (R233, R336). -/
def Tile.put (t : Tile) (o : Nat) (v : Word) : Tile :=
  if o < 0x400 then { t with smp := (t.settled false).put o v, sf := { t.sf with pend := [] } }
  else if o < 0x800 then { t with ctl := (t.settled true).put (o % 0x400) v, cf := { t.cf with pend := [] } }
  else if o = 0x800 ∧ v.getLsbD 31 then { t with xrec := mset 0 t.xrec 0x800 (mget 0 t.xrec 0x800 &&& 0x7FFFFFFF#32) }
  else t

/-! ## Accesses -/

/-- An answer to an access. -/
def State.respond (s : State) (r : Resp) (v : Word) : State := { s with svc := { s.svc with resp := r, rdata := v } }

/-- An error response. -/
def State.busError (s : State) : State := s.respond .error 0

/-- An access through DLc that reaches the default target (R540). -/
def State.defaultTarget (s : State) (m : Master) (n a : Nat) : State :=
  let s := s.count aXbarErr 31 16 1
  let s := ((s.setFld aXbarErr 10 8 (n / 8)).setFld aXbarErr 5 4 0).setFld aXbarErr 3 0 (masterCode m)
  (s.setReg aXbarErrAddr (BitVec.ofNat 32 a)).busError

/-- The access is not aligned to its size. -/
def misaligned (a : Nat) (size : AccSize) : Bool := decide (a % size.bytes ≠ 0)

/-- The master cannot make an access: STEW is off, or the steward itself restarts (R548, R577). -/
def State.noAccess (s : State) (m : Master) : Bool := !s.domOn 79 || (s.svc.stewDown && m == .stew)

/-- A device-bus read, `c` cycles after the strobe. -/
def State.busRead (s : State) (m : Master) (c a : Nat) (size : AccSize) : State :=
  if s.noAccess m then s
  else if s.svc.stewDown then s.busError
  else
    match regionOf a with
    | .unmapped => s.busHang m a
    | .rom => if misaligned a size then s.busError else s.respond .ok (pick (Config.romWord (a / 4)) a size)
    | .mpd q =>
      if !s.domOn (72 + q) ∨ misaligned a size then s.busError
      else
        let (v, s) := s.readWord (a / 4 * 4)
        s.respond .ok (pick v a size)
    | .secure =>
      if m ≠ .stew ∨ size ≠ .word ∨ misaligned a size then s.busError
      else if s.secDead then s.respond .ok 0
      else
        let (v, s) := s.readWord a
        s.respond .ok v
    | .tile n o =>
      if 0x31000 ≤ o then s.defaultTarget m n a
      else if !s.domOn n ∨ !s.domOn (64 + n / 8) ∨ misaligned a size then s.busError
      else if o < 0x20000 then
        let (v, s) := s.readWord (a / 4 * 4)
        s.respond .ok (pick v a size)
      else if o < 0x30000 then
        if o / 0x4000 % 2 = 1 then s.respond .ok 0
        else
          let (v, s) := s.imemRead n o
          s.respond .ok (pick v a size)
      else if (s.tile n).stopped then s.respond .ok (pick ((s.tile n).window (o % 0x1000 / 4 * 4)) a size)
      else s.busError
    | .periph d =>
      if !s.optOn d ∨ misaligned a size then s.busError
      else
        let (v, s) := s.readReg m c (a / 4 * 4)
        s.respond .ok (pick v a size)

/-- A device-bus write. -/
def State.busWrite (s : State) (m : Master) (a : Nat) (size : AccSize) (v : Word) : State :=
  if s.noAccess m then s
  else if s.svc.stewDown then s.busError
  else
    match regionOf a with
    | .unmapped => s.busHang m a
    | .rom => s.busError
    | .mpd q => if !s.domOn (72 + q) ∨ misaligned a size then s.busError else (s.memWrite a size v).respond .ok 0
    | .secure =>
      if m ≠ .stew ∨ size ≠ .word ∨ misaligned a size then s.busError
      else if s.secDead then s.respond .ok 0
      else (s.wr32 a v).respond .ok 0
    | .tile n o =>
      if 0x31000 ≤ o then s.defaultTarget m n a
      else if !s.domOn n ∨ !s.domOn (64 + n / 8) ∨ misaligned a size then s.busError
      else if o < 0x20000 then ((s.memWrite a size v).meterWritten m a).respond .ok 0
      else if o < 0x30000 then
        if o / 0x4000 % 2 = 1 then s.respond .ok 0
        else if s.imemOpen n o then (s.imemWrite n o size v).respond .ok 0
        else s.busError
      else if size = .word ∧ (s.tile n).stopped ∧ s.pwr.mode = .service then
        (s.setTile n ((s.tile n).put (o % 0x1000) v)).respond .ok 0
      else s.busError
    | .periph d =>
      if !s.optOn d ∨ misaligned a size ∨ size ≠ .word then s.busError
      else if (regAt a).isNone then s.respond .ok 0
      else
        let (r, s) := s.writeReg m a v
        s.respond r 0

/-! ## The service port -/

/-- The accesses of a request, from word `i` on, `left` of them: it stops at the first word that does not complete; a
word that answers BUSY completes (R661, R662).  Answers the status, the words completed and the words read. -/
def State.svcWords (s : State) (q : SvcReq) (c i : Nat) (st : Nat) (acc : List Word) : Nat → Nat × Nat × List Word × State
  | 0 => (st, i, acc, s)
  | left + 1 =>
    let a := (q.addr.toNat + 4 * i) % 2 ^ 32
    let s := if q.write then s.busWrite .svc a .word ((q.data[i]?).getD 0) else s.busRead .svc c a .word
    match s.svc.resp with
    | .error => (1, i, acc, s)
    | .hang => (2, i, acc, s)
    | .busy => s.svcWords q c (i + 1) 3 (acc ++ [s.svc.rdata]) left
    | .ok => s.svcWords q c (i + 1) st (acc ++ [s.svc.rdata]) left

/-- Which interface a transaction ran on (R669). -/
def State.lastIf (s : State) (i2c : Bool) : State := s.setFlag aSvcStat 1 i2c

/-- The port answers on an interface: STEW is on and the interface enabled (R660). -/
def State.svcUp (s : State) (i2c : Bool) : Bool := s.domOn 79 && s.flag aSvcCfg (if i2c then 9 else 8)

/-- A response (R662): words not accessed read 0. -/
def State.svcAnswer (s : State) (status done : Nat) (data : List Word) : State :=
  { s with svc := { s.svc with status := status, done := done, data := data } }

/-- The bytes of a request that its CRC covers: CMD, ADDR, N and the data of a WRITE (R661). -/
def reqBytes (cmd : Byte) (q : SvcReq) : List Byte :=
  cmd :: (beBytes 4 q.addr.toNat ++ beBytes 1 q.n ++ if q.write then q.data.flatMap (fun w => beBytes 4 w.toNat) else [])

/-- The CRC that belongs to a request (R661). -/
def reqCrc (cmd : Byte) (q : SvcReq) : BitVec 16 := BitVec.ofNat 16 (crc16 (reqBytes cmd q))

/-- The bytes of the latest response: STATUS, DONE, the data of a READ, and the CRC over them (R662). -/
def State.svcBytes (s : State) : List Byte :=
  let bs := beBytes 1 s.svc.status ++ beBytes 1 s.svc.done ++ s.svc.data.flatMap (fun w => beBytes 4 w.toNat)
  bs ++ beBytes 2 (crc16 bs)

/-- A whole request and its response (R660 to R662): `other` the other interface's transaction runs, `cmd` and `crc` the CMD
and the CRC that came in. -/
def State.svcRun (s : State) (i2c other : Bool) (cmd : Byte) (crc : BitVec 16) (q : SvcReq) (c : Nat) : State :=
  let zeros := if q.write then [] else List.replicate q.n 0
  if !s.svcUp i2c then s
  else if other then (if i2c then s else s.svcAnswer 8 0 zeros)
  else
    let s := s.lastIf i2c
    if crc ≠ reqCrc cmd q then (s.count aSvcStat 31 16 1).svcAnswer 4 0 zeros
    else if cmd ≠ (if q.write then 0x02#8 else 0x03#8) then s.svcAnswer 7 0 []
    else if q.addr.toNat % 4 ≠ 0 then s.svcAnswer 5 0 zeros
    else if q.n = 0 ∨ 64 < q.n then s.svcAnswer 6 0 []
    else
      let (st, done, data, s) := s.svcWords q c 0 0 [] q.n
      s.svcAnswer st done (if q.write then [] else data ++ List.replicate (q.n - data.length) 0)

end Sys2Proof.Machine
end

