-- ==== Sys2Proof/Machine/BusCmds.lean ====
section
/-!
DEFINITION. The commands of the register interface, of modes and of the service port (R14, R15, R592, R593, R640, R661 to
R666).
-/

namespace Sys2Proof.Machine

/-- REGISTER_WRITE: a device-bus write of `size` bytes (R10 to R14). -/
def execRegisterWrite (m : Master) (addr : Word) (size : AccSize) (v : Word) (s : State) : Host.Outcome State Fault Refusal :=
  .next (s.busWrite m addr.toNat size v)

/-- READ_CLEAR: a device-bus read, `cycle` cycles after the strobe, with its effects (R14). -/
def execReadClear (m : Master) (addr : Word) (size : AccSize) (cycle : Nat) (s : State) : Host.Outcome State Fault Refusal :=
  .next (s.busRead m cycle addr.toNat size)

/-- LO_READ: a 32-bit read of a _LO register, which latches its _HI part (R15). -/
def execLoRead (m : Master) (addr : Word) (s : State) : Host.Outcome State Fault Refusal :=
  .next (if isLo addr.toNat then s.busRead m 0 addr.toNat .word else s)

/-- A request over STEW's SYS_ block reaches it: STEW runs. -/
def State.stewUp (s : State) : Bool := s.domOn 79 && !s.svc.stewDown

/-- SERVICE: a write of SYS_MODE.REQ = 1. -/
def execServiceRequest (s : State) : Host.Outcome State Fault Refusal := .next (if s.stewUp then s.askMode 1 else s)

/-- SERVICE_ENTRY (R592). -/
def execServiceEntry (s : State) : Host.Outcome State Fault Refusal := .next s.enterService

/-- DORMANT: a write of SYS_MODE.REQ = 2. -/
def execDormantRequest (s : State) : Host.Outcome State Fault Refusal := .next (if s.stewUp then s.askMode 2 else s)

/-- DORMANT_ENTRY (R593). -/
def execDormantEntry (s : State) : Host.Outcome State Fault Refusal := .next s.dormantOver

/-- RUN: a write of SYS_MODE.REQ = 3. -/
def execRunRequest (s : State) : Host.Outcome State Fault Refusal := .next (if s.stewUp then s.askMode 3 else s)

/-- LIFE_CYCLE_TRANSITION: a write of NVM_LC with a TARGET (R640). -/
def execLifeCycleTransition (v : Word) (s : State) : Host.Outcome State Fault Refusal :=
  .next (if s.stewUp ∧ bits v 17 16 ≠ 0 then s.writeLc v else s)

/-- READ: a service-port request of `n` words from `addr` (R660 to R662). -/
def execSvcRead (i2c other : Bool) (cmd : Byte) (crc : BitVec 16) (addr : Word) (n cycle : Nat) (s : State) : Host.Outcome State Fault Refusal :=
  .next (s.svcRun i2c other cmd crc { write := false, addr := addr, n := n } cycle)

/-- WRITE: a service-port request that writes `data` from `addr` up (R660 to R662). -/
def execSvcWrite (i2c other : Bool) (cmd : Byte) (crc : BitVec 16) (addr : Word) (data : List Word) (s : State) :
    Host.Outcome State Fault Refusal :=
  .next (s.svcRun i2c other cmd crc { write := true, addr := addr, n := data.length, data := data } 0)

/-- SPI_ABORT: SVC_CS_N rises before the request is complete, which discards it, or after it, when `started` of its
accesses have started: they finish, no further one is made, and ABORT is set (R662). -/
def execSpiAbort (req : Option SvcReq) (started : Nat) (s : State) : Host.Outcome State Fault Refusal :=
  .next (match req with
    | none => s
    | some q =>
      if s.svcUp false then
        let (_, _, _, t) := s.svcWords q 0 0 0 [] (min started (min q.n 64))
        (t.lastIf false).setFlag aSvcStat 2 true
      else s)

/-- SVC_PARAM_GO: a write of the register (R663). -/
def execSvcParamGo (v : Word) (s : State) : Host.Outcome State Fault Refusal := .next (if s.stewUp then (s.paramGo v).2 else s)

/-- TILE_RESTART: SVC_MAINT kind 5 for a tile (R330, R665). -/
def execTileRestart (n : TileNo) (s : State) : Host.Outcome State Fault Refusal :=
  .next (if s.stewUp then (s.maintRequest { kind := 5, arg := n.val }).2 else s)

/-- MAINT_END (R666). -/
def execMaintEnd (s : State) : Host.Outcome State Fault Refusal := .next s.endMaint

end Sys2Proof.Machine
end

