-- ==== Sys2Proof/Machine/ImageCmds.lean ====
section
/-!
DEFINITION. An image is applied (R80 to R85, R102, R103, R178, R499, R562, R601, R602, R616 to R621, R629).
-/

namespace Sys2Proof.Machine

/-! ## Domains an image powers -/

/-- The quadrants with a map entry; the default partition uses all four (R103). -/
def imQuads (im : Image) : List Nat :=
  if im.mpdMap.isEmpty then upto 4
  else (upto 4).filter (fun q => im.mpdMap.any (fun e =>
    decide (quadOf e.base ≤ q) && decide (q ≤ quadOf (e.base + e.bytes - 1))))

/-- The tiles an image powers. -/
def imTileNos (im : Image) : List Nat := (im.tiles.filter (fun t => tileUsed t.2)).map (·.1)

/-- The clusters an image uses. -/
def imClusterNos (im : Image) : List Nat :=
  (upto 8).filter (fun c => (imTileNos im).any (fun n => n / 8 == c) || im.clusters.any (fun e => e.1 == c && !e.2.descs.isEmpty))

/-- The register lists of an image. -/
def imRegList (im : Image) : List (Nat × Word) := im.setupRegs ++ im.initRegs ++ im.domainRegs ++ im.streamRegs

/-- The I/O domains an image needs: those whose windows its register lists write, and RACE for a twin (R518, R616). -/
def imIoDoms (im : Image) : List Nat :=
  [76, 77, 78].filter (fun d => (imRegList im).any (fun e => windowDom e.1 == some (some d))
    || (d == 78 && (match im.domain with | some x => x.twin | none => false)))

/-- Every domain an image powers, fabrics before tiles (R582). -/
def imDoms (im : Image) : List Nat :=
  (imClusterNos im).map (64 + ·) ++ (imTileNos im) ++ (imQuads im).map (72 + ·) ++ (imIoDoms im)

/-! ## Register lists (R616) -/

/-- One entry of a register list: RW fields only. -/
def State.loadReg (s : State) (e : Nat × Word) : State :=
  if e.1 / 65536 = 0x4002 then s.writeClk e.1 e.2
  else if e.1 = aTlyCursor then s.writeCursor (e.2 &&& 0x7FFFFFFF#32)
  else match regAt e.1 with
    | some r =>
      -- SHARE on a lead ignores writes (R350, R367)
      let m : Word := if e.1 % 0x4000 = 0 ∧ e.1 / 65536 = 0x4010 then ~~~(0x00000008#32) else 0xFFFFFFFF#32
      s.storeReg e.1 (e.2 &&& r.mask .rw &&& m)
    | none => s

/-- Twin B shifts the reference list by one place; race link 3 comes first (R562). -/
def State.shiftList (s : State) : State :=
  let a := (s.reg aClkRefPrio0).toNat
  let b := (s.reg aClkRefPrio1).toNat
  ((s.setReg aClkRefPrio0 (BitVec.ofNat 32 (a * 256 + 7))).setReg aClkRefPrio1 (BitVec.ofNat 32 (b * 256 + a / 2 ^ 24)))

/-- What the loaded registers start: ports, microphones, converters, streams, race links, the clock, the monitors, each as
if its EN were recognised in the first pass (R355, R390, R408, R468, R488, R451, R645). -/
def State.startBlocks (s : State) : State :=
  let s := forAll (upto 12) s (fun k s => if s.flag (aPortCtrl k) 0 then s.later s.nextPass (.portOn k) else s)
  let s := if s.flag aPdmCtrl 0 then s.later s.nextPass .pdmOn else s
  let s := s.srcRecheck
  let s := forAll (upto 128) s (fun j s => if s.flag (aStrmRx j) 31 then s.rxEnable j else s)
  let s := forAll (upto 4) s (fun k s =>
    if s.flag (aRaceCtrl k) 0 then s.setLink k { on := true, first := s.nextPass + 1, st := 1 } else s)
  let s := s.joinDomain
  -- a grandmaster-capable engine takes its initial time from the real-time clock (R459)
  let s := if s.ptpRole = 2 then s.updPtp (fun x => { x with t := s.rtc * 1000000000 * 2 ^ 32 }) else s
  let s := if s.ptpRole = 0 then s else s.writePtpCtrl (s.reg aPtpCtrl)
  let s := forAll (upto 64) s (fun m s =>
    if s.flag (aTlyMonCfg m) 31 ∧ s.monBad m = false then
      s.setMon m { s.mon m with on := true, first := s.nextPass + 1, ix := 0 }
    else s)
  (s.later s.nextPass .refList).later s.nextPass .outs

/-! ## Row 5 of R619: the register lists -/

/-- Registers that the clock and port setup section may write (R616). -/
def setupMay (a : Nat) : Bool :=
  a == aSysGridCtrl || [0x4002, 0x4010, 0x4011, 0x4012].contains (a / 65536) || (a / 65536 == 0x4003 && decide (aFltSluiceIn ≤ a))
    || a == aPwrQuiet || (decide (aPwrGate 0 ≤ a) && decide (a ≤ aPwrGate 63))

/-- Registers that the register initialisation section may write: those with RW fields that no other section loads (R616). -/
def initMay (a : Nat) : Bool :=
  [0x4000, 0x4004, 0x4006, 0x4050, 0x4070, 0x4080, 0x4090].contains (a / 65536) && a != aSysGridCtrl
    && (match regAt a with | some r => r.mask .rw != 0 | none => false)

/-- An entry names a register of its section, and its block does not answer the write with an error response (R616). -/
def State.entryOk (s : State) (may : Nat → Bool) (e : Nat × Word) : Bool :=
  e.1 % 4 == 0 && (regAt e.1).isSome && may e.1 && (s.writeReg .svc e.1 e.2).1 == .ok

/-- The register lists write only what their sections may write (R616). -/
def State.listsOk (s : State) (im : Image) : Bool :=
  im.setupRegs.all (s.entryOk setupMay) && im.initRegs.all (s.entryOk initMay)
    && im.domainRegs.all (s.entryOk (fun a => [0x4020, 0x4021].contains (a / 65536)))
    && im.streamRegs.all (s.entryOk (fun a => [0x4022, 0x4030].contains (a / 65536)))

/-- The reference list breaks no rule (R417, R418); a twin image leaves its last entry empty (R562). -/
def State.prioOk (s : State) (im : Image) : Bool :=
  let l := beforeEmpty s.rawList
  (match im.domain with
    | some d => l.all (fun x => (decide (3 ≤ x) && decide (x ≤ 7)) || (d.grandmaster && (x == 1 || x == 2)))
        && (!d.twin || (s.rawList[7]?).getD 0 == 0x1F)
    | none => (match l with | 0 :: _ => true | _ => l.all (fun x => decide (1 ≤ x) && decide (x ≤ 0x13))))

/-- A master sluice port has a frame that the sluice divider makes (R556). -/
def State.sluiceOk (s : State) : Bool :=
  let n := if s.rate96 then 256 else 512
  s.sluicePorts.all (fun k => !s.pMaster k || s.pMember k || (n % max 1 (s.pB k) == 0 && decide (2 * s.pB k ≤ n)))

/-- What a twin image may not hold: the twin link as a sluice link (R496), a shared port that is a master or that is not of one
group with SHARE (R561). -/
def State.twinOk (s : State) (im : Image) : Bool :=
  match im.domain with
  | some d =>
    let l := (upto 12).filter (fun k => s.pSlots k != 0 && s.fld (aPortCtrl k) 11 10 == 2)
    !d.twin || (s.fld aFltSluiceOut 19 16 != 3 && !(s.fld aFltSluiceIn 1 0 == 2 && s.fld aFltSluiceIn 5 4 == 3)
      && l.all (fun k => (!s.pMaster k || s.pMember k) && (k % 4 == 0 || s.pMember k) && l.all (fun j => j / 4 == k / 4)))
  | none => true

/-- The streams an image holds fit their packets and ports, and their link offsets lie within the limits of R469 (R463). -/
def State.streamsOk (s : State) (im : Image) : Bool :=
  let two : Nat := match im.domain with | some d => if d.twin then 2 else 0 | none => 0
  let hi : Nat := if s.rate96 then 8192 else 4096
  (upto 128).all (fun i =>
    let v := s.reg (aStrmTx i)
    let w := s.reg (aStrmRx i)
    let n := s.pktLen (bits w 26 24)
    (bits v 22 16 == 0 || (decide (bits v 22 16 * strmBytes v * s.pktLen (bits v 26 24) ≤ 1440)
        && (!v.getLsbD 31 || decide (s.portLoad aStrmTx v ≤ 1536))))
      && (bits w 22 16 == 0 || (decide (2 * n + 4 * (s.fs / 48000) + two ≤ bits w 13 0) && decide (bits w 13 0 ≤ hi)
        && (!w.getLsbD 31 || decide (s.portLoad aStrmRx w ≤ 1536)))))

/-- The audio slots of every race link fit its frame (R113). -/
def State.racesOk (s : State) : Bool :=
  (upto 4).all (fun k => decide (s.fld (aRaceTx k) 10 0 ≤ (if s.rate96 then 768 else 1536)))

/-- No gateable region has a HOLD of 1 to 7 (R596). -/
def State.holdsOk (s : State) : Bool := (upto 64).all (fun r => s.gateHold r == 0 || decide (8 ≤ s.gateHold r))

/-- The registers that the lists have loaded hold no combination that makes an image invalid (R347, R393, R596, R619). -/
def State.loadedOk (s : State) (im : Image) : Bool :=
  (upto 12).all (fun k => s.pSlots k == 0 || !s.portCombo k) && (!s.flag aPdmCtrl 0 || !s.pdmCfgErr)
    && s.prioOk im && s.sluiceOk && s.twinOk im && s.streamsOk im && s.holdsOk && s.racesOk

/-! ## Memories -/

/-- A tile's code, initialised data and record (R79, R80). -/
def State.loadTile (s : State) (e : Nat × TileProg) : State :=
  if tileUsed e.2 then (s.loadCode e.1 0 e.2.code).loadInit e.1 e.2.init else s

/-- The values of the boot scene (R178): every ramp and crossfade takes no time. -/
def State.loadScene (s : State) (c : SceneRec) : State :=
  (s.allEntries c).foldl (fun (s : State) e => match s.node e.inst with
    | some r => if r.paramWords ≤ e.param then s else s.setParam r e.param ((s.codeOf r e.param).store e.value)
    | none => s) (s.updScn (fun x => { x with current := c.scene }))

/-- A PARAM_TRIM record of this BUILD (R9, R629). -/
def State.loadTrim (s : State) (j : JRec) : State :=
  if j.type = 6 ∧ leNat (j.data.take 8) = s.build then
    let k := leNat ((j.data.drop 10).take 2)
    match s.node (leNat ((j.data.drop 8).take 2)) with
    | some r =>
      if r.paramWords ≤ k then s
      else s.setParam r k ((s.codeOf r k).store (BitVec.ofNat 32 (leNat ((j.data.drop 12).take 4))))
    | none => s
  else s

/-! ## The start-up test -/

/-- A bank that an image uses (R534). -/
def imUsesBank (im : Image) (id : Nat) : Bool :=
  if id < 0x10 then (imQuads im).contains (id / 4) else if id < 0x300 then (imTileNos im).contains ((id - 0x100) / 8) else true

/-- The start-up March test of one memory with its failing rows, spares among them (R531 to R534). -/
def State.startTest (s : State) (im : Image) (id : Nat) (fails : List Nat) : State :=
  let rows := memRows id
  let t0 := RepairTab.tested {} rows fails
  let fill := t0.fill (fails.filter (fun r => decide (r < rows)))
  let t := match fill.getLast? with | some f => f.1 | none => t0
  let s := { s with ms := { s.ms with repair := mset {} s.ms.repair id t } }
  let s := s.journal 4 (repairBytes id t)
  if fill.all (·.2) then s
  else if imUsesBank im id then s.raise 0x02 id 2 0
  else s.event sevCritical aMpdMarchStat 0 2 4 id

/-! ## The command -/

/-- The engine accepts signed images (R615, R637, R639). -/
def State.imagesOk (s : State) : Bool :=
  !s.secWiped && (upto 4).any (fun k => s.nvm.fuses.burned k && !s.nvm.fuses.revoked.contains k) && s.nvm.fuses.state != 0

/-- The booted slot and the records of a fallback, whose record names the check that the preferred slot failed (R602, R620). -/
def State.noteBoot (s : State) (slotB : Bool) (ms check : Nat) : State :=
  let s := s.setReg aSysBoot (BitVec.ofNat 32 (min 65535 ms + (if slotB then 65536 else 0)))
  let other := s.nvm.preferred != slotB
  let s := { s with nvm := { s.nvm with booted := slotB, fallback := other } }
  if other then (s.event sevMajor aNvmStat 9 9 1 check).slotRecord slotB else s

/-- The twin mechanism of an image with FLAGS.TWIN (R562, R564). -/
def State.twinLoad (s : State) : State :=
  match s.domSet with
  | some d =>
    if d.twin then
      let w := 64 * max 1 (s.fld aTwinCtrl 19 8)
      let s := s.updTwin (fun t => { t with on := true, st := .start, wait := if t.selB then 2 * w else w })
      if s.twin.selB then s.shiftList else s
    else s
  | none => s

/-- The domains of an image are powered and its register lists loaded (R582, R616, R621). -/
def State.loadRegs (s : State) (im : Image) : State :=
  let s := { s with image := some im, rate96 := im.rate96 }
  let s := (imDoms im).foldl (fun (s : State) d => s.powerUp d) s
  (imRegList im).foldl (fun (s : State) e => s.loadReg e) s

/-- The sections of an image are applied, hot records into staging among them, then the trims of the journal (R193, R601,
R621). -/
def State.applyImage (s : State) (im : Image) : State :=
  let s := s.loadRegs im
  let s : State := match s.nvm.latest 3 (fun _ => true) with
    | some j => s.writeClk aClkXtalTrim (BitVec.ofNat 32 (leNat (j.data.take 4)))
    | none => s
  let s := s.twinLoad
  let s := im.tiles.foldl (fun (s : State) e => s.loadTile e) s
  let s := im.clusters.foldl (fun (s : State) e => s.setCluster e.1 { descs := e.2.descs, gangs := e.2.gangs }) s
  let s := s.updScn (fun x => { x with nodes := im.nodes, progs := msetAll {} [] (im.tiles.filter (fun t => tileUsed t.2)) })
  let s := im.blobs.foldl (fun (s : State) b => s.wrBytes b.1 b.2) s
  let s := im.clips.foldl (fun (s : State) c => s.wrBytes c.addr c.data) s
  let s := (im.scenes.filter (fun c => c.hot)).foldl (fun (s : State) c => s.stageWrite im (hotOffset im c.scene) c.bytes) s
  let s : State := match im.bootScene with
    | some k => (match im.scenes.find? (fun c => c.scene == k) with | some c => s.loadScene c | none => s)
    | none => s
  let s := im.nodes.foldl (fun (s : State) r => (s.loadLearned r).nodeClear r true) s
  let s := s.nvm.recs.foldl (fun (s : State) j => s.loadTrim j) s
  s.startBlocks

/-! ## The choice of a slot (R619, R620) -/

/-- Row 5 of R619: what the container holds reads as an image whose contents and register lists are right. -/
def State.imageFits (s : State) (im : Image) : Bool :=
  imageOk im && ((imDoms im).foldl (fun (s : State) d => s.powerUp d) s).listsOk im && (s.loadRegs im).loadedOk im

/-- The first row of R619 that a slot fails; 0 when it is valid.  An engine that accepts no image finds no signature right. -/
def State.slotRow (s : State) (b : Bool) : Nat :=
  if s.nvm.size = 0 then 1
  else
    match s.nvm.failedRow (s.nvm.slotBase b) with
    | 0 =>
      if s.imagesOk = false then 3
      else match s.nvm.readSlot (s.nvm.slotBase b) with
        | some im => if s.imageFits im then 0 else 5
        | none => 5
    | k => k

/-- The slot that is booted: the preferred one, else the other, when it is valid (R620). -/
def State.bootSlot (s : State) : Option Bool :=
  if s.slotRow s.nvm.preferred = 0 then some s.nvm.preferred
  else if s.slotRow (!s.nvm.preferred) = 0 then some (!s.nvm.preferred)
  else none

/-- The image that is booted, with the library calls of a plan. -/
def State.bootImage (s : State) (plan : LibPlan) : Option Image :=
  s.bootSlot.bind (fun b => (s.nvm.readSlot (s.nvm.slotBase b)).map (fun im => planned im plan))

/-- The flash as the boot reads it, with the bytes of slots A and B that are read wrong. -/
def State.asRead (s : State) (errsA errsB : List (Nat × Byte)) : State :=
  { s with nvm := (s.nvm.misread (s.nvm.slotBase false) errsA).misread (s.nvm.slotBase true) errsB }

/-- IMAGE_APPLIED: the first valid slot is applied, `ms` milliseconds after the start of stage 1; `plan` says where its
bundles are library code, `errsA` and `errsB` are the bytes of the slots that the flash delivers wrong, and `tests` are the
failing rows of the start-up test by MEMID.  The graph starts at the next strobe; a twin waits for its start (R564, R601,
R602, R620); an empty journal is formatted (R631, R643). -/
def execImageApplied (plan : LibPlan) (errsA errsB : List (Nat × Byte)) (ms : Nat) (tests : List (Nat × List Nat)) (s : State) : Host.Outcome State Fault Refusal :=
  .next (if s.pwr.mode ≠ .boot ∨ s.image.isSome ∨ s.pwr.bootStage ≠ 9 then s
    else
      match (s.asRead errsA errsB).bootSlot, (s.asRead errsA errsB).bootImage plan with
      | some b, some im =>
        let check := (s.asRead errsA errsB).slotRow (!b)
        let s := if im.march then tests.foldl (fun (s : State) e => s.startTest im e.1 e.2) s else s
        let s := ((s.applyImage im).noteBoot b ms check).formatJournal
        { s with pwr := { s.pwr with bootStage := 10 } }
      | _, _ => s)

/-- BOOT_FAILURE: neither slot holds a valid image (R601). -/
def execBootFailure (s : State) : Host.Outcome State Fault Refusal :=
  .next (if s.pwr.mode = .boot ∧ s.image.isNone ∧ s.bootSlot = none then s.enterBootFail else s)

end Sys2Proof.Machine
end

