-- ==== Sys2Proof/Machine/RaceCmds.lean ====
section
/-!
DEFINITION. The commands of the race links (R488 to R494, R513).
-/

namespace Sys2Proof.Machine

/-- RACE_LINK_ENABLE: a write of RACE_CTRLk that sets EN. -/
def execRaceLinkEnable (k : LinkNo) (v : Word) (s : State) : Host.Outcome State Fault Refusal :=
  .next (if v.getLsbD 0 && !s.flag (aRaceCtrl k) 0 then s.writeRaceCtrl k v else s)

/-- RACE_LINK_DISABLE: a write of RACE_CTRLk that clears EN. -/
def execRaceLinkDisable (k : LinkNo) (v : Word) (s : State) : Host.Outcome State Fault Refusal :=
  .next (if !v.getLsbD 0 && s.flag (aRaceCtrl k) 0 then s.writeRaceCtrl k v else s)

/-- A valid frame of the twin link: the strobe skew and the STATE record (R562, R563). -/
def State.twinHeard (s : State) (f : RaceIn) : State :=
  let s := s.twinSkew f.comma
  match f.twin s.rate96 with
  | some t => s.twinState t
  | none => s

/-- RACE_FRAME: a frame is judged; on the twin link a valid frame's STATE record and strobe skew are used at once, its
twin block at its commit (R489, R490, R562, R563). -/
def execRaceFrame (k : LinkNo) (f : RaceIn) (s : State) : Host.Outcome State Fault Refusal :=
  let f := s.raceWired k f
  let (v, s) := s.raceFrame k f
  .next (if v.isSome && s.twinLink k then s.twinHeard f else s.raceStale k)

/-- RACE_SYNC: four consecutive good frames (R489). -/
def execRaceSync (k : LinkNo) (s : State) : Host.Outcome State Fault Refusal :=
  let l := s.link k
  .next (if l.st = 1 ∧ 4 ≤ l.good then
      let s := s.setLink k { l with st := 2, good := 0, missing := 0, bad := 0 }
      -- a twin whose link returns rejoins, unless it has taken over meanwhile (R571)
      if s.twinLink k && s.twin.lostAt.isSome then
        let s := s.updTwin (fun t => { t with lostAt := none })
        if s.twin.st = .shadow ∨ s.twin.st = .diag then s.rejoinStart else s
      else s
    else s)

/-- RACE_SYNC_LOSS: the comma pair is missing in a second frame, or an eighth frame is invalid: SEARCH, LOSS and a NOTICE
record (R489). -/
def execRaceSyncLoss (k : LinkNo) (s : State) : Host.Outcome State Fault Refusal :=
  let l := s.link k
  .next (if l.st = 2 ∧ (2 ≤ l.missing ∨ 8 ≤ l.bad) then
      let s := s.setLink k { l with st := 1, good := 0, missing := 0, bad := 0 }
      let s := (s.dropParts k).setFlag (aRaceStat k) 4 true
      let s := (s.event sevNotice (aRaceStat k) 0 1 1 k).candStops (4 + k)
      if s.twinLink k then s.twinLinkLost else s
    else s)

/-- COMMIT: between cycle 1,024 and the commit's end of pass f + 1 the race channels of pass f are committed, in a twin
pair those of two passes earlier with the joint validity; a twin's block of pass f is committed with it (R492, R494,
R563). -/
def execRaceCommit (s : State) : Host.Outcome State Fault Refusal :=
  .next (if s.domOn 78 = false ∨ s.race.committed = s.grid.tick + 1 then s
    else if s.twin.on then
      let b := (s.race.frames.find? (fun r => r.link == 3 && r.f == (s.grid.tick : Int) - 1)).bind (·.twin)
      ((s.twinCommit b).revertDue).raceCommit ((s.grid.tick : Int) - 3)
    else s.raceCommit ((s.grid.tick : Int) - 1))

/-- CHANNEL_RAMP: 64 consecutive complete passes (R493). -/
def execChannelRamp (c : Fin 1536) (s : State) : Host.Outcome State Fault Refusal :=
  let x := s.chan c
  .next { s with race := { s.race with chans := mset {} s.race.chans c (x.rampUp (s.race.committed - 2)) } }

end Sys2Proof.Machine
end

