-- ==== Sys2Proof/Machine/Dispatch.lean ====
section
/-!
DEFINITION. The meaning of every command, one arm each: a direct call of the meaning's own definition.
-/

namespace Sys2Proof.Machine

def exec (i : Instr) (s : State) : Host.Outcome State Fault Refusal :=
  match i with
  | .registerWrite m addr size v => Sys2Proof.Machine.execRegisterWrite m addr size v s
  | .readClear m addr size cycle => Sys2Proof.Machine.execReadClear m addr size cycle s
  | .loRead m addr => Sys2Proof.Machine.execLoRead m addr s
  | .strobe x => Sys2Proof.Machine.execStrobe x s
  | .anchoring => Sys2Proof.Machine.execAnchoring s
  | .aligned => Sys2Proof.Machine.execAligned s
  | .exchangeDescriptor c => Sys2Proof.Machine.execExchangeDescriptor c s
  | .controlSwitch n spent => Sys2Proof.Machine.execControlSwitch n spent s
  | .restart t => Sys2Proof.Machine.execRestart t s
  | .eccWordRewrite a => Sys2Proof.Machine.execEccWordRewrite a s
  | .nop t last => Sys2Proof.Machine.execNop t last s
  | .yield t last => Sys2Proof.Machine.execYield t last s
  | .cret t last => Sys2Proof.Machine.execCret t last s
  | .setmodeImm t last nosat trunc => Sys2Proof.Machine.execSetmodeImm t last nosat trunc s
  | .setmodeS t last a => Sys2Proof.Machine.execSetmodeS t last a s
  | .waits t last cycle => Sys2Proof.Machine.execWaits t last cycle s
  | .gang t last sec => Sys2Proof.Machine.execGang t last sec s
  | .add t last d a b sf => Sys2Proof.Machine.execAdd t last d a b sf s
  | .sub t last d a b sf => Sys2Proof.Machine.execSub t last d a b sf s
  | .and t last d a b sf => Sys2Proof.Machine.execAnd t last d a b sf s
  | .or t last d a b sf => Sys2Proof.Machine.execOr t last d a b sf s
  | .xor t last d a b sf => Sys2Proof.Machine.execXor t last d a b sf s
  | .andn t last d a b sf => Sys2Proof.Machine.execAndn t last d a b sf s
  | .shl t last d a b sf => Sys2Proof.Machine.execShl t last d a b sf s
  | .shr t last d a b sf => Sys2Proof.Machine.execShr t last d a b sf s
  | .asr t last d a b sf => Sys2Proof.Machine.execAsr t last d a b sf s
  | .min t last d a b sf => Sys2Proof.Machine.execMin t last d a b sf s
  | .max t last d a b sf => Sys2Proof.Machine.execMax t last d a b sf s
  | .minu t last d a b sf => Sys2Proof.Machine.execMinu t last d a b sf s
  | .maxu t last d a b sf => Sys2Proof.Machine.execMaxu t last d a b sf s
  | .mull t last d a b sf => Sys2Proof.Machine.execMull t last d a b sf s
  | .mulh t last d a b sf => Sys2Proof.Machine.execMulh t last d a b sf s
  | .abs t last d a sf => Sys2Proof.Machine.execAbs t last d a sf s
  | .neg t last d a sf => Sys2Proof.Machine.execNeg t last d a sf s
  | .cls t last d a sf => Sys2Proof.Machine.execCls t last d a sf s
  | .clz t last d a sf => Sys2Proof.Machine.execClz t last d a sf s
  | .cmp t last a b => Sys2Proof.Machine.execCmp t last a b s
  | .tst t last a b => Sys2Proof.Machine.execTst t last a b s
  | .addsat t last d a b sf => Sys2Proof.Machine.execAddsat t last d a b sf s
  | .subsat t last d a b sf => Sys2Proof.Machine.execSubsat t last d a b sf s
  | .addi t last d a imm => Sys2Proof.Machine.execAddi t last d a imm s
  | .andi t last d a imm => Sys2Proof.Machine.execAndi t last d a imm s
  | .ori t last d a imm => Sys2Proof.Machine.execOri t last d a imm s
  | .xori t last d a imm => Sys2Proof.Machine.execXori t last d a imm s
  | .shli t last d a amt => Sys2Proof.Machine.execShli t last d a amt s
  | .shri t last d a amt => Sys2Proof.Machine.execShri t last d a amt s
  | .asri t last d a amt => Sys2Proof.Machine.execAsri t last d a amt s
  | .cmpi t last a imm => Sys2Proof.Machine.execCmpi t last a imm s
  | .mini t last d a imm => Sys2Proof.Machine.execMini t last d a imm s
  | .maxi t last d a imm => Sys2Proof.Machine.execMaxi t last d a imm s
  | .ldi t last d imm => Sys2Proof.Machine.execLdi t last d imm s
  | .ldih t last d imm => Sys2Proof.Machine.execLdih t last d imm s
  | .movx t last dst src => Sys2Proof.Machine.execMovx t last dst src s
  | .b t last cond annul target => Sys2Proof.Machine.execB t last cond annul target s
  | .bal t last cond annul target => Sys2Proof.Machine.execBal t last cond annul target s
  | .br t last cond annul a => Sys2Proof.Machine.execBr t last cond annul a s
  | .loop t last a lend => Sys2Proof.Machine.execLoop t last a lend s
  | .loopi t last count lend => Sys2Proof.Machine.execLoopi t last count lend s
  | .rpt t last count => Sys2Proof.Machine.execRpt t last count s
  | .rcp t last d a => Sys2Proof.Machine.execRcp t last d a s
  | .rsq t last d a => Sys2Proof.Machine.execRsq t last d a s
  | .log2 t last d a => Sys2Proof.Machine.execLog2 t last d a s
  | .exp2 t last d a => Sys2Proof.Machine.execExp2 t last d a s
  | .div t last d a b => Sys2Proof.Machine.execDiv t last d a b s
  | .lds t last r ptr post rot off => Sys2Proof.Machine.execLds t last r ptr post rot off s
  | .sts t last r ptr post rot off => Sys2Proof.Machine.execSts t last r ptr post rot off s
  | .ldv t last v ptr post off => Sys2Proof.Machine.execLdv t last v ptr post off s
  | .stv t last v ptr post off => Sys2Proof.Machine.execStv t last v ptr post off s
  | .ldb t last v ptr post off => Sys2Proof.Machine.execLdb t last v ptr post off s
  | .ldl t last v lane ptr post p3 off => Sys2Proof.Machine.execLdl t last v lane ptr post p3 off s
  | .stl t last v lane ptr post p3 off => Sys2Proof.Machine.execStl t last v lane ptr post p3 off s
  | .ldd t last pair pa posta pb postb bc => Sys2Proof.Machine.execLdd t last pair pa posta pb postb bc s
  | .sta t last acc conv ptr post sel => Sys2Proof.Machine.execSta t last acc conv ptr post sel s
  | .lea t last pd pa imm => Sys2Proof.Machine.execLea t last pd pa imm s
  | .stepPtr t last ptr => Sys2Proof.Machine.execStepPtr t last ptr s
  | .mul t last form acc va vb => Sys2Proof.Machine.execMul t last form acc va vb s
  | .mac t last form acc va vb => Sys2Proof.Machine.execMac t last form acc va vb s
  | .msu t last form acc va vb => Sys2Proof.Machine.execMsu t last form acc va vb s
  | .cvt t last vd acc conv => Sys2Proof.Machine.execCvt t last vd acc conv s
  | .clr t last acc => Sys2Proof.Machine.execClr t last acc s
  | .lda t last acc v => Sys2Proof.Machine.execLda t last acc v s
  | .adda t last acc v => Sys2Proof.Machine.execAdda t last acc v s
  | .suba t last acc v => Sys2Proof.Machine.execSuba t last acc v s
  | .suma t last acc => Sys2Proof.Machine.execSuma t last acc s
  | .vadd t last vd va vb => Sys2Proof.Machine.execVadd t last vd va vb s
  | .vsub t last vd va vb => Sys2Proof.Machine.execVsub t last vd va vb s
  | .vadds t last vd va vb => Sys2Proof.Machine.execVadds t last vd va vb s
  | .vsubs t last vd va vb => Sys2Proof.Machine.execVsubs t last vd va vb s
  | .vmin t last vd va vb => Sys2Proof.Machine.execVmin t last vd va vb s
  | .vmax t last vd va vb => Sys2Proof.Machine.execVmax t last vd va vb s
  | .vabs t last vd va => Sys2Proof.Machine.execVabs t last vd va s
  | .vneg t last vd va => Sys2Proof.Machine.execVneg t last vd va s
  | .vand t last vd va vb => Sys2Proof.Machine.execVand t last vd va vb s
  | .vor t last vd va vb => Sys2Proof.Machine.execVor t last vd va vb s
  | .vxor t last vd va vb => Sys2Proof.Machine.execVxor t last vd va vb s
  | .vandn t last vd va vb => Sys2Proof.Machine.execVandn t last vd va vb s
  | .vcmpgt t last vd va vb => Sys2Proof.Machine.execVcmpgt t last vd va vb s
  | .vcmpeq t last vd va vb => Sys2Proof.Machine.execVcmpeq t last vd va vb s
  | .vmov t last vd va => Sys2Proof.Machine.execVmov t last vd va s
  | .vshl t last vd va amt => Sys2Proof.Machine.execVshl t last vd va amt s
  | .vshr t last vd va amt => Sys2Proof.Machine.execVshr t last vd va amt s
  | .vasr t last vd va amt => Sys2Proof.Machine.execVasr t last vd va amt s
  | .vshls t last vd va amt => Sys2Proof.Machine.execVshls t last vd va amt s
  | .vperm t last vd va sel => Sys2Proof.Machine.execVperm t last vd va sel s
  | .learnedFloor inst => Sys2Proof.Machine.execLearnedFloor inst s
  | .scnRecall v => Sys2Proof.Machine.execScnRecall v s
  | .startPass => Sys2Proof.Machine.execStartPass s
  | .audibleStart => Sys2Proof.Machine.execAudibleStart s
  | .swapPass => Sys2Proof.Machine.execSwapPass s
  | .recallComplete => Sys2Proof.Machine.execRecallComplete s
  | .coldFetch scene errs => Sys2Proof.Machine.execColdFetch scene errs s
  | .coldFetchLate => Sys2Proof.Machine.execColdFetchLate s
  | .hotRecordRefetch scene => Sys2Proof.Machine.execHotRecordRefetch scene s
  | .dealMsg h d => Sys2Proof.Machine.execDealMsg h d s
  | .dealDue => Sys2Proof.Machine.execDealDue s
  | .dealAck h id scene status p => Sys2Proof.Machine.execDealAck h id scene status p s
  | .dealAckDeadline => Sys2Proof.Machine.execDealAckDeadline s
  | .dealCancel h id => Sys2Proof.Machine.execDealCancel h id s
  | .cuePinEdge pin => Sys2Proof.Machine.execCuePinEdge pin s
  | .cuePinStale pin => Sys2Proof.Machine.execCuePinStale pin s
  | .timeTrigger ix => Sys2Proof.Machine.execTimeTrigger ix s
  | .timedCue => Sys2Proof.Machine.execTimedCue s
  | .cueMsg h n level time => Sys2Proof.Machine.execCueMsg h n level time s
  | .statStuck pin => Sys2Proof.Machine.execStatStuck pin s
  | .pulseEnd pin => Sys2Proof.Machine.execPulseEnd pin s
  | .portEnable k v => Sys2Proof.Machine.execPortEnable k v s
  | .portDisable k v => Sys2Proof.Machine.execPortDisable k v s
  | .portLock k e => Sys2Proof.Machine.execPortLock k e s
  | .runinEnd k => Sys2Proof.Machine.execRuninEnd k s
  | .portRampEnd k => Sys2Proof.Machine.execPortRampEnd k s
  | .portStop k => Sys2Proof.Machine.execPortStop k s
  | .tdmFrame k out e len agree din => Sys2Proof.Machine.execTdmFrame k out e len agree din s
  | .frameLoss k => Sys2Proof.Machine.execFrameLoss k s
  | .portStuck k fsync level => Sys2Proof.Machine.execPortStuck k fsync level s
  | .portRecovery k => Sys2Proof.Machine.execPortRecovery k s
  | .rateMeasurement k cycles => Sys2Proof.Machine.execRateMeasurement k cycles s
  | .nonAudioRelease k pair => Sys2Proof.Machine.execNonAudioRelease k pair s
  | .pdmEnable v => Sys2Proof.Machine.execPdmEnable v s
  | .pdmDisable v => Sys2Proof.Machine.execPdmDisable v s
  | .micEnable v => Sys2Proof.Machine.execMicEnable v s
  | .micDisable v => Sys2Proof.Machine.execMicDisable v s
  | .trimWrite ix v => Sys2Proof.Machine.execTrimWrite ix v s
  | .settleEnd m => Sys2Proof.Machine.execSettleEnd m s
  | .pdmDataStuck m => Sys2Proof.Machine.execPdmDataStuck m s
  | .pdmDataRecovery m => Sys2Proof.Machine.execPdmDataRecovery m s
  | .pdmClkStuck clk level => Sys2Proof.Machine.execPdmClkStuck clk level s
  | .pdmClkRecovery clk => Sys2Proof.Machine.execPdmClkRecovery clk s
  | .srcEnable c v => Sys2Proof.Machine.execSrcEnable c v s
  | .srcDisable c v => Sys2Proof.Machine.execSrcDisable c v s
  | .converterLocked c => Sys2Proof.Machine.execConverterLocked c s
  | .refBlockEnd code cycles => Sys2Proof.Machine.execRefBlockEnd code cycles s
  | .refEdgeLoss code => Sys2Proof.Machine.execRefEdgeLoss code s
  | .wtrExpiry entry => Sys2Proof.Machine.execWtrExpiry entry s
  | .refPrioWrite second v => Sys2Proof.Machine.execRefPrioWrite second v s
  | .clockLock e => Sys2Proof.Machine.execClockLock e s
  | .lockLoss e => Sys2Proof.Machine.execLockLoss e s
  | .holdoverAverage => Sys2Proof.Machine.execHoldoverAverage s
  | .holdoverLimit => Sys2Proof.Machine.execHoldoverLimit s
  | .clkCtrlWrite v => Sys2Proof.Machine.execClkCtrlWrite v s
  | .syncArm v => Sys2Proof.Machine.execSyncArm v s
  | .dividerSync => Sys2Proof.Machine.execDividerSync s
  | .syncInEdge rising cycle => Sys2Proof.Machine.execSyncInEdge rising cycle s
  | .refMonitor count => Sys2Proof.Machine.execRefMonitor count s
  | .coreLockLoss => Sys2Proof.Machine.execCoreLockLoss s
  | .coreFrequency count => Sys2Proof.Machine.execCoreFrequency count s
  | .netLockLoss => Sys2Proof.Machine.execNetLockLoss s
  | .linkStatus one up half speed => Sys2Proof.Machine.execLinkStatus one up half speed s
  | .ethFrame one f => Sys2Proof.Machine.execEthFrame one f s
  | .mdioGo v => Sys2Proof.Machine.execMdioGo v s
  | .mdioDone data => Sys2Proof.Machine.execMdioDone data s
  | .ptpSync one dom cycle stay seq sender twoStep sec ns corr => Sys2Proof.Machine.execPtpSync one dom cycle stay seq sender twoStep sec ns corr s
  | .followUp one dom seq sec ns corr => Sys2Proof.Machine.execFollowUp one dom seq sec ns corr s
  | .delayResp one dom seq sec ns corr => Sys2Proof.Machine.execDelayResp one dom seq sec ns corr s
  | .delayReq one dom cycle stay seq corr => Sys2Proof.Machine.execDelayReq one dom cycle stay seq corr s
  | .announceMsg one dom d => Sys2Proof.Machine.execAnnounceMsg one dom d s
  | .ptpTimeValid => Sys2Proof.Machine.execPtpTimeValid s
  | .syncTimeout => Sys2Proof.Machine.execSyncTimeout s
  | .announceTimeout => Sys2Proof.Machine.execAnnounceTimeout s
  | .syncSend cycle => Sys2Proof.Machine.execSyncSend cycle s
  | .announceSend => Sys2Proof.Machine.execAnnounceSend s
  | .delayReqSend cycle => Sys2Proof.Machine.execDelayReqSend cycle s
  | .tsetGo v => Sys2Proof.Machine.execTsetGo v s
  | .timeNsRead cycle => Sys2Proof.Machine.execTimeNsRead cycle s
  | .captureEdge k falling cycle => Sys2Proof.Machine.execCaptureEdge k falling cycle s
  | .capNsRead k => Sys2Proof.Machine.execCapNsRead k s
  | .igmpQuery one group maxMs => Sys2Proof.Machine.execIgmpQuery one group maxMs s
  | .arpRequest one ask => Sys2Proof.Machine.execArpRequest one ask s
  | .echoRequest one ask => Sys2Proof.Machine.execEchoRequest one ask s
  | .streamPacket one c p => Sys2Proof.Machine.execStreamPacket one c p s
  | .streamRamp j => Sys2Proof.Machine.execStreamRamp j s
  | .supervisionFrame => Sys2Proof.Machine.execSupervisionFrame s
  | .nodeEntryExpiry src => Sys2Proof.Machine.execNodeEntryExpiry src s
  | .raceLinkEnable k v => Sys2Proof.Machine.execRaceLinkEnable k v s
  | .raceFrame k f => Sys2Proof.Machine.execRaceFrame k f s
  | .raceSync k => Sys2Proof.Machine.execRaceSync k s
  | .raceSyncLoss k => Sys2Proof.Machine.execRaceSyncLoss k s
  | .raceCommit => Sys2Proof.Machine.execRaceCommit s
  | .channelRamp c => Sys2Proof.Machine.execChannelRamp c s
  | .joinMsg h own rate96 twin twinB build nTx => Sys2Proof.Machine.execJoinMsg h own rate96 twin twinB build nTx s
  | .admitMsg h ver epoch => Sys2Proof.Machine.execAdmitMsg h ver epoch s
  | .refuseMsg h reason => Sys2Proof.Machine.execRefuseMsg h reason s
  | .leaveMsg h => Sys2Proof.Machine.execLeaveMsg h s
  | .managerMsg h term ver lastDeal used => Sys2Proof.Machine.execManagerMsg h term ver lastDeal used s
  | .heartbeatMsg h mode grid twin flt => Sys2Proof.Machine.execHeartbeatMsg h mode grid twin flt s
  | .mirrorMsg h cs => Sys2Proof.Machine.execMirrorMsg h cs s
  | .streamsMsg h epoch es => Sys2Proof.Machine.execStreamsMsg h epoch es s
  | .streamEpoch => Sys2Proof.Machine.execStreamEpoch s
  | .tallyPull h fromSeq minSev max => Sys2Proof.Machine.execTallyPull h fromSeq minSev max s
  | .tallySummary h head drops records => Sys2Proof.Machine.execTallySummary h head drops records s
  | .paramMsg h es => Sys2Proof.Machine.execParamMsg h es s
  | .imageOpen session bytes => Sys2Proof.Machine.execImageOpen session bytes s
  | .imageData session offset data => Sys2Proof.Machine.execImageData session offset data s
  | .imageClose session errs digErrs => Sys2Proof.Machine.execImageClose session errs digErrs s
  | .imageAbort session => Sys2Proof.Machine.execImageAbort session s
  | .managerSend => Sys2Proof.Machine.execManagerSend s
  | .managerTakeover => Sys2Proof.Machine.execManagerTakeover s
  | .heartbeatSend => Sys2Proof.Machine.execHeartbeatSend s
  | .heartbeatExpiry d => Sys2Proof.Machine.execHeartbeatExpiry d s
  | .joinRetry => Sys2Proof.Machine.execJoinRetry s
  | .scrubRow memid => Sys2Proof.Machine.execScrubRow memid s
  | .eccRewrite => Sys2Proof.Machine.execEccRewrite s
  | .clipRestore addr => Sys2Proof.Machine.execClipRestore addr s
  | .tamperLow => Sys2Proof.Machine.execTamperLow s
  | .wipeDone clean => Sys2Proof.Machine.execWipeDone clean s
  | .marchGo v => Sys2Proof.Machine.execMarchGo v s
  | .marchRow fails => Sys2Proof.Machine.execMarchRow fails s
  | .marchEnd => Sys2Proof.Machine.execMarchEnd s
  | .semaphoreRead k m => Sys2Proof.Machine.execSemaphoreRead k m s
  | .semRelease k m => Sys2Proof.Machine.execSemRelease k m s
  | .busHang m addr => Sys2Proof.Machine.execBusHang m addr s
  | .domainPowerUp d => Sys2Proof.Machine.execDomainPowerUp d s
  | .faultReport hw late => Sys2Proof.Machine.execFaultReport hw late s
  | .queueDrain => Sys2Proof.Machine.execQueueDrain s
  | .injectArm v => Sys2Proof.Machine.execInjectArm v s
  | .watchdog => Sys2Proof.Machine.execWatchdog s
  | .stewardRestart => Sys2Proof.Machine.execStewardRestart s
  | .supplyMonitor rail crossed => Sys2Proof.Machine.execSupplyMonitor rail crossed s
  | .sluiceFrameEnd k => Sys2Proof.Machine.execSluiceFrameEnd k s
  | .twinStartWait => Sys2Proof.Machine.execTwinStartWait s
  | .twinStart p g => Sys2Proof.Machine.execTwinStart p g s
  | .peerWait peer => Sys2Proof.Machine.execPeerWait peer s
  | .twinSkew => Sys2Proof.Machine.execTwinSkew s
  | .twinPinStuck pin => Sys2Proof.Machine.execTwinPinStuck pin s
  | .digestWindow => Sys2Proof.Machine.execDigestWindow s
  | .diagnosisEnd peerFound => Sys2Proof.Machine.execDiagnosisEnd peerFound s
  | .twinCmdYield => Sys2Proof.Machine.execTwinCmdYield s
  | .twinCmdRejoin => Sys2Proof.Machine.execTwinCmdRejoin s
  | .twinTakeover => Sys2Proof.Machine.execTwinTakeover s
  | .rejoinReq => Sys2Proof.Machine.execRejoinReq s
  | .copyEnd b => Sys2Proof.Machine.execCopyEnd b s
  | .rejoinLimit => Sys2Proof.Machine.execRejoinLimit s
  | .powerOnReset size octal selB railHeld => Sys2Proof.Machine.execPowerOnReset size octal selB railHeld s
  | .resetN => Sys2Proof.Machine.execResetN s
  | .imageApplied plan errsA errsB ms tests => Sys2Proof.Machine.execImageApplied plan errsA errsB ms tests s
  | .bootFailure => Sys2Proof.Machine.execBootFailure s
  | .serviceRequest => Sys2Proof.Machine.execServiceRequest s
  | .serviceEntry => Sys2Proof.Machine.execServiceEntry s
  | .dormantRequest => Sys2Proof.Machine.execDormantRequest s
  | .dormantEntry => Sys2Proof.Machine.execDormantEntry s
  | .runRequest => Sys2Proof.Machine.execRunRequest s
  | .wakeBall level => Sys2Proof.Machine.execWakeBall level s
  | .rtcAlarm => Sys2Proof.Machine.execRtcAlarm s
  | .temperatureReading reading => Sys2Proof.Machine.execTemperatureReading reading s
  | .pfailLow => Sys2Proof.Machine.execPfailLow s
  | .pfailRelease => Sys2Proof.Machine.execPfailRelease s
  | .regionGated r => Sys2Proof.Machine.execRegionGated r s
  | .quietEntry => Sys2Proof.Machine.execQuietEntry s
  | .pwrQuietWrite v => Sys2Proof.Machine.execPwrQuietWrite v s
  | .pageProgramDone ok => Sys2Proof.Machine.execPageProgramDone ok s
  | .eraseDone ok => Sys2Proof.Machine.execEraseDone ok s
  | .flashReadDone => Sys2Proof.Machine.execFlashReadDone s
  | .flashTimeout => Sys2Proof.Machine.execFlashTimeout s
  | .journalCommit => Sys2Proof.Machine.execJournalCommit s
  | .compaction => Sys2Proof.Machine.execCompaction s
  | .countersRecord => Sys2Proof.Machine.execCountersRecord s
  | .updOpen => Sys2Proof.Machine.execUpdOpen s
  | .updProgram => Sys2Proof.Machine.execUpdProgram s
  | .updClose errs digErrs => Sys2Proof.Machine.execUpdClose errs digErrs s
  | .updAbort => Sys2Proof.Machine.execUpdAbort s
  | .lcKey v => Sys2Proof.Machine.execLcKey v s
  | .lifeCycleTransition v => Sys2Proof.Machine.execLifeCycleTransition v s
  | .burnHash slot => Sys2Proof.Machine.execBurnHash slot s
  | .revokeKey slot => Sys2Proof.Machine.execRevokeKey slot s
  | .setDomainKey slot => Sys2Proof.Machine.execSetDomainKey slot s
  | .clearDomainKey slot => Sys2Proof.Machine.execClearDomainKey slot s
  | .monitorEnable m v => Sys2Proof.Machine.execMonitorEnable m v s
  | .monitorDisable m v => Sys2Proof.Machine.execMonitorDisable m v s
  | .monitorClose m => Sys2Proof.Machine.execMonitorClose m s
  | .windowEnd m => Sys2Proof.Machine.execWindowEnd m s
  | .windowRecords m => Sys2Proof.Machine.execWindowRecords m s
  | .timeRecord => Sys2Proof.Machine.execTimeRecord s
  | .cursorSet v => Sys2Proof.Machine.execCursorSet v s
  | .cursorSearch v => Sys2Proof.Machine.execCursorSearch v s
  | .cursorReady => Sys2Proof.Machine.execCursorReady s
  | .tlyMark v => Sys2Proof.Machine.execTlyMark v s
  | .svcRead i2c other cmd crc addr n cycle => Sys2Proof.Machine.execSvcRead i2c other cmd crc addr n cycle s
  | .svcWrite i2c other cmd crc addr data => Sys2Proof.Machine.execSvcWrite i2c other cmd crc addr data s
  | .spiAbort req started => Sys2Proof.Machine.execSpiAbort req started s
  | .svcParamGo v => Sys2Proof.Machine.execSvcParamGo v s
  | .scrubSweep arg => Sys2Proof.Machine.execScrubSweep arg s
  | .tileRestart n => Sys2Proof.Machine.execTileRestart n s
  | .maintEnd => Sys2Proof.Machine.execMaintEnd s
  | .sluiceFrame port input => Sys2Proof.Machine.execSluiceFrame port input s
  | .raceLinkDisable k v => Sys2Proof.Machine.execRaceLinkDisable k v s
  | .tamperRelease => Sys2Proof.Machine.execTamperRelease s

end Sys2Proof.Machine
end

