-- ==== Sys2Proof/Machine/Balls.lean ====
section
/-!
DEFINITION. The state of each signal ball in each mode (R674, R675, with R343, R349, R378, R426, R443, R488, R550, R556, R558,
R559 and R664).
-/

namespace Sys2Proof.Machine

/-- A signal ball, or a group of balls that stand in one state; k is a port or a link, c a clock, d a data line. -/
inductive Ball where
  | tdmClk (k : Nat) | tdmDin (k : Nat) | tdmDout (k : Nat)
  | pdmClk (c : Nat) | pdmDat (d : Nat)
  | cue | stat (k : Nat) | clkst (b : Nat)
  /-- MCLKO0 to MCLKO3 by 0 to 3, FRMO0 to FRMO3 by 4 to 7. -/
  | out (o : Nat)
  | xspiCs | xspiClk | xspiDq
  /-- Inputs of the service port, and SVC_IRQ_N. -/
  | svcIn | svcIrqN
  | eth (k : Nat) | raceTx (k : Nat) | raceRx (k : Nat)
  | faultN | sluiceAct | twinAct | twinYield | twinPeerAct
  /-- TAMPER_N, PFAIL_N, RESET_N and WAKE; the test access inputs; TDO. -/
  | aonIn | testIn | tdo
  deriving DecidableEq, Repr

/-- The state of a ball (R674): high impedance, driven low or high, input buffer active, or driven with the levels of its
block. -/
inductive BallSt where
  | z | low | high | input | driven
  deriving DecidableEq, Repr

/-- Driven at a level. -/
def ballAt (level : Bool) : BallSt := if level then .high else .low

/-- One state when a condition holds, else high impedance. -/
def ballIf (c : Bool) (x : BallSt) : BallSt := if c then x else .z

/-- The modes in which a graph runs, or is about to. -/
def Mode.plays (m : Mode) : Bool := m == .sync || m == .run || m == .quiet || m == .shadow

/-- The balls of STEW are as in DORMANT once a thermal shutdown has turned it off (R674). -/
def State.stewBalls (s : State) : Bool := s.domOn 79 && s.pwr.mode != .dormant

/-- The sluice input is TDM port 0, or PDM microphone 0 (R554). -/
def State.sluiceSrc (s : State) (src : Nat) : Bool := s.fld aFltSluiceIn 1 0 == src

/-- BCLK and FSYNC of port k (R343, R350, R356, R550, R556, R674): a port that drives its clock has its levels; a slave's are inputs
while it is enabled. -/
def State.clkBall (s : State) (k : Nat) : BallSt :=
  if s.pwr.mode = .boot ∨ s.pwr.mode = .dormant ∨ s.domOn 76 = false ∨ s.pSlots k = 0 then .z
  else if s.drivesClock k then ballIf (!(s.port k).bclk.isEmpty) .driven
  else ballIf (!s.pMember k && s.flag (aPortCtrl k) 0) .input

/-- DIN of port k (R674): an input while the port runs, in SLUICE that of the sluice input port. -/
def State.dinBall (s : State) (k : Nat) : BallSt :=
  let here := s.domOn 76 && s.pSlots k != 0
  if s.pwr.mode.plays then ballIf (here && (s.port k).st != .off) .input
  else ballIf (s.pwr.mode == .sluice && here && k == 0 && s.sluiceSrc 0) .input

/-- DOUT of port k (R349, R366, R550, R674). -/
def State.doutBall (s : State) (k : Nat) : BallSt :=
  let p := s.port k
  let rest : BallSt := ballIf (!s.flag (aPortCtrl k) 9) .low
  if s.domOn 76 = false ∨ s.pSlots k = 0 then .z
  else if s.pwr.mode.plays then ballIf (p.driven && p.dout.any (·.isSome)) .driven
  else if s.pwr.mode = .service then rest
  else if s.pwr.mode = .sluice then
    if s.sharedPort k then ballIf (s.lineDriven 2 s.grid.tick) rest
    else if s.sluicePorts.contains k then .driven
    else rest
  else .z

/-- PDM_CLK c (R378, R390, R395, R550, R674). -/
def State.pdmClkBall (s : State) (c : Nat) : BallSt :=
  if s.domOn 76 = false ∨ s.pwr.mode = .dormant then .z
  else if s.pwr.mode.plays then ballIf s.pdmDrives (if s.pdm.clkRun.getLsbD c then .driven else .low)
  else if s.pwr.mode = .sluice ∧ c = 0 ∧ s.sluiceSrc 1 = true then .driven
  else .low

/-- PDM_DAT d (R674). -/
def State.pdmDatBall (s : State) (d : Nat) : BallSt :=
  if s.pwr.mode.plays then ballIf (s.domOn 76 && s.pdm.en) .input
  else ballIf (s.pwr.mode == .sluice && s.domOn 76 && d == 0 && s.sluiceSrc 1) .input

/-- CLKST b: the state of the reference and CLK_REF_STATE.FALLBACK (R426). -/
def State.clkstBall (s : State) (b : Nat) : BallSt :=
  ballIf s.stewBalls (ballAt (if b = 2 then s.clkFallback else Nat.testBit (RefSt.code s.clk.st) b))

/-- MCLKO or FRMO (R427 to R433, R550, R674): driven when a ball of it is. -/
def State.outBall (s : State) (o : Nat) : BallSt :=
  ballIf (s.pwr.mode != .boot && s.pwr.mode != .dormant && (s.outBalls o s.strobeCyc).any (·.isSome)) .driven

/-- The transmitters and receivers of Ethernet port k (R443, R550, R674): RGMII TX_CTL is low while they idle. -/
def State.ethBall (s : State) (k : Nat) : BallSt :=
  ballIf (s.pwr.mode != .boot && s.pwr.mode != .dormant && s.domOn 77 && s.fld aNetCtrl (3 + 2 * k) (2 + 2 * k) != 0)
    (if s.pwr.mode = .sluice then .low else .driven)

/-- The balls of race link k (R488, R674). -/
def State.raceBall (s : State) (k : Nat) (x : BallSt) : BallSt :=
  ballIf (s.pwr.mode != .boot && s.pwr.mode != .dormant && s.domOn 78 && s.flag (aRaceCtrl k) 0) x

/-- SVC_IRQ_N is low while an enabled bit is set, else released; also in DORMANT (R664). -/
def State.irqBall (s : State) : BallSt := ballIf (s.stewBalls && (s.reg aSvcIrq &&& s.reg aSvcIrqEn &&& 0x3F#32) != 0) .low

/-- The state of a ball (R674). -/
def State.ball (s : State) : Ball → BallSt
  | .tdmClk k => s.clkBall k
  | .tdmDin k => s.dinBall k
  | .tdmDout k => s.doutBall k
  | .pdmClk c => s.pdmClkBall c
  | .pdmDat d => s.pdmDatBall d
  | .cue => ballIf (s.pwr.mode != .dormant) .input
  | .stat k => ballIf (s.statPins.getLsbD (8 + k)) (ballAt (s.statPins.getLsbD k))
  | .clkst b => s.clkstBall b
  | .out o => s.outBall o
  | .xspiCs => if s.stewBalls then .driven else .high
  | .xspiClk => if s.stewBalls then .driven else .low
  | .xspiDq => ballIf s.stewBalls .driven
  | .svcIn => ballIf s.stewBalls .input
  | .svcIrqN => s.irqBall
  | .eth k => s.ethBall k
  | .raceTx k => s.raceBall k .driven
  | .raceRx k => s.raceBall k .input
  | .faultN => ballAt (s.pwr.mode != .boot && s.pwr.mode != .sluice)
  | .sluiceAct => ballAt s.sluiceAct
  | .twinAct => ballAt (s.twin.on && s.pwr.mode.plays && s.twin.act)
  | .twinYield => ballAt (s.twin.on && (s.pwr.mode.plays || s.pwr.mode == .sluice) && s.twin.yieldPin)
  | .twinPeerAct => ballIf (s.pwr.mode != .dormant) .input
  | .aonIn => .input
  | .testIn => ballIf (s.pwr.mode != .dormant) .input
  | .tdo => .z

end Sys2Proof.Machine
end

