-- ==== Sys2Proof/Machine/Views.lean ====
section
/-!
DEFINITION. What the statements observe of a tile: the registers the next bundle sees, the results still in flight, and a
tile about to issue a bundle of one slot on its own.
-/

namespace Sys2Proof.Machine

/-- The registers that the next bundle of tile n sees: every result due by then has become visible (R237). -/
def State.seen (s : State) (n : Nat) : Bank := (s.tile n).openBundle.bank

/-- The results in flight of tile n, each with its hazard distance from the bundle issued last (R237). -/
def State.flying (s : State) (n : Nat) : List (Nat × RegWrite) :=
  (s.tile n).flow.pend.map (fun e => (e.due + 1 - (s.tile n).flow.issued, e.w))

/-- The index of the next bundle of tile n. -/
def State.nextPc (s : State) (n : Nat) : Nat := (s.tile n).flow.pc

/-- The results in flight that the next bundle does not see yet, by then one bundle nearer. -/
def nearer (l : List (Nat × RegWrite)) : List (Nat × RegWrite) :=
  (l.filter (fun e => decide (1 < e.1))).map (fun e => (e.1 - 1, e.2))

/-- Lane l of a_r as a MAC or ACC operation of the next bundle reads it: the newest result still in flight, else the
register (R238, R303). -/
def State.chained (s : State) (n : Nat) (r : Fin 2) (l : Fin 4) : Acc :=
  (s.flying n).foldl (fun x e => match e.2 with
    | .a r' l' y => if 1 < e.1 ∧ r' = r ∧ l' = l then y else x
    | _ => x) ((s.seen n).getA r l)

/-- Tile n is about to issue a bundle, alone, with no transfer, repeat, wait or section going on, not the last bundle of a
loop body, and with both words of the bundle right and no illegal encoding in them: a bundle of one slot then does what
the slot alone does.  Results of earlier bundles may still be in flight, and loops in use. -/
structure State.Poised (s : State) (n : Nat) : Prop where
  issues : s.mayIssue n = true
  alone : s.membersOf n = [n]
  closed : (s.tile n).bufOpen = false
  noBranch : (s.tile n).flow.br = none
  noSkip : (s.tile n).flow.skip = none
  noRpt : (s.tile n).flow.rpt = none
  noWait : (s.tile n).flow.wait = none
  noTarget : (s.tile n).flow.atTarget = false
  inside : (s.tile n).flow.pc ≤ 2047
  noEnd : ∀ v ∈ (s.tile n).bank.loops, v.lend ≠ (s.tile n).flow.pc
  right0 : mget 0 s.ms.ecc (s.fetchAddr n (s.tile n).flow.pc) = 0
  right1 : mget 0 s.ms.ecc (s.fetchAddr n (s.tile n).flow.pc + 4) = 0
  legal : bundleDetail (s.fetchBundle n (s.tile n).flow.pc) = none

/-- From `s` to `u` tile n has issued one bundle of `k` cycles: its cycles and its bundle count say so, its inactive
context keeps its registers and its flow, and no other tile has changed. -/
structure State.Issued (s u : State) (n k : Nat) : Prop where
  others : ∀ m, m ≠ n → u.tile m = s.tile m
  count : (u.tile n).flow.issued = (s.tile n).flow.issued + 1
  sampleCycles : (u.tile n).scyc = (s.tile n).scyc + if (s.tile n).ctx then 0 else k
  controlCycles : (u.tile n).ctlCyc = (s.tile n).ctlCyc + if (s.tile n).ctx then k else 0
  idleFlow : if (s.tile n).ctx then (u.tile n).sf = (s.tile n).sf else (u.tile n).cf = (s.tile n).cf
  idleBank : if (s.tile n).ctx then (u.tile n).smp = (s.tile n).smp else (u.tile n).ctl = (s.tile n).ctl
  closed : (u.tile n).bufOpen = false
  kept : { u.tile n with smp := (s.tile n).smp, ctl := (s.tile n).ctl, sf := (s.tile n).sf, cf := (s.tile n).cf,
                         fu := (s.tile n).fu, buf := (s.tile n).buf, bufOpen := (s.tile n).bufOpen,
                         scyc := (s.tile n).scyc, ctlCyc := (s.tile n).ctlCyc, afterCret := (s.tile n).afterCret } = s.tile n

/-- Tile n has issued a bundle of `k` cycles that transfers no control: the bundle after it is next, the registers hold
what the bundle saw, and the results `ws`, each with its hazard distance, have joined those in flight. -/
structure State.Went (s u : State) (n k : Nat) (ws : List (Nat × RegWrite)) : Prop where
  issued : s.Issued u n k
  bank : (u.tile n).bank = s.seen n
  flying : u.flying n = nearer (s.flying n) ++ ws
  flow : (u.tile n).flow = { (s.tile n).flow with pc := (s.tile n).flow.pc + 1, issued := (s.tile n).flow.issued + 1,
                                                  pend := (u.tile n).flow.pend }

/-- Tile n has issued a bundle of `k` cycles with the results `ws`, and nothing outside the tile has changed. -/
structure State.Wrote (s u : State) (n k : Nat) (ws : List (Nat × RegWrite)) : Prop where
  went : s.Went u n k ws
  unit : (u.tile n).fu = { (s.tile n).fu with left := (s.tile n).fu.left - k }
  rest : { u with tiles := s.tiles } = s

/-- The command, on its own in its bundle, takes `k` cycles of tile n and puts the results `ws` in flight. -/
def State.GivesIn (s : State) (c : Instr) (n k : Nat) (ws : List (Nat × RegWrite)) : Prop :=
  ∃ u, exec c s = .next u ∧ s.Wrote u n k ws

/-- The command, on its own in its bundle, takes one cycle of tile n and puts the results `ws` in flight. -/
def State.Gives (s : State) (c : Instr) (n : Nat) (ws : List (Nat × RegWrite)) : Prop := s.GivesIn c n 1 ws

/-- The device-bus address of byte x of tile n's data memory (R233, R251, R254). -/
def dataAddr (n x : Nat) : Nat := 0x20000000 + 0x40000 * n + x % 131072

/-- The words that hold `k` bytes from x carry no error mark. -/
def State.Sound (s : State) (n x k : Nat) : Prop := ∀ j, j < k → mget 0 s.ms.ecc (dataAddr n (x + j) / 4 * 4) = 0

/-- The bytes `bs` have been stored from byte x of tile n's data memory up, and nothing else outside the tile has changed,
but for what belongs to the written words: their error marks, an injection armed for one of them, and their blocks among
those a running copy has still to send. -/
structure State.Stored (s u : State) (n x : Nat) (bs : List Byte) : Prop where
  inside : ∀ j, j < bs.length → u.rdB (dataAddr n (x + j)) = bs.getD j 0
  outside : ∀ a, (∀ j, j < bs.length → a ≠ dataAddr n (x + j)) → u.rdB a = s.rdB a
  marks : ∀ w, (∀ j, j < bs.length → w ≠ dataAddr n (x + j) / 4 * 4) → mget 0 u.ms.ecc w = mget 0 s.ms.ecc w
  rest : { u with tiles := s.tiles, mem := s.mem, ms := s.ms, flt := s.flt, twin := s.twin } = s
  restMs : { u.ms with ecc := s.ms.ecc, rewrites := s.ms.rewrites } = s.ms
  restFlt : { u.flt with armed := s.flt.armed } = s.flt
  restTwin : { u.twin with dirty := s.twin.dirty } = s.twin

/-- The command, on its own in its bundle, takes one cycle of tile n, stores `bs` from byte x up and puts the results `ws`
in flight. -/
def State.Stores (s : State) (c : Instr) (n x : Nat) (bs : List Byte) (ws : List (Nat × RegWrite)) : Prop :=
  ∃ u, exec c s = .next u ∧ s.Went u n 1 ws ∧ s.Stored u n x bs

/-- The post-modification of a pointer as a result at distance 1 (R248, R291). -/
def postResult (b : Bank) (ptr : Fin 8) (size : Nat) : Post → List (Nat × RegWrite)
  | .none => []
  | .size => [(1, .p ptr (postModify (b.getP ptr) (b.getN ptr) size))]
  | .byM => [(1, .p ptr (postModify (b.getP ptr) (b.getN ptr) (b.getM ptr).toInt))]

/-- A result in each lane of v_r, at distance d. -/
def laneResults (d : Nat) (r : Fin 16) (f : Fin 4 → Word) : List (Nat × RegWrite) :=
  [(d, .v r 0 (f 0)), (d, .v r 1 (f 1)), (d, .v r 2 (f 2)), (d, .v r 3 (f 3))]

/-- A result in each lane of a_r, the low 72 bits of an exact value, at distance 2. -/
def accResults (r : Fin 2) (f : Fin 4 → Int) : List (Nat × RegWrite) :=
  [(2, .a r 0 (BitVec.ofInt 72 (f 0))), (2, .a r 1 (BitVec.ofInt 72 (f 1))), (2, .a r 2 (BitVec.ofInt 72 (f 2))),
   (2, .a r 3 (BitVec.ofInt 72 (f 3)))]

/-- The sticky bits of STAT from bit `lo` up, one for each lane in which `g` holds, at distance d; none when it holds in
no lane. -/
def laneEvents (d lo : Nat) (g : Fin 4 → Bool) : List (Nat × RegWrite) :=
  let one (l : Fin 4) : Nat := if g l then 2 ^ (lo + l) else 0
  if g 0 || g 1 || g 2 || g 3 then [(d, .sticky (BitVec.ofNat 32 (one 0 + one 1 + one 2 + one 3)))] else []

/-- The value limited to 32 bits two's complement, and whether it was limited. -/
def limited (v : Int) : Word × Bool :=
  (BitVec.ofInt 32 (max (-(2 ^ 31)) (min v (2 ^ 31 - 1))), decide (v < -(2 ^ 31) ∨ 2 ^ 31 ≤ v))

/-- The exact value lies outside the range of an accumulator (R243). -/
def outside72 (v : Int) : Bool := decide (v < -(2 ^ 71) ∨ 2 ^ 71 ≤ v)

/-- Master m may make an access at `a`, and `a` lies in an allocated peripheral window whose power domain is on (R518). -/
structure State.Serves (s : State) (m : Master) (a : Nat) : Prop where
  master : s.noAccess m = false
  steward : s.svc.stewDown = false
  window : ∃ d, regionOf a = .periph d ∧ s.optOn d = true

/-- The access was answered with response `r` and data `v`, and nothing else has changed. -/
def State.Answered (s u : State) (r : Resp) (v : Word) : Prop := u = s.respond r v

/-- The exception record of tile t, read by field (R336 to R340). -/
def State.xfld (s : State) (t o hi lo : Nat) : Nat := bits (mget 0 (s.tile t).xrec o) hi lo

end Sys2Proof.Machine
end

