-- ==== Sys2Proof/Safety.lean ====
section
/-!
DEFINITION. What counts as a safe run: the sparse maps of a state keep their canonical form, the commands that wait are
the sender's alone, and nothing undoes a burned fuse.
-/

namespace Sys2Proof.Machine

/-- The canonical form of memory (a byte that reads 0 is not listed). -/
abbrev Memory.wf (m : List Host.Cell) : Prop := mwf 0 m = true

/-- The register maps of a bank are in canonical form. -/
structure Bank.Canonical (b : Bank) : Prop where
  s : mwf 0 b.s = true
  p : mwf 0 b.p = true
  m : mwf 0 b.m = true
  n : mwf 0 b.n = true
  v : mwf 0 b.v = true
  a : mwf 0 b.a = true

/-- Both banks of a tile are in canonical form. -/
structure Tile.Canonical (t : Tile) : Prop where
  smp : t.smp.Canonical
  ctl : t.ctl.Canonical

/-- The maps of a state are in canonical form, so that equal contents are equal data. -/
structure State.Canonical (s : State) : Prop where
  regs : mwf 0 s.regs = true
  latch : mwf 0 s.latch = true
  mem : Memory.wf s.mem
  imem : Memory.wf s.imem
  tiles : mwf {} s.tiles = true
  clusters : mwf {} s.clusters = true
  nodes : mwf {} s.nodes = true
  ports : mwf {} s.ports = true
  srcs : mwf {} s.srcs = true
  banks : ∀ n, (s.tile n).Canonical
  ecc : mwf 0 s.ms.ecc = true

/-- Fuses `b` have every burned fuse of `a`: life-cycle pairs, the wrap key, key hashes, revocations, the identity
(R636, R640, R641). -/
structure Fuses.Within (a b : Fuses) : Prop where
  pair1 : a.pair1 ≠ 0 → b.pair1 ≠ 0
  pair2 : a.pair2 ≠ 0 → b.pair2 ≠ 0
  pair3 : a.pair3 ≠ 0 → b.pair3 ≠ 0
  wrap : a.wrap = true → b.wrap = true ∧ b.wrapKey = a.wrapKey
  hash : ∀ k h, mget none a.hash k = some h → mget none b.hash k = some h
  revoked : ∀ k, k ∈ a.revoked → k ∈ b.revoked
  identity : b.identity = a.identity

/-- The counters that the strobes move (R31 to R33): whether the first strobe has been, G, P, K and the K to come. -/
structure Counters where
  ran : Bool
  tick : Nat
  p : PassIx
  k : Option PassIx
  pendingK : Option PassIx
  deriving DecidableEq, Repr

abbrev Grid.counters (g : Grid) : Counters := ⟨g.ran, g.tick, g.p, g.k, g.pendingK⟩

/-- No claim about the counters. -/
abbrev Counters.any : Counters → Prop := fun _ => True

/-- What an effect keeps: the queue of waiting commands, the canonical form, the burned fuses, and the claim `P` about the
grid's counters; and the free values drawn so far are not drawn again.  An effect that keeps every `P` leaves the counters
as they are. -/
structure Keeps (P : Counters → Prop) (s t : State) : Prop where
  queue : t.pending = s.pending
  canonical : s.Canonical → t.Canonical
  fuses : mwf none s.nvm.fuses.hash = true →
    mwf none t.nvm.fuses.hash = true ∧ Fuses.Within s.nvm.fuses t.nvm.fuses
  draws : s.draws ≤ t.draws
  clock : P s.grid.counters → P t.grid.counters

end Sys2Proof.Machine
end

