-- ==== Sys2Proof/Certificates/Slice0/Obligations.lean ====
section
/-!
DEFINITION. The statements for the provers.
-/

open Sys2Proof Sys2Proof.Machine

/-! ## The tile: scalar results -/

/-- R275, R276: ADD, SUB, NEG and CMP.  The result is in flight with distance 1; with S = 1 (always for CMP) the flags
follow it: C is the carry out, or no borrow, and V the signed overflow. -/
def Sys2Proof.Stated.ScalarAddSub : Prop :=
  ∀ (s : State) (t : TileNo) (d a b : Fin 16) (sf : Bool) (x y : Word), s.Canonical → s.Poised t →
    x = (s.seen t).getS a → y = (s.seen t).getS b →
    s.Gives (.add t true d a b sf) t ((1, .s d (x + y)) ::
      if sf then [(1, .flags (flagsNZCV (x + y) (decide (2 ^ 32 ≤ x.toNat + y.toNat)) (decide (x.toInt + y.toInt ≠ (x + y).toInt))))] else []) ∧
    s.Gives (.sub t true d a b sf) t ((1, .s d (x - y)) ::
      if sf then [(1, .flags (flagsNZCV (x - y) (decide (y.toNat ≤ x.toNat)) (decide (x.toInt - y.toInt ≠ (x - y).toInt))))] else []) ∧
    s.Gives (.neg t true d a sf) t ((1, .s d (0 - x)) ::
      if sf then [(1, .flags (flagsNZCV (0 - x) (decide (x = 0)) (decide (x = 0x80000000#32))))] else []) ∧
    s.Gives (.cmp t true a b) t
      [(1, .flags (flagsNZCV (x - y) (decide (y.toNat ≤ x.toNat)) (decide (x.toInt - y.toInt ≠ (x - y).toInt))))]

/-- R275: the logical operations, minima, maxima, products and counts of the ALU, with the flags N and Z when S = 1; TST
writes no register. -/
def Sys2Proof.Stated.ScalarLogic : Prop :=
  ∀ (s : State) (t : TileNo) (d a b : Fin 16) (sf : Bool) (x y : Word), s.Canonical → s.Poised t →
    x = (s.seen t).getS a → y = (s.seen t).getS b →
    let result (r : Word) : List (Nat × RegWrite) := (1, .s d r) :: if sf then [(1, .flags (flagsNZ r))] else []
    s.Gives (.and t true d a b sf) t (result (x &&& y)) ∧
    s.Gives (.or t true d a b sf) t (result (x ||| y)) ∧
    s.Gives (.xor t true d a b sf) t (result (x ^^^ y)) ∧
    s.Gives (.andn t true d a b sf) t (result (x &&& ~~~y)) ∧
    s.Gives (.min t true d a b sf) t (result (BitVec.ofInt 32 (min x.toInt y.toInt))) ∧
    s.Gives (.max t true d a b sf) t (result (BitVec.ofInt 32 (max x.toInt y.toInt))) ∧
    s.Gives (.minu t true d a b sf) t (result (BitVec.ofNat 32 (min x.toNat y.toNat))) ∧
    s.Gives (.maxu t true d a b sf) t (result (BitVec.ofNat 32 (max x.toNat y.toNat))) ∧
    s.Gives (.mull t true d a b sf) t (result (x * y)) ∧
    s.Gives (.mulh t true d a b sf) t (result (BitVec.ofInt 32 (x.toInt * y.toInt / 2 ^ 32))) ∧
    s.Gives (.tst t true a b) t [(1, .flags (flagsNZ (x &&& y)))] ∧
    (∃ n, n ≤ 31 ∧ (∀ k, k < n → x.getLsbD (30 - k) = x.getLsbD 31) ∧ (n < 31 → x.getLsbD (30 - n) ≠ x.getLsbD 31) ∧
      s.Gives (.cls t true d a sf) t (result (BitVec.ofNat 32 n))) ∧
    (∃ n, n ≤ 32 ∧ (∀ k, k < n → x.getLsbD (31 - k) = false) ∧ (n < 32 → x.getLsbD (31 - n) = true) ∧
      s.Gives (.clz t true d a sf) t (result (BitVec.ofNat 32 n)))

/-- R275, R276: the shifts take the low five bits of b; C is the last bit shifted out, and an amount of 0 leaves C. -/
def Sys2Proof.Stated.ScalarShifts : Prop :=
  ∀ (s : State) (t : TileNo) (d a b : Fin 16) (sf : Bool) (x y : Word) (k : Nat), s.Canonical → s.Poised t →
    x = (s.seen t).getS a → y = (s.seen t).getS b → k = y.toNat % 32 →
    let result (r : Word) (out : Bool) : List (Nat × RegWrite) :=
      (1, .s d r) :: if sf then [(1, .flags (if k = 0 then flagsNZ r else flagsWith r statC out))] else []
    s.Gives (.shl t true d a b sf) t (result (x <<< k) (x.getLsbD (32 - k))) ∧
    s.Gives (.shr t true d a b sf) t (result (x >>> k) (x.getLsbD (k - 1))) ∧
    s.Gives (.asr t true d a b sf) t (result (x.sshiftRight k) (x.getLsbD (k - 1)))

/-- R275, R276: ABS, ADDSAT and SUBSAT saturate to 32 bits; V says whether the result was saturated. -/
def Sys2Proof.Stated.ScalarSaturating : Prop :=
  ∀ (s : State) (t : TileNo) (d a b : Fin 16) (sf : Bool) (x y : Word), s.Canonical → s.Poised t →
    x = (s.seen t).getS a → y = (s.seen t).getS b →
    let result (v : Int) : List (Nat × RegWrite) :=
      (1, .s d (limited v).1) :: if sf then [(1, .flags (flagsWith (limited v).1 statV (limited v).2))] else []
    s.Gives (.abs t true d a sf) t (result x.toInt.natAbs) ∧
    s.Gives (.addsat t true d a b sf) t (result (x.toInt + y.toInt)) ∧
    s.Gives (.subsat t true d a b sf) t (result (x.toInt - y.toInt))

/-- R275, R276: the other operations of the ALU: logic, extrema, products, counts, shifts, and those that saturate. -/
def Obligations.ScalarLogicAndShifts : Prop :=
  Stated.ScalarLogic ∧ Stated.ScalarShifts ∧ Stated.ScalarSaturating

/-- R277: the immediate forms take IMM8 sign-extended, and only CMPI changes STAT. -/
def Sys2Proof.Stated.ScalarImmediate : Prop :=
  ∀ (s : State) (t : TileNo) (d a : Fin 16) (imm : BitVec 8) (amt : Fin 32) (x y : Word), s.Canonical → s.Poised t →
    x = (s.seen t).getS a → y = BitVec.ofInt 32 imm.toInt →
    s.Gives (.addi t true d a imm) t [(1, .s d (x + y))] ∧
    s.Gives (.andi t true d a imm) t [(1, .s d (x &&& y))] ∧
    s.Gives (.ori t true d a imm) t [(1, .s d (x ||| y))] ∧
    s.Gives (.xori t true d a imm) t [(1, .s d (x ^^^ y))] ∧
    s.Gives (.shli t true d a amt) t [(1, .s d (x <<< amt.val))] ∧
    s.Gives (.shri t true d a amt) t [(1, .s d (x >>> amt.val))] ∧
    s.Gives (.asri t true d a amt) t [(1, .s d (x.sshiftRight amt.val))] ∧
    s.Gives (.cmpi t true a imm) t
      [(1, .flags (flagsNZCV (x - y) (decide (y.toNat ≤ x.toNat)) (decide (x.toInt - y.toInt ≠ (x - y).toInt))))] ∧
    s.Gives (.mini t true d a imm) t [(1, .s d (BitVec.ofInt 32 (min x.toInt y.toInt)))] ∧
    s.Gives (.maxi t true d a imm) t [(1, .s d (BitVec.ofInt 32 (max x.toInt y.toInt)))]

/-- R278: LDI and LDIH. -/
def Sys2Proof.Stated.Constants : Prop :=
  ∀ (s : State) (t : TileNo) (d : Fin 16) (imm : BitVec 16), s.Canonical → s.Poised t →
    s.Gives (.ldi t true d imm) t [(1, .s d (BitVec.ofInt 32 imm.toInt))] ∧
    s.Gives (.ldih t true d imm) t [(1, .s d (BitVec.ofNat 32 (65536 * imm.toNat + ((s.seen t).getS d).toNat % 65536)))]

/-- R277, R278: the immediate forms, LDI and LDIH. -/
def Obligations.ImmediatesAndConstants : Prop :=
  Stated.ScalarImmediate ∧ Stated.Constants

/-- R276, R236: what a flag write does to STAT when it becomes visible: N is bit 31 of the result, Z says that it is 0,
C and V are as given where the operation lists them, and every other bit keeps its value. -/
def Sys2Proof.Stated.FlagBits : Prop :=
  ∀ (st r : Word) (c v out : Bool) (k : Nat),
    ((applyFlags (flagsNZ r) st).getLsbD k = if k = 3 then r.getLsbD 31 else if k = 2 then decide (r = 0) else st.getLsbD k) ∧
    ((applyFlags (flagsNZCV r c v) st).getLsbD k = if k = 3 then r.getLsbD 31 else if k = 2 then decide (r = 0)
      else if k = 1 then c else if k = 0 then v else st.getLsbD k) ∧
    ((applyFlags (flagsWith r statC out) st).getLsbD k = if k = 3 then r.getLsbD 31 else if k = 2 then decide (r = 0)
      else if k = 1 then out else st.getLsbD k) ∧
    ((applyFlags (flagsWith r statV out) st).getLsbD k = if k = 3 then r.getLsbD 31 else if k = 2 then decide (r = 0)
      else if k = 0 then out else st.getLsbD k)

/-- R275, R276, R236: additions and subtractions of the ALU, and what their flags do to STAT. -/
def Obligations.ScalarArithmetic : Prop :=
  Stated.ScalarAddSub ∧ Stated.FlagBits

/-- R279, R280: MOVX, each class of source into an s register and an s register into each class of destination. -/
def Sys2Proof.Stated.MovesBetweenFiles : Prop :=
  ∀ (s : State) (t : TileNo) (a d : Fin 16) (k : Fin 8) (v : Fin 16) (l : Fin 4) (x : Word), s.Canonical → s.Poised t →
    x = (s.seen t).getS a →
    s.Gives (.movx t true (.reg (.s d)) (.reg (.s a))) t [(1, .s d x)] ∧
    s.Gives (.movx t true (.reg (.s d)) (.reg (.p k))) t [(1, .s d (BitVec.ofNat 32 ((s.seen t).getP k).toNat))] ∧
    s.Gives (.movx t true (.reg (.s d)) (.reg (.m k))) t [(1, .s d (BitVec.ofInt 32 ((s.seen t).getM k).toInt))] ∧
    s.Gives (.movx t true (.reg (.s d)) (.reg (.n k))) t [(1, .s d (BitVec.ofNat 32 ((s.seen t).getN k).toNat))] ∧
    s.Gives (.movx t true (.reg (.s d)) .stat) t [(1, .s d (s.seen t).stat)] ∧
    s.Gives (.movx t true (.reg (.s d)) .mode) t [(1, .s d (BitVec.ofNat 32 (s.seen t).mode.toNat))] ∧
    s.Gives (.movx t true (.reg (.s d)) .ldepth) t [(1, .s d (BitVec.ofNat 32 (s.seen t).loops.length))] ∧
    s.Gives (.movx t true (.reg (.s d)) (.lane v l)) t [(1, .s d ((s.seen t).getV v l))] ∧
    s.Gives (.movx t true (.reg (.s d)) .scyc) t [(1, .s d (BitVec.ofNat 32 (s.tile t).scyc))] ∧
    s.Gives (.movx t true (.reg (.p k)) (.reg (.s a))) t [(1, .p k (BitVec.ofNat 17 x.toNat))] ∧
    s.Gives (.movx t true (.reg (.m k)) (.reg (.s a))) t [(1, .m k (BitVec.ofNat 17 x.toNat))] ∧
    s.Gives (.movx t true (.reg (.n k)) (.reg (.s a))) t [(1, .n k (BitVec.ofNat 17 x.toNat))] ∧
    s.Gives (.movx t true .stat (.reg (.s a))) t [(1, .stat x)] ∧
    s.Gives (.movx t true (.lane v l) (.reg (.s a))) t [(1, .v v l x)] ∧
    s.Gives (.movx t true (.allLanes v) (.reg (.s a))) t (laneResults 1 v (fun _ => x))

/-- R271, R274: NOP does nothing for its cycle; SETMODE gives the two bits of MODE at distance 2. -/
def Sys2Proof.Stated.ModeAndNop : Prop :=
  ∀ (s : State) (t : TileNo) (a : Fin 16) (nosat trunc : Bool), s.Canonical → s.Poised t →
    s.Gives (.nop t true) t [] ∧
    s.Gives (.setmodeImm t true nosat trunc) t [(2, .mode (BitVec.ofNat 2 (2 * nosat.toNat + trunc.toNat)))] ∧
    s.Gives (.setmodeS t true a) t [(2, .mode (BitVec.ofNat 2 ((s.seen t).getS a).toNat))]

/-- R271, R274, R279, R280: MOVX, SETMODE and NOP. -/
def Obligations.MovesAndModes : Prop :=
  Stated.MovesBetweenFiles ∧ Stated.ModeAndNop

/-! ## The tile: lanes and accumulators -/

/-- R304 to R306: the lane operations whose results carry no saturation event. -/
def Sys2Proof.Stated.LaneResults : Prop :=
  ∀ (s : State) (t : TileNo) (vd va vb : Fin 16) (amt : Fin 32) (sel : BitVec 8), s.Canonical → s.Poised t →
    let x (l : Fin 4) : Word := (s.seen t).getV va l
    let y (l : Fin 4) : Word := (s.seen t).getV vb l
    s.Gives (.vadd t true vd va vb) t (laneResults 1 vd (fun l => x l + y l)) ∧
    s.Gives (.vsub t true vd va vb) t (laneResults 1 vd (fun l => x l - y l)) ∧
    s.Gives (.vmin t true vd va vb) t (laneResults 1 vd (fun l => BitVec.ofInt 32 (min (x l).toInt (y l).toInt))) ∧
    s.Gives (.vmax t true vd va vb) t (laneResults 1 vd (fun l => BitVec.ofInt 32 (max (x l).toInt (y l).toInt))) ∧
    s.Gives (.vand t true vd va vb) t (laneResults 1 vd (fun l => x l &&& y l)) ∧
    s.Gives (.vor t true vd va vb) t (laneResults 1 vd (fun l => x l ||| y l)) ∧
    s.Gives (.vxor t true vd va vb) t (laneResults 1 vd (fun l => x l ^^^ y l)) ∧
    s.Gives (.vandn t true vd va vb) t (laneResults 1 vd (fun l => x l &&& ~~~(y l))) ∧
    s.Gives (.vcmpgt t true vd va vb) t (laneResults 1 vd (fun l => if (y l).toInt < (x l).toInt then 0xFFFFFFFF#32 else 0)) ∧
    s.Gives (.vcmpeq t true vd va vb) t (laneResults 1 vd (fun l => if x l = y l then 0xFFFFFFFF#32 else 0)) ∧
    s.Gives (.vmov t true vd va) t (laneResults 1 vd x) ∧
    s.Gives (.vshl t true vd va amt) t (laneResults 1 vd (fun l => x l <<< amt.val)) ∧
    s.Gives (.vshr t true vd va amt) t (laneResults 1 vd (fun l => x l >>> amt.val)) ∧
    s.Gives (.vasr t true vd va amt) t (laneResults 1 vd (fun l => (x l).sshiftRight amt.val)) ∧
    s.Gives (.vperm t true vd va sel) t (laneResults 1 vd (fun l => x (Fin.ofNat 4 (sel.toNat / 2 ^ (2 * l.val)))))

/-- R304, R305: the lane operations that saturate, with the SAT bits of the lanes that were limited. -/
def Sys2Proof.Stated.LaneSaturating : Prop :=
  ∀ (s : State) (t : TileNo) (vd va vb : Fin 16) (amt : Fin 32), s.Canonical → s.Poised t →
    let x (l : Fin 4) : Int := ((s.seen t).getV va l).toInt
    let y (l : Fin 4) : Int := ((s.seen t).getV vb l).toInt
    let result (f : Fin 4 → Int) : List (Nat × RegWrite) :=
      laneResults 1 vd (fun l => (limited (f l)).1) ++ laneEvents 1 8 (fun l => (limited (f l)).2)
    s.Gives (.vadds t true vd va vb) t (result (fun l => x l + y l)) ∧
    s.Gives (.vsubs t true vd va vb) t (result (fun l => x l - y l)) ∧
    s.Gives (.vabs t true vd va) t (result (fun l => (x l).natAbs)) ∧
    s.Gives (.vneg t true vd va) t (result (fun l => -(x l))) ∧
    s.Gives (.vshls t true vd va amt) t (result (fun l => x l * 2 ^ amt.val))

/-- R304 to R306: the lane operations, plain and saturating. -/
def Obligations.LaneOperations : Prop :=
  Stated.LaneResults ∧ Stated.LaneSaturating

/-- R242, R243, R301, R303: products and accumulator operations.  They chain on the newest accumulator result; the sums
wrap modulo 2^72, and the wrapping ones set AOV. -/
def Obligations.Accumulation : Prop :=
  ∀ (s : State) (t : TileNo) (form : MacForm) (r : Fin 2) (va vb : Fin 16), s.Canonical → s.Poised t →
    let sh : Nat := match form with | .coef => 2 | .sample => 1 | .square => 3 | .integer => 0
    let p (l : Fin 4) : Int := ((s.seen t).getV va l).toInt * ((s.seen t).getV vb l).toInt * 2 ^ sh
    let v (l : Fin 4) : Int := ((s.seen t).getV va l).toInt * 2 ^ 32
    let a (l : Fin 4) : Int := (s.chained t r l).toInt
    let sum (f : Fin 4 → Int) : List (Nat × RegWrite) := accResults r f ++ laneEvents 2 12 (fun l => outside72 (f l))
    s.Gives (.mul t true form r va vb) t (accResults r p) ∧
    s.Gives (.mac t true form r va vb) t (sum (fun l => a l + p l)) ∧
    s.Gives (.msu t true form r va vb) t (sum (fun l => a l - p l)) ∧
    s.Gives (.clr t true r) t (accResults r (fun _ => 0)) ∧
    s.Gives (.lda t true r va) t (accResults r v) ∧
    s.Gives (.adda t true r va) t (sum (fun l => a l + v l)) ∧
    s.Gives (.suba t true r va) t (sum (fun l => a l - v l)) ∧
    s.Gives (.suma t true r) t (sum (fun l => if l = 0 then a 0 + a 1 + a 2 + a 3 else 0))

/-- R246, R247: the conversion of an accumulator value, as the rule computes it. -/
def Sys2Proof.Stated.ConversionRule : Prop :=
  ∀ (mode : BitVec 2) (c : Conv) (acc : Acc),
    let a := acc.toInt
    let d : Nat := match c with | .word code => 24 + code | .p24 => 40
    let w : Nat := match c with | .word _ => 32 | .p24 => 24
    let place : Nat := match c with | .word _ => 0 | .p24 => 8
    let q := a / 2 ^ d
    let r := a - q * 2 ^ d
    let half : Int := 2 ^ (d - 1)
    let q := if mode.getLsbD 0 = false ∧ (half < r ∨ (r = half ∧ q % 2 = 1)) then q + 1 else q
    let hi : Int := 2 ^ (w - 1) - 1
    let lo : Int := -(2 ^ (w - 1))
    let out := decide (hi < q ∨ q < lo)
    let q := if mode.getLsbD 1 then q else min (max q lo) hi
    convert mode c acc = (BitVec.ofInt 32 (q % 2 ^ w * 2 ^ place), out)

/-- R302, R239: CVT converts every lane of the accumulator, as the registers hold it, with the MODE at issue. -/
def Sys2Proof.Stated.ConversionToLanes : Prop :=
  ∀ (s : State) (t : TileNo) (vd : Fin 16) (r : Fin 2) (c : Conv), s.Canonical → s.Poised t →
    let cv (l : Fin 4) : Word × Bool := convert (s.seen t).mode c ((s.seen t).getA r l)
    s.Gives (.cvt t true vd r c) t (laneResults 2 vd (fun l => (cv l).1) ++ laneEvents 2 8 (fun l => (cv l).2))

/-- R239, R246, R247, R302: the conversion of an accumulator value, and CVT. -/
def Obligations.Conversion : Prop :=
  Stated.ConversionRule ∧ Stated.ConversionToLanes

/-- R298: LEA adds its immediate to a pointer linearly; STEP moves a pointer by its offset register with the rule of
R249. -/
def Sys2Proof.Stated.PointerArithmetic : Prop :=
  ∀ (s : State) (t : TileNo) (pd pa : Fin 8) (imm : BitVec 10), s.Canonical → s.Poised t →
    s.Gives (.lea t true pd pa imm) t [(1, .p pd (BitVec.ofInt 17 (((s.seen t).getP pa).toNat + imm.toInt)))] ∧
    s.Gives (.stepPtr t true pa) t
      [(1, .p pa (postModify ((s.seen t).getP pa) ((s.seen t).getN pa) ((s.seen t).getM pa).toInt))]

/-- R249, R268: post-modification, linear when n is 0, circular otherwise; a step of 0 leaves the pointer. -/
def Sys2Proof.Stated.PostModification : Prop :=
  ∀ (p n : BitVec 17) (step : Int),
    postModify p n 0 = p ∧
    (n = 0 → postModify p n step = BitVec.ofInt 17 (p.toNat + step)) ∧
    (n ≠ 0 → step ≠ 0 → ∃ c, n.toNat ≤ 2 ^ c ∧ (∀ k, n.toNat ≤ 2 ^ k → c ≤ k) ∧
      let base : Int := p.toNat / 2 ^ c * 2 ^ c
      let o := p.toNat - base + step
      postModify p n step =
        BitVec.ofInt 17 (base + (if n.toNat ≤ o then o - n.toNat else if o < 0 then o + n.toNat else o)))

/-- R249, R268, R298: LEA, STEP and the post-modification of pointers. -/
def Obligations.Pointers : Prop :=
  Stated.PointerArithmetic ∧ Stated.PostModification

/-! ## The tile: memory -/

/-- R291 to R294, R254: the loads.  The access is at (p + offset) mod 2^17; the bytes of the words or of the packed sample
come least significant first, the result is at distance 2 and the post-modified pointer at distance 1. -/
def Sys2Proof.Stated.LoadResults : Prop :=
  ∀ (s : State) (t : TileNo) (r : SReg) (v : Fin 16) (lane : Fin 4) (ptr : Fin 8) (post : Post) (rot : Bool) (o : Fin 16) (o' : Fin 32),
    s.Canonical → s.Poised t →
    let b := s.seen t
    let at_ (off : Nat) : Nat := ((b.getP ptr).toNat + off) % 2 ^ 17
    let byte (x : Nat) : Nat := (s.rdB (dataAddr t x)).toNat
    let word (x : Nat) : Word := BitVec.ofNat 32 (byte x + 2 ^ 8 * byte (x + 1) + 2 ^ 16 * byte (x + 2) + 2 ^ 24 * byte (x + 3))
    let packed (x : Nat) : Word := BitVec.ofNat 32 (2 ^ 8 * byte x + 2 ^ 16 * byte (x + 1) + 2 ^ 24 * byte (x + 2))
    ((rot = true ∨ at_ (4 * o) % 4 = 0) → s.Sound t (at_ (4 * o)) 4 → (post ≠ .none → r ≠ .p ptr) →
      s.Gives (.lds t true r ptr post rot o) t
        ((2, match r with
          | .s i => .s i (word (at_ (4 * o)))
          | .p i => .p i (BitVec.ofNat 17 (word (at_ (4 * o))).toNat)
          | .m i => .m i (BitVec.ofNat 17 (word (at_ (4 * o))).toNat)
          | .n i => .n i (BitVec.ofNat 17 (word (at_ (4 * o))).toNat)) :: postResult b ptr 4 post)) ∧
    (at_ (16 * o') % 16 = 0 → s.Sound t (at_ (16 * o')) 16 →
      s.Gives (.ldv t true v ptr post o') t
        (laneResults 2 v (fun l => word (at_ (16 * o') + 4 * l)) ++ postResult b ptr 16 post)) ∧
    (at_ (4 * o') % 4 = 0 → s.Sound t (at_ (4 * o')) 4 →
      s.Gives (.ldb t true v ptr post o') t (laneResults 2 v (fun _ => word (at_ (4 * o'))) ++ postResult b ptr 4 post)) ∧
    (s.Sound t (at_ o) 4 →
      s.Gives (.ldl t true v lane ptr post false o) t ((2, .v v lane (word (at_ o))) :: postResult b ptr 4 post)) ∧
    (s.Sound t (at_ o) 3 →
      s.Gives (.ldl t true v lane ptr post true o) t ((2, .v v lane (packed (at_ o))) :: postResult b ptr 3 post))

/-- R295, R255: a dual load takes a further cycle when its two accesses fall in different rows of one bank. -/
def Sys2Proof.Stated.DualLoad : Prop :=
  ∀ (s : State) (t : TileNo) (pair pa pb : Fin 8) (posta postb : Post), s.Canonical → s.Poised t →
    let b := s.seen t
    let xa := (b.getP pa).toNat
    let xb := (b.getP pb).toNat
    let byte (x : Nat) : Nat := (s.rdB (dataAddr t x)).toNat
    let word (x : Nat) : Word := BitVec.ofNat 32 (byte x + 2 ^ 8 * byte (x + 1) + 2 ^ 16 * byte (x + 2) + 2 ^ 24 * byte (x + 3))
    let cycles : Nat := if xa / 16 % 4 = xb / 16 % 4 ∧ xa / 64 ≠ xb / 64 then 2 else 1
    xa % 16 = 0 → s.Sound t xa 16 → (pa = pb → posta = .none ∨ postb = .none) →
    (xb % 16 = 0 → s.Sound t xb 16 →
      s.GivesIn (.ldd t true pair pa posta pb postb false) t cycles
        (laneResults 2 (Fin.ofNat 16 (2 * pair)) (fun l => word (xa + 4 * l)) ++
          laneResults 2 (Fin.ofNat 16 (2 * pair + 1)) (fun l => word (xb + 4 * l)) ++
          postResult b pb 16 postb ++ postResult b pa 16 posta)) ∧
    (xb % 4 = 0 → s.Sound t xb 4 →
      s.GivesIn (.ldd t true pair pa posta pb postb true) t cycles
        (laneResults 2 (Fin.ofNat 16 (2 * pair)) (fun l => word (xa + 4 * l)) ++
          laneResults 2 (Fin.ofNat 16 (2 * pair + 1)) (fun _ => word xb) ++
          postResult b pb 4 postb ++ postResult b pa 16 posta))

/-- R254, R255, R291 to R295: the loads and the dual load. -/
def Obligations.Loads : Prop :=
  Stated.LoadResults ∧ Stated.DualLoad

/-- R291 to R294, R297, R254: the stores.  The stored bytes are the register's, least significant first, at
(p + offset) mod 2^17 and up; a packed store takes bits [31:8]. -/
def Obligations.StoreResults : Prop :=
  ∀ (s : State) (t : TileNo) (r : SReg) (v : Fin 16) (lane : Fin 4) (acc : Fin 2) (c : Conv) (ptr : Fin 8) (post : Post)
    (rot : Bool) (o : Fin 16) (o' : Fin 32), s.Canonical → s.Poised t →
    let b := s.seen t
    let at_ (off : Nat) : Nat := ((b.getP ptr).toNat + off) % 2 ^ 17
    let value : Word := match r with
      | .s i => b.getS i
      | .p i => BitVec.ofNat 32 (b.getP i).toNat
      | .m i => BitVec.ofInt 32 (b.getM i).toInt
      | .n i => BitVec.ofNat 32 (b.getN i).toNat
    let cv (l : Fin 4) : Word × Bool := convert b.mode c (b.getA acc l)
    let wordBytes (w : Word) : List Byte := [w.truncate 8, (w >>> 8).truncate 8, (w >>> 16).truncate 8, (w >>> 24).truncate 8]
    ((rot = true ∨ at_ (4 * o) % 4 = 0) → s.Sound t (at_ (4 * o)) 4 →
      s.Stores (.sts t true r ptr post rot o) t (at_ (4 * o)) (wordBytes value) (postResult b ptr 4 post)) ∧
    (at_ (16 * o') % 16 = 0 → s.Sound t (at_ (16 * o')) 16 →
      s.Stores (.stv t true v ptr post o') t (at_ (16 * o'))
        (wordBytes (b.getV v 0) ++ wordBytes (b.getV v 1) ++ wordBytes (b.getV v 2) ++ wordBytes (b.getV v 3))
        (postResult b ptr 16 post)) ∧
    (s.Sound t (at_ o) 4 →
      s.Stores (.stl t true v lane ptr post false o) t (at_ o) (wordBytes (b.getV v lane)) (postResult b ptr 4 post)) ∧
    (s.Sound t (at_ o) 3 →
      s.Stores (.stl t true v lane ptr post true o) t (at_ o) ((wordBytes (b.getV v lane)).tail) (postResult b ptr 3 post)) ∧
    (at_ 0 % 16 = 0 → s.Sound t (at_ 0) 16 →
      s.Stores (.sta t true acc c ptr post .four) t (at_ 0)
        (wordBytes (cv 0).1 ++ wordBytes (cv 1).1 ++ wordBytes (cv 2).1 ++ wordBytes (cv 3).1)
        (laneEvents 2 8 (fun l => (cv l).2) ++ postResult b ptr 16 post)) ∧
    (at_ 0 % 4 = 0 → s.Sound t (at_ 0) 4 →
      s.Stores (.sta t true acc c ptr post (.one lane)) t (at_ 0) (wordBytes (cv lane).1)
        (laneEvents 2 8 (fun l => decide (l = lane) && (cv l).2) ++ postResult b ptr 4 post))

/-! ## The tile: the function unit -/

/-- R244, R245, R285, R286: a function-unit operation waits while the unit is busy, occupies it for eight cycles and gives
its result at distance 8, the exact value rounded to nearest with ties to even; an operand out of range gives the stated
word and sets STAT.FUR.  (The logarithm and the exponential are those of `log2Q31` and `exp2Q30`.) -/
def Sys2Proof.Stated.FunctionUnit : Prop :=
  ∀ (s : State) (t : TileNo) (d a b : Fin 16) (x y : Word), s.Canonical → s.Poised t →
    x = (s.seen t).getS a → y = (s.seen t).getS b →
    let gives (c : Instr) (op : FuOp) (r : Word) (out : Bool) : Prop :=
      ∃ u, exec c s = .next u ∧
        s.Went u t (1 + (s.tile t).fu.left) ((8, .s d r) :: if out then [(8, .sticky 0x00010000#32)] else []) ∧
        (u.tile t).fu = { left := 7, op := op, dest := d, cancel := false, ctx := (s.tile t).ctx } ∧
        ({ u with tiles := s.tiles } : State) = s
    (∃ r, gives (.rcp t true d a) .rcp r (decide (x.toInt < 2 ^ 30)) ∧
      if x.toInt < 2 ^ 30 then r = 0x7FFFFFFF#32
      else 2 * (2 ^ 60 - r.toNat * x.toInt).natAbs ≤ x.toNat ∧ (2 * (2 ^ 60 - r.toNat * x.toInt).natAbs = x.toNat → r.toNat % 2 = 0)) ∧
    (∃ r, gives (.rsq t true d a) .rsq r (decide (x.toInt < 2 ^ 29)) ∧
      if x.toInt < 2 ^ 29 then r = 0x7FFFFFFF#32
      else (2 * r.toNat - 1) ^ 2 * x.toNat ≤ 2 ^ 92 ∧ 2 ^ 92 < (2 * r.toNat + 1) ^ 2 * x.toNat) ∧
    gives (.log2 t true d a) .log2 (if x.toInt < 2 ^ 30 then 0 else BitVec.ofNat 32 (log2Q31 x.toNat)) (decide (x.toInt < 2 ^ 30)) ∧
    gives (.exp2 t true d a) .exp2 (if x.toInt < 0 then 0x40000000#32 else BitVec.ofNat 32 (exp2Q30 x.toNat)) (decide (x.toInt < 0)) ∧
    (∃ r, gives (.div t true d a b) .div r (decide (y.toInt.natAbs ≤ x.toInt.natAbs)) ∧
      if y.toInt.natAbs ≤ x.toInt.natAbs then
        r = if (y = 0 ∧ 0 ≤ x.toInt) ∨ (y ≠ 0 ∧ (x.toInt < 0 ↔ y.toInt < 0)) then 0x7FFFFFFF#32 else 0x80000000#32
      else
        let err := 2 * (x.toInt * 2 ^ 31 - r.toInt * y.toInt).natAbs
        (err ≤ y.toInt.natAbs ∧ (err = y.toInt.natAbs → r.toInt % 2 = 0)) ∨ (r = 0x7FFFFFFF#32 ∧
          2 * (x.toInt * 2 ^ 31 * y.toInt.sign - r.toInt * y.toInt.natAbs) ≥ y.toInt.natAbs))

/-- R286: the examples of the rule and its two upper ends. -/
def Sys2Proof.Stated.FunctionUnitExamples : Prop :=
  fuResult .exp2 0#32 0#32 = (0x40000000#32, false) ∧ fuResult .log2 0x40000000#32 0#32 = (0#32, false) ∧
  fuResult .rcp 0x60000000#32 0#32 = (0x2AAAAAAB#32, false) ∧ fuResult .log2 0x7FFFFFFF#32 0#32 = (0x7FFFFFFF#32, false) ∧
  fuResult .exp2 0x7FFFFFFF#32 0#32 = (0x7FFFFFFF#32, false)

/-- R244, R245, R285, R286: the function unit, and its worked values. -/
def Obligations.FunctionUnitOps : Prop :=
  Stated.FunctionUnit ∧ Stated.FunctionUnitExamples

/-! ## The tile: program flow -/

/-- R281: the sixteen conditions on the flags N (bit 3), Z (bit 2), C (bit 1) and V (bit 0) of STAT. -/
def Sys2Proof.Stated.BranchConditions : Prop :=
  ∀ (st : Word),
    let n := st.getLsbD 3
    let z := st.getLsbD 2
    let c := st.getLsbD 1
    let v := st.getLsbD 0
    condHolds .al st = true ∧ condHolds .eq st = z ∧ condHolds .ne st = !z ∧ condHolds .lt st = (n ^^ v) ∧
    condHolds .ge st = !(n ^^ v) ∧ condHolds .le st = (z || (n ^^ v)) ∧ condHolds .gt st = (!z && !(n ^^ v)) ∧
    condHolds .lo st = !c ∧ condHolds .hs st = c ∧ condHolds .ls st = (!c || z) ∧ condHolds .hi st = (c && !z) ∧
    condHolds .mi st = n ∧ condHolds .pl st = !n ∧ condHolds .vs st = v ∧ condHolds .vc st = !v ∧ condHolds .nv st = false

/-- R282: a branch issues its two delay slots next; BAL writes s15 only when taken; ANNUL annuls the slots of a branch
not taken. -/
def Sys2Proof.Stated.Branches : Prop :=
  ∀ (s : State) (t : TileNo) (cond : Cond) (annul : Bool) (target : BundleIx) (a : Fin 16), s.Canonical → s.Poised t →
    let pc := (s.tile t).flow.pc
    let taken := condHolds cond (s.seen t).stat
    let branches (c : Instr) (goal : Nat) (ws : List (Nat × RegWrite)) : Prop :=
      ∃ u, exec c s = .next u ∧ s.Issued u t 1 ∧ (u.tile t).bank = s.seen t ∧
        u.flying t = nearer (s.flying t) ++ ws ∧ ({ u with tiles := s.tiles } : State) = s ∧
        (u.tile t).flow.pc = pc + 1 ∧
        (u.tile t).flow.br = some { at_ := pc, slot := 0, taken := taken, target := goal, annulled := !taken && annul }
    (∀ v ∈ (s.seen t).loops, v.lend ≠ pc + 1 ∧ v.lend ≠ pc + 2) →
    branches (.b t true cond annul target) target.toNat [] ∧
    branches (.bal t true cond annul target) target.toNat (if taken then [(1, .s 15 (BitVec.ofNat 32 (pc + 3)))] else []) ∧
    branches (.br t true cond annul a) ((s.seen t).getS a).toNat []

/-- R281 to R283: the conditions, the branches, calls and returns. -/
def Obligations.BranchesAndConditions : Prop :=
  Stated.BranchConditions ∧ Stated.Branches

/-- R283: LOOP and LOOPI push a level, or with a count of 0 skip the body and push nothing. -/
def Sys2Proof.Stated.Loops : Prop :=
  ∀ (s : State) (t : TileNo) (a : Fin 16) (count : BitVec 9) (lend : BundleIx), s.Canonical → s.Poised t →
    let pc := (s.tile t).flow.pc
    let loops := (s.seen t).loops
    let enters (c : Instr) (n : Nat) : Prop :=
      ∃ u, exec c s = .next u ∧ s.Issued u t 1 ∧ u.flying t = nearer (s.flying t) ∧ ({ u with tiles := s.tiles } : State) = s ∧
        (u.tile t).flow.pc = pc + 1 ∧
        (u.tile t).bank = { s.seen t with loops := if n = 0 then loops
                                                   else loops ++ [{ lcount := BitVec.ofNat 32 n, lstart := pc + 1, lend := lend.toNat }] } ∧
        (u.tile t).flow.skip = (if n = 0 then some { left := min (lend.toNat - pc) 2, next := lend.toNat + 1, first := true } else none)
    pc < lend.toNat → loops.length < 4 → (∀ v, loops.getLast? = some v → lend.toNat < v.lend) →
    enters (.loop t true a lend) ((s.seen t).getS a).toNat ∧ enters (.loopi t true count lend) count.toNat

/-- R284: RPT makes the next bundle issue as often as its count says. -/
def Sys2Proof.Stated.Repeats : Prop :=
  ∀ (s : State) (t : TileNo) (k : BitVec 11) (a : Fin 16), s.Canonical → s.Poised t →
    let repeats (c : Instr) (n : Nat) : Prop :=
      ∃ u, exec c s = .next u ∧ s.Issued u t 1 ∧ (u.tile t).bank = s.seen t ∧ u.flying t = nearer (s.flying t) ∧
        ({ u with tiles := s.tiles } : State) = s ∧ (u.tile t).flow.pc = (s.tile t).flow.pc + 1 ∧
        (u.tile t).flow.rpt = some { done := 0, count := n }
    (∀ v ∈ (s.seen t).loops, v.lend ≠ (s.tile t).flow.pc + 1) →
    (k.toNat ≤ 1024 → repeats (.rpt t true (.imm k)) k.toNat) ∧
    repeats (.rpt t true (.reg a)) (min ((s.seen t).getS a).toNat 1024)

/-- R240, R241, R284, R307: loops, skips and repeats. -/
def Obligations.LoopsAndRepeats : Prop :=
  Stated.Loops ∧ Stated.Repeats

/-- R282 to R284, R312: how a bundle that transfers no control, here a NOP, moves the flow: through the delay slots of a
branch, through a skipped body, through a repeat, and at the end of the innermost loop body. -/
def Obligations.FlowAdvance : Prop :=
  ∀ (s : State) (t : TileNo) (f : Flow), s.Canonical → s.mayIssue t = true → s.membersOf t = [t.val] → (s.tile t).bufOpen = false →
    f = (s.tile t).flow → f.wait = none → f.atTarget = false → f.pc ≤ 2047 →
    mget 0 s.ms.ecc (s.fetchAddr t f.pc) = 0 → mget 0 s.ms.ecc (s.fetchAddr t f.pc + 4) = 0 →
    bundleDetail (s.fetchBundle t f.pc) = none →
    ∃ u, exec (.nop t true) s = .next u ∧ s.Issued u t 1 ∧ u.flying t = nearer (s.flying t) ∧ ({ u with tiles := s.tiles } : State) = s ∧
      (∀ b, f.br = some b → b.slot = 0 → (u.tile t).flow.pc = f.pc + 1 ∧ (u.tile t).flow.br = some { b with slot := 1 }) ∧
      (∀ b, f.br = some b → b.slot ≠ 0 → (u.tile t).flow.pc = (if b.taken then b.target else b.at_ + 3) ∧
        (u.tile t).flow.br = none ∧ (u.tile t).flow.atTarget = b.taken) ∧
      (∀ k, f.br = none → f.skip = some k → (u.tile t).flow.pc = (if k.left ≤ 1 then k.next else f.pc + 1)) ∧
      (∀ r, f.br = none → f.skip = none → f.rpt = some r →
        if r.count ≤ r.done + 1 then (u.tile t).flow.pc = f.pc + 1 ∧ (u.tile t).flow.rpt = none
        else (u.tile t).flow.pc = f.pc ∧ (u.tile t).flow.rpt = some { r with done := r.done + 1 }) ∧
      (∀ v rest, f.br = none → f.skip = none → f.rpt = none → (s.seen t).loops = rest ++ [v] → v.lend = f.pc →
        if 1 < v.lcount.toNat then
          (u.tile t).flow.pc = v.lstart ∧ (u.tile t).bank.loops = rest ++ [{ v with lcount := v.lcount - 1 }]
        else (u.tile t).flow.pc = f.pc + 1 ∧ (u.tile t).bank.loops = rest)

/-- R287: a WAITS whose cycle has come costs one cycle; otherwise the bundle after it issues when the schedule-cycle
counter has reached CYCLE, every waiting cycle counting as an issued bundle. -/
def Sys2Proof.Stated.WaitForCycle : Prop :=
  ∀ (s : State) (t : TileNo) (cycle : BitVec 13), s.Canonical → s.Poised t → (s.tile t).ctx = false →
    (cycle.toNat ≤ (s.tile t).scyc + 1 → s.Gives (.waits t true cycle) t []) ∧
    ((s.tile t).scyc + 1 < cycle.toNat →
      ∃ u, exec (.waits t true cycle) s = .next u ∧ ({ u with tiles := s.tiles } : State) = s ∧ (∀ m, m ≠ t.val → u.tile m = s.tile m) ∧
        (u.tile t).openBundle.scyc = cycle.toNat ∧
        (u.tile t).openBundle.flow.pc = (s.tile t).flow.pc + 1 ∧
        (u.tile t).openBundle.flow.issued = (s.tile t).flow.issued + (cycle.toNat - (s.tile t).scyc))

/-- R289: YIELD ends the sample program for the pass, with every result in flight completed; CRET hands back to the sample
context, which resumes at its held bundle. -/
def Sys2Proof.Stated.EndOfContext : Prop :=
  ∀ (s : State) (t : TileNo), s.Canonical → s.Poised t →
    ((s.tile t).ctx = false → s.injFor 0x0C 0 t = false →
      ∃ u, exec (.yield t true) s = .next u ∧ ({ u with tiles := s.tiles } : State) = s ∧ (∀ m, m ≠ t.val → u.tile m = s.tile m) ∧
        (u.tile t).run = .idle ∧ (u.tile t).yielded = true ∧ (u.tile t).scyc = (s.tile t).scyc + 1 ∧
        u.flying t = [] ∧ (nearer (s.flying t) = [] → (u.tile t).bank = s.seen t) ∧ (u.tile t).ctl = (s.tile t).ctl) ∧
    ((s.tile t).ctx = true → (∀ r, s.node (s.tile t).handler = some r → r.type ≠ 0x14) →
      ∃ u, exec (.cret t true) s = .next u ∧ ({ u with tiles := s.tiles } : State) = s ∧ (∀ m, m ≠ t.val → u.tile m = s.tile m) ∧
        (u.tile t).ctx = false ∧ (u.tile t).flow.pc = (s.tile t).sf.pc ∧ (u.tile t).smp = (s.tile t).smp ∧
        (u.tile t).cf.pend = [] ∧ (u.tile t).ctlCyc = (s.tile t).ctlCyc + 1 ∧ (u.tile t).scyc = (s.tile t).scyc)

/-- R287, R289: WAITS, YIELD and CRET. -/
def Obligations.WaitsAndYield : Prop :=
  Stated.WaitForCycle ∧ Stated.EndOfContext

/-- R288: a GANG waits for the other members of its cluster; when the last of the eight arrives, the section begins at
tile 0 with the record's first bundle. -/
def Obligations.GangRendezvous : Prop :=
  ∀ (s : State) (t : TileNo) (sec : Fin 16) (g : GangRec), s.Canonical → s.Poised t → (s.tile t).ctx = false →
    let c := t.val / 8
    let arrived := (s.cluster c).arrived
    s.gangRec c sec = some g →
    ((∃ m, m < 8 ∧ 8 * c + m ≠ t.val ∧ (8 * c + m, sec.val) ∉ arrived) →
      ∃ u, exec (.gang t true sec) s = .next u ∧ (u.tile t).waiting = true ∧ (u.tile t).flow.pc = (s.tile t).flow.pc ∧
        (u.cluster c).arrived = arrived ++ [(t.val, sec.val)] ∧ (u.cluster c).gang = (s.cluster c).gang ∧
        (∀ m, m ≠ t.val → u.tile m = s.tile m)) ∧
    ((∀ m, m < 8 → 8 * c + m ≠ t.val → (8 * c + m, sec.val) ∈ arrived) →
      ∃ u k, exec (.gang t true sec) s = .next u ∧ (u.cluster c).arrived = [] ∧
        (u.cluster c).gang = some { sec := sec, left := g.length, ret := k } ∧
        (u.tile (8 * c)).flow.pc = g.leadBundle ∧ (u.tile (8 * c)).waiting = false ∧
        (∀ m, m < 8 → 0 < m → (u.tile (8 * c + m)).scyc + (u.tile (8 * c + m)).ctlCyc = (u.tile (8 * c)).scyc + (u.tile (8 * c)).ctlCyc))

/-- R269, R271, R273 to R275, R277 to R279, R281, R283 to R285, R290 to R298, R300 to R306: the encodings of the tile's
instructions.  Every command of a slot that its tables do not call illegal has a word in one of the three slots, the slot's
decoder reads that word as the command with every operand, and a word that decodes is the word of the command it decodes
to. -/
def Sys2Proof.Stated.SlotWords : Prop :=
  ∀ (i : Instr) (t : TileNo) (last : Bool), Machine.Instr.slotOf i = some (t, last) →
    (Machine.Instr.illegalForm i = false → (encodeC i).isSome ∨ (encodeM i).isSome ∨ (encodeL i).isSome) ∧
    (∀ w, Machine.Instr.illegalForm i = false → encodeC i = some w → w < 2 ^ 24 ∧ decodeC t last w = .ok i) ∧
    (∀ w, Machine.Instr.illegalForm i = false → encodeM i = some w → w < 2 ^ 20 ∧ decodeM t last w = .ok i) ∧
    (∀ w, encodeL i = some w → w < 2 ^ 20 ∧ decodeL t last w = .ok i) ∧
    (∀ w, w < 2 ^ 24 → decodeC t last w = .ok i → encodeC i = some w ∧ Machine.Instr.illegalForm i = false) ∧
    (∀ w, w < 2 ^ 20 → decodeM t last w = .ok i → encodeM i = some w ∧ Machine.Instr.illegalForm i = false) ∧
    (∀ w, w < 2 ^ 20 → decodeL t last w = .ok i → encodeL i = some w)

/-- R269, R271: a bundle of three slot words decodes slot by slot; a slot of zeros is left out, and the last command of the
bundle is marked so. -/
def Sys2Proof.Stated.BundleSlots : Prop :=
  ∀ (t : TileNo) (c m l : Nat) (i j k : Instr), c < 2 ^ 24 → m < 2 ^ 20 → l < 2 ^ 20 →
    decodeC t (m == 0 && l == 0) c = .ok i → decodeM t (l == 0) m = .ok j → decodeL t true l = .ok k →
    decodeBundle t (packBundle c m l) = .ok (if c = 0 ∧ m = 0 ∧ l = 0 then [.nop t true]
      else (if c = 0 then [] else [i]) ++ (if m = 0 then [] else [j]) ++ (if l = 0 then [] else [k]))

/-- R269, R271, R273 to R275, R277 to R279, R281, R283 to R285, R290 to R298, R300 to R306: decode and encode agree for every
slot, and a bundle decodes slot by slot. -/
def Obligations.BundleEncodings : Prop :=
  Stated.SlotWords ∧ Stated.BundleSlots

/-- R327 to R329, R332: the command, at its bundle's issue, raises the exception: the bundle takes no effect, results in
flight complete, the record and the report are written, and the tile stops muted until the next strobe. -/
def Sys2Proof.Stated.Raises (s : State) (t : TileNo) (c : Instr) (cause detail addr : Nat) : Prop :=
  ∃ u, exec c s = .next u ∧
    (u.tile t).run = .halted ∧ (u.tile t).muted = true ∧ (u.tile t).restartIn = 1 ∧ (u.tile t).ctx = false ∧
    (u.tile t).sf.pend = [] ∧ (u.tile t).cf.pend = [] ∧
    (nearer (s.flying t) = [] → (if (s.tile t).ctx then (u.tile t).ctl else (u.tile t).smp) = s.seen t) ∧
    u.xfld t 0x800 31 31 = 1 ∧ u.xfld t 0x800 14 14 = (if (s.tile t).ctx then 1 else 0) ∧
    u.xfld t 0x800 7 4 = detail ∧ u.xfld t 0x800 3 0 = cause ∧
    u.xfld t 0x804 10 0 = (s.tile t).flow.pc ∧ u.xfld t 0x80C 16 0 = addr ∧ u.xfld t 0x814 31 0 = s.grid.tick % 2 ^ 32 ∧
    u.xfld t 0x82C 15 0 = min 65535 (s.xfld t 0x82C 15 0 + 1) ∧ u.xfld t 0x82C 31 16 = s.xfld t 0x82C 31 16 ∧
    u.flt.raised = s.flt.raised ++ [{ src := 0x0C, unit := t, cls := 1, pass := s.p32,
                                      detail := 16 * cause + detail + if (s.tile t).ctx then 256 else 0 }] ∧
    { u.flt with raised := s.flt.raised } = s.flt ∧ (∀ m, m ≠ t.val → u.tile m = s.tile m) ∧
    ({ u with tiles := s.tiles, clusters := s.clusters, flt := s.flt } : State) = s

/-- R326: a misaligned vector load (cause 3, DETAIL 1), a MOVX between two registers that are not s registers (cause 1,
DETAIL 0), an LDS whose destination is its own post-modified pointer (cause 1, DETAIL 2) and an RPT of more than 1,024
(cause 1, DETAIL 1). -/
def Sys2Proof.Stated.SlotExceptions : Prop :=
  ∀ (s : State) (t : TileNo) (v : Fin 16) (ptr k : Fin 8) (post : Post) (off : Fin 32) (rot : Bool) (o : Fin 16) (n : BitVec 11),
    s.Canonical → s.Poised t → (s.tile t).injYield = false →
    let x := (((s.seen t).getP ptr).toNat + 16 * off) % 2 ^ 17
    (x % 16 ≠ 0 → Stated.Raises s t (.ldv t true v ptr post off) 3 1 x) ∧
    Stated.Raises s t (.movx t true (.reg (.p ptr)) (.reg (.m k))) 1 0 0 ∧
    (post ≠ .none → Stated.Raises s t (.lds t true (.p ptr) ptr post rot o) 1 2 0) ∧
    (1024 < n.toNat → Stated.Raises s t (.rpt t true (.imm n)) 1 1 0)

/-- R272, R326: a stored bundle that is an illegal encoding raises cause 1 when it issues, here with a NOP given for it
(which DETAIL an encoding has is the model's choice where R326 leaves it open, assumption 121). -/
def Sys2Proof.Stated.IllegalStored : Prop :=
  ∀ (s : State) (t : TileNo) (m : SMap Byte) (d : Nat), s.Canonical → s.Poised t → (s.tile t).injYield = false → mwf 0 m = true →
    bundleDetail (({ s with imem := m } : State).fetchBundle t (s.tile t).flow.pc) = some d →
    Stated.Raises { s with imem := m } t (.nop t true) 1 d 0

/-- R272, R326 to R329, R332: the exceptions of a bundle, of its slots and of its stored words. -/
def Obligations.TileException : Prop :=
  Stated.SlotExceptions ∧ Stated.IllegalStored

/-- R332 to R334: a restart starts the program at ENTRY with registers of 0, a cleared state area, no pending handler runs
and the ramp-in at its first step; the exception record stays.  The rewrite of an uncorrectable word restores the image's
word with right check bits, and the tile restarts at the next strobe. -/
def Obligations.TileRestart : Prop :=
  ∀ (s : State) (t : TileNo) (a : Word), s.Canonical →
    ((s.tile t).run = .halted → (∀ m ∈ s.restartsWith t, (s.tile m).restartIn = 0 ∧ s.eccHeld m = false) → s.graphRuns = true → s.domOn t = true →
      let entry := match (s.tile t).onBack, mget none s.scn.backs t with | true, some p => p.xfEntry | _, _ => (s.prog t).entry
      ∃ u, exec (.restart t) s = .next u ∧ (u.tile t).run = .running ∧ (u.tile t).muted = false ∧ (u.tile t).rampK = 1 ∧
        (u.tile t).smp = {} ∧ (u.tile t).ctl = {} ∧ (u.tile t).flow.pc = entry ∧ (u.tile t).runs = [] ∧
        (u.tile t).flow.pend = [] ∧ (u.tile t).xrec = (s.tile t).xrec ∧ u.rd32 (tileBase t) = BitVec.ofNat 32 s.grid.tick ∧
        (∀ b, tileBase t + 4 ≤ b → tileBase t + (s.prog t).stateBase ≤ b → b < tileBase t + (s.prog t).stateBase + (s.prog t).stateBytes →
          u.rdB b = 0) ∧
        (∀ b, (b < tileBase t ∨ tileBase t + 4 ≤ b) →
          (b < tileBase t + (s.prog t).stateBase ∨ tileBase t + (s.prog t).stateBase + (s.prog t).stateBytes ≤ b) → u.rdB b = s.rdB b) ∧
        u.imem = s.imem ∧ (∀ m, m ≠ t.val → u.tile m = s.tile m)) ∧
    (a.toNat ∈ s.ms.tileBad → 0x20000000 ≤ a.toNat → a.toNat % 4 = 0 → a.toNat % 0x40000 < 0x20000 → s.flt.armed = none →
      s.reading (rewriteOf a.toNat) = true →
      ∃ u, exec (.eccWordRewrite a) s = .next u ∧ u.rd32 a.toNat = s.imageWord a.toNat ∧ mget 0 u.ms.ecc a.toNat = 0 ∧
        a.toNat ∉ u.ms.tileBad ∧ (u.tile (tileOf a.toNat)).restartIn = 1 ∧
        (∀ b, (b < a.toNat ∨ a.toNat + 4 ≤ b) → u.rdB b = s.rdB b))

/-- R101, R320 to R322: in a cluster whose ganged sections of the pass are not all over, no handler run starts; otherwise a
pending handler run that fits the allowance enters the control context in one cycle, with the pointers
of its instance, s15 at 0x7FF, MODE 0 and no loops; one that does not fit is deferred with those behind it. -/
def Obligations.ControlSwitch : Prop :=
  ∀ (s : State) (t : TileNo) (spent : Nat) (r : HRun) (rest : List HRun) (nd : NodeRec), s.Canonical →
    s.domOn t = true → s.isLib t = false → (s.tile t).ctx = false → (s.tile t).bufOpen = false → (s.tile t).run = .running →
    (s.tile t).sf.br = none → (s.tile t).sf.skip = none → (s.tile t).sf.rpt = none → (s.tile t).sf.wait = none →
    (s.cluster (t / 8)).gang = none → (s.cluster (t / 8)).arrived = [] → (s.tile t).afterCret = false → s.tly.mons = [] →
    (s.tile t).runs = r :: rest → s.node r.inst = some nd →
    ((s.cluster (t / 8)).gangsDone < (s.cluster (t / 8)).gangs.length → exec (.controlSwitch t spent) s = .next s) ∧
    ((s.cluster (t / 8)).gangs.length ≤ (s.cluster (t / 8)).gangsDone →
    ∃ u, exec (.controlSwitch t spent) s = .next u ∧ (∀ m, m ≠ t.val → u.tile m = s.tile m) ∧ ({ u with tiles := s.tiles } : State) = s ∧
      (u.tile t).smp = (s.tile t).smp ∧ (u.tile t).sf = (s.tile t).sf ∧ (u.tile t).scyc = (s.tile t).scyc ∧
      if s.allowance < (s.tile t).ctlCyc + nd.ctrlCost + 2 then
        (u.tile t).ctx = false ∧ (u.tile t).runs = (s.tile t).runs.map (fun x => { x with deferred := true }) ∧
        (u.tile t).deferred = min 65535 ((s.tile t).deferred + ((s.tile t).runs.filter (fun x => !x.deferred)).length)
      else
        (u.tile t).ctx = true ∧ (u.tile t).handler = r.inst ∧ (u.tile t).runs = rest ∧ (u.tile t).cf.pc = nd.ctrlEntry ∧
        (u.tile t).ctlCyc = (s.tile t).ctlCyc + 1 ∧ (u.tile t).ctl.getP 0 = BitVec.ofNat 17 nd.stateAddr ∧
        (u.tile t).ctl.getP 1 = BitVec.ofNat 17 nd.paramAddr ∧ (u.tile t).ctl.getP 2 = BitVec.ofNat 17 nd.coefAddr ∧
        (u.tile t).ctl.getS 15 = 0x7FF#32 ∧ (u.tile t).ctl.mode = 0 ∧ (u.tile t).ctl.loops = [] ∧
        (∀ i, i ≠ 15 → (u.tile t).ctl.getS i = (s.tile t).ctl.getS i))

/-! ## Commands and steps -/

/-- A step takes the command at the front of the queue; with none waiting the block idles (the model's choice,
assumption 3). -/
def Obligations.StepRunsFrontCommand : Prop :=
  ∀ (c : Instr) (rest : List Instr) (s : State),
    step { s with pending := c :: rest } = exec c { s with pending := rest } ∧ step { s with pending := [] } = .next { s with pending := [] }

/-- Every command completes: it answers a next state, leaves the waiting commands alone and draws no free value twice. -/
def Obligations.EveryCommandCompletes : Prop :=
  ∀ (c : Instr) (s : State), ∃ u, exec c s = .next u ∧ u.pending = s.pending ∧ s.draws ≤ u.draws

/-- The maps of the state keep their canonical form in every step. -/
def Obligations.StepsKeepCanonical : Prop :=
  ∀ (s u : State), s.Canonical → step s = .next u → u.Canonical

/-- R636, R640, R641: no step undoes a burned fuse, a burned key hash or a revocation, or changes the burned wrap key or the
identity. -/
def Obligations.FusesStayBurned : Prop :=
  ∀ (s u : State), mwf none s.nvm.fuses.hash = true → step s = .next u →
    mwf none u.nvm.fuses.hash = true ∧ Fuses.Within s.nvm.fuses u.nvm.fuses

/-- R577, R579, R35, R373, R403, R421, R450, R581, R602: the state after a power-on reset: every register at its reset
value, every memory byte 0 (assumption 2), mode BOOT, the grid stopped, every unit off, no command waiting. -/
def Obligations.ResetState : Prop :=
  (∀ a, State.reset.reg a = resetOf a) ∧ (∀ a, State.reset.rdB a = 0) ∧ State.reset.Canonical ∧ State.reset.pending = [] ∧
  State.reset.pwr.mode = .boot ∧ State.reset.grid.state = .stopped ∧ State.reset.grid.p = 0 ∧ State.reset.clk.st = .free ∧
  State.reset.net.timeValid = false ∧ State.reset.image = none ∧ State.reset.flt.lock = false ∧ State.reset.twin.st = .none_ ∧
  (∀ d, State.reset.domSt d = if d = 79 then .on else .off) ∧ (∀ n, (State.reset.tile n).run = .idle) ∧
  (∀ k, (State.reset.port k).st = .off) ∧ (∀ m, (State.reset.mic m).st = .off) ∧ (∀ c, (State.reset.src c).st = .off)

/-! ## The register interface and the memories -/

/-- R10, R11, R14: peripheral registers lie at multiples of 4.  A short write answers an error and changes nothing; a short read
answers the addressed bytes with a full read's effects; an offset without a register reads 0 and ignores a full write.  A full read of
a register without a latch of its own answers its value, clears its RC fields and changes nothing else. -/
def Obligations.PeripheralAccesses : Prop :=
  (∀ a r, regAt a = some r → a % 4 = 0) ∧
  ∀ (s : State) (m : Master) (addr v : Word) (size : AccSize) (cycle a : Nat), a = addr.toNat → s.Serves m a → a % size.bytes = 0 →
    (size ≠ .word → ∃ u, exec (.registerWrite m addr size v) s = .next u ∧ s.Answered u .error 0) ∧
    (regAt a = none → size = .word → ∃ u, exec (.registerWrite m addr size v) s = .next u ∧ s.Answered u .ok 0) ∧
    (regAt (a / 4 * 4) = none → ∃ u, exec (.readClear m addr size cycle) s = .next u ∧ s.Answered u .ok 0) ∧
    (∃ u w, exec (.readClear m (BitVec.ofNat 32 (a / 4 * 4)) .word cycle) s = .next u ∧ u.svc.resp = .ok ∧ w = u.svc.rdata ∧
      exec (.readClear m addr size cycle) s = .next (u.respond .ok (BitVec.ofNat 32 (w.toNat / 2 ^ (8 * (a % 4)) % 2 ^ (8 * size.bytes))))) ∧
    (∀ r, s.Canonical → size = .word → regAt a = some r → isLo a = false → isLatched a = false → a ≠ aPtpTimeNs →
      (a < 0x40210084 ∨ 0x402100C0 ≤ a) → (a < 0x40500100 ∨ 0x40500180 ≤ a) →
      ∃ u, exec (.readClear m addr .word cycle) s = .next u ∧ u.svc.resp = .ok ∧ u.svc.rdata = s.view a ∧
        (∀ k, (u.reg a).getLsbD k = match r.flds.find? (fun f => decide (f.lo ≤ k) && decide (k ≤ f.hi)) with
          | some f => (match f.ty with
            | .rc => false
            | _ => (s.reg a).getLsbD k)
          | none => (s.reg a).getLsbD k) ∧
        (∀ b, b ≠ a → u.reg b = s.reg b) ∧ ({ u with regs := s.regs, svc := s.svc } : State) = s)

/-- R12, R14: a full write of a SYS_, DOM_ or CUE_ register without a row of its own stores RW fields, clears W1C bits and
sets W1S bits written with 1, leaves every other bit, reserved ones among them, and touches no other register. -/
def Obligations.RegisterWriteByFieldType : Prop :=
  ∀ (s : State) (m : Master) (addr v : Word) (r : RegDef), s.Canonical → s.Serves m addr.toNat → regAt addr.toNat = some r →
    addr.toNat / 65536 ∈ [0x4000, 0x4060, 0x4070] → addr.toNat ≠ aSysMode →
    ∃ u, exec (.registerWrite m addr .word v) s = .next u ∧ u.svc.resp = .ok ∧
      (∀ k, (u.reg addr.toNat).getLsbD k = match r.flds.find? (fun f => decide (f.lo ≤ k) && decide (k ≤ f.hi)) with
        | some f => (match f.ty with
          | .rw => v.getLsbD k
          | .w1c => (s.reg addr.toNat).getLsbD k && !v.getLsbD k
          | .w1s => (s.reg addr.toNat).getLsbD k || v.getLsbD k
          | _ => (s.reg addr.toNat).getLsbD k)
        | none => (s.reg addr.toNat).getLsbD k) ∧
      (∀ b, b ≠ addr.toNat → u.reg b = s.reg b) ∧ ({ u with regs := s.regs, svc := s.svc } : State) = s

/-- R15: a read of a _HI register answers what the most recent read of its _LO register latched; a read of a _LO register latches
the _HI part of its moment. -/
def Obligations.LatchedHalves : Prop :=
  ∀ (s : State) (m : Master) (lo : Word), s.Canonical → s.Serves m lo.toNat → isLo lo.toNat = true → s.Serves m (lo.toNat + 4) → isLo (lo.toNat + 4) = false →
    (∃ x, exec (.readClear m (lo + 4#32) .word 0) s = .next x ∧ x.svc.resp = .ok ∧ x.svc.rdata = mget 0 s.latch (lo.toNat + 4) ∧
      ({ x with svc := s.svc } : State) = s) ∧
    ∃ u, exec (.loRead m lo) s = .next u ∧ u.svc.resp = .ok ∧ u.svc.rdata = s.view lo.toNat ∧
      mget 0 u.latch (lo.toNat + 4) = s.view (lo.toNat + 4) ∧ (∀ b, b ≠ lo.toNat + 4 → mget 0 u.latch b = mget 0 s.latch b) ∧
      ({ u with latch := s.latch, svc := s.svc } : State) = s ∧
      ∃ w, exec (.readClear m (lo + 4#32) .word 0) u = .next w ∧ w.svc.resp = .ok ∧ w.svc.rdata = s.view (lo.toNat + 4) ∧
        ({ w with svc := u.svc } : State) = u

/-- R256, R259, R521, R528, R529: device-bus accesses of Millpond, tile data memory and the secure region: what is written
is read, byte for byte, and no other byte changes; the secure region answers the steward's full words only, and a wiped or
locked one reads 0; an unaligned access is an error without effect. -/
def Obligations.MemoryAccesses : Prop :=
  ∀ (s : State) (m : Master) (addr v : Word) (size : AccSize) (cycle a : Nat), a = addr.toNat → s.Canonical → s.noAccess m = false →
    s.svc.stewDown = false → s.ms.ecc = [] → s.ms.clipBad = [] → s.flt.armed = none →
    ((inMpd a = true ∧ s.domOn (72 + quadOf a) = true) ∨
      (∃ n o, regionOf a = .tile n o ∧ o < 0x20000 ∧ s.domOn n = true ∧ s.domOn (64 + n / 8) = true) →
      (a % size.bytes = 0 →
        (∃ u, exec (.registerWrite m addr size v) s = .next u ∧ u.svc.resp = .ok ∧
          (∀ j, j < size.bytes → u.rdB (a + j) = BitVec.ofNat 8 (v.toNat / 2 ^ (8 * j))) ∧
          (∀ b, (b < a ∨ a + size.bytes ≤ b) → u.rdB b = s.rdB b)) ∧
        (∃ u, exec (.readClear m addr size cycle) s = .next u ∧
          s.Answered u .ok (BitVec.ofNat 32 (leNat (s.rdBytes a size.bytes))))) ∧
      (a % size.bytes ≠ 0 → exec (.registerWrite m addr size v) s = .next (s.respond .error 0) ∧
        exec (.readClear m addr size cycle) s = .next (s.respond .error 0))) ∧
    (regionOf a = .secure →
      (m = .svc ∨ size ≠ .word ∨ a % 4 ≠ 0 → exec (.registerWrite m addr size v) s = .next (s.respond .error 0) ∧
        exec (.readClear m addr size cycle) s = .next (s.respond .error 0)) ∧
      (m = .stew → size = .word → a % 4 = 0 →
        if s.secDead then exec (.registerWrite m addr size v) s = .next (s.respond .ok 0) ∧
          exec (.readClear m addr size cycle) s = .next (s.respond .ok 0)
        else
          (∃ u, exec (.registerWrite m addr size v) s = .next u ∧ u.svc.resp = .ok ∧ u.rd32 a = v ∧
            (∀ b, (b < a ∨ a + 4 ≤ b) → u.rdB b = s.rdB b)) ∧
          exec (.readClear m addr size cycle) s = .next (s.respond .ok (s.rd32 a))))

/-- R541: an access of an unmapped address hangs: a contained fault of SRC 0x0E names the master, XBAR_HANG and
XBAR_HANG_ADDR record the access, nothing is read or written, and a hang of the steward writes a MAJOR record.  R540: an
offset of a tile window from 0x31000 up answers an error, recorded in XBAR_ERR and XBAR_ERR_ADDR. -/
def Obligations.HangsAndDefaultTarget : Prop :=
  ∀ (s : State) (m : Master) (addr v : Word) (size : AccSize) (cycle : Nat), s.Canonical → s.noAccess m = false → s.svc.stewDown = false →
    let code := if m = .stew then 13 else 14
    let hangs (c : Instr) : Prop :=
      ∃ u, exec c s = .next u ∧ u.svc.resp = .hang ∧ u.svc.rdata = 0 ∧ u.mem = s.mem ∧ u.imem = s.imem ∧ u.tiles = s.tiles ∧
        u.flt.raised = s.flt.raised ++ [{ src := 0x0E, unit := code, cls := 1, detail := 0, pass := s.p32 }] ∧
        u.fld aXbarHang 3 0 = code ∧ u.reg aXbarHangAddr = addr ∧
        u.fld aXbarHang 31 16 = min 65535 (s.fld aXbarHang 31 16 + 1) ∧ (m = .svc → u.tly = s.tly)
    let errs (c : Instr) (n : Nat) : Prop :=
      ∃ u, exec c s = .next u ∧ u.svc.resp = .error ∧ u.svc.rdata = 0 ∧ u.fld aXbarErr 3 0 = code ∧ u.fld aXbarErr 5 4 = 0 ∧
        u.fld aXbarErr 10 8 = n / 8 ∧ u.reg aXbarErrAddr = addr ∧ u.fld aXbarErr 31 16 = min 65535 (s.fld aXbarErr 31 16 + 1) ∧
        ({ u with regs := s.regs, svc := s.svc } : State) = s
    hangs (.busHang m addr) ∧
    (m = .svc → exec (.busHang m addr) s = .next ((({ s with flt := { s.flt with
      raised := s.flt.raised ++ [{ src := 0x0E, unit := 14, cls := 1, detail := 0, pass := s.p32 }] } } : State).count aXbarHang 31 16 1
        |>.setFld aXbarHang 3 0 14).setReg aXbarHangAddr addr |>.respond .hang 0)) ∧
    (regionOf addr.toNat = .unmapped → hangs (.registerWrite m addr size v) ∧ hangs (.readClear m addr size cycle)) ∧
    (∀ n o, regionOf addr.toNat = .tile n o → 0x31000 ≤ o →
      errs (.registerWrite m addr size v) n ∧ errs (.readClear m addr size cycle) n)

/-! ## The pass grid and the exchange -/

/-- R31 to R33, R38, R41, R50: at a strobe G and P advance by one, or P takes the value of a pending K; a grid in HOLD may have
been re-anchored at the end of the pass that the strobe ends.  In DORMANT no strobe does anything.  An engine with no unit in
use, in SYNC with PTP time valid, stays in SYNC; a pending K makes its grid SLEW, and the cue levels are sampled. -/
def Obligations.Strobe : Prop :=
  (∀ (s : State) (i : StrobeIn), s.pwr.mode = .dormant → exec (.strobe i) s = .next s) ∧
  (∀ (s : State) (i : StrobeIn), s.grid.ran = true →
    (s.graphRuns = true ∨ ((s.pwr.mode = .service ∨ s.pwr.mode = .sluice) ∧ s.coreOff = false)) →
    let moved (g : Grid) (k : PassIx) : Prop := g.p = k + BitVec.ofNat 48 (s.grid.tick + 1) ∧ g.k = some k
    ∃ u, exec (.strobe i) s = .next u ∧ u.grid.ran = true ∧ u.grid.tick = s.grid.tick + 1 ∧ u.grid.pendingK = none ∧
      (∀ k, s.grid.pendingK = some k → moved u.grid k) ∧
      (s.grid.pendingK = none → (u.grid.p = s.grid.p + 1 ∧ u.grid.k = s.grid.k) ∨ ∃ k, moved u.grid k)) ∧
  ∀ (g : Grid) (t : Nat) (i : StrobeIn), g.ran = true → g.state ≠ .hold → g.fnFade = none → g.pendingRe = false → g.acts = [] →
    let s : State := { State.reset with grid := g, pwr := { State.reset.pwr with mode := .sync }, net := { timeValid := true, ptp := { t := t } } }
    ∃ u, exec (.strobe i) s = .next u ∧ u.grid.tick = g.tick + 1 ∧ u.pwr.mode = .sync ∧ u.cue.raw = i.cue ∧
      (g.pendingK = none → u.grid.p = g.p + 1 ∧ u.grid.k = g.k) ∧
      (∀ k, g.pendingK = some k → u.grid.p = k + BitVec.ofNat 48 (g.tick + 1) ∧ u.grid.k = some k ∧ u.grid.pendingK = none ∧
        u.grid.state = .slew)

/-- R38, R40: anchoring sets K for the next strobe from the PTP time of this strobe, rounded to the nearest pass; after 1,024
passes of small error the grid is ALIGNED without a slew, and SYNC ends the first time. -/
def Obligations.AnchoringAndAligned : Prop :=
  ∀ (s : State),
    (s.grid.state = .free → s.grid.pendingK = none → s.clk.sel = some 3 → s.net.timeValid = true →
      ∃ n : Int, let x := s.strobeTime
        let pass : Int := s.cyc * cycleUnit
        (2 * n - 1) * pass ≤ 2 * x ∧ 2 * x < (2 * n + 1) * pass ∧
        exec .anchoring s = .next { s with grid := { s.grid with pendingK := some (BitVec.ofInt 48 n - BitVec.ofNat 48 s.grid.tick) } }) ∧
    (s.grid.state = .slew → 1024 ≤ s.grid.alignRun →
      let g : Grid := { s.grid with state := .aligned, slewPpm := 0, fnOn := true, alignedAt := s.grid.tick, fnFade := none }
      (s.grid.fnOn = true → s.grid.fnFade = none → exec .aligned s = .next { s with grid := g }) ∧
      (s.grid.fnOn = false → s.scn.deals = [] → s.dom.st ≠ 0 → s.pwr.mode = .sync → s.twin.on = false →
        ∃ u, exec .aligned s = .next u ∧ u.grid = g ∧ u.pwr = { s.pwr with mode := .run } ∧ u.mem = s.mem ∧ u.tiles = s.tiles))

/-- R86 to R89: a descriptor moves its elements and the next one is due; one of COUNT 0 moves nothing.  A plain word goes
from one tile to another, or a zero for it with ZERO_SRC, and no other byte changes. -/
def Obligations.ExchangeDescriptor : Prop :=
  ∀ (s : State) (c : ClusterNo) (d : XDesc) (rest : List XDesc) (a b : Nat), s.Canonical → s.graphRuns = true →
    (s.cluster c).fabricReset = false → s.domOn (64 + c) = true → s.scn.running = none → s.scn.progs = [] → s.scn.backs = [] → s.flt.armed = none →
    s.ms.ecc = [] → s.ms.clipBad = [] →
    (s.cluster c).descs.drop (s.cluster c).next = d :: rest → d.kind ≠ 2 → d.srcRing = false → d.dstRing = false →
    d.pack3 = false → d.unpack3 = false → d.src = a → d.dst = b →
    ∃ u, exec (.exchangeDescriptor c) s = .next u ∧ (u.cluster c).next = (s.cluster c).next + 1 ∧ (∀ m, m ≠ c.val → u.cluster m = s.cluster m) ∧
      u.tiles = s.tiles ∧ u.flt = s.flt ∧
      (d.count = 0 → u.mem = s.mem) ∧
      (d.count = 1 → a % 4 = 0 → b % 4 = 0 → s.xchgReach c a = true → s.xchgReach c b = true → inMpd b = false →
        s.domOn (tileOfAddr b) = true → (inMpd a = true ∨ (s.domOn (tileOfAddr a) = true ∧ (s.tile (tileOfAddr a)).muted = false ∧ (s.tile (tileOfAddr a)).rampK = 0)) →
        u.rd32 b = (if d.zeroSrc then 0#32 else s.rd32 a) ∧ (∀ x, (x < b ∨ b + 4 ≤ x) → u.rdB x = s.rdB x))

/-- R154: once an hour of passes is over, the word LEARNED of a zone gain, at the start of its coefficients (the model's choice,
assumption 123), becomes the lowest estimate of the hour and is journalled for its image and instance; before that the command
does nothing.  The estimate itself stays. -/
def Obligations.LearnedFloor : Prop :=
  ∀ (s : State) (inst : Fin 65536) (r : NodeRec) (im : Image), s.Canonical → s.node inst = some r → s.image = some im → r.type = 0x0C → r.custom = false →
    s.nvm.queue.length < 64 → mwf 0 (s.nodeSt inst).w = true →
    let w := (s.nodeSt inst).w
    let low := mget 0 w 5
    let a := tileBase (8 * r.cluster + r.tile.getD 0) + r.coefAddr
    (mget 0 w 6 < 3600 * s.fs / 64 → exec (.learnedFloor inst) s = .next s) ∧
    (3600 * s.fs / 64 ≤ mget 0 w 6 →
      ∃ u, exec (.learnedFloor inst) s = .next u ∧ u.rd32 a = BitVec.ofInt 32 low ∧ (∀ b, (b < a ∨ a + 4 ≤ b) → u.rdB b = s.rdB b) ∧
        mget 0 (u.nodeSt inst).w 0 = mget 0 w 0 ∧ mget 0 (u.nodeSt inst).w 5 = mget 0 w 0 ∧ mget 0 (u.nodeSt inst).w 6 = 0 ∧
        u.nvm.queue = s.nvm.queue ++ [{ type := 5, data := leBytes 8 im.build ++ leBytes 2 inst ++ leBytes 2 (low % 65536).toNat }] ∧
        (∀ j, j ≠ inst.val → u.nodeSt j = s.nodeSt j) ∧ u.regs = s.regs ∧ u.tiles = s.tiles)

/-! ## Scenes and deals -/

/-- R220, R206: a write of SCN_RECALL asks for a recall that the next pass recognises; in a twin pair only the active twin
takes it, for its acting pass, and relays it. -/
def Sys2Proof.Stated.RecallRequest : Prop :=
  ∀ (s : State) (v : Word),
    let entered (n : Nat) : State := { s with scn := { s.scn with written := s.scn.written ++ [(n + 1, s.recallOf v)] } }
    (s.recallOf v).scene = v.toNat % 1024 ∧ (s.recallOf v).rank = 0 ∧
    ((s.recallOf v).xf = if v.toNat / 2 ^ 16 % 2 ^ 14 = 0x3FFF then none else some (min 10000 (v.toNat / 2 ^ 16 % 2 ^ 14), v.toNat / 2 ^ 10 % 2)) ∧
    exec (.scnRecall v) s = .next
      (if s.twin.on = false then entered s.grid.tick
       else if s.twin.st = .active then (entered s.acting).twinOut (.recall v) else s)

/-- R179, R185, R190, R194: START_PASS runs a staged recall's crossfade program from the back memory, AUDIBLE_START makes its
scene the current one, SWAP_PASS makes the back memory the front and hands the pending recall to the arbiter, and
RECALL_COMPLETE ends it.  (Shown for a recall whose delta set changes the program of one tile and adds, removes and
reconnects nothing, and for a scene that sets no parameter.) -/
def Sys2Proof.Stated.RecallPasses : Prop :=
  ∀ (s : State) (r : Recall) (d : DeltaSet) (p : TilePart) (c : SceneRec), s.Canonical →
    s.sceneRec r.req.scene = some c → c.entries = [] → c.full = false → c.scope = [] →
    let n := 8 * p.cluster + p.tile
    (s.scn.running = some r → s.deltaRun r = some d → d.tiles = [p] → d.added = [] → d.removed = [] → d.xchg = [] → (s.tile n).run ≠ .halted →
      (r.staged = true → r.started = false → r.s0 ≤ s.grid.tick → r.e ≠ r.s0 →
        ∃ u, exec .startPass s = .next u ∧ u.scn = { s.scn with running := some { r with started := true }, replaced := [] } ∧
          (u.tile n).onBack = true ∧ (u.tile n).run = .running ∧ (u.tile n).sf.pc = p.xfEntry ∧ (u.tile n).frontIsB = (s.tile n).frontIsB ∧
          (∀ m, m ≠ n → u.tile m = s.tile m)) ∧
      (r.started = true → r.e ≤ s.grid.tick → p.powerDown = false → r.xfLen = 0 → (∀ y ∈ s.scn.others, y.swapped = false) →
        ∃ u, exec .swapPass s = .next u ∧ (u.tile n).onBack = false ∧ (u.tile n).frontIsB = !(s.tile n).frontIsB ∧
          (u.tile n).sf.pc = p.entry ∧ u.scn.running = none ∧ u.scn.pending = none ∧
          u.scn.recognised = s.scn.recognised ++ s.scn.pending.toList ∧ u.scn.frontTopo = c.topo.getD s.scn.frontTopo ∧
          (∀ m, m ≠ n → u.tile m = s.tile m))) ∧
    (s.scn.running = none → s.scn.others = [r] → r.audible = false → r.fetching = false → r.late = false → r.topo = none → r.s ≤ s.grid.tick →
      exec .audibleStart s = .next { s with scn := { s.scn with current := r.req.scene, others := [{ r with audible := true, last := r.s, live := [] }] } }) ∧
    exec .recallComplete s = .next { s with scn := { s.scn with others := s.scn.others.filter (fun x => !(x.audible && decide (x.last ≤ s.grid.tick))) } }

/-- R179, R185, R190, R194, R206, R220: the request for a scene recall, and the passes of one. -/
def Obligations.Recalls : Prop :=
  Stated.RecallRequest ∧ Stated.RecallPasses

/-- R193, R228: a cold record whose digest is right comes into a free cold slot of the staging area and lets its recall go on,
three passes later when it was late, and wakes no other flash work here; one whose digest is wrong changes no memory and
refuses its recalls; a late fetch is recorded; a damaged hot record refuses the recalls that wait for it and asks the flash
for the record.  (Where a record lies in the staging area is the model's choice, assumption 139.) -/
def Obligations.SceneRecords : Prop :=
  ∀ (s : State) (r : Recall) (scene k : Nat) (o : FlashOp) (im : Image) (errs : List (Nat × Byte)),
    let bs := (s.nvm.misread o.addr errs).fbs o.addr (s.recordAt scene).2.1
    (s.nvm.op = some o → o.use = .coldScene scene → s.nvm.waiting = [] → s.nvm.suspended = none → s.scn.deals = [] →
      s.image = some im → s.isHot scene = false → s.freeSlot = some k →
      s.scn.running = some r → s.scn.others = [] → r.req.scene = scene → r.fetching = true →
      (sha256 bs = (s.recordAt scene).2.2 →
        let d := if r.late = true ∨ r.s0 < s.grid.tick + 3 then s.grid.tick + 3 - r.s0 else 0
        let r' : Recall := { r with fetching := false, s0 := r.s0 + d, s := r.s + d, e := r.e + d, last := r.last + d }
        let u := s.stageWrite im (hotOffset im 1024 + k * coldSize im) bs
        exec (.coldFetch scene errs) s = .next
          { u with nvm := { s.nvm with op := none },
                   scn := { s.scn with coldBusy := false, coldEnd := s.grid.tick + 1, running := some r',
                                       coldSlots := (k, scene) :: s.scn.coldSlots.filter (fun e => e.1 ≠ k) } }) ∧
      (sha256 bs ≠ (s.recordAt scene).2.2 →
        ∃ u, exec (.coldFetch scene errs) s = .next u ∧ u.mem = s.mem ∧ u.scn.running = none ∧ u.scn.coldSlots = s.scn.coldSlots)) ∧
    (s.scn.running = some r → s.scn.others = [] → r.fetching = true → r.late = false → r.s0 ≤ s.grid.tick + 2 →
      exec .coldFetchLate s = .next
        (({ s with scn := { s.scn with running := some { r with late := true } } } : State).event sevMajor scnBase 0 0 0 r.req.scene)) ∧
    (s.isHot scene = true → s.stageBad scene = true → s.scn.running = none → s.nvm.op = some o → o.kind ≠ .erase →
      ∃ u, exec (.hotRecordRefetch scene) s = .next u ∧
        u.nvm.waiting = (s.event sevMajor scnBase 0 0 0 scene).nvm.waiting ++ [{ kind := .read, prio := 1, use := .coldScene scene, addr := (s.recordAt scene).1 }] ∧
        (∀ x ∈ u.scn.others, x.req.scene = scene → x.audible = true) ∧ (∀ x ∈ u.scn.recognised, x.scene ≠ scene))

/-- The engine acts on message `h`, `b` (R503, R504, R506): its interface brings it, the steward runs, the engine has domain settings
and the key it names, its graph runs; MAC, DOMAIN, TIME, VERSION and LENGTH are right, its number is new, and DST includes it. -/
def Sys2Proof.Stated.actedOn (s : State) (h : MsgHdr) (b : MsgBody) : Prop :=
  (h.held = true ∨ (h.link = none ∧ s.portUp (if h.port1 then 1 else 0) = true) ∨
    ∃ k, h.link = some k ∧ msgBytes h b ++ h.mac ∈ (s.link k).inbox) ∧
  s.svc.stewDown = false ∧ s.keyIn h.key1 = true ∧ s.graphRuns = true ∧ s.macOk h b = true ∧ s.timeNear h = true ∧
  (∃ d, s.domSet = some d ∧ h.domain = d.domain) ∧ h.version = 1 ∧ msgLen b ≤ 1024 ∧
  (seqTake (mget none s.dom.windows (2 * h.src.toNat + if h.own then 1 else 0)) h.seq).1 = .fresh ∧ s.dstMine h.dst = true

/-- The state in which the engine acts on a message: taken from its interface, recorded and passed on. -/
def Sys2Proof.Stated.heard (s : State) (h : MsgHdr) (b : MsgBody) : State := (((s.msgIn h b).getD s).domAccept h b).2

/-- R447, R486, R502 to R504, R506, R516, R548: a message that no interface brings changes nothing; one that comes while the steward
restarts waits; an engine without settings, without the key the message names, or without a running graph hears no message; a wrong
MAC, DOMAIN or TIME is counted; of a source and OWN, a number that is newer than the newest, or one of the 1,023 before it that has
not come yet, is accepted once and recorded, and its repetition is counted; DST decides whether the engine acts on it. -/
def Obligations.MessageAcceptance : Prop :=
  ∀ (s : State) (h : MsgHdr) (b : MsgBody) (d : DomainSettings) (k : LinkNo) (f : State → State),
    (s.msgIn h b = none → s.onMsg h b f = s) ∧
    (h.held = true → s.msgIn h b = some s) ∧
    (h.held = false → h.link = none → let p := if h.port1 then 1 else 0
      s.msgIn h b = if s.portUp p then some (s.setRxBuf p ((s.rxBuf p).drop 1)) else none) ∧
    (h.held = false → h.link = some k → let m := msgBytes h b ++ h.mac
      s.msgIn h b = if m ∈ (s.link k).inbox then some (s.setLink k { s.link k with inbox := (s.link k).inbox.erase m }) else none) ∧
    (∀ t, s.msgIn h b = some t → s.svc.stewDown = true →
      s.onMsg h b f = { t with svc := { t.svc with waitMsgs := s.svc.waitMsgs ++ [({ h with held := true }, b)] } }) ∧
    (s.domSet = none → s.domAccept h b = (false, s)) ∧
    (s.keyIn h.key1 = false ∨ s.graphRuns = false → s.domAccept h b = (false, s)) ∧
    (s.domSet = some d → s.keyIn h.key1 = true → s.graphRuns = true →
      (s.macOk h b = false ∨ h.domain ≠ d.domain ∨ s.timeNear h = false → s.domAccept h b = (false, s.authFail)) ∧
      (s.macOk h b = true → h.domain = d.domain → s.timeNear h = true → h.version = 1 → msgLen b ≤ 1024 →
        ∀ (w : SeqWindow) (e : Int), mget none s.dom.windows (2 * h.src.toNat + if h.own then 1 else 0) = some w → e = (h.seq - w.h).toInt →
          ((e ≤ 0 ∧ -1023 ≤ e ∧ h.seq ∈ w.seen) → s.domAccept h b = (false, s.count aDomCntDup 31 16 1)) ∧
          (¬(e ≤ 0 ∧ -1023 ≤ e ∧ h.seq ∈ w.seen) → (s.domAccept h b).1 = s.dstMine h.dst) ∧
          (∀ q, (seqTake (some w) q).1 = .fresh → (seqTake (some (seqTake (some w) q).2) q).1 = .duplicate)))

/-- R199 to R203: a targeted engine stages a deal it can hold, answers READY for a hot scene or LATE for one whose pass has gone, and
starts the fetch of a cold one; it answers NO_SCENE, NO_DELTA or BUSY where it cannot; a deal it has seen within the last 1,024
identifiers, or that targets others, changes nothing.  A cancel in time removes it and is answered CANCELLED, a later one TOO_LATE. -/
def Sys2Proof.Stated.DealsReceived : Prop :=
  ∀ (s : State) (h : MsgHdr) (d : DealMsg) (c : SceneRec) (e : Deal) (id : BitVec 32),
    (actedOn s h (.deal d) →
      let s1 := heard s h (.deal d)
      let p := s1.passOf { sec := d.sec, ns := d.ns }
      let seen : Prop := ∃ x ∈ s1.scn.recentDeals, x.1 = d.id.toNat
      (s1.dealMine d = false ∨ seen → exec (.dealMsg h d) s = .next s1) ∧
      (s1.dealMine d = true → ¬seen →
        (s1.sceneRec d.scene = none → exec (.dealMsg h d) s = .next (s1.dealAck d.id.toNat d.scene 2 p)) ∧
        (s1.sceneRec d.scene = some c →
          (s1.topoWork c = true → s1.deltaOf c = none → exec (.dealMsg h d) s = .next (s1.dealAck d.id.toNat d.scene 3 p)) ∧
          (s1.topoWork c = false ∨ s1.deltaOf c ≠ none → 16 ≤ s1.scn.deals.length →
            exec (.dealMsg h d) s = .next (s1.dealAck d.id.toNat d.scene 4 p)) ∧
          (s1.scn.deals.length < 16 → ∀ q,
            ((s1.topoWork c = false ∧ q = p - 4) ∨
              ∃ l, s1.topoWork c = true ∧ s1.deltaOf c = some l ∧ q = p - BitVec.ofNat 48 (l.preroll + s1.lead (some l))) →
            let gone : Bool := s1.grid.fnOn && decide (passDiff q s1.grid.p < 0)
            let deal : Deal := { id := d.id.toNat, scene := d.scene, priority := d.prio, xf := d.xf, time := { sec := d.sec, ns := d.ns },
                                 s := if gone then none else some p, due := some (if gone then s1.grid.p + 1 else q), staged := c.hot }
            let kept : State := { s1 with scn := { s1.scn with deals := s1.scn.deals ++ [deal],
                                                               recentDeals := recentWith d.id.toNat d.scene p s1.scn.recentDeals } }
            exec (.dealMsg h d) s = .next
              (if c.hot = false then kept.fetchScene d.scene
               else if gone then (kept.event sevMajor scnBase 0 0 0 d.scene).dealAck d.id.toNat d.scene 1 p
               else kept.dealAck d.id.toNat d.scene 0 p))))) ∧
    (actedOn s h (.dealCancel id) →
      let s1 := heard s h (.dealCancel id)
      (s1.scn.deals.find? (fun x => x.id == id.toNat) = some e →
        let early : Prop := e.s.isSome = true ∧ ∃ q, e.due = some q ∧ passDiff s1.grid.p q < 0
        (early → exec (.dealCancel h id) s = .next (({ s1 with scn := { s1.scn with
          deals := s1.scn.deals.filter (fun x => x.id ≠ id.toNat),
          recentDeals := s1.scn.recentDeals.filter (fun x => x.1 != id.toNat) } } : State).dealAck id.toNat e.scene 5 (s1.passOf e.time))) ∧
        (¬early → exec (.dealCancel h id) s = .next (s1.dealAck id.toNat e.scene 6 (s1.passOf e.time)))) ∧
      ((∀ x ∈ s1.scn.deals, x.id ≠ id.toNat) →
        (∀ x, s1.scn.recentDeals.find? (fun x => x.1 == id.toNat) = some x → exec (.dealCancel h id) s = .next (s1.dealAck id.toNat x.2.1 6 x.2.2)) ∧
        ((∀ x ∈ s1.scn.recentDeals, x.1 ≠ id.toNat) → exec (.dealCancel h id) s = .next s1)))

/-- R199, R200, R202, R203: the manager takes an answer off its list, notes READY and records any other; at t − 10 ms it records every
device that has not answered; a deal that is due is entered as a recall of the pass it names, or as a late one. -/
def Sys2Proof.Stated.DealsKept : Prop :=
  ∀ (s : State) (h : MsgHdr) (e : Deal) (id : BitVec 32) (i : IssuedDeal) (scene status : Nat) (p q : PassIx),
    let early (i : IssuedDeal) : Bool := decide (passDiff s.grid.p (s.passOf i.time - BitVec.ofNat 48 (s.fs / 100)) < 0)
    (actedOn s h (.dealAck id scene status p) →
      let s1 := heard s h (.dealAck id scene status p)
      let n := h.src.toNat
      let pair := if (s1.rosterE n).twin = true then n / 2 * 2 else n
      (s1.manages = false ∨ (∀ x ∈ s1.scn.issued, x.id ≠ id.toNat) → exec (.dealAck h id scene status p) s = .next s1) ∧
      (s1.manages = true → s1.scn.issued.find? (fun x => x.id == id.toNat) = some i →
        let i1 : IssuedDeal := { i with targets := i.targets.filter (fun x => x != pair && x != n),
                                        ready := if status = 0 then i.ready ++ [n] else i.ready }
        let t : State := { s1 with scn := { s1.scn with issued := s1.scn.issued.map (fun x => if x.id = id.toNat then i1 else x) } }
        exec (.dealAck h id scene status p) s = .next (if status = 0 then t else t.event sevMajor scnBase 0 0 0 n))) ∧
    (∃ u, exec .dealAckDeadline s = .next u ∧ u.scn = { s.scn with issued := s.scn.issued.filter early }) ∧
    (s.scn.issued = [i] → exec .dealAckDeadline s = .next (if early i then s else
      i.targets.foldl (fun t n => t.event sevMajor scnBase 0 0 0 n) { s with scn := { s.scn with issued := [] } })) ∧
    (let waits (x : Deal) : Bool := s.svc.stewDown || !x.staged || (!s.timed && x.s.isSome) ||
       (match x.due with | some q => decide (passDiff s.grid.p q < 0) | none => true)
     let asked (x : Deal) : RecallReq :=
       { scene := x.scene, priority := x.priority, xf := x.xf, rank := 513, dealId := some x.id,
         dealS := if x.due = some s.grid.p then x.s.map (fun p => (s.tickOf p).toNat) else none }
     (∃ u, exec .dealDue s = .next u ∧ u.scn = { s.scn with
       deals := s.scn.deals.filter waits,
       recognised := s.scn.recognised ++ (s.scn.deals.filter (fun x => !waits x)).map asked }) ∧
     (s.scn.deals = [e] → waits e = false → e.due = some q →
       let t := if passDiff s.grid.p q ≠ 0 ∧ e.s.isSome = true then s.event sevMajor scnBase 0 0 0 e.scene else s
       exec .dealDue s = .next { t with scn := { s.scn with deals := [], recognised := s.scn.recognised ++ [asked e] } }))

/-- R198 to R203: deals received, answered, cancelled, gathered and entered. -/
def Obligations.Deals : Prop :=
  Stated.DealsReceived ∧ Stated.DealsKept

/-! ## Cues -/

/-- R205, R206, R224: a level held for DEBOUNCE + 1 strobes is an edge of the pin's trigger in its direction, once; a pin that
has held for its stale count, a matching domain cue and a stuck status pin recognise their triggers; a trigger acts at the
end of its pass, or in a twin pair at the acting pass of the active twin. -/
def Sys2Proof.Stated.CueTriggers : Prop :=
  ∀ (s : State) (im : Image) (t : Trigger) (pin : Fin 16) (o : Fin 8) (h : MsgHdr) (n level : Nat),
    s.image = some im → im.triggers = [t] →
    let hit (s : State) : State := if s.twin.on = false then { s with cue := { s.cue with hits := s.cue.hits ++ [{ trig := 0 }] } }
      else if s.twin.st = .active then ({ s with cue := { s.cue with relayed := s.cue.relayed ++ [(s.acting, 0)] } } : State).twinOut (.trigger 0)
      else s
    (∀ dir b, t.kind = .pinEdge pin dir b → s.cue.sampled = true → b + 1 ≤ mget 0 s.cue.held pin → s.cue.state.getLsbD pin = s.cue.raw.getLsbD pin → s.cue.stateDue = [] →
      mget 0 s.cue.edge 0 = (if s.cue.raw.getLsbD pin then 1 else 2) →
      let s' : State := { s with cue := { s.cue with edge := mset 0 s.cue.edge 0 (if s.cue.raw.getLsbD pin then 2 else 1) } }
      exec (.cuePinEdge pin) s = .next (if dir = 2 ∨ (dir = 0 ∧ s.cue.raw.getLsbD pin = true) ∨ (dir = 1 ∧ s.cue.raw.getLsbD pin = false) then hit s' else s')) ∧
    (∀ k, t.kind = .pinStale pin k → exec (.cuePinStale pin) s = .next (if mget 0 s.cue.held pin = k + 1 then hit s else s)) ∧
    (let relayed (x : State) (time : Option (Nat × Nat)) : State :=
       if x.manages = true ∧ h.dst = .manager then { x with dom := { x.dom with relays := x.dom.relays ++ [(n, level, time)] } } else x
     (actedOn s h (.cue n level none) → t.kind = .domainCue n →
       exec (.cueMsg h n level none) s = .next (hit (relayed (heard s h (.cue n level none)) none))) ∧
     (∀ sec ns, actedOn s h (.cue n level (some (sec, ns))) → let s2 := relayed (heard s h (.cue n level (some (sec, ns)))) (some (sec, ns))
       exec (.cueMsg h n level (some (sec, ns))) s = .next
         { s2 with cue := { s2.cue with timedCues := s2.cue.timedCues ++ [(n, level, { sec := sec, ns := ns })] } })) ∧
    (t.kind = .statStuck o → mget 0 s.cue.statBad o = 8 →
      exec (.statStuck o) s = .next (hit (((({ s with cue := { s.cue with statBad := mset 0 s.cue.statBad o 9 } } : State).setFlag aCueStatFault o true)).raise
        0x0F o 0 (if s.flag aCueStatOut o then 0 else 1))))

/-- R34, R37, R205, R209: a time trigger fires in the first pass that begins at or after its time, and again after its
period; a timed domain cue fires its trigger in its pass; a pulse that has run drives its pin low. -/
def Sys2Proof.Stated.TimedTriggersAndPulses : Prop :=
  ∀ (s : State) (im : Image) (t : Trigger) (o : Fin 8) (sec period n level : Nat) (p : PtpTime), s.image = some im → im.triggers = [t] →
    (s.timed = true → t.kind = .time sec period → s.cue.timeDone = [] → s.cue.hits = [] → mget 0 s.cue.nextTime 0 = 0 →
      (s.grid.p = BitVec.ofNat 48 (sec * s.fs) →
        exec (.timeTrigger 0) s = .next
          (if period = 0 then { s with cue := { s.cue with hits := [{ trig := 0, time := some { sec := sec, ns := 0 } }], timeDone := [0] } }
           else { s with cue := { s.cue with hits := [{ trig := 0, time := some { sec := sec, ns := 0 } }],
                                             nextTime := mset 0 s.cue.nextTime 0 (1 + (sec + period)) } })) ∧
      (0 < passDiff (BitVec.ofNat 48 (sec * s.fs)) s.grid.p → exec (.timeTrigger 0) s = .next s)) ∧
    (s.timed = true → t.kind = .domainCue n → s.cue.timedCues = [(n, level, p)] → s.cue.hits = [] → s.grid.p = s.passOf p →
      exec .timedCue s = .next { s with cue := { s.cue with timedCues := [], hits := [{ trig := 0 }] } }) ∧
    (∀ x, s.cue.pulses = [x] → x.pin = o.val →
      exec (.pulseEnd o) s = .next (if x.left = 0 then ({ s with cue := { s.cue with pulses := [] } } : State).setFlag aCueStatOut o false else s))

/-- R34, R37, R205, R206, R209, R224: triggers of pins, times and messages, and output pulses. -/
def Obligations.Cues : Prop :=
  Stated.CueTriggers ∧ Stated.TimedTriggersAndPulses

/-! ## Serial ports, microphones, converters -/

/-- R354, R396, R405, R563: who decides: a single engine acts at once; the active twin relays the decision and keeps it for the
acting pass, two passes later, in which it acts like its peer; a standby twin does nothing on its own. -/
def Sys2Proof.Stated.Decisions : Prop :=
  ∀ (s : State) (e : TwinEv) (f : Nat → State → State),
    (s.twin.on = false → s.relay e f = f s.grid.tick s) ∧
    (s.twin.on = true → s.twin.st = .active → s.relay e f = (s.later s.acting (.ev e)).twinOut e ∧ s.grid.tick + 2 ≤ s.acting ∧
      (s.twin.out = [] → s.acting = s.grid.tick + 2)) ∧
    (s.twin.on = true → s.twin.st ≠ .active → s.relay e f = s) ∧
    s.act (.ev e) = s.applyEv e

/-- R355, R356, R366, R416, R697: a write of PORT_CTRL that changes EN is recognised in the pass after it; one that changes
another field outside OFF is refused with CFG_WE.  In the pass that recognises EN, a configured master enters RUNIN and a slave
SEARCH, while a port with an invalid configuration stays OFF; a running port whose EN is 0 fades for 32 passes and then runs the
clock out, and it is no reference any more. -/
def Sys2Proof.Stated.PortSwitching : Prop :=
  ∀ (s : State) (k : PortNo) (v : Word),
    let old := s.reg (aPortCtrl k)
    let w := v &&& (if k.val % 4 = 0 then 0x00000F15#32 else 0x00000F1D#32)
    let t := s.setReg (aPortCtrl k) w
    let allowed : Prop := (s.port k).st = .off ∨ (w ^^^ old) &&& ~~~(0x00000C01#32) = 0
    (v.getLsbD 0 = true → old.getLsbD 0 = false →
      (allowed → exec (.portEnable k v) s = .next (t.later s.nextPass (.portOn k))) ∧
      (¬allowed → exec (.portEnable k v) s = .next (s.setFlag (aPortStat k) 6 true))) ∧
    (v.getLsbD 0 = false → old.getLsbD 0 = true →
      (allowed → exec (.portDisable k v) s = .next (t.later s.nextPass (.portOff k))) ∧
      (¬allowed → exec (.portDisable k v) s = .next (s.setFlag (aPortStat k) 6 true))) ∧
    ((s.port k).st = .off →
      (s.pSlots k = 0 ∨ s.portCfgErr k = true ∨ s.domOn 76 = false → s.act (.portOn k) = s) ∧
      (s.pSlots k ≠ 0 → s.portCfgErr k = false → s.domOn 76 = true → ∃ p, s.act (.portOn k) = s.setPort k p ∧
        if s.pMaster k = true then
          p.st = .runin ∧ p.zeroTo = s.grid.tick + s.fld (aPortTiming k) 11 0 ∧ p.env = Env.restart p.zeroTo
        else p.st = .search ∧ p.found = 0 ∧ p.env = {})) ∧
    (k.val % 4 ≠ 0 → (s.port k).st = .run → s.act (.portOff k) = (s.setPort k
      { s.port k with st := .stopping, env := (s.port k).env.startFade (s.grid.tick + 1),
                      stopAt := s.grid.tick + 32 + s.fld (aPortTiming k) 27 16 }).candStops (8 + k))

/-- R354 to R356, R366, R396, R405, R563, R697: who decides on a port, and switching it on and off. -/
def Obligations.PortDecisions : Prop :=
  Stated.Decisions ∧ Stated.PortSwitching

/-- R352 to R358, R377: the life of a port: the eighth frame of the right length locks a slave into RUNIN, zero data ends in
RAMP, 256 passes of ramp end in RUN, a loss fades it with LOST set, 64 healthy passes ramp it back, a stuck master clock is
reported, and the clock run-out ends in OFF with BCLK at rest and FSYNC inactive. -/
def Sys2Proof.Stated.PortStates : Prop :=
  ∀ (s : State) (k : PortNo) (e : Nat) (fsync level : Bool), s.twin.on = false → s.Canonical →
    let p := s.port k
    (8 ≤ p.found → p.st = .search → s.pMember k = false →
      ∃ q, exec (.portLock k e) s = .next (s.setPort k q) ∧ q.st = .runin ∧ q.zeroTo = s.grid.tick + s.fld (aPortTiming k) 11 0 ∧
        q.lockPhase = e % 2 ^ 14 ∧ q.lost = false ∧ q.nextIn = none) ∧
    (p.st = .runin → exec (.runinEnd k) s = .next (if p.zeroTo ≤ s.grid.tick then s.setPort k { p with st := .ramp } else s)) ∧
    (p.st = .ramp → exec (.portRampEnd k) s = .next (if rampK p.env.ramp s.grid.tick = 256 then s.setPort k { p with st := .run } else s)) ∧
    (p.st = .run → s.pMaster k = false → k.val % 4 ≠ 0 → p.cls = 0 →
      (∀ c, c < 8 → s.srcPort c ≠ k.val) →
      p.refIn + (if s.pAsync k then 131072 else 4 * s.cyc) ≤ (s.grid.tick + 1) * s.cyc →
      ∃ q, exec (.frameLoss k) s = .next ((s.setPort k q).candStops (8 + k)) ∧ q.st = .fade ∧ q.lost = true ∧ q.rate = 0 ∧ q.found = 0 ∧
        q.env = p.env.startFade s.grid.tick) ∧
    (64 ≤ p.healthy → p.lost = false → p.st = .hold →
      exec (.portRecovery k) s = .next (s.setPort k { p with st := .ramp, env := Env.restart s.grid.tick, healthy := 0 })) ∧
    (s.pMaster k = true → 8 ≤ p.bad → p.st = .run → k.val % 4 ≠ 0 →
      exec (.portStuck k fsync level) s = .next ((((s.setPort k { p with lost := true, bad := 0 }).setFlag (aPortStat k) 5 true).raise
        0x0F (0x10 + 2 * k + if fsync then 1 else 0) 0 (if level then 1 else 0)).setPort k
        { p with lost := true, bad := 0, st := .fade, env := p.env.startFade s.grid.tick, healthy := 0, nextIn := none, nextOut := none })) ∧
    (p.st = .stopping → p.restart = false → s.grid.tick < p.stopAt → exec (.portStop k) s = .next s) ∧
    (p.st = .stopping → p.restart = false → p.stopAt ≤ s.grid.tick →
      ∃ u, exec (.portStop k) s = .next u ∧
        (let q := u.port k
         q.st = .off ∧ q.env = {} ∧ q.nextIn = none ∧ q.nextOut = none ∧
          (s.drivesClock k = true → q.bclk = [!s.flag (aPortFrame (s.clockOf k)) 20] ∧
            q.fsync = [some (s.flag (aPortFrame (s.clockOf k)) 18)]) ∧
          (s.drivesClock k = false → q.bclk = [] ∧ q.fsync = [])) ∧
        (k.val % 4 ≠ 0 → u = s.setPort k (u.port k)))

/-- R344, R348, R349, R352, R357, R360, R361, R364, R366: frames of a serial port.  A searching port counts frames of its length; a frame
sent in its window carries the hopper's words of its pass, its data bits on DOUT most significant first from bit period
FS_DELAY + OFFSET of each slot; one outside it is a slip, counted, with a fade; a rate measurement
gives the rate and, when two agree, the class; a released non-audio pair ramps back. -/
def Sys2Proof.Stated.PortFrames : Prop :=
  ∀ (s : State) (k : PortNo) (pair : Fin 16) (e len a cycles : Nat) (agree : Bool) (din : List Bool), s.twin.on = false → s.Canonical →
    let p := s.port k
    let at_ (e : Nat) : Nat := s.grid.tick * s.cyc + e + 1
    (s.pAsync k = false → s.domOn 76 = true → p.st = .search →
      exec (.tdmFrame k false e len agree din) s = .next (s.setPort k
        { p with found := if s.lenOf k len = s.pB k then p.found + 1 else 0, refIn := at_ (s.refOf k false e) })) ∧
    (s.pAsync k = true → p.st ≠ .off → (∀ c, c < 8 → s.srcPort c ≠ k.val) →
      exec (.tdmFrame k false e len agree din) s = .next (s.setPort k
        { p with found := if len = s.pB k then p.found + 1 else 0, refIn := at_ e })) ∧
    (s.pAsync k = false → s.domOn 76 = true → s.pMember k = false → p.st = .run → p.nextOut = some a → s.lenOf k len = s.pB k →
      let r := s.refOf k true e
      let d : Int := (s.grid.tick - a) * s.cyc + r
      (-(3 * s.cyc / 4 : Nat) ≤ d → d < (3 * s.cyc / 4 : Nat) → ∃ ws dout, ws.length = s.pSlots k ∧ dout.length = s.pB k ∧
        exec (.tdmFrame k true e len agree din) s = .next (s.setPort k
          { p with nextOut := some (a + 1), sent := ws, driven := decide (s.fld (aPortCtrl k) 11 10 = 0), dout := dout,
                   fsync := s.fsyncBits k, bclk := s.bclkBits k, refOut := at_ r }) ∧
        (s.fld (aPortCtrl k) 11 10 ≠ 0 → ∀ b ∈ dout, b = none) ∧
        ∀ i, i < s.pSlots k →
          ((s.flag (aPortTxmask k) i = false ∨ s.reg (aPortHopTx k) = 0) → ws[i]? = some 0) ∧
          (∀ h, p.env = { ramp := some h } → h + 256 ≤ a → s.flag (aPortTxmask k) i = true → s.reg (aPortHopTx k) ≠ 0 →
            ws[i]? = some (slotOut (s.pDlen k) (s.getSample (s.pBytes k)
              ((s.reg (aPortHopTx k)).toNat + s.pStride k * (a % 4) + i * s.pBytes k)).toInt)) ∧
          (∀ j, j < s.pDlen k → s.pOffset k + s.pDlen k ≤ s.pSw k → s.fld (aPortCtrl k) 11 10 = 0 →
            s.flag (aPortTxmask k) i = true → s.reg (aPortHopTx k) ≠ 0 →
            dout[i * s.pSw k + s.pOffset k + j]? = some (some (((ws[i]?).getD 0).getLsbD (31 - j))))) ∧
      ((3 * s.cyc / 4 : Nat) ≤ d → k.val % 4 ≠ 0 →
        exec (.tdmFrame k true e len agree din) s = .next (if a ≤ s.grid.tick then (s.count (aPortEvents k) 31 16 1).setPort k
          { p with st := .fade, env := p.env.startFade s.grid.tick, healthy := 0, nextIn := none, nextOut := none, refOut := at_ r }
        else (s.setPort k { p with nextIn := none, nextOut := none, refOut := at_ r }).later a (.ev (.slip k))))) ∧
    (0 < cycles → p.st ≠ .off → s.pAsync k = false →
      ∃ r : Nat, 2 * ((r * cycles : Int) - 1024 * 491520000 * 100).natAbs ≤ cycles ∧
        ∃ u, exec (.rateMeasurement k cycles) s = .next u ∧
          u.port k = { p with rate := r % 2 ^ 25, lastCls := rateClass (r % 2 ^ 25),
                              cls := if rateClass (r % 2 ^ 25) = p.lastCls then rateClass (r % 2 ^ 25) else p.cls } ∧
          (rateClass (r % 2 ^ 25) ≠ p.lastCls ∨ rateClass (r % 2 ^ 25) = p.cls → u = s.setPort k (u.port k))) ∧
    (let n := mget {} p.na pair
     n.act = true → n.span ≤ n.since → exec (.nonAudioRelease k pair) s = .next
       ((s.setPort k { p with na := mset {} p.na pair { since := n.since, env := Env.restart s.grid.tick } }).event
         sevNotice (aPortNa k) (16 + pair) (16 + pair) 0 k))

/-- R348, R349, R352 to R358, R360, R361, R364, R377: the states of a serial port and its frames. -/
def Obligations.Ports : Prop :=
  Stated.PortStates ∧ Stated.PortFrames

/-- R398, R403, R408, R409, R697: a write of SRC_CTRL that changes EN is recognised in the pass after it; one that changes another
field outside OFF is refused with CFG_WE.  In the pass that recognises EN the converter waits for its source, unless it has no
channel or an invalid configuration; a locked one whose EN is 0 fades from the pass after and then is OFF, another is OFF at once;
1,024 passes of small error lock it with a ramp. -/
def Sys2Proof.Stated.ConverterSwitching : Prop :=
  ∀ (s : State) (c : Fin 8) (v : Word), s.twin.on = false → s.Canonical →
    let x := s.src c
    let old := s.reg (aSrcCtrl c)
    let w := v &&& 0x00F1FF01#32
    let t := s.setReg (aSrcCtrl c) w
    let allowed : Prop := x.st = .off ∨ (w ^^^ old) &&& 0xFFFFFFFE#32 = 0
    (v.getLsbD 0 = true → old.getLsbD 0 = false →
      (allowed → exec (.srcEnable c v) s = .next (t.later s.nextPass (.srcOn c))) ∧
      (¬allowed → exec (.srcEnable c v) s = .next (s.setFlag (aSrcStat c) 7 true))) ∧
    (v.getLsbD 0 = false → old.getLsbD 0 = true →
      (allowed → exec (.srcDisable c v) s = .next (t.later s.nextPass (.srcOff c))) ∧
      (¬allowed → exec (.srcDisable c v) s = .next (s.setFlag (aSrcStat c) 7 true))) ∧
    (x.st = .off → s.act (.srcOn c) = if s.srcChans c = 0 ∨ s.srcCfgErr c = true then s else s.setSrc c { st := .wait }) ∧
    (x.st = .locked → s.act (.srcOff c) = s.setSrc c { x with after := some .off, good := 0, env := x.env.startFade (s.grid.tick + 1) }) ∧
    (x.st = .wait ∨ x.st = .acquire → s.act (.srcOff c) = s.setSrc c { x with st := .off, good := 0 }) ∧
    (x.st = .acquire → x.fades s.grid.tick = false → exec (.converterLocked c) s = .next
      (if 1024 ≤ x.good then s.setSrc c { x with st := .locked, env := Env.restart s.grid.tick, good := 0 } else s))

/-- R389 to R394, R697: microphones.  Writes of PDM_CTRL, PDM_MIC_EN and PDM_TRIM are recognised in the pass after them.  EN
starts the clocks and every enabled microphone at the next strobe; clearing it fades them and stops the clocks after 32 passes; a
microphone that its bit enables settles S passes with a cleared chain and ramps in; stuck data or a stuck clock fades it and is
reported; TRIM restarts it. -/
def Sys2Proof.Stated.MicrophoneSwitching : Prop :=
  ∀ (s : State) (m : MicNo) (i : Fin 4) (clk : Fin 2) (level : Bool) (v : Word) (wake : Nat), s.twin.on = false → mwf {} s.pdm.mics = true → s.Canonical →
    let c := s.mic m
    let one : Word := 1#32 <<< m.val
    let n := s.grid.tick
    let alone : Prop := ∀ j, j ≠ m.val → s.mic j = {}
    let startable : Prop := s.flag aPdmMicEn m = true ∧ s.flag aPdmCtrl (4 + micClk m) = true ∧ s.pdmCfgErr = false
    let runs : Prop := s.pdm.en = true ∧ s.pdm.stopAt = none
    let stops : Mic := if c.st = .settle ∨ c.st = .hold then {} else { c with stopping := true, env := c.env.startFade (n + 1) }
    let settles : Mic :=
      let h := n - 1 + s.settleS m + wake
      { st := .settle, settleTo := h, env := Env.restart h, trim := List.replicate (s.micTrim m) false,
        integ := List.replicate s.pdmN 0, comb := List.replicate s.pdmN 0 }
    (v.getLsbD 0 = true → s.flag aPdmCtrl 0 = false → s.pdm.stopAt = none →
      exec (.pdmEnable v) s = .next ((s.setReg aPdmCtrl (v &&& 0x0000FFFF#32)).later s.nextPass .pdmOn)) ∧
    (v.getLsbD 0 = false → s.flag aPdmCtrl 0 = true → ((v &&& 0x0000FFFF#32) ^^^ s.reg aPdmCtrl) &&& ~~~(0x000000C1#32) = 0 →
      exec (.pdmDisable v) s = .next ((s.setReg aPdmCtrl (v &&& 0x0000FFFF#32)).later s.nextPass .pdmOff)) ∧
    (s.flag aPdmMicEn m = false → v = (s.reg aPdmMicEn &&& 0x0000FFFF#32) ||| one →
      exec (.micEnable v) s = .next ((s.setReg aPdmMicEn v).later s.nextPass (.micOn m))) ∧
    (s.flag aPdmMicEn m = true → s.reg aPdmMicEn = v ||| one → v &&& (one ||| 0xFFFF0000#32) = 0 →
      exec (.micDisable v) s = .next ((s.setReg aPdmMicEn v).later s.nextPass (.micOff m))) ∧
    (m.val / 4 = i.val → alone → c.st ≠ .off →
      exec (.trimWrite i v) s = .next ((s.setReg (aPdmTrim i) v).later s.nextPass (.micAgain m))) ∧
    (s.pdmCfgErr = true ∨ s.domOn 76 = false → s.act .pdmOn = s) ∧
    (startable → s.domOn 76 = true → s.pdm.en = false → s.reg aPdmMicEn = one →
      s.act .pdmOn = ((({ s with pdm := { s.pdm with en := true, clkFrom := n, stopAt := none } } : State).later (n + 1) .pdmClk).later
        (n + 1) (.micGo m (16 * s.fld aPdmCtrl 15 8)))) ∧
    (s.pdm.en = true → s.act .pdmClk = { s with pdm := { s.pdm with clkRun := BitVec.ofNat 2 (s.fld aPdmCtrl 5 4) } }) ∧
    (runs → alone → c.st ≠ .off →
      s.act .pdmOff = ({ s with pdm := { s.pdm with stopAt := some (n + 32) } } : State).setMic m stops) ∧
    (startable → runs →
      s.act (.micOn m) = s.later (n + 1) (.micGo m (if n = s.pdm.clkFrom then 16 * s.fld aPdmCtrl 15 8 else 0)) ∧
      (c.st ≠ .off → s.act (.micAgain m) = s.act (.micOn m)) ∧ s.act (.micGo m wake) = s.setMic m settles) ∧
    (c.st ≠ .off → s.act (.micOff m) = s.setMic m stops) ∧
    (c.st = .settle → exec (.settleEnd m) s = .next (if c.settleTo ≤ n then s.setMic m { c with st := .ramp } else s)) ∧
    (c.st = .run → c.stuck = false → c.stopping = false → 1024 ≤ c.run → (∀ e ∈ s.grid.acts, e.2 ≠ .ev (.micStuck m)) →
      exec (.pdmDataStuck m) s = .next ((s.setMic m { c with stuck := true, st := .fade, env := c.env.startFade n, healthy := 0 }).raise
        0x0F (0x40 + m) 0 (if c.last then 1 else 0))) ∧
    (c.stuck = true → c.clkHeld = false → 64 ≤ c.healthy → (∀ e ∈ s.grid.acts, e.2 ≠ .ev (.micBack m)) →
      exec (.pdmDataRecovery m) s = .next (s.setMic m { c with st := .ramp, stuck := false, healthy := 0, env := Env.restart n })) ∧
    (8 ≤ mget 0 s.pdm.clkBad clk → s.pdm.clkStuck.getLsbD clk = false → micClk m = clk.val → c.st = .run → c.stopping = false → alone →
      exec (.pdmClkStuck clk level) s = .next (((({ s with pdm := { s.pdm with clkStuck := s.pdm.clkStuck ||| (1#2 <<< clk.val) } } : State).setFlag
        aPdmStat (4 + clk) true).setMic m { c with st := .fade, env := c.env.startFade n, healthy := 0, clkHeld := true }).raise
        0x0F (0x50 + clk) 0 (if level then 1 else 0))) ∧
    (8 ≤ mget 0 s.pdm.clkGood clk → s.pdm.clkStuck.getLsbD clk = true → micClk m = clk.val → c.clkHeld = true → alone → startable → runs → n ≠ s.pdm.clkFrom →
      exec (.pdmClkRecovery clk) s = .next (({ s with pdm := { s.pdm with clkStuck := s.pdm.clkStuck &&& ~~~(1#2 <<< clk.val) } } : State).later
        (n + 1) (.micGo m 0)))

/-- R389 to R394, R398, R403, R408, R697: sample-rate converters and microphones. -/
def Obligations.ConvertersAndMicrophones : Prop :=
  Stated.ConverterSwitching ∧ Stated.MicrophoneSwitching

/-! ## Clocks -/

/-- R416, R418 to R422: reference candidates.  Two measurement blocks in a row within WVALID of a link in SYNC make its candidate
valid, one outside or a lost edge makes a candidate invalid; losing the current reference with AUTO 0 leaves none, in HOLDOVER with
a valid history and FREE without one; a higher entry valid for WTR seconds is taken; the list, recognised in the pass after its
write, selects its highest valid entry, and the crystal locks a pass later; COUNT periods within WIN lock, and four outside it
lose the lock, counted. -/
def Sys2Proof.Stated.ReferenceSelection : Prop :=
  ∀ (s : State) (code : Fin 20) (entry : Fin 8) (cycles i c : Nat) (e : Int) (v : Word) (second : Bool), s.Canonical → s.twin.on = false →
    let w := s.fld aClkCtrl 3 2
    let ppm := if w = 0 then 20 else if w = 1 then 100 else if w = 2 then 500 else 1000
    let good : Prop := ((cycles : Int) - 256 * s.refD code).natAbs * 1000000 ≤ ppm * (256 * s.refD code) ∧ (s.link (code.val - 4)).st = 2
    let old := s.cand code
    let noted (x : Cand) : State := { s with clk := { s.clk with cands := mset {} s.clk.cands code x } }
    let loses (c : Instr) : Prop :=
      ∃ u, exec c s = .next u ∧ u.clk.sel = none ∧ u.clk.st = (if s.clk.hist then .holdover else .free) ∧ u.clk.cands = mset {} s.clk.cands code {} ∧
        u.clk.goal = (if s.clk.hist then s.clk.fhold else s.clk.goal) ∧ u.clk.fref = s.clk.fref ∧
        u.fld aClkEvents 31 16 = min 65535 (s.fld aClkEvents 31 16 + 1)
    let takes (t u : State) (i c : Nat) : Prop :=
      if t.clk.sel = some c then u = { t with clk := { t.clk with entry := i } }
      else u.clk.sel = some c ∧ u.clk.entry = i ∧ u.clk.origin = true ∧ u.clk.pherr = 0 ∧ u.clk.fref = t.clk.fref ∧
        (if c = 0 then u.clk.st = t.clk.st ∧ (t.grid.tick + 1, Act.crystal) ∈ u.grid.acts else u.clk.st = .acquire) ∧
        u.fld aClkEvents 31 16 = min 65535 (t.fld aClkEvents 31 16 + 1)
    (4 ≤ code.val → code.val < 8 →
      (good → old.valid = false → old.blocks = 0 → s.clk.sel ≠ some code.val →
        exec (.refBlockEnd code cycles) s = .next (noted { blocks := 1, since := s.grid.tick })) ∧
      (good → old.valid = false → 1 ≤ old.blocks → s.clk.sel.isSome = true → s.clk.sel ≠ some code.val →
        exec (.refBlockEnd code cycles) s = .next (noted { blocks := 2, valid := true, since := s.grid.tick })) ∧
      (¬good → s.clk.sel ≠ some code.val → exec (.refBlockEnd code cycles) s = .next (noted {})) ∧
      (¬good → old.valid = true → s.clk.sel = some code.val → s.refAuto = false → loses (.refBlockEnd code cycles))) ∧
    (code.val ≠ 0 → code.val ≠ 3 →
      (s.clk.sel ≠ some code.val → exec (.refEdgeLoss code) s = .next (noted {})) ∧
      (s.clk.sel = some code.val → s.refAuto = false → loses (.refEdgeLoss code))) ∧
    (s.clk.sel.isSome = true → s.refList[entry.val]? = some c →
      if s.fld aClkCtrl 31 24 ≠ 0 ∧ entry.val < s.clk.entry ∧ s.candValid c = true ∧ (s.cand c).since + s.fld aClkCtrl 31 24 * s.fs ≤ s.grid.tick then
        ∃ u, exec (.wtrExpiry entry) s = .next u ∧ takes s u entry c
      else exec (.wtrExpiry entry) s = .next s) ∧
    (exec (.refPrioWrite second v) s = .next
      ((s.setReg (if second then aClkRefPrio1 else aClkRefPrio0) (v &&& 0x1F1F1F1F#32)).later s.nextPass .refList)) ∧
    (let t : State := { s with clk := { s.clk with listed := true } }
     (t.refList ≠ [] → t.refAuto = true → t.bestRef = some (i, c) → takes t (s.act .refList) i c) ∧
     (t.refList = [] → (s.act .refList).clk.sel = none ∧ (s.act .refList).clk.st = .free)) ∧
    (if s.clk.sel = some 0 then (s.act .crystal).clk.st = .locked else s.act .crystal = s) ∧
    (s.clk.st = .acquire → e.natAbs ≤ s.lockWin → s.periodsMay s.lockCount s.clk.good = true →
      ∃ u, exec (.clockLock e) s = .next u ∧ u.clk.st = .locked ∧ u.clk.pherr = e ∧ u.clk.sel = s.clk.sel ∧ u.clk.good = 0 ∧
        u.pwr.mode = (if s.pwr.mode = .sync ∧ s.inDomain = false then .run else s.pwr.mode)) ∧
    (s.clk.st = .locked → s.clk.sel ≠ some 0 → s.lockWin < e.natAbs → s.periodsMay 4 s.clk.bad = true →
      ∃ u, exec (.lockLoss e) s = .next u ∧ u.clk.st = .acquire ∧ u.clk.pherr = e ∧ u.clk.sel = s.clk.sel ∧ u.clk.means = [] ∧
        u.fld aClkEvents 15 0 = min 65535 (s.fld aClkEvents 15 0 + 1) ∧ u.pwr = s.pwr)

/-- R424, R430, R431, R434: the averages of holdover, its limit, the divider synchronisation and the clock monitors.  An armed
synchronisation by time has its instant fixed at the strobe of its pass, or, late, at one after it; one by the SYNC pin at the
edge; at the instant every output of MASK realigns and DONE is set.  (How the mean of the passes is rounded to a whole word is
free.) -/
def Sys2Proof.Stated.HoldoverAndOutputs : Prop :=
  ∀ (s : State) (v : Word) (rising late : Bool) (cycle count p c : Nat) (total : Int), s.Canonical →
    (s.clk.st = .locked → s.clk.second = some total → s.fld aClkCtrl 17 16 = 0 →
      ∃ (m : Int) (k : Nat), (m * s.fs - total).natAbs < s.fs ∧
        exec .holdoverAverage s = .next { s with draws := k, clk := { s.clk with means := [m], second := none, fhold := m, hist := true } }) ∧
    (s.clk.st = .holdover → exec .holdoverLimit s = .next
      (if s.fld aClkHold 31 16 ≠ 0 ∧ s.fld aClkHold 31 16 ≤ s.fld aClkHold 15 0 ∧ s.clk.hexp = false then
        ({ s with clk := { s.clk with hexp := true } } : State).event sevMajor aClkRefState 2 2 1 0 else s)) ∧
    (let t := s.setReg aClkCtrl (v &&& 0xFF030F3D#32)
     exec (.clkCtrlWrite v) s = .next (if v &&& 0x00030000#32 = s.reg aClkCtrl &&& 0x00030000#32 then t
       else { t with clk := { s.clk with hist := false, means := [], sum := 0, passes := 0, second := none } })) ∧
    (v.getLsbD 31 = true → exec (.syncArm v) s = .next
      { s.setReg aClkSync ((v &&& 0x090000FF#32) ||| (s.reg aClkSync &&& ~~~v &&& 0x60000000#32)) with
        clk := { s.clk with armed := true, syncFrom := s.nextPass, syncAt := none } }) ∧
    (rising ≠ s.flag aClkSync 27 → (∀ k, k < 4 → s.fld (aClkFrmo k) 25 24 ≠ 1) →
      exec (.syncInEdge rising cycle) s = .next
        (if s.clk.armed = true ∧ s.flag aClkSync 24 = false ∧ s.clk.syncAt = none ∧ s.clk.syncFrom ≤ s.grid.tick then
          { s with clk := { s.clk with syncAt := some (s.grid.tick, cycle + s.fld aClkSyncDly 15 0, false) } } else s)) ∧
    (rising = s.flag aClkSync 27 → exec (.syncInEdge rising cycle) s = .next s) ∧
    (let due := passOfTime s.fs ((s.reg aClkSyncTsHi).toNat * 2 ^ 32 + (s.reg aClkSyncTsLo).toNat) (min 999999999 (s.fld aClkSyncTns 29 0))
     let d := (BitVec.ofNat 48 due - s.grid.p).toInt
     let may : Prop := if s.inDomain then s.grid.state = .aligned else s.graphRuns = true
     s.clk.armed = true → s.flag aClkSync 24 = true → s.clk.syncAt = none →
      (¬may ∨ 0 < d ∨ s.grid.tick < s.clk.syncFrom ∨ (d < 0 ∧ s.grid.tick ≤ max s.clk.syncFrom s.grid.alignedAt) → s.syncStrobe = s) ∧
      (may → s.clk.syncFrom ≤ s.grid.tick → (d = 0 ∨ (d < 0 ∧ max s.clk.syncFrom s.grid.alignedAt < s.grid.tick)) →
        s.syncStrobe = { s with clk := { s.clk with syncAt := some (s.grid.tick, s.fld aClkSyncDly 15 0, decide (d < 0)) } })) ∧
    (s.clk.armed = false ∨ s.clk.syncAt = none → exec .dividerSync s = .next s) ∧
    (s.clk.armed = true → s.clk.syncAt = some (p, c, late) →
      (s.grid.tick < p + c / s.cyc → exec .dividerSync s = .next s) ∧
      (p + c / s.cyc ≤ s.grid.tick → mwf {} s.clk.outs = true →
        let at_ : Int := s.strobeCyc + ((p : Int) - s.grid.tick) * s.cyc + c
        ∃ u, exec .dividerSync s = .next u ∧ u.clk.armed = false ∧ u.clk.syncAt = none ∧ u.flag aClkSync 30 = true ∧
          u.flag aClkSync 29 = (s.flag aClkSync 29 || late) ∧
          ∀ o, o < 8 → u.out o = if o ∈ s.syncOuts then (s.out o).realign (outTime (s.out o).onRef at_) (outTime (s.out o).onRef at_) else s.out o)) ∧
    (s.flt.armed = none →
      exec (.refMonitor count) s = .next (if 480 < ((count : Int) - 24000).natAbs then s.raise 0x07 0 2 0 else s) ∧
      exec .coreLockLoss s = .next (s.raise 0x08 0 2 0) ∧
      exec (.coreFrequency count) s = .next
        (if 2 * 2 ^ 40 < (((count : Int) - 5120) * 2 ^ 40 - 5120 * s.clk.f).natAbs then s.raise 0x08 0 2 0 else s) ∧
      exec .netLockLoss s = .next (s.raise 0x09 0 1 0))

/-- R427, R428, R676: what keeps an output clock from starting: an MCLK whose DIV is 0 or 1, whose frequency is above its format's
largest, or whose LVCMOS level is not the class of VDDIO_E; a frame pulse whose WIDTH or OFFSET does not fit its PERIOD, or whose
PERIOD, under SLEW, does not divide M passes. -/
def Sys2Proof.Stated.OutputErrors : Prop :=
  ∀ (s : State) (k : Nat), k < 4 →
    (let v := s.reg (aClkMclk k)
     let d := bits v 11 0
     let f := bits v 13 12
     let hz : Nat := if v.getLsbD 25 then 24576000 else 491520000
     let most : Nat := if f = 1 then 100000000 else if f = 2 then 50000000 else 250000000
     s.outCfgErr k = true ↔ d < 2 ∨ (f ≠ 0 ∧ d * most < hz) ∨ (f = 1 ∧ s.pwr.bankCls.getLsbD 2 = true) ∨ (f = 2 ∧ s.pwr.bankCls.getLsbD 2 = false)) ∧
    (let p := s.fld (aClkFrmoPeriod k) 28 0
     let w := s.fld (aClkFrmoWidth k) 28 0
     let m := s.fld (aClkFrmoM k) 23 0
     s.outCfgErr (4 + k) = true ↔ w = 0 ∨ p ≤ w ∨ p ≤ s.fld (aClkFrmoOffset k) 28 0 ∨
       (s.fld (aClkFrmo k) 25 24 = 0 ∧ (if m = 0 then 1 else m) * s.cyc % p ≠ 0))

/-- R416, R418 to R422, R424, R427, R428, R430, R431, R434, R676: references, holdover and the clock outputs. -/
def Obligations.ClockTree : Prop :=
  Stated.ReferenceSelection ∧ Stated.HoldoverAndOutputs ∧ Stated.OutputErrors

/-! ## Ethernet, time and streams -/

/-- The state with a message sent on port `q`: its frame leaves in this pass with a right check sequence. -/
def Sys2Proof.Stated.sent (s : State) (m : NetMsg) (q : Nat) : State :=
  { s with net := { s.net with out := s.net.out ++ [{ port := q, msg := m, bytes := s.msgFrame m q, fcsOk := true }] } }

/-- R443 to R447, R471 to R473: the link layer: link status, a port that is not up, the check of received frames, the receive
buffer and its overflow, forwarding, the duplicate check, management frames, ARP, echo and membership answers, supervision frames
and the ageing of the node table. -/
def Obligations.EthernetFrames : Prop :=
  ∀ (s : State) (one up half : Bool) (speed : Fin 3) (f : EthFrame) (v group : Word) (ask : ArpAsk) (ping : EchoAsk) (data : BitVec 16)
    (q : BitVec 16) (e : NodeEntry) (src ms : Nat), s.Canonical →
    let p := if one then 1 else 0
    let quiet : Prop := s.flt.safe = false ∧ s.flt.armed = none
    let took := s.setRxBuf p ((s.rxBuf p).drop 1)
    let store (t : State) : State :=
      if 262144 < (t.rxBuf p).sum + f.len then t.count (aNetRxdrop p) 31 16 1 else t.setRxBuf p (t.rxBuf p ++ [f.len])
    let heard : Prop := s.portUp p = true ∧ f.len ≤ 1522
    (∃ u, exec (.linkStatus one up half speed) s = .next u ∧ u.fld aNetStat (8 * p + 1) (8 * p) = speed ∧
      u.flag aNetStat (8 * p + 2) = (up && !half) ∧ u.flag aNetStat (8 * p + 3) = (up && half) ∧
      (∀ b, b / 4 ≠ 2 * p → u.flag aNetStat b = s.flag aNetStat b) ∧ (∀ a, a ≠ aNetStat → u.reg a = s.reg a) ∧ ({ u with regs := s.regs } : State) = s) ∧
    (s.portUp p = false → exec (.ethFrame one f) s = .next s ∧ exec (.arpRequest one ask) s = .next s ∧
      exec (.echoRequest one ping) s = .next s ∧ exec (.igmpQuery one group ms) s = .next s) ∧
    (heard → f.fcsOk = false → exec (.ethFrame one f) s = .next ((s.count (aNetRxdrop p) 15 0 1).raise 0x06 p 0 0)) ∧
    (heard → f.fcsOk = true → s.netMode ≤ 1 → exec (.ethFrame one f) s = .next (if f.mine = true ∧ f.known = true then store s else s)) ∧
    (heard → f.fcsOk = true → s.netMode = 2 → s.ownFrame f = false → f.ptpEvent = false → f.mine = false → quiet → s.portUp (1 - p) = true →
      exec (.ethFrame one f) s = .next (if f.unicast = true then s else Stated.sent s (.forward f) (1 - p))) ∧
    (heard → f.fcsOk = true → s.netMode = 3 → f.red = some q → f.supervision = false → f.mine = true → f.known = true →
      (s.net.nodes = [] → exec (.ethFrame one f) s = .next
        (store { s with net := { s.net with nodes := [{ src := f.src, h := q, seqs := [q], fwd := [], last := s.grid.tick }] } })) ∧
      (s.net.nodes = [e] → e.src = f.src → q ∈ e.seqs → (e.h - q).toNat < 1024 → exec (.ethFrame one f) s = .next
        (({ s with net := { s.net with nodes := [{ e with last := s.grid.tick }] } } : State).count aNetDup 31 16 1))) ∧
    (heard → f.fcsOk = true → s.netMode = 4 → f.red = some q → s.ownFrame f = true → exec (.ethFrame one f) s = .next s) ∧
    (v.getLsbD 31 = true → exec (.mdioGo v) s = .next (if s.flag aNetMdio 31 then s else s.setReg aNetMdio (v &&& 0xFFF0FFFF#32))) ∧
    (s.flag aNetMdio 31 = true → exec (.mdioDone data) s = .next
      (if s.flag aNetMdio 30 then s.setFlag aNetMdio 31 false else (s.setFld aNetMdio 15 0 data.toNat).setFlag aNetMdio 31 false)) ∧
    (s.portUp p = true →
      (quiet → s.netMode ≤ 2 →
        exec (.arpRequest one ask) s = .next (if ask.target = s.reg aNetIp then Stated.sent took (.arp ask) p else took) ∧
        exec (.echoRequest one ping) s = .next (if ping.target = s.reg aNetIp then Stated.sent took (.echo ping) p else took)) ∧
      exec (.igmpQuery one group ms) s = .next (if s.joined group then
        { took with net := { took.net with reports := s.net.reports ++ [(p, group, s.grid.tick + (s.reg aNetIp).toNat % 100 * ms * s.fs / 100000, true)] } } else took)) ∧
    (s.netMode = 3 → s.portUp 0 = true → s.portUp 1 = true → quiet →
      let m : NetMsg := .supervision s.net.supSeq
      let frame (j : Nat) : NetTx := { port := j, msg := m, bytes := s.msgFrame m j }
      exec .supervisionFrame s = .next (if s.net.sentSup + 2 * s.fs ≤ s.grid.tick then
        { s with net := { s.net with sentSup := s.grid.tick, supSeq := (s.net.supSeq + 1) % 65536, redSeq := (s.net.redSeq + 1) % 65536,
                                     out := s.net.out ++ [frame 0, frame 1] } } else s)) ∧
    (∃ u, exec (.nodeEntryExpiry src) s = .next u ∧ ({ u with net := { u.net with nodes := s.net.nodes } } : State) = s ∧
      ∀ x, x ∈ u.net.nodes ↔ x ∈ s.net.nodes ∧ ¬(x.src = src ∧ x.last + 60 * s.fs ≤ s.grid.tick))

/-- R450, R451, R453, R456 to R458: PTP messages received on a port that is up, in the clock's own domain and transport: what the
clock keeps of a Sync, a Follow_Up, a Delay_Resp and an Announce; the offset of a one-step Sync and its step or servo update; the
answer to a Delay_Req.  (How a servo product is rounded is free.) -/
def Sys2Proof.Stated.PtpReception : Prop :=
  ∀ (s : State) (one : Bool) (cycle stay corr : Int) (sec ns : Nat) (src : PtpFrom) (seq : PtpSeq) (reply : PtpReply) (d : AnnData)
    (r : SyncRec) (rq : ReqRec) (b dd : Int), s.Canonical → s.flag aPtpCtrl 15 = false → s.tly.mons = [] →
    let p := if one then 1 else 0
    let x := s.net.ptp
    let dom := s.fld aPtpCtrl 30 24
    let took := s.setRxBuf p ((s.rxBuf p).drop 1)
    let with_ (f : Ptp → Ptp) : State := { took with net := { took.net with ptp := f x } }
    let t : Int := ((sec : Int) * 1000000000 + ns) * 2 ^ 16
    let t2 := s.ptpAt16 cycle - sbits (s.reg (aPtpCor p)) 15 0 * 2 ^ 16
    let hears (eth : Bool) : Prop := s.portUp p = true ∧ x.port = p ∧ s.ptpRole ≠ 0 ∧ eth = s.flag aPtpCtrl 8
    (hears src.eth → (x.st = 8 ∨ x.st = 9) → x.gm.map (fun g => g.sender) = some src.id → x.req = none →
      exec (.ptpSync one dom cycle stay seq.seq src true sec ns corr) s = .next
        (with_ (fun x => { x with sync := some { seq := seq.seq, src := src.id, t1 := none, t2 := t2, c1 := corr }, lastSync := s.grid.tick })) ∧
      (x.d = none → exec (.ptpSync one dom cycle stay seq.seq src false sec ns corr) s = .next
        (with_ (fun x => { x with sync := some { seq := seq.seq, src := src.id, t1 := some t, t2 := t2, c1 := corr }, lastSync := s.grid.tick }))) ∧
      (x.d = some dd → s.clk.sel ≠ some 3 →
        let o := t2 - t - corr - dd - (s.reg (aPtpAsym p)).toInt
        let limit : Int := (max 1 (s.fld aPtpLimits 31 16) * 1000 * 2 ^ 16 : Nat)
        ∃ u, exec (.ptpSync one dom cycle stay seq.seq src false sec ns corr) s = .next u ∧ u.net.ptp.off = o ∧
          (x.st = 8 → s.net.timeValid = false → limit < o.natAbs → u.net.ptp.step = some (-(o * 2 ^ 16)) ∧ u.net.ptp.i = x.i) ∧
          ((o.natAbs : Int) ≤ limit → u.net.timeValid = s.net.timeValid ∧ u.net.ptp.step = x.step ∧ u.net.ptp.st = x.st ∧
            u.net.ptp.ok = (if o.natAbs ≤ max 1 (s.fld aPtpLimits 15 0) * 2 ^ 16 then min 16 (x.ok + 1) else 0) ∧
            ∃ kp ki : Int, (kp * 2 ^ 16 - s.fld aPtpServo 31 16 * o).natAbs < 2 ^ 16 ∧ (ki * 2 ^ 16 - s.fld aPtpServo 15 0 * o).natAbs < 2 ^ 16 ∧
              u.net.ptp.wNext = some (max (-549755813) (min 549755813 (x.i - kp))) ∧
              u.net.ptp.i = max (-549755813) (min 549755813 (x.i - ki))))) ∧
    (hears seq.src.eth → x.sync = some r → r.seq = seq.seq → r.src = seq.src.id → r.t1 = none → x.d = none → x.req = none →
      exec (.followUp one dom seq sec ns corr) s = .next (with_ (fun x => { x with sync := some { r with t1 := some t, c1 := r.c1 + corr } }))) ∧
    (hears reply.src.eth → x.req = some rq → rq.basis = some b → rq.seq = reply.seq → reply.req = s.portId p →
      x.gm.map (fun g => g.sender) = some reply.src.id → b + (t - rq.t3 - corr) = 2 * dd →
      (dd < 0 → exec (.delayResp one dom reply sec ns corr) s = .next (with_ (fun x => { x with req := none }))) ∧
      (0 ≤ dd → x.d = none → x.samples = [] →
        exec (.delayResp one dom reply sec ns corr) s = .next (with_ (fun x => { x with req := none, samples := [dd], d := some dd })))) ∧
    (hears seq.src.eth → s.flt.safe = false → s.flt.armed = none → x.st = 6 →
      exec (.delayReq one dom cycle stay seq corr) s = .next (Stated.sent took (.delayResp seq.seq seq.src.id t2 corr) p)) ∧
    (s.portUp p = true → s.ptpRole = 0 → exec (.announceMsg one dom d) s = .next took) ∧
    (s.portUp p = true → s.ptpRole = 1 → d.eth = s.flag aPtpCtrl 8 → d.gm ≠ s.clkId → x.foreigns = [] → ∃ u, exec (.announceMsg one dom d) s = .next u ∧
      u.net.ptp.foreigns = [{ data := d, port := p, last := s.grid.tick, prev := none }] ∧ u.net.ptp.gm = x.gm ∧ u.net.ptp.st = x.st) ∧
    (∀ g : Foreign, hears d.eth → s.ptpRole = 1 → d.gm ≠ s.clkId → x.foreigns = [g] → g.port = p → g.data.sender = d.sender →
      s.grid.tick ≤ g.last + 4 * s.annPasses → x.gm = none → x.st = 4 →
      ∃ u, exec (.announceMsg one dom d) s = .next u ∧ u.net.ptp.gm = some d ∧ u.net.ptp.st = 8 ∧ u.net.ptp.i = s.clk.f ∧ u.net.ptp.d = x.d)

/-- R451, R454, R456, R458, R459, R461, R462: the clock's own events: time becoming valid and invalid, the change of port, the
messages it sends in their intervals, a written time, reads of the time and captures. -/
def Sys2Proof.Stated.PtpEvents : Prop :=
  ∀ (s : State) (v : Word) (k : Fin 4) (falling : Bool) (cycle : Nat) (c : Int × Int) (r : SyncRec) (t1 : Int), s.Canonical →
    let x := s.net.ptp
    let at_ (p : Nat) (c : Int) := s.ptpAt16 c + sbits (s.reg (aPtpCor p)) 31 16 * 2 ^ 16
    let sends : Prop := s.netMode ≤ 2 ∧ x.port ≤ 1 ∧ s.portUp x.port = true ∧ s.flt.safe = false ∧ s.flt.armed = none
    let twice : Prop := (s.netMode = 3 ∨ s.netMode = 4) ∧ s.portUp 0 = true ∧ s.portUp 1 = true ∧ s.flt.safe = false ∧ s.flt.armed = none
    let with_ (f : Ptp → Ptp) : State := { s with net := { s.net with ptp := f x } }
    let gone (p : Nat) : Prop := mget 0 x.lastAnn p + s.annTimeout ≤ s.grid.tick + 1
    (16 ≤ x.ok → x.st = 8 → ∃ u, exec .ptpTimeValid s = .next u ∧ u.net = { s.net with timeValid := true, ptp := { x with st := 9 } } ∧ u.grid.state = s.grid.state) ∧
    ((x.st = 8 ∨ x.st = 9) → x.lastSync + 4 * s.syncPasses ≤ s.grid.tick → ∃ u, exec .syncTimeout s = .next u ∧
      u.net = { s.net with timeValid := false, ptp := { x with ok := 0 } } ∧
      u.grid.state = (if s.net.timeValid = true ∧ s.raceRef = none ∧ (s.grid.state = .slew ∨ s.grid.state = .aligned) then .hold else s.grid.state)) ∧
    (s.ptpRole ≠ 0 → x.st ≠ 6 → gone x.port →
      ((s.netMode = 3 ∨ s.netMode = 4) → ¬gone (1 - x.port) → x.gm.map (fun g => g.gm) = some (mget 0 x.annGm (1 - x.port)) →
        exec .announceTimeout s = .next (({ s with net := { s.net with ptp := { x with port := 1 - x.port, sync := none, req := none } } } : State).count
          aPtpStat 23 16 1)) ∧
      (s.netMode ≤ 2 → ∃ u, exec .announceTimeout s = .next u ∧ u.net.ptp.gm = none ∧ u.net.ptp.foreigns = [] ∧ u.net.ptp.ok = 0 ∧
        u.net.timeValid = decide (s.ptpRole = 2) ∧ u.net.ptp.st = if s.ptpRole = 2 then 6 else 4)) ∧
    (x.st = 6 → x.sentSync + s.syncPasses ≤ s.grid.tick →
      let after := with_ (fun x => { x with sentSync := s.grid.tick, seqSync := (x.seqSync + 1) % 65536 })
      let sync (p : Nat) (c : Int) : NetMsg := .sync x.seqSync (at_ p c)
      (sends → exec (.syncSend c) s = .next (Stated.sent after (sync x.port (if x.port = 0 then c.1 else c.2)) x.port)) ∧
      (twice → exec (.syncSend c) s = .next (Stated.sent (Stated.sent after (sync 0 c.1) 0) (sync 1 c.2) 1))) ∧
    (x.st = 6 → x.sentAnn + s.annPasses ≤ s.grid.tick →
      let after := with_ (fun x => { x with sentAnn := s.grid.tick, seqAnn := (x.seqAnn + 1) % 65536 })
      let m : NetMsg := .announce x.seqAnn s.ownData (s.fld aPtpUtc 15 0)
      (sends → exec .announceSend s = .next (Stated.sent after m x.port)) ∧
      (twice → exec .announceSend s = .next (Stated.sent (Stated.sent after m 0) m 1))) ∧
    ((x.st = 8 ∨ x.st = 9) → x.sync = some r → r.t1 = some t1 → x.sentReq + s.reqPasses ≤ s.grid.tick →
      let after := with_ (fun x => { x with req := some { seq := x.seqReq, t3 := at_ x.port c.1, basis := some (r.t2 - t1 - r.c1), waits := none },
                                            sentReq := s.grid.tick, seqReq := (x.seqReq + 1) % 65536 })
      (sends → exec (.delayReqSend c.1) s = .next (Stated.sent after (.delayReq x.seqReq) x.port)) ∧
      (twice → exec (.delayReqSend c.1) s = .next (Stated.sent (Stated.sent after (.delayReq x.seqReq) 0) (.delayReq x.seqReq) 1))) ∧
    (let sec := s.fld aPtpTsetSHi 15 0 * 2 ^ 32 + (s.reg aPtpTsetSLo).toNat
     exec (.tsetGo v) s = .next (if v.getLsbD 0 = true ∧ s.ptpRole = 2 then
       { s with net := { s.net with ptp := { x with setTo := some (sec, min 999999999 (s.fld aPtpTsetNs 29 0)) } }, rtc := sec } else s)) ∧
    (let now := s.ptpAt cycle
     ∃ u, exec (.timeNsRead cycle) s = .next u ∧ u.svc.resp = .ok ∧ u.svc.rdata.toNat = (now % (1000000000 * 2 ^ 32) / 2 ^ 32).toNat ∧
       mget 0 u.latch aPtpTimeSLo = BitVec.ofNat 32 ((now / (1000000000 * 2 ^ 32)).toNat) ∧ ({ u with svc := s.svc, latch := s.latch } : State) = s) ∧
    (s.flag (aPtpCap k) 0 = true → s.flag (aPtpCap k) 1 = falling →
      (s.flag (aPtpCap k) 2 = true → exec (.captureEdge k falling cycle) s = .next (s.setFlag (aPtpCap k) 3 true)) ∧
      (s.flag (aPtpCap k) 2 = false →
        let edge := s.ptpAt ((cycle : Int) - 3)
        ∃ u, exec (.captureEdge k falling cycle) s = .next u ∧ u.flag (aPtpCap k) 2 = true ∧ u.flag (aPtpCap k) 3 = s.flag (aPtpCap k) 3 ∧
          (u.reg (aPtpCapNs k)).toNat = (edge % (1000000000 * 2 ^ 32) / 2 ^ 32).toNat ∧
          u.reg (aPtpCapSLo k) = BitVec.ofNat 32 ((edge / (1000000000 * 2 ^ 32)).toNat) ∧ ({ u with regs := s.regs } : State) = s)) ∧
    (∃ u, exec (.capNsRead k) s = .next u ∧ u.svc.resp = .ok ∧ u.svc.rdata = s.reg (aPtpCapNs k) ∧ u.flag (aPtpCap k) 2 = false ∧
      mget 0 u.latch (aPtpCapSLo k) = s.reg (aPtpCapSLo k))

/-- R451, R453, R454, R456 to R459, R461, R462: the PTP clock, its messages and its own events. -/
def Obligations.PtpClock : Prop :=
  Stated.PtpReception ∧ Stated.PtpEvents

/-- R466 to R468: receive streams.  A packet whose samples are due later is written to its frame and noted; one too late, too
early or of a wrong length is counted; 64 complete passes ramp a muted stream back. -/
def Obligations.StreamReception : Prop :=
  ∀ (s : State) (one : Bool) (j : StreamNo) (c : Nat) (pkt : RtpPacket), s.Canonical → s.tly.mons = [] →
    let p := if one then 1 else 0
    let took := s.setRxBuf p ((s.rxBuf p).drop 1)
    let w := s.reg (aStrmRx j)
    let ch := bits w 22 16
    let b := if w.getLsbD 27 then 3 else 2
    let delay := bits w 13 0
    let diff := (pkt.ts - s.reg (aStrmRxRtpOffset j) - BitVec.ofNat 32 s.p32).toInt
    let d := s.grid.tick + diff + delay
    (s.portUp p = true → s.grid.fnOn = true → s.rxMatch j p pkt = true → (∀ i, i < 128 → i ≠ j.val → s.rxMatch i p pkt = false) → 0 < ch →
      (pkt.payload.length = ch * b →
        (diff = -(2 ^ 31) ∨ d ≤ s.grid.tick → exec (.streamPacket one c pkt) s = .next (took.count (aStrmRxEvents j) 31 16 1)) ∧
        (diff ≠ -(2 ^ 31) → s.grid.tick + delay < d → exec (.streamPacket one c pkt) s = .next (took.count (aStrmRxEvents j) 7 0 1)) ∧
        (s.grid.tick < d → d ≤ s.grid.tick + delay → ∃ u, exec (.streamPacket one c pkt) s = .next u ∧ d.toNat ∈ (u.rxs j).have_ ∧
          (let a := (s.reg (aStrmRxRing j)).toNat + 4 * (ch * (d.toNat % (delay + s.pktLen (bits w 26 24))))
           (∀ i, i < ch → u.rd32 (a + 4 * i) = BitVec.ofNat 32 (beNat ((pkt.payload.drop (b * i)).take b) * 2 ^ (32 - 8 * b))) ∧
           (∀ x, (x < a ∨ a + 4 * ch ≤ x) → u.rdB x = s.rdB x)) ∧
          u.regs = s.regs ∧ (∀ i, i ≠ j.val → mwf {} s.net.rx = true → u.rxs i = s.rxs i))) ∧
      (pkt.payload.length % (ch * b) ≠ 0 → exec (.streamPacket one c pkt) s = .next (took.count (aStrmRxEvents j) 15 8 1))) ∧
    (s.portUp p = true → s.grid.fnOn = false → exec (.streamPacket one c pkt) s = .next took) ∧
    (s.portUp p = false → exec (.streamPacket one c pkt) s = .next s) ∧
    (let x := s.rxs j
     exec (.streamRamp j) s = .next (s.setRxs j { x with ch := if 64 ≤ x.ch.good ∧ (x.ch.st = .idle ∨ x.ch.st = .fade ∨ x.ch.st = .hold) then
       { st := .ramp, env := { ramp := some s.grid.tick }, good := 0 } else x.ch }))

/-! ## Race links and the domain -/

/-- R488 to R493, R498, R513, R514, R697: race links.  A change of EN is recognised in the pass after the write: set, the link is in
SEARCH and sends from the pass after; cleared, the link and its frames are forgotten and its candidate is invalid; other fields change
only while it is OFF.  A frame is read with the lanes as PINV and LSWAP wire them; four good frames reach SYNC; a frame in SYNC is judged
and, when valid, held for the commit in the order in which the CRCs completed; a second missing comma pair or the eighth invalid frame
is a loss; a commit gives the words of complete channels and 0 for the others; 64 complete passes ramp a channel back. -/
def Obligations.RaceLinks : Prop :=
  ∀ (s : State) (k : LinkNo) (v : Word) (raw : RaceIn) (f : Int) (c : Fin 1536), s.Canonical → s.twin.on = false →
    let l := s.link k
    let fr := s.raceWired k raw
    let w := v &&& 0x00FF0E01#32
    let t := s.setReg (aRaceCtrl k) w
    let other := (w ^^^ s.reg (aRaceCtrl k)) &&& 0xFFFFFFFE#32
    let skewed := s.setFld (aRaceStat k) 15 12 (min 15 fr.skew)
    (v.getLsbD 0 = true → s.flag (aRaceCtrl k) 0 = false →
      (l.st = 0 ∨ other = 0 → s.pwr.mode ≠ .boot → exec (.raceLinkEnable k v) s = .next (t.later (s.grid.tick + 1) (.linkOn k))) ∧
      (l.st ≠ 0 → other ≠ 0 → exec (.raceLinkEnable k v) s = .next (s.setFlag (aRaceStat k) 8 true))) ∧
    (v.getLsbD 0 = false → s.flag (aRaceCtrl k) 0 = true →
      (l.st = 0 ∨ other = 0 → s.pwr.mode ≠ .boot → exec (.raceLinkDisable k v) s = .next (t.later (s.grid.tick + 1) (.linkOff k))) ∧
      (l.st ≠ 0 → other ≠ 0 → exec (.raceLinkDisable k v) s = .next (s.setFlag (aRaceStat k) 8 true))) ∧
    (s.flag (aRaceCtrl k) 0 = true → l.st = 0 → s.act (.linkOn k) = s.setLink k { on := true, first := s.grid.tick + 1, st := 1 }) ∧
    (s.flag (aRaceCtrl k) 0 = false → s.act (.linkOff k) = ({ s with race := { s.race with
        links := mset {} s.race.links k {}, frames := s.race.frames.filter (fun r => r.link != k.val) } } : State).candStops (4 + k)) ∧
    (l.st = 1 → l.inbox = [] → s.domOn 78 = true →
      (fr.commas = true → exec (.raceFrame k raw) s = .next
        (skewed.setLink k { l with good := if fr.skew ≤ 8 ∧ fr.crcOk s.rate96 = true then l.good + 1 else 0 })) ∧
      (fr.commas = false → exec (.raceFrame k raw) s = .next (s.setLink k { l with good := 0 }))) ∧
    (l.st = 2 → s.domOn 78 = true → l.part = [] → l.inbox = [] → fr.commas = true → fr.codeOk = true →
      (fr.crcOk s.rate96 = false → exec (.raceFrame k raw) s = .next
        (((skewed.count (aRaceErr k) 31 16 1).raise 0x05 k 0 0).setLink k { l with missing := 0, bad := l.bad + 1 })) ∧
      (fr.crcOk s.rate96 = true → fr.version = 1 → fr.mapId ≠ s.reg (aRaceMap k) → exec (.raceFrame k raw) s = .next
        ((skewed.setFlag (aRaceStat k) 7 true).setLink k { l with missing := 0, bad := l.bad + 1 })) ∧
      (fr.crcOk s.rate96 = true → fr.version = 1 → fr.mapId = s.reg (aRaceMap k) → fr.any = true → s.racePass fr = some f → fr.msgs s.rate96 = [] → s.tly.mons = [] →
        (960 + s.cyc * (f + 1 - s.grid.tick) < fr.done → exec (.raceFrame k raw) s = .next
          ((skewed.count (aRaceLate k) 31 16 1).setLink k { l with missing := 0, bad := l.bad + 1 })) ∧
        (fr.done ≤ 960 + s.cyc * (f + 1 - s.grid.tick) → ∃ u, exec (.raceFrame k raw) s = .next u ∧
          u.link k = { l with missing := 0, bad := 0, cell := some (fr.pass, s.grid.tick, fr.comma) } ∧
          u.fld (aRaceStat k) 26 16 = fr.src.toNat ∧ u.flag (aRaceStat k) 5 = fr.aligned ∧
          u.race.frames = frameIn
            { link := k, f := f, done := s.grid.tick * s.cyc + fr.done, usable := fr.aligned && s.slotsUsed, slots := fr.slots s.rate96 }
            (s.race.frames.filter (fun r => !(r.link == k.val && r.f == f))) ∧ u.mem = s.mem))) ∧
    (l.st = 1 → exec (.raceSync k) s = .next (if 4 ≤ l.good then s.setLink k { l with st := 2, good := 0, missing := 0, bad := 0 } else s)) ∧
    (l.st = 2 → l.part = [] → exec (.raceSyncLoss k) s = .next (if 2 ≤ l.missing ∨ 8 ≤ l.bad then
      (((s.setLink k { l with st := 1, good := 0, missing := 0, bad := 0 }).setFlag (aRaceStat k) 4 true).event sevNotice (aRaceStat k) 0 1 1 k).candStops (4 + k)
      else s)) ∧
    (s.domOn 78 = true → s.race.committed ≠ s.grid.tick + 1 → ∃ u, exec .raceCommit s = .next u ∧ u.race.committed = s.grid.tick + 1 ∧
      (∀ r, r ∈ u.race.frames ↔ r ∈ s.race.frames ∧ (s.grid.tick : Int) - 1 < r.f) ∧
      (∀ j, j < 4 → (u.race.valid.testBit j = true ↔ ∃ r ∈ s.race.frames, r.link = j ∧ r.f = (s.grid.tick : Int) - 1)) ∧
      (let ring := (s.reg aRaceRxring).toNat
       let n := min s.slotMax (s.fld aRaceNch 10 0)
       let p := s.grid.tick - 1
       0 < s.grid.tick → ring ≠ 0 → s.grid.fnFade = none →
        (∀ j, j < n → (s.chan j).st = .run → u.rd32 (ring + 4 * (n * (p % 2 ^ 32 % 4) + j)) = (mget none (s.chanWords p) j).getD 0) ∧
        (∀ a, (a < ring + 4 * (n * (p % 2 ^ 32 % 4)) ∨ ring + 4 * (n * (p % 2 ^ 32 % 4) + n) ≤ a) → u.rdB a = s.rdB a))) ∧
    (s.domOn 78 = false ∨ s.race.committed = s.grid.tick + 1 → exec .raceCommit s = .next s) ∧
    (let x : Chan := if 64 ≤ (s.chan c).good ∧ ((s.chan c).st = .idle ∨ (s.chan c).st = .fade ∨ (s.chan c).st = .hold) then
        { st := .ramp, env := { ramp := some (s.race.committed - 2) }, good := 0 } else s.chan c
     exec (.channelRamp c) s = .next { s with race := { s.race with chans := mset {} s.race.chans c x } })

/-- R500, R501, R507, R508, R510, R511, R659: what a domain message does that its engine acts on (`s1` is the state after its
acceptance): the roster, the membership, who manages, what a standby mirrors, changes that wait for their epoch, parameter writes. -/
def Sys2Proof.Stated.DomainMessages : Prop :=
  ∀ (s : State) (h : MsgHdr) (own build nTx ver reason used mode grid twin n rx : Nat) (rate96 tw twB p : Bool) (epoch : PassIx)
    (term : BitVec 16) (last : BitVec 32) (flt : Word) (es : List StreamEntry) (drops : Nat) (recs : List (List Byte)) (inst k : Nat) (v : Word) (r : NodeRec),
    let dom (s1 : State) (f : Dom → Dom) : State := { s1 with dom := f s1.dom }
    let src := h.src.toNat
    (actedOn s h (.join own rate96 tw twB build nTx) → let s1 := heard s h (.join own rate96 tw twB build nTx)
      exec (.joinMsg h own rate96 tw twB build nTx) s = .next
        (if 2 ≤ s1.role then dom s1 (fun d => { d with joins := d.joins ++ [(own, rate96, tw, twB, build)] }) else s1)) ∧
    (actedOn s h (.admission ver epoch) → let s1 := heard s h (.admission ver epoch)
      exec (.admitMsg h ver epoch) s = .next (if s1.manages = true then s1 else dom s1 (fun d => { d with st := 2, ver := ver, refusedAt := none }))) ∧
    (actedOn s h (.refuse reason) → let s1 := heard s h (.refuse reason)
      exec (.refuseMsg h reason) s = .next (if s1.manages = true then s1 else
        (dom s1 (fun d => { d with st := 3, reason := reason % 256, refusedAt := some s1.grid.tick })).event sevMajor aDomStat 8 15 (reason % 256) src)) ∧
    (actedOn s h .leave → let s1 := heard s h .leave
      let e := s1.rosterE src
      (s1.manages = false ∨ e.present = false → exec (.leaveMsg h) s = .next s1) ∧
      (s1.manages = true → e.present = true → mwf {} s1.dom.roster = true → ∃ u, exec (.leaveMsg h) s = .next u ∧
        u.rosterE src = { e with present := false } ∧ (e.twin = false → u.dom.ver = s1.dom.ver + 1 ∧
          u.dom.table = s1.dom.table.filter (fun r => r.sender != src)))) ∧
    (actedOn s h (.manager term ver last used) → let s1 := heard s h (.manager term ver last used)
      let d := (term - s1.dom.term).toInt
      let wins : Prop := s1.dom.mgrSeen = false ∨ 0 < d ∨ (d = 0 ∧ src ≤ s1.dom.mgr)
      let follows := dom s1 (fun x => { x with mgrSeen := true, mgr := src, term := term, lastMgr := s1.grid.tick,
                                               st := if x.st = 4 ∧ src ≠ s1.pairNo then 0 else x.st, ver := if x.st = 4 then x.ver else ver })
      exec (.managerMsg h term ver last used) s = .next
        (if wins then (if 2 ≤ s1.role ∧ (s1.dom.st ≠ 4 ∨ src ≠ s1.pairNo) then { follows with scn := { s1.scn with lastDealId := last.toNat } } else follows)
         else s1)) ∧
    (actedOn s h (.heartbeat mode grid twin flt) → let s1 := heard s h (.heartbeat mode grid twin flt)
      exec (.heartbeatMsg h mode grid twin flt) s = .next
        (if s1.manages = true ∧ (s1.rosterE src).present = true then s1.setRoster src { s1.rosterE src with heard := s1.grid.tick } else s1)) ∧
    (actedOn s h (.mirror [.device n p tw]) → let s1 := heard s h (.mirror [.device n p tw])
      n < 2048 → exec (.mirrorMsg h [.device n p tw]) s = .next
        (if 2 ≤ s1.role ∧ s1.manages = false then s1.setRoster n { present := p, twin := tw, heard := s1.grid.tick } else s1)) ∧
    (actedOn s h (.streams epoch es) → let s1 := heard s h (.streams epoch es)
      exec (.streamsMsg h epoch es) s = .next (if es = [] then s1 else dom s1 (fun d => { d with epochs := d.epochs ++ [(epoch, es)] }))) ∧
    (s.dom.epochs = [(epoch, [{ sender := s.pairNo, tx := n, action := 0, receiver := none, rx := rx }])] → n < 128 →
      exec .streamEpoch s = .next (if 0 ≤ (s.grid.p - epoch).toInt then
        ({ s with dom := { s.dom with epochs := [] } } : State).setFlag (aStrmTx n) 31 true else s)) ∧
    (actedOn s h (.tallySummary n drops recs) → exec (.tallySummary h n drops recs) s = .next (heard s h (.tallySummary n drops recs))) ∧
    (actedOn s h (.param [(inst, k, v)]) → let s1 := heard s h (.param [(inst, k, v)])
      s1.node inst = some r → k < r.paramWords → let c := s1.cluster r.cluster
      c.queue.length < 1024 → exec (.paramMsg h [(inst, k, v)]) s = .next
        (s1.setCluster r.cluster { c with queue := c.queue ++ [{ inst := inst, param := k, value := (s1.codeOf r k).store v }] }))

/-- R500 to R504, R510, R511, R659: what a domain engine sends of its own: the manager's message and a takeover, the heartbeat, a
JOIN, an answer to TALLY_PULL; each leaves on port 0, and beside a second port that is up on both, under the engine's number with the
next sequence number.  A device unheard for three seconds leaves the roster. -/
def Sys2Proof.Stated.DomainSending : Prop :=
  ∀ (s : State) (h : MsgHdr) (q : BitVec 32) (sev max : Nat) (n : Fin 2048) (d : DomainSettings), s.twin.on = false →
    let ready (t : State) : Prop := t.domSet = some d ∧ t.keyIn (d.keyId == 1) = true ∧ t.svc.stewDown = false ∧ t.portUp 0 = true ∧ t.flt.safe = false ∧ t.flt.armed = none
    let sends (t u : State) (dst : MsgDst) (body : MsgBody) : Prop :=
      ∃ m l, u.net.out = t.net.out ++ l ∧ (∀ j, (∃ x ∈ l, x.port = j) ↔ j < 2 ∧ t.portUp j = true) ∧
        (∀ x ∈ l, x.msg = .domain m ∧ x.bytes = t.msgFrame (.domain m) x.port ∧ x.fcsOk = true) ∧
        m.src = t.pairNo ∧ m.dst = dst ∧ m.own = false ∧ m.seq = t.dom.seq ∧ m.body = body ∧
        m.sec = t.grid.p.toNat / t.fs ∧ m.key1 = (d.keyId == 1) ∧ u.dom.seq = t.dom.seq + 1
    (ready s → s.manages = true → s.grid.fnOn = true → s.grid.p.toNat % (s.fs / 10) = 0 → ∃ u, exec .managerSend s = .next u ∧
      sends s u .all (.manager s.dom.term s.dom.ver (BitVec.ofNat 32 s.scn.lastDealId) (usedOf s.dom.table)) ∧
      u.dom.st = 4 ∧ u.dom.mgr = s.pairNo ∧ u.dom.lastMgr = s.grid.tick) ∧
    (ready s → 2 ≤ d.role → s.manages = false → s.grid.fnOn = true → s.dom.lastMgr + 4 * (s.fs / 10) ≤ s.grid.tick →
      ∃ u, exec .managerTakeover s = .next u ∧
        sends s u .all (.manager (s.dom.term + 1) s.dom.ver (BitVec.ofNat 32 (s.scn.lastDealId + 1024)) (usedOf s.dom.table)) ∧
        u.dom.st = 4 ∧ u.dom.mgr = s.pairNo ∧ u.dom.term = s.dom.term + 1 ∧ u.scn.lastDealId = (s.scn.lastDealId + 1024) % 2 ^ 32) ∧
    (ready s → s.dom.st = 2 → s.grid.p.toNat % s.fs = s.ownNo * s.fs / 2048 → ∃ u, exec .heartbeatSend s = .next u ∧
      sends s u .manager (.heartbeat s.pwr.mode.code s.grid.state.code s.twin.st.code s.fltStatus) ∧ u.dom.st = 2) ∧
    (ready s → s.grid.fnOn = true → s.dom.st = 0 → d.role ≤ 2 → s.dom.refusedAt = none →
      (s.dom.joinAt = none → ∃ u, exec .joinRetry s = .next u ∧ u.dom.st = 1 ∧ u.dom.joinAt = some s.grid.tick ∧
        sends s u .manager (.join s.ownNo s.rate96 d.twin (d.twin && s.twin.selB) d.build
          ((List.range 128).filter (fun i => s.fld (aStrmTx i) 22 16 != 0)).length)) ∧
      (∀ a, s.dom.joinAt = some a → s.grid.tick < a + s.fs → exec .joinRetry s = .next s)) ∧
    (actedOn s h (.tallyPull q sev max) → let s1 := heard s h (.tallyPull q sev max)
      s1.twin.on = false → ready s1 →
      ∃ u, exec (.tallyPull h q sev max) s = .next u ∧
        sends s1 u (.device h.src) (.tallySummary (match s1.newest with | some r => r.seq | none => 0) (s1.reg aTlyDrop).toNat
          (((s1.recordsAfter q.toNat sev).take (if max = 0 ∨ 31 < max then 31 else max)).map (fun r => r.bytes)))) ∧
    (s.manages = true → (s.rosterE n).present = true → (s.rosterE n).twin = false → mwf {} s.dom.roster = true →
      (s.grid.tick < (s.rosterE n).heard + 3 * s.fs → exec (.heartbeatExpiry n) s = .next s) ∧
      ((s.rosterE n).heard + 3 * s.fs ≤ s.grid.tick → ∃ u, exec (.heartbeatExpiry n) s = .next u ∧
        u.rosterE n = { s.rosterE n with present := false } ∧ u.dom.ver = s.dom.ver + 1 ∧ u.dom.table = s.dom.table.filter (fun r => r.sender != n.val)))

/-- R500 to R504, R507, R508, R510, R511, R659: the messages of a domain, received and sent. -/
def Obligations.DomainManagement : Prop :=
  Stated.DomainMessages ∧ Stated.DomainSending

/-! ## Memories and maintenance -/

/-- R525 to R533: the scrubber corrects, counts and reports a single-bit error of its row; a correctable word waits for its rewrite;
a clip row is restored from the image; a tamper wipes the secure region and its keys; the end of a wipe, which journals a TAMPER
record first; the rows and the end of a March test. -/
def Sys2Proof.Stated.MemoryMaintenance : Prop :=
  ∀ (s : State) (memid : BitVec 10) (a addr row : Nat) (rest : List Nat) (clean fails : Bool) (m : March) (e : Nat), s.Canonical →
    let id := memid.toNat
    let r := mget 0 s.ms.scrubRow id
    (memIdOk id = true → s.memOn id = true → s.ms.march = none → s.flag aMpdScrub 0 = true → r < memRows id + 1 →
      ((∀ w ∈ rowWords id r, mget 0 s.ms.ecc w = 0) →
        exec (.scrubRow memid) s = .next { s with ms := { s.ms with scrubRow := mset 0 s.ms.scrubRow id (r + 1) } }) ∧
      (a ∈ rowWords id r → e = mget 0 s.ms.ecc a → 0 < e → e < 64 → (∀ w ∈ rowWords id r, w ≠ a → mget 0 s.ms.ecc w = 0) →
        ∃ u, exec (.scrubRow memid) s = .next u ∧ mget 0 u.ms.ecc a = 0 ∧ (∀ w, w ≠ a → mget 0 u.ms.ecc w = mget 0 s.ms.ecc w) ∧
          a ∉ u.ms.rewrites ∧ u.mem = s.mem ∧ u.fld aMpdEccCe 31 0 = min 4294967295 (s.fld aMpdEccCe 31 0 + 1) ∧
          u.flt.raised = s.flt.raised ++ [{ src := 0x01, unit := memIdOf a, cls := 0, detail := e - 1, pass := s.p32 }])) ∧
    (exec .eccRewrite { s with ms := { s.ms with rewrites := a :: rest } } =
        .next { s with ms := { s.ms with rewrites := rest, ecc := mset 0 s.ms.ecc a 0 } } ∧
      exec .eccRewrite { s with ms := { s.ms with rewrites := [] } } = .next { s with ms := { s.ms with rewrites := [] } }) ∧
    (s.reading (restoreOf addr) = true → row = addr / 16 * 16 → ∃ u, exec (.clipRestore addr) s = .next u ∧
      (∀ i, i < 16 → u.rdB (row + i) = s.clipByte (row + i)) ∧ (∀ b, (b < row ∨ row + 16 ≤ b) → u.rdB b = s.rdB b) ∧
      u.ms.clipBad = s.ms.clipBad.filter (fun x => x / 16 ≠ addr / 16)) ∧
    (s.ms.tamperLow = false → ∃ u, exec .tamperLow s = .next u ∧ u.ms.tamperLow = true ∧ u.ms.wiping = true ∧ u.ms.wipeTamper = true ∧
      u.nvm.slot0 = none ∧ u.nvm.slot1 = none ∧ u.flag aMpdSecStat 31 = true ∧
      (∀ b, u.rdB b = if 0x18000000 ≤ b ∧ b < 0x18040000 then 0 else s.rdB b)) ∧
    (s.ms.tamperLow = true → exec .tamperLow s = .next s) ∧
    exec .tamperRelease s = .next { s with ms := { s.ms with tamperLow := false } } ∧
    (let done : State := { s with ms := { s.ms with wiping := false, wipeTamper := false, secLock := s.ms.secLock || !clean } }
     (s.ms.wiping = true → s.ms.wipeTamper = false → s.pwr.mode ≠ .boot →
       exec (.wipeDone clean) s = .next (if clean then done else done.event sevCritical aMpdSecStat 1 1 1 0)) ∧
     (s.ms.wiping = true → s.ms.wipeTamper = true → ∃ u, exec (.wipeDone clean) s = .next u ∧ u.ms.wiping = false ∧
       u.ms.secLock = (s.ms.secLock || !clean) ∧ u.nvm.queue.head? = some { type := 9, data := leBytes 4 s.nvm.keyGen ++ leBytes 4 s.rtc } ∧
       ∀ c, c < 2 → ∃ o, (o ∈ u.nvm.waiting ∨ u.nvm.op = some o) ∧ o.use = .keyErase c ∧ o.kind = .erase) ∧
     (s.ms.wiping = false → exec (.wipeDone clean) s = .next s)) ∧
    (s.ms.march = some m → m.row < memRows m.memid + 2 →
      let l := if fails then m.fails ++ [m.row] else m.fails
      exec (.marchRow fails) s = .next { s with ms := { s.ms with march := some { m with row := m.row + 1, fails := l }, marchRow := m.row, marchFails := l } }) ∧
    (s.ms.march = some m → m.row = memRows m.memid + 2 → m.destructive = false → mwf {} s.ms.repair = true → mget {} s.ms.repair m.memid = {} →
      let ended (st : Nat) (t : RepairTab) : State :=
        { s with ms := { s.ms with march := none, marchSt := st, marchFails := m.fails, repair := mset {} s.ms.repair m.memid t }, svc := { s.svc with ended := some 1 } }
      (m.fails = [] → exec .marchEnd s = .next (ended 2 {})) ∧
      (m.fails = [memRows m.memid] → exec .marchEnd s = .next (ended 3 { bad0 := true })) ∧
      (m.fails = [a] → a < memRows m.memid → exec .marchEnd s = .next
        (((ended 3 { row0 := some a }).journal 4 (repairBytes m.memid { row0 := some a })).event sevMajor aMpdMarchStat 0 2 3 m.memid)))

/-- The state in which the arbiter has admitted request `m`: it is recognised in the pass after, in which the engine leaves QUIET, and
its work starts in the pass after that (R665). -/
def Sys2Proof.Stated.admitted (s : State) (m : Maint) : State :=
  { s with svc := { s.svc with running := some m, startAt := some (s.grid.tick + 2), ended := none },
           grid := { s.grid with acts := s.grid.acts ++ [(s.grid.tick + 1, .quietOff), (s.grid.tick + 2, .maint)] } }

/-- R531, R539, R581, R582, R591, R592, R665, R666: requests to the maintenance arbiter in SERVICE with nothing running, the start of
their work in its pass, the end of a request, which starts the next, the semaphores, and a domain that powers up with memories of 0. -/
def Sys2Proof.Stated.MaintenanceRequests : Prop :=
  ∀ (s : State) (v : Word) (n : TileNo) (arg : BitVec 10) (d : Fin 80) (k : Fin 32) (m : Master) (q : Maint) (res a : Nat), s.Canonical →
    let idle : Prop := s.pwr.mode = .service ∧ s.flt.lock = false ∧ s.svc.running = none
    let id := bits v 25 16
    let t := s.setReg aMpdMarchCtrl (v &&& 0x03FF0001#32)
    (v.getLsbD 31 = true → idle → memIdOk id = true → id < 0x300 → (v.getLsbD 0 = true ∨ id < 0x100 ∨ (id - 0x100) % 8 < 4) →
      exec (.marchGo v) s = .next (admitted t { kind := 1, arg := id })) ∧
    (v.getLsbD 31 = true → memIdOk id = false ∨ 0x300 ≤ id ∨ (v.getLsbD 0 = true ∧ s.pwr.mode ≠ .service) →
      exec (.marchGo v) s = .next (t.setFlag aMpdMarchStat 3 true)) ∧
    (idle → exec (.scrubSweep arg) s = .next (admitted s { kind := 2, arg := arg.toNat })) ∧
    (idle → s.domOn 79 = true → s.svc.stewDown = false → exec (.tileRestart n) s = .next (admitted s { kind := 5, arg := n })) ∧
    (s.pwr.mode = .run → s.domOn 79 = true → s.svc.stewDown = false →
      exec (.tileRestart n) s = .next (({ s with svc := { s.svc with last := 5, result := 2 } } : State).later (s.grid.tick + 1) .quietOff)) ∧
    (s.svc.running = some q → s.svc.startAt = some a → let begun : Svc := { s.svc with startAt := none, ended := none }
      (s.grid.tick < a → s.act .maint = s) ∧
      (a ≤ s.grid.tick →
        (q.kind = 1 → s.act .maint = { s with svc := begun, ms := { s.ms with
          march := some { memid := q.arg, destructive := s.flag aMpdMarchCtrl 0 }, marchSt := 1, marchFails := [], marchRow := 0 } }) ∧
        (q.kind = 2 → q.arg < 0x3FF → memIdOk q.arg = true → s.memOn q.arg = true → s.act .maint = { s with
          svc := { begun with sweep := [q.arg], errors := 0 }, ms := { s.ms with scrubRow := mset 0 s.ms.scrubRow q.arg 0 } }) ∧
        (q.kind = 3 → s.act .maint = { s with svc := begun, nvm := { s.nvm with compacting := true } }) ∧
        (q.kind = 5 → s.act .maint = { s with svc := { begun with ended := some 1 } }))) ∧
    (s.pwr.mode ≠ .quiet → s.act .quietOff = s) ∧ (s.pwr.mode = .quiet → (s.act .quietOff).pwr.mode = .run) ∧
    (s.svc.running = some q → s.svc.ended = some res → q.kind ≠ 1 → q.kind ≠ 5 → s.svc.compactPend = false → s.svc.queued = none → s.pwr.runReq = false →
      exec .maintEnd s = .next (({ s with svc := { s.svc with running := none, startAt := none, last := q.kind, result := res, ended := none, sweep := [] } } : State).setFlag aSvcIrq 3 true)) ∧
    (s.svc.running = none ∨ s.svc.ended = none → exec .maintEnd s = .next s) ∧
    (∃ u, exec (.semaphoreRead k m) s = .next u ∧ u.svc.resp = .ok ∧ u.svc.rdata = s.reg (aXbarSem k) ∧ ({ u with regs := s.regs, svc := s.svc } : State) = s ∧
      if s.flag (aXbarSem k) 0 then u.flag (aXbarSem k) 0 = false ∧ u.fld (aXbarSem k) 11 8 = (if m = .stew then 13 else 14) else u.regs = s.regs) ∧
    exec (.semRelease k m) s = .next (if s.fld (aXbarSem k) 11 8 = (if m = .stew then 13 else 14) then s.setFlag (aXbarSem k) 0 true else s) ∧
    (d.val < 64 → s.domOn (64 + d.val / 8) = false → exec (.domainPowerUp d) s = .next s) ∧
    (d.val < 64 → s.domOn (64 + d.val / 8) = true → s.domSt d = .off → ∃ u, exec (.domainPowerUp d) s = .next u ∧ u.domSt d = .on ∧ u.tile d = {} ∧
      (∀ b, u.rdB b = if tileBase d ≤ b ∧ b < tileBase d + 0x40000 then 0 else s.rdB b) ∧ (∀ b, b / 32768 = d.val → mget 0 u.imem b = 0)) ∧
    (d.val < 64 → s.domOn (64 + d.val / 8) = true → s.domSt d = .retention → ∃ u, exec (.domainPowerUp d) s = .next u ∧ u.domSt d = .on ∧
      (u.tile d).smp = {} ∧ (u.tile d).ctl = {} ∧ (u.tile d).flow.pend = [] ∧ u.imem = s.imem ∧ (∀ b, u.rdB b =
        if tileBase d + (s.prog d).stateBase ≤ b ∧ b < tileBase d + (s.prog d).stateBase + (s.prog d).stateBytes then 0 else s.rdB b)) ∧
    (64 ≤ d.val → s.domSt d = .retention → exec (.domainPowerUp d) s = .next (s.setDom d .on))

/-- R525 to R533, R544, R665, R666: scrubbing, wipes, March tests and the maintenance arbiter. -/
def Obligations.MemoriesAndMaintenance : Prop :=
  Stated.MemoryMaintenance ∧ Stated.MaintenanceRequests

/-! ## Faults -/

/-- R546 to R552, R679: the collector.  A corrected report is queued, counted and flagged; a contained one also interrupts and
restarts its unit; a fatal one locks the engine in the safe state with only PORTS, RACE and STEW powered.  The steward records
queued reports; injections are armed or refused; the steward stops and restarts; the supply monitor. -/
def Sys2Proof.Stated.FaultReactions : Prop :=
  ∀ (s : State) (r : Report) (l : List (Report × Nat)) (late own : Bool) (n : Nat) (c : ClusterNo) (v : Word) (rail : Fin 9) (dst : MsgDst) (body : MsgBody),
    s.Canonical → s.twin.on = false →
    let taken : State := { s with flt := { s.flt with raised := [], lastSrc := r.src, queue := [(r, 0)] } }
    (s.flt.raised = [] → exec (.faultReport none late) s = .next s) ∧
    (s.flt.raised = [r] → s.flt.queue = [] →
      (r.cls = 0 → exec (.faultReport none late) s = .next ((taken.count aFltCounts 15 0 1).setFlag aFltStatus 0 true)) ∧
      (r.cls = 1 → r.src = 0x0C → exec (.faultReport none late) s = .next
        (((taken.count aFltCounts 31 16 1).setFlag aFltStatus 1 true).setFlag aSvcIrq 1 true)) ∧
      (r.cls = 1 → r.src = 0x0B → ∃ u, exec (.faultReport none late) s = .next u ∧ u.svc.stewDown = true ∧ u.flag aFltStatus 1 = true) ∧
      (r.cls = 2 → s.flt.lock = false → mwf .off s.pwr.dom = true → ∃ u, exec (.faultReport none late) s = .next u ∧ u.flt.lock = true ∧ u.flt.safe = true ∧
        u.pwr.mode = .sluice ∧ u.nvm.fatals = s.nvm.fatals + 1 ∧ u.svc.running = none ∧ u.flag aSvcIrq 1 = true ∧ u.flt.queue = [(r, 0)] ∧
        (∀ d, u.domSt d = if d = 76 ∨ d = 78 ∨ d = 79 then s.domSt d else .off) ∧
        (u.flt.slDead = true ↔ s.flt.slDead = true ∨ r.src = 0x07 ∨ r.src = 0x0A) ∧ u.grid.p = s.grid.p ∧
        u.grid.state = (if r.src = 0x07 ∨ r.src = 0x08 then .stopped else s.grid.state))) ∧
    (s.flt.raised = [] → s.flt.armed = none → ∃ u, exec (.faultReport (some (.xbar c)) late) s = .next u ∧ (u.cluster c).fabricReset = true ∧
      (u.cluster c).gang = none ∧ (u.cluster c).arrived = [] ∧
      (∀ t, t < 8 → s.domOn (8 * c + t) = true → (s.prog (8 * c + t)).code ≠ [] → (u.tile (8 * c + t)).run = .halted) ∧
      (∀ t, t / 8 ≠ c.val → u.tile t = s.tile t)) ∧
    (s.flt.queue = [] → exec .queueDrain s = .next s) ∧
    (s.flt.queue = (r, n) :: l → s.svc.stewDown = false → s.domOn 79 = true →
      let sev := if r.cls = 0 then (if r.src = 0x0F ∨ r.src = 0x10 ∨ r.src = 0x12 then sevMajor else sevInfo) else if r.cls = 1 then sevMajor else sevCritical
      exec .queueDrain s = .next (({ s with flt := { s.flt with queue := l } } : State).record 1 sev r.inj (r.src % 64 * 2 ^ 10 + r.unit % 1024)
        ([BitVec.ofNat 8 r.cls, 0] ++ leBytes 4 r.pass ++ leBytes 2 r.detail ++ leBytes 2 n ++ List.replicate 8 0))) ∧
    (let t := s.setReg aFltInject ((if v.getLsbD 30 then 0#32 else s.reg aFltInject &&& 0x40000000#32) ||| (v &&& 0x0FFFFFFF#32))
     (v.getLsbD 31 = false → exec (.injectArm v) s = .next t) ∧
     (v.getLsbD 31 = true → bits v 19 16 = 0 → bits v 27 20 ∈ [0x05, 0x06, 0x09, 0x12] → exec (.injectArm v) s = .next { t with flt := { s.flt with
       armed := some { src := bits v 27 20, mode := 0, unit := bits v 9 0, bit := bits v 15 10, arg := s.busAddr ((s.reg aFltInjArg).toNat / 4 * 4) } } }) ∧
     (v.getLsbD 31 = true → (bits v 27 20 = 0x07 ∨ bits v 27 20 = 0x0A) → s.pwr.mode ≠ .service → exec (.injectArm v) s = .next (t.setFlag aFltInject 30 true))) ∧
    (s.flt.armed = none → exec .watchdog s = .next (s.raise 0x0B 0 1 0)) ∧
    (let up : State := { s with svc := { s.svc with stewDown := false, waitMsgs := [], waitSends := [] } }
     s.svc.waitMsgs = [] → (s.svc.waitSends = [] → exec .stewardRestart s = .next up) ∧
       (s.svc.waitSends = [(own, dst, body)] → exec .stewardRestart s = .next (up.domSend own dst body))) ∧
    (s.flt.armed = none → exec (.supplyMonitor rail none) s = .next s ∧ exec (.supplyMonitor rail (some false)) s = .next (s.raise 0x0A rail 2 0) ∧
      (rail.val ≠ 1 → rail.val ≠ 8 → exec (.supplyMonitor rail (some true)) s = .next (s.raise 0x0A rail 2 0))) ∧
    (rail.val = 1 ∨ rail.val = 8 → ∃ u, exec (.supplyMonitor rail (some true)) s = .next u ∧ u.nvm.flash = s.nvm.flash ∧ u.nvm.fuses = s.nvm.fuses ∧
      (∀ a, u.reg a = resetOf a) ∧ u.pwr.mode = .boot ∧ u.flt.lock = false ∧ u.flt.raised = [] ∧ u.tiles = [] ∧ u.image = none ∧
      ∀ b, u.rdB b = if rail.val = 8 ∧ b / 0x40000 = 0x600 then s.rdB b else 0)

/-- R553 to R557: in the safe state a frame of the sluice divider captures an attenuated input sample and sends the one captured two
frames before on every sluice output of this clock; outside it nothing is sent; a slave port ends its last frame once. -/
def Sys2Proof.Stated.SluicePath : Prop :=
  ∀ (s : State) (k : PortNo) (ws : List Word) (port : Option PortNo),
    let out : Word := (s.flt.slBuf[1]?).getD 0
    (s.flt.safe = true → s.flt.slDead = false → s.fld aFltSluiceIn 1 0 = 2 → mwf 0 s.flt.slOut = true →
      let x : Int := if s.domOn 78 = true ∧ s.coreOff = false then ((ws[0]?).getD 0).toInt else 0
      ∃ (u : State) (y : Int), exec (.sluiceFrame none ws) s = .next u ∧
        2 * (y * 2 ^ s.fld aFltSluiceIn 10 8 - x).natAbs ≤ 2 ^ s.fld aFltSluiceIn 10 8 ∧
        u.flt.slBuf = (BitVec.ofInt 32 y :: s.flt.slBuf).take 4 ∧
        (∀ p ∈ s.sluicePorts, s.pMaster p = true → s.sharedPort p = false → mget 0 u.flt.slOut p = out) ∧
        (∀ p, p ∉ s.sluicePorts ∨ s.pMaster p = false → mget 0 u.flt.slOut p = mget 0 s.flt.slOut p) ∧
        u.flt.slRace = (if s.fld aFltSluiceOut 19 16 < 4 then out else s.flt.slRace) ∧ ({ u with flt := s.flt } : State) = s) ∧
    (s.flt.safe = false ∨ s.flt.slDead = true → exec (.sluiceFrame port ws) s = .next s) ∧
    (s.flt.safe = true → s.pMaster k = false → k.val ∉ s.flt.slEnded →
      exec (.sluiceFrameEnd k) s = .next { s with flt := { s.flt with slEnded := s.flt.slEnded ++ [k.val] } }) ∧
    (s.flt.safe = false ∨ s.pMaster k = true ∨ k.val ∈ s.flt.slEnded → exec (.sluiceFrameEnd k) s = .next s)

/-- R546 to R557: fault reports and reactions, and the sluice path. -/
def Obligations.FaultsAndSluice : Prop :=
  Stated.FaultReactions ∧ Stated.SluicePath

/-! ## Twin pairs -/

/-- R562, R564 to R566, R568 to R573, R575: the common start, skew and pin reports, the digest of a window, diagnosis, yield and
takeover, and the steps of a rejoin. -/
def Obligations.TwinPairs : Prop :=
  ∀ (s : State) (p : PassIx) (g : Word) (pin : Fin 3) (q : Nat) (b : StewBlock), s.twin.on = true →
    let tw (f : Twin → Twin) : State := { s with twin := f s.twin }
    let copying (x : Twin) : Twin := { x with st := .copy, act := false, rejoinFrom := none, startP := none, returns := 0 }
    let asking (x : Twin) : Twin := { x with st := .copy, act := false, rejoinFrom := some s.grid.tick, startP := none, cmd := 2 }
    (s.twin.st = .start → s.twin.selB = false → s.twin.wait = 0 → s.twin.startP = none → exec .twinStartWait s = .next
      (if s.twin.peerSeen then s else tw (fun x => { x with st := .active, startP := some (s.grid.p + 1), startG := 0 }))) ∧
    (s.twin.st = .start → s.twin.selB = true → exec (.twinStart p g) s = .next (tw (fun x => { x with startP := some p, startG := g.toNat }))) ∧
    (s.twin.st = .shadow → exec (.twinStart p g) s = .next s) ∧
    (s.twin.st = .start → s.twin.selB = true → s.twin.wait = 0 → s.twin.startP = none →
      exec (.peerWait false) s = .next (tw (fun x => { x with peerAct := false, st := .active, startP := some (s.grid.p + 1), startG := 0 })) ∧
      exec (.peerWait true) s = .next (tw (fun x => copying { x with peerAct := true }))) ∧
    (s.flt.armed = none → exec .twinSkew s = .next
      (if 48 ≤ s.twin.skewBad then (tw (fun x => { x with skewBad := 0 })).raise 0x11 0 0 0 else s)) ∧
    (let level := if pin.val = 0 then !s.twin.act else if pin.val = 1 then !s.twin.yieldPin else true
     exec (.twinPinStuck pin) s = .next (if mget 0 s.twin.stuck pin = 8 then
       (tw (fun x => { x with stuck := mset 0 x.stuck pin 9, notReady := x.notReady || pin.val == 2 })).raise 0x0F (0x60 + pin) 0 (if level then 1 else 0) else s)) ∧
    (s.flt.armed = none → s.graphRuns = true → s.grid.tick < 2 ^ 32 → exec .digestWindow s = .next (if s.grid.tick % 48 = 47 then
      tw (fun x => { x with own := s.windowDigest, windowDigests := x.windowDigests ++ [(s.grid.tick / 48, s.windowDigest)],
                            toSend := some (s.grid.tick / 48, s.windowDigest), crcs := [] }) else s)) ∧
    (s.twin.diagFrom = some q → (s.grid.tick < q + 1024 → exec (.diagnosisEnd true) s = .next s) ∧
      (q + 1024 ≤ s.grid.tick →
        let ended_ (x : Twin) : Twin := { x with diagFrom := none, ownFaults := [] }
        let own : Prop := ∃ f ∈ s.twin.ownFaults, q ≤ f + 144
        (s.twin.st = .active → own → exec (.diagnosisEnd false) s = .next
          ((tw (fun x => { ended_ x with yielding := some (s.grid.tick, false) })).count aTwinEvents 31 24 1)) ∧
        (s.twin.st = .active → exec (.diagnosisEnd true) s = .next (tw ended_)) ∧
        (s.twin.st = .diag → ¬own → exec (.diagnosisEnd true) s = .next (tw (fun x => { ended_ x with st := .shadow }))) ∧
        (s.twin.st = .diag → own → exec (.diagnosisEnd true) s = .next (tw (fun x => copying (ended_ x)))))) ∧
    (s.twin.st = .active → s.twin.yielding = none → exec .twinCmdYield s = .next
      (if s.twin.peerReady then (tw (fun x => { x with yielding := some (s.grid.tick, false) })).count aTwinEvents 31 24 1 else s)) ∧
    (s.twin.st = .shadow → exec .twinCmdRejoin s = .next (tw asking)) ∧ (s.twin.st = .active → exec .twinCmdRejoin s = .next s) ∧
    (s.twin.st = .shadow → s.twin.notReady = false → s.twin.taking = none →
      (s.twin.lostAt = none → exec .twinTakeover s = .next
        ((tw (fun x => { x with st := .active, peerAct := false, taking := some (s.grid.tick + 1), lines := true, linesFrom := s.grid.tick + 1 })).count aTwinEvents 23 16 1)) ∧
      (s.twin.lostAt = some q → q + 4 < s.grid.tick → exec .twinTakeover s = .next s)) ∧
    (s.twin.st = .active → s.scn.running = none → ∃ n, n % 48 = 0 ∧ s.grid.tick + 96 ≤ n ∧ n < s.grid.tick + 144 ∧
      exec .rejoinReq s = .next (tw (fun x => { x with rejoinHeld := false, cmd := 1, startG := n % 2 ^ 32, copyFrom := some n,
                                                       startP := some (s.grid.p + BitVec.ofNat 48 (n - s.grid.tick)) }))) ∧
    (s.twin.st = .copy → s.twin.rejoinFrom.isSome = true → ∃ u, exec (.copyEnd b) s = .next u ∧ u.scn = b.scn ∧ u.cue = b.cue ∧ u.dom.seq = b.seq ∧
      u.pwr.gated = b.gated ∧ u.twin = { s.twin with st := .verify, matches_ := 0, verifyFrom := s.grid.tick % 2 ^ 32 / 48 + 1 }) ∧
    (s.twin.rejoinFrom = some q → (s.twin.st = .copy ∨ s.twin.st = .verify) → s.twin.returns ≠ 2 → exec .rejoinLimit s = .next
      (if q + max 1 (s.fld aTwinCtrl 31 20) * s.fs ≤ s.grid.tick then
        let t := (tw (fun x => { x with returns := x.returns + 1 })).count aTwinEvents 7 0 1
        { t with twin := asking t.twin } else s))

/-! ## Modes and power -/

/-- R343, R550, R558, R664, R674: the balls by mode.  Those of the ports, the links and the clocks are at high impedance in BOOT and
DORMANT; FAULT_N is low in BOOT and SLUICE; the status pins follow CUE_STAT_OUT while a graph runs, FLT_SLUICE_STAT in SLUICE, and
stay as they are in SERVICE. -/
def Sys2Proof.Stated.BallsByMode : Prop :=
  ∀ (s : State) (k : Nat),
    (s.pwr.mode = .boot ∨ s.pwr.mode = .dormant → ∀ b ∈ [Ball.tdmClk k, .tdmDin k, .tdmDout k, .pdmDat k, .out k, .eth k, .raceTx k, .raceRx k],
      s.ball b = .z) ∧
    (s.pSlots k = 0 → ∀ b ∈ [Ball.tdmClk k, .tdmDin k, .tdmDout k], s.ball b = .z) ∧
    s.ball .faultN = (if s.pwr.mode = .boot ∨ s.pwr.mode = .sluice then .low else .high) ∧
    (s.pwr.mode ≠ .sluice → s.ball .sluiceAct = .low) ∧
    (s.pwr.mode = .dormant → s.ball .svcIrqN = .z) ∧
    (s.pwr.mode ≠ .dormant → s.domOn 79 = true → s.ball .svcIrqN =
      if bits (s.reg aSvcIrq) 5 0 &&& bits (s.reg aSvcIrqEn) 5 0 = 0 then .z else .low) ∧
    (s.pwr.mode ≠ .boot → s.pwr.mode ≠ .dormant → s.domOn 78 = true →
      s.ball (.raceTx k) = if s.flag (aRaceCtrl k) 0 then .driven else .z) ∧
    (k < 8 →
      (s.pwr.mode = .boot → s.ball (.stat k) = .low) ∧ (s.pwr.mode = .dormant → s.ball (.stat k) = .z) ∧
      (s.pwr.mode = .sync ∨ s.pwr.mode = .run ∨ s.pwr.mode = .quiet ∨ s.pwr.mode = .shadow →
        s.ball (.stat k) = if s.flag aCueStatOut k then .high else .low) ∧
      (s.pwr.mode = .sluice → s.image.isSome = true → s.ball (.stat k) =
        if s.flag aFltSluiceStat (8 + k) = false then .z else if s.flag aFltSluiceStat k then .high else .low) ∧
      (s.setMode .service).ball (.stat k) = s.ball (.stat k))

/-- R577 to R580, R592 to R594, R601 to R603, R605, R607, with the balls of R674: resets, the application of an image, boot failure, and the requests for
SERVICE, DORMANT and RUN with the entries they lead to.  Every restart goes through BOOT, keeps the fault latch, the recorder and the
clock, and notes its cause. -/
def Obligations.OperatingModes : Prop :=
  ∀ (s : State) (size : Fin 33) (octal selB railHeld slotB level : Bool) (im : Image) (plan : LibPlan)
    (errsA errsB : List (Nat × Byte)) (ms n : Nat) (tests : List (Nat × List Nat)), s.Canonical →
    let restarts (c : Instr) (cause : Nat) : Prop :=
      ∃ u, exec c s = .next u ∧ u.pwr.mode = .boot ∧ u.image = none ∧ u.tiles = [] ∧ u.grid.state = .stopped ∧ u.flag aPwrRstCause cause = true ∧
        u.flt.lock = s.flt.lock ∧ u.rtc = s.rtc ∧
        -- the steward records a domain key whose unwrap fails (R638)
        (mwf 0xFF s.nvm.flash = true → (match ({ flash := s.nvm.flash } : Nvm).newerCopy with
          | some (_, x) => (x.valid0 = true → (s.nvm.fuses.keyOf x.wrap0).isSome = true) ∧ (x.valid1 = true → (s.nvm.fuses.keyOf x.wrap1).isSome = true)
          | none => True) → u.tly.store = s.tly.store)
    let leaves (dormant : Bool) : State :=
      { s with pwr := { s.pwr with leaving := some (s.pwr.leaving.getD (s.grid.tick + 1)), toDormant := s.pwr.toDormant || dormant } }
    let refused := s.setFlag aSysMode 9 true
    let up : Prop := s.domOn 79 = true ∧ s.svc.stewDown = false
    (∃ u, exec (.powerOnReset size octal selB railHeld) s = .next u ∧ u.pwr.mode = .boot ∧ u.image = none ∧ u.flt.lock = false ∧ u.tiles = [] ∧
      u.twin.selB = selB ∧ u.nvm.size = (if 25 ≤ size.val then size.val else 0) ∧
      (size.val < 25 → (∀ a, u.reg a = resetOf a) ∧ u.nvm.flash = s.nvm.flash ∧
        ∀ b, u.rdB b = if railHeld = true ∧ b / 0x40000 = 0x600 then s.rdB b else 0)) ∧
    (s.flt.lock = false → restarts .resetN 2) ∧
    (s.flt.lock = true → exec .resetN s = .next { s.setFlag aPwrRstCause 2 true with svc := {}, nvm := { s.nvm with sess := {}, want := none } }) ∧
    (s.pwr.mode = .boot → s.image = none → s.pwr.bootStage = 9 → (s.asRead errsA errsB).bootSlot = some slotB →
      (s.asRead errsA errsB).bootImage plan = some im → im.march = false →
      ∃ u, exec (.imageApplied plan errsA errsB ms tests) s = .next u ∧ u.image = some im ∧ u.pwr.bootStage = 10 ∧ u.nvm.booted = slotB) ∧
    ((s.asRead errsA errsB).bootSlot = none ∨ s.pwr.mode ≠ .boot → exec (.imageApplied plan errsA errsB ms tests) s = .next s) ∧
    (s.image.isSome = true ∨ s.bootSlot ≠ none ∨ s.pwr.mode ≠ .boot → exec .bootFailure s = .next s) ∧
    (s.pwr.mode = .boot → s.image = none → s.bootSlot = none → ∃ u, exec .bootFailure s = .next u ∧ u.pwr.mode = .sluice ∧ u.pwr.bootFailed = true ∧ u.flt.safe = true ∧
      u.flt.lock = s.flt.lock ∧ u.flag aSvcIrq 2 = true) ∧
    (up → s.graphRuns = true → exec .serviceRequest s = .next (leaves false) ∧ exec .dormantRequest s = .next (leaves true) ∧
      exec .runRequest s = .next refused) ∧
    (up → s.pwr.mode = .boot → exec .serviceRequest s = .next refused ∧ exec .dormantRequest s = .next refused ∧ exec .runRequest s = .next refused) ∧
    (up → s.pwr.mode = .service → exec .serviceRequest s = .next refused ∧ exec .dormantRequest s = .next { s with pwr := { s.pwr with toDormant := true } } ∧
      (s.svc.running.isSome = true → exec .runRequest s = .next { s with pwr := { s.pwr with runReq := true } }) ∧
      (s.svc.running = none → restarts .runRequest 5)) ∧
    (s.graphRuns = true → s.pwr.leaving = some n → (s.grid.tick < n + 33 → exec .serviceEntry s = .next s) ∧
      (n + 33 ≤ s.grid.tick → ∃ u, exec .serviceEntry s = .next u ∧ u.pwr.mode = .service ∧ u.pwr.leaving = none ∧ u.grid.fnOn = false ∧
        u.scn.running = none ∧ (∀ t, (u.tile t).run ≠ .running) ∧
        (∀ i, i < 128 → u.flag (aStrmTx i) 31 = false ∧ u.flag (aStrmRx i) 31 = false))) ∧
    (s.pwr.mode = .service → s.pwr.toDormant = true → s.pwr.wakeHeld = false → ∃ u, exec .dormantEntry s = .next u ∧ u.pwr.mode = .dormant ∧
      u.pwr.toDormant = false ∧ (∀ d, u.domSt d = .off) ∧ u.svc.running = none ∧ u.grid.state = .stopped ∧ u.grid.p = s.grid.p) ∧
    (s.pwr.toDormant = false → exec .dormantEntry s = .next s) ∧
    (s.flag aPwrWake 0 = true → s.flag aPwrWake 1 = level → s.pwr.mode = .dormant → restarts (.wakeBall level) 4) ∧
    (s.flag aPwrWake 0 = true → s.flag aPwrWake 1 = level → s.pwr.mode = .service → s.pwr.toDormant = true →
      exec (.wakeBall level) s = .next { s with pwr := { s.pwr with wakeHeld := true } }) ∧
    (s.fld aPwrWake 31 16 ≠ 0 → s.pwr.mode = .dormant → restarts .rtcAlarm 4) ∧
    (s.pwr.mode ≠ .dormant → exec .rtcAlarm s = .next s) ∧
    Stated.BallsByMode

/-- R584, R585, R590, R591, R595 to R600, R604, R612: temperature readings with their warning, shutdown and restart; power-fail;
regions that gate; QUIET. -/
def Obligations.PowerManagement : Prop :=
  ∀ (s : State) (t : Int) (r : Fin 64) (n : TileNo) (v : Word), s.Canonical → s.flt.armed = none → s.tly.mons = [] → s.twin.on = false →
    (-32768 ≤ t → t < 440 → s.flag aPwrTherm 16 = false → s.flag aPwrTherm 17 = false → ∃ u, exec (.temperatureReading t) s = .next u ∧
      sbits (u.reg aPwrTherm) 15 0 = t ∧ sbits (u.reg aPwrTmax) 15 0 = max (sbits (s.reg aPwrTmax) 15 0) t ∧
      bits (u.reg aPwrTherm) 31 16 = bits (s.reg aPwrTherm) 31 16 ∧ ({ u with regs := s.regs } : State) = s) ∧
    (460 ≤ t → t < 520 → s.flag aPwrTherm 16 = false → s.flag aPwrTherm 17 = false → s.image = none → ∃ u, exec (.temperatureReading t) s = .next u ∧
      u.flag aPwrTherm 16 = true ∧ u.flt.raised = s.flt.raised ++ [{ src := 0x12, unit := 0, cls := 0, detail := t.toNat, pass := s.p32 }]) ∧
    (520 ≤ t → s.flag aPwrTherm 17 = false → s.pwr.mode ≠ .dormant → mwf .off s.pwr.dom = true → ∃ u, exec (.temperatureReading t) s = .next u ∧
      u.flag aPwrTherm 17 = true ∧ u.pwr.mode = .sluice ∧ u.flt.safe = true ∧ u.flt.lock = s.flt.lock ∧ u.pwr.thermal = true ∧
      u.nvm.shutdowns = s.nvm.shutdowns + 1 ∧ (∀ d, d ≠ 76 → d ≠ 79 → u.domSt d = .off) ∧
      (s.nvm.op = none → u.domSt 79 = .off ∧ u.grid.state = .stopped ∧ u.grid.p = s.grid.p)) ∧
    (-32768 ≤ t → t < 440 → s.flag aPwrTherm 16 = false → s.flag aPwrTherm 17 = true → s.pwr.mode = .sluice → s.flt.lock = false → s.pwr.thermal = true → 3 ≤ s.pwr.cool →
      ∃ u, exec (.temperatureReading t) s = .next u ∧ u.pwr.mode = .boot ∧ u.flag aPwrRstCause 3 = true ∧ u.flag aPwrTherm 17 = false) ∧
    (s.flag aPwrPfail 0 = false → s.pwr.mode ≠ .dormant → (∀ r, s.newest = some r → r.rep ≤ s.tly.repAt) → ∃ u, exec .pfailLow s = .next u ∧ u.flag aPwrPfail 0 = true ∧
      u.fld aPwrPfail 31 16 = min 65535 (s.fld aPwrPfail 31 16 + 1) ∧ u.nvm.pfails = s.nvm.pfails + 1 ∧ u.nvm.queue = s.nvm.queue ∧
      ∀ o, u.nvm.op = some o → o.kind ≠ .erase) ∧
    (s.flag aPwrPfail 0 = true ∨ s.pwr.mode = .dormant → exec .pfailLow s = .next s) ∧
    (s.nvm.op = none → s.nvm.waiting = [] → s.nvm.suspended = none →
      exec .pfailRelease s = .next (if s.flag aPwrPfail 0 then s.setFlag aPwrPfail 0 false else s)) ∧
    (s.gateHold r ≠ 0 → r.val ∉ s.pwr.gated → r.val ∉ s.pwr.loud → s.graphRuns = true → s.regionTiles r = [n.val] → exec (.regionGated r) s = .next
      (if s.gateHold r ≤ mget 0 s.pwr.quiet r then
        ((({ s with pwr := { s.pwr with gated := s.pwr.gated ++ [r.val] } } : State).setDom n .retention).setTile n
          { s.tile n with runs := [], run := .idle, waiting := false }).count aPwrGatecnt 15 0 1 else s)) ∧
    (s.quietNow = true → exec .quietEntry s = .next (if max 1 (s.fld aPwrQuiet 31 16) ≤ s.pwr.quietRun then
      ({ s with pwr := { s.pwr with mode := .quiet } } : State).setFlag aSvcIrq 2 true else s)) ∧
    (let t := s.setReg aPwrQuiet (v &&& 0xFFFF0001#32)
     exec (.pwrQuietWrite v) s = .next (({ t with pwr := { s.pwr with quietRun := 0 } } : State).later s.nextPass .quietOff)) ∧
    (s.pwr.mode = .quiet → s.act .quietOff =
      ({ s with pwr := { s.pwr with mode := .run, quietRun := 0 } } : State).setFlag aSvcIrq 2 true)

/-! ## The flash, images and keys -/

/-- R609, R611, R626 to R630, R632: operations of the flash end, well, badly or late; a program only clears bits, an erase sets
them; the steward packs queued records into the next page of the active chain while they fit; a compaction writes the live set page
by page into the spare chain, and with the page of its CHANGEOVER the chains change and the former one is erased; an empty journal is
formatted once chain 0 is erased; the hourly COUNTERS record.  (Nothing else waits for the flash.) -/
def Obligations.FlashAndJournal : Prop :=
  ∀ (s : State) (o : FlashOp) (ok : Bool) (c : Nat), s.nvm.waiting = [] → s.nvm.suspended = none → mwf 0xFF s.nvm.flash = true →
    let n := s.nvm
    let idle := s.nvm.op = none
    let asked (u : State) (e : FlashOp) : Prop := e ∈ u.nvm.waiting ∨ u.nvm.op = some e
    let page (u : State) (w : Compaction) : Prop := asked u
      { kind := .program, prio := 4, use := .compact, addr := 65536 + w.chain * n.chainBytes + 256 * w.page,
        data := pageBytes w.chain w.gen w.page w.next.2.1 w.next.1 }
    let change (gen seq count : Nat) : JRec := { type := 1, data := leBytes 4 gen ++ leBytes 4 seq ++ leBytes 4 count }
    (idle → exec (.pageProgramDone ok) s = .next s ∧ exec (.eraseDone ok) s = .next s ∧ exec .flashReadDone s = .next s ∧ exec .flashTimeout s = .next s) ∧
    (s.nvm.op = some o →
      (o.kind = .program → o.use = .commit →
        (∃ u, exec (.pageProgramDone true) s = .next u ∧ u.nvm.op = none ∧ u.nvm.failRun = 0 ∧ u.nvm.recs = n.recs ++ n.committing ∧
          u.nvm.committing = [] ∧ u.nvm.used = n.used + 1 ∧
          (∀ i, i < o.data.length → u.nvm.fb (o.addr + i) = n.fb (o.addr + i) &&& o.data.getD i 0) ∧
          (∀ a, (a < o.addr ∨ o.addr + o.data.length ≤ a) → u.nvm.fb a = n.fb a)) ∧
        (∃ u new, exec (.pageProgramDone false) s = .next u ∧ u.nvm.op = none ∧ u.nvm.failRun = n.failRun + 1 ∧
          u.nvm.failed = (n.failed || decide (3 ≤ n.failRun + 1)) ∧ u.nvm.recs = n.recs ∧ u.nvm.committing = [] ∧ u.nvm.used = n.used + 1 ∧
          u.nvm.queue = n.committing.filter (fun r => r.type != 0) ++ n.queue ++ new ∧ u.nvm.flash = n.flash)) ∧
      (o.kind = .erase → o.use = .keyStore c → ∃ u p, exec (.eraseDone true) s = .next u ∧ p = { o with kind := .program, prio := 2 } ∧
        (u.nvm.op = some p ∨ u.nvm.waiting = [p]) ∧ ∀ a, u.nvm.fb a = if o.addr ≤ a ∧ a < o.addr + 4096 then 0xFF else n.fb a) ∧
      (o.kind = .erase → o.use = .keyErase c → ∃ u, exec (.eraseDone true) s = .next u ∧ u.nvm.op = none ∧
        ∀ a, u.nvm.fb a = if o.addr ≤ a ∧ a < o.addr + 4096 then 0xFF else n.fb a) ∧
      (o.kind = .erase → o.use = .slotErase c → n.sess.st = .erasing →
        (∃ u, exec (.eraseDone true) s = .next u ∧ u.nvm.sess = { n.sess with st := .open_ } ∧ u.flag aSvcIrq 4 = true ∧
          ∀ a, u.nvm.fb a = if o.addr ≤ a ∧ a < o.addr + 65536 then 0xFF else n.fb a) ∧
        (∃ u, exec (.eraseDone false) s = .next u ∧ u.nvm.sess = { n.sess with st := .failed, err := 7 } ∧ u.svc.ended = some 1 ∧ u.nvm.flash = n.flash)) ∧
      (o.kind = .erase → o.use = .spareErase c → n.format = false →
        (∃ u, exec (.eraseDone true) s = .next u ∧ u.nvm.spareErased = true ∧ u.nvm.op = none) ∧
        (n.failed = false → n.failRun < 2 → ∃ u, exec (.eraseDone false) s = .next u ∧ u.nvm.spareErased = n.spareErased ∧ asked u o)) ∧
      (o.kind = .erase → o.use = .spareErase c → n.format = true → ({ n with flash := flashErase n.flash o.addr 65536 } : Nvm).writtenPages 0 = [] →
        let w : Compaction := { chain := 0, gen := 1, rest := [change 1 0 0], seq := 0 }
        ∃ u, exec (.eraseDone true) s = .next u ∧ u.nvm.work = some w ∧ page u w) ∧
      (∀ w, o.kind = .program → o.use = .compact → n.work = some w → s.pwr.thermal = false →
        let recs := w.recs ++ w.next.1 ++ [{ type := 0, seq := w.next.2.1, data := [] }]
        let done : Compaction := { w with rest := w.next.2.2, page := w.page + 1, seq := (w.next.2.1 + 1) % 2 ^ 32, recs := recs }
        ∃ u, exec (.pageProgramDone true) s = .next u ∧
          (w.next.2.2 ≠ [] → u.nvm.work = some done ∧ page u done ∧ u.nvm.chain = n.chain ∧ u.nvm.recs = n.recs) ∧
          (w.next.2.2 = [] → u.nvm.chain = w.chain ∧ u.nvm.gen = w.gen ∧ u.nvm.used = done.page ∧ u.nvm.seq = done.seq ∧ u.nvm.recs = done.recs ∧
            u.nvm.compacting = false ∧ u.nvm.format = false ∧ u.nvm.work = none ∧
            (s.svc.running = some { kind := 3, arg := 0 } → u.svc.ended = some 1) ∧
            (u.nvm.spareErased = false → ∀ b, b * 65536 < n.chainBytes →
              asked u { kind := .erase, prio := 5, use := .spareErase b, addr := 65536 + (1 - w.chain) * n.chainBytes + 65536 * b }))) ∧
      (∀ w, o.kind = .program → o.use = .compact → n.work = some w → s.pwr.thermal = false → n.failed = false → n.failRun < 2 →
        ∃ u, exec (.pageProgramDone false) s = .next u ∧ u.nvm.flash = n.flash ∧ u.nvm.chain = n.chain ∧
          (if w.page = 0 then u.nvm.work = none ∧ u.nvm.spareErased = false ∧ ∀ b, b * 65536 < n.chainBytes →
              asked u { kind := .erase, prio := 5, use := .spareErase b, addr := 65536 + w.chain * n.chainBytes + 65536 * b }
            else u.nvm.work = some { w with page := w.page + 1 } ∧ page u { w with page := w.page + 1 })) ∧
      (o.kind = .read → exec .flashReadDone s = .next (match o.use with
        | .coldScene _ | .tileWord _ | .restore _ => s
        | .verify => if n.sess.st = .verifying then s else { s with nvm := { n with op := none } }
        | _ => { s with nvm := { n with op := none } })) ∧
      (∃ u, exec .flashTimeout s = .next u ∧ u.nvm.op = none ∧ u.nvm.failed = true ∧ u.nvm.flash = n.flash ∧
        (o.use = .page c → u.nvm.sess = { n.sess with st := .failed, err := 7 } ∧ u.svc.ended = some 1))) ∧
    (n.queue = [] ∨ n.committing ≠ [] ∨ n.compacting = true ∨ n.format = true ∨ n.size = 0 ∨ n.failed = true ∨ s.flt.lock = true ∨ n.chainPages ≤ n.used →
      exec .journalCommit s = .next s) ∧
    (idle → n.queue ≠ [] → n.committing = [] → n.compacting = false → n.format = false → n.size ≠ 0 → n.failed = false → s.flt.lock = false → n.used < n.chainPages →
      s.flag aPwrPfail 0 = false → s.pwr.thermal = false → n.seq < 2 ^ 32 →
      ∃ (rs rest : List JRec), let q := (n.seq + rs.length) % 2 ^ 32
        let room := 244 - if n.used % 16 = 0 then 16 else 0
        rs.map (fun r => (r.type, r.data)) ++ rest.map (fun r => (r.type, r.data)) = n.queue.map (fun r => (r.type, r.data)) ∧
        (∀ i, i < rs.length → (rs.map (fun r => r.seq))[i]? = some ((n.seq + i) % 2 ^ 32)) ∧
        (rs.map (fun r => 12 + (r.data.length + 3) / 4 * 4)).sum ≤ room ∧
        (∀ r, rest.head? = some r → room < (rs.map (fun r => 12 + (r.data.length + 3) / 4 * 4)).sum + (12 + (r.data.length + 3) / 4 * 4)) ∧
        let page := 65536 + n.chain * n.chainBytes + 256 * n.used
        let op : FlashOp := { kind := .program, prio := 2, use := .commit, addr := page, data := pageBytes n.chain n.gen n.used q rs }
        exec .journalCommit s = .next { s with nvm := { n with
          queue := rest, committing := rs ++ [{ type := 0, seq := q, data := [] }], seq := (q + 1) % 2 ^ 32, op := some op } }) ∧
    (s.svc.running = some { kind := 3, arg := 0 } → n.compacting = true → n.format = false → n.failed = false → n.spareErased = true → n.work = none →
      let gen := (n.gen + 1) % 2 ^ 32
      let live := liveSet s.build n.recs
      let w : Compaction := { chain := 1 - n.chain, gen := gen, rest := live ++ [change gen n.seq live.length], seq := n.seq }
      ∃ u, exec .compaction s = .next u ∧ u.nvm.work = some w ∧ page u w ∧ u.nvm.chain = n.chain ∧ u.nvm.recs = n.recs ∧ u.nvm.flash = n.flash) ∧
    (s.svc.running = some { kind := 3, arg := 0 } → n.compacting = true → (n.format = true ∨ n.failed = true) →
      ∃ u, exec .compaction s = .next u ∧ u.nvm.compacting = false ∧ u.svc.ended = some 3 ∧ u.nvm.flash = n.flash) ∧
    (s.svc.running = none → (s.pwr.mode = .run ∨ s.pwr.mode = .service) → s.flt.lock = false → n.size ≠ 0 → exec .compaction s = .next
      (if 3 * n.chainPages ≤ 4 * n.used then Stated.admitted s { kind := 3, arg := 0 } else s)) ∧
    (let totals := leBytes 4 (n.hours + 1) ++ leBytes 4 n.boots ++ leBytes 4 n.fatals ++ leBytes 4 n.shutdowns ++ leBytes 4 n.pfails ++
       leBytes 2 (s.fld aPwrTmax 15 0) ++ [0, 0]
     n.queue.length < 64 → exec .countersRecord s = .next (if s.pwr.mode = .run ∨ s.pwr.mode = .quiet then
       { s with nvm := { n with hours := n.hours + 1, queue := n.queue ++ [{ type := 8, data := totals }] } } else s))

/-- R615, R619, R620: an image is signed when the digest of its key is a burned hash that is not revoked and the signature
verifies over the header and the section table.  Only an image in a slot that passes every check is applied: it is signed, the
digest of every section is right, and its bytes read as the image that runs; the other slot is taken only when the preferred one
fails a check, and FALLBACK tells so. -/
def Obligations.SignedImages : Prop :=
  (∀ (n : Nvm) (base : Nat),
    let h := n.fbs base 64
    let key := leNat ((h.drop 26).take 1)
    let sig := n.fbs (base + leNat ((h.drop 28).take 4)) 128
    let num (i : Nat) : Nat := beNat ((sig.drop (32 * i)).take 32)
    n.signed base = true ↔ key < 4 ∧ key ∉ n.fuses.revoked ∧ (∃ x, mget none n.fuses.hash key = some x ∧ sha256 (sig.take 64) = leBytes 32 x) ∧
      ecdsaOk (sha256 (n.fbs base (64 + 48 * leNat ((h.drop 6).take 2)))) (num 0) (num 1) (num 2) (num 3) = true) ∧
  (∀ (s u : State) (plan : LibPlan) (errsA errsB : List (Nat × Byte)) (ms : Nat) (tests : List (Nat × List Nat)),
    exec (.imageApplied plan errsA errsB ms tests) s = .next u → u ≠ s →
    let t := s.asRead errsA errsB
    s.pwr.mode = .boot ∧ s.image = none ∧ ∃ (b : Bool) (im : Image),
      let base := s.nvm.slotBase b
      let table := entriesOf 48 (leNat (((t.nvm.fbs base 64).drop 6).take 2)) ((t.nvm.signedPart base).drop 64)
      t.nvm.signed base = true ∧
      (∀ e ∈ table, sha256 (t.nvm.fbs (base + leNat ((e.drop 4).take 4)) (leNat ((e.drop 8).take 4))) = (e.drop 16).take 32) ∧
      t.nvm.readSlot base = some im ∧ t.imageFits im = true ∧ u.image = some (planned im plan) ∧ u.nvm.booted = b ∧
      (b = s.nvm.preferred ∨ t.slotRow s.nvm.preferred ≠ 0) ∧ u.nvm.fallback = (s.nvm.preferred != b))

/-- R622, R623, R665: an image write session.  OPEN of a size that fits is admitted as maintenance, whose start erases the other
slot's blocks; PROGRAM and each chunk of DATA program their pages; CLOSE, once they are programmed, asks for a read of the slot and,
with the read, ends it as DONE with a SLOT record, or as FAILED with the first error found; ABORT ends it; what comes out of turn changes nothing but ERR. -/
def Obligations.ImageUpdates : Prop :=
  ∀ (s : State) (id bytes off : Nat) (data : List Byte) (errs digErrs : List (Nat × Byte)), s.Canonical →
    let x := s.nvm.sess
    let n := (s.reg aNvmUpdBytes).toNat
    let at_ := (s.reg aNvmUpdOffset).toNat
    let err (e : Nat) : State := { s with nvm := { s.nvm with sess := { x with err := e } } }
    let asked (u : State) (k : FlashKind) (p : FlashFor) (a : Nat) (d : List Byte) : Prop :=
      ∃ o, (o ∈ u.nvm.waiting ∨ u.nvm.op = some o) ∧ o.kind = k ∧ o.use = p ∧ o.addr = a ∧ o.data = d
    let free : Prop := s.svc.running = none ∧ s.flt.lock = false ∧ s.maintMode 4 = true ∧ x.busy = false ∧ s.nvm.want = none
    let opened (c : Instr) (new : Session) : Prop :=
      exec c s = .next (Stated.admitted { s with nvm := { s.nvm with want := some new } } { kind := 4, arg := 0 })
    let waits : Prop := ∃ o off, (o ∈ s.nvm.waiting ∨ s.nvm.op = some o ∨ s.nvm.suspended = some o) ∧ o.use = .page off
    let closed (c : Instr) (missing : Nat) : Prop :=
      let base := s.nvm.slotBase (!s.nvm.booted)
      let row := failedRows (s.nvm.misread base errs) (s.nvm.misread base digErrs) base
      let bad : Nat := if missing ≠ 0 then 4 else if s.secWiped = true then 9 else if row = 0 then 0 else if row = 4 then 5 else 6
      ∃ u, exec c s = .next u ∧ u.reg aNvmUpdMiss = BitVec.ofNat 32 missing ∧ u.nvm.flash = s.nvm.flash ∧ u.nvm.booted = s.nvm.booted ∧
        (missing = 0 → waits → u.nvm = { s.nvm with sess := { x with st := .verifying } } ∧ u.svc = s.svc) ∧
        (missing = 0 → ¬waits → s.nvm.suspended = none → (∃ o, s.nvm.op = some o ∧ o.kind ≠ .erase ∧ o.use ≠ .verify) → (∀ o ∈ s.nvm.waiting, o.use ≠ .verify) →
          u.nvm = { s.nvm with sess := { x with st := .verifying }, waiting := s.nvm.waiting ++ [{ kind := .read, prio := 3, use := .verify, addr := base }] } ∧
          u.svc = s.svc) ∧
        (missing ≠ 0 ∨ (¬waits ∧ s.nvm.suspended = none ∧ s.nvm.waiting = [] ∧ (s.nvm.op.map (·.use) = some .verify ∨
            ((∀ o, s.nvm.op = some o → o.kind = .erase) ∧ s.nvm.size ≠ 0 ∧ s.pwr.thermal = false))) → u.nvm.sess = { x with st := if bad = 0 then .done else .failed, err := bad } ∧ u.svc.ended = some 1 ∧
          (x.domain = false → s.nvm.queue.length < 64 → u.nvm.queue =
            s.nvm.queue ++ if bad = 0 then [{ type := 2, data := [if s.nvm.booted then 0 else 1, 0, 0, 0] }] else []))
    let aborted (c : Instr) : Prop := ∃ u, exec c s = .next u ∧ u.nvm.sess = {} ∧ u.nvm.want = none ∧ u.nvm.flash = s.nvm.flash ∧
      (∀ o, o ∈ u.nvm.waiting ↔ o ∈ s.nvm.waiting ∧ o.use ≠ .verify ∧ ∀ b, o.use ≠ .slotErase b) ∧ (x.busy = true → u.svc.ended = some 1)
    (s.maintMode 4 = false → exec .updOpen s = .next (err 8)) ∧
    (s.maintMode 4 = true → (x.busy = true ∨ s.nvm.want.isSome = true) → exec .updOpen s = .next (err 1)) ∧
    (s.maintMode 4 = true → x.busy = false → s.nvm.want = none → (n = 0 ∨ s.nvm.slotBytes < n) →
      ∃ u, exec .updOpen s = .next u ∧ u.nvm = { s.nvm with sess := { bytes := n, st := .failed, err := 2 } } ∧ u.svc = s.svc) ∧
    (free → 0 < n → n ≤ s.nvm.slotBytes → opened .updOpen { bytes := n }) ∧
    (∀ a new, s.svc.running = some { kind := 4, arg := 0 } → s.svc.startAt = some a → a ≤ s.grid.tick → s.nvm.want = some new →
      let u := s.act .maint
      u.nvm.sess = { new with st := .erasing } ∧ u.nvm.want = none ∧ u.svc.running = s.svc.running ∧ u.svc.startAt = none ∧
      (s.nvm.queue.length < 64 → u.nvm.queue = s.nvm.queue ++ [{ type := 2, data := [if s.nvm.booted then 1 else 0, 0, 0, 0] }]) ∧
      ∀ b, b * 65536 < new.bytes → asked u .erase (.slotErase b) (s.nvm.slotBase (!s.nvm.booted) + 65536 * b) []) ∧
    ((x.st ≠ .open_ ∨ x.domain = true ∨ s.maintMode 4 = false) → exec .updProgram s = .next (err 8)) ∧
    (x.st = .open_ → x.domain = false → s.maintMode 4 = true →
      ((at_ % 256 ≠ 0 ∨ x.bytes ≤ at_ ∨ at_ / 256 ∈ x.pages) → exec .updProgram s = .next (err 3)) ∧
      (at_ % 256 = 0 → at_ < x.bytes → at_ / 256 ∉ x.pages → ∃ u, exec .updProgram s = .next u ∧
        u.nvm.sess = { x with pages := x.pages ++ [at_ / 256], err := 0 } ∧ u.nvm.flash = s.nvm.flash ∧
        asked u .program (.page at_) (s.nvm.slotBase (!s.nvm.booted) + at_)
          ((List.range 64).flatMap (fun i => leBytes 4 (s.reg (aNvmPage i)).toNat)))) ∧
    ((x.st ≠ .open_ ∧ x.st ≠ .verifying) ∨ x.domain = true → exec (.updClose errs digErrs) s = .next (err 8)) ∧
    (x.st = .open_ ∨ x.st = .verifying → x.domain = false → closed (.updClose errs digErrs) ((x.bytes + 255) / 256 - x.pages.length)) ∧
    aborted .updAbort ∧
    (free → 0 < bytes → bytes ≤ s.nvm.slotBytes → opened (.imageOpen id bytes) { domain := true, id := id, bytes := bytes }) ∧
    (∀ w, s.nvm.want = some w → (w.domain = false → exec (.imageOpen id bytes) s = .next (s.event sevMajor aNvmUpdCtrl 0 0 0 id)) ∧
      (w.domain = true → w.id = id → exec (.imageOpen id bytes) s = .next s)) ∧
    (s.nvm.want = none → x.busy = true → x.domain = false → exec (.imageOpen id bytes) s = .next (s.event sevMajor aNvmUpdCtrl 0 0 0 id)) ∧
    (s.nvm.want = none → x.busy = true → x.domain = true → x.id = id → exec (.imageOpen id bytes) s = .next s) ∧
    (x.st = .open_ → x.domain = true → x.id = id →
      (off % 768 = 0 → off < x.bytes → data.length = min 768 (x.bytes - off) → off / 256 ∉ x.pages → ∃ u, exec (.imageData id off data) s = .next u ∧
        u.nvm.sess = { x with pages := x.pages ++ (List.range ((data.length + 255) / 256)).map (fun i => off / 256 + i) } ∧
        ∀ i, 256 * i < data.length → asked u .program (.page (off + 256 * i)) (s.nvm.slotBase (!s.nvm.booted) + (off + 256 * i)) ((data.drop (256 * i)).take 256)) ∧
      ((off % 768 ≠ 0 ∨ x.bytes ≤ off ∨ data.length ≠ min 768 (x.bytes - off) ∨ off / 256 ∈ x.pages) → exec (.imageData id off data) s = .next s)) ∧
    (x.st = .open_ ∨ x.st = .verifying → x.domain = true → x.id = id →
      closed (.imageClose id errs digErrs) ((List.range ((x.bytes + 767) / 768)).filter (fun c => !x.pages.contains (3 * c))).length) ∧
    (x.st ≠ .open_ ∨ x.domain = false ∨ x.id ≠ id → exec (.imageData id off data) s = .next s) ∧
    ((x.st ≠ .open_ ∧ x.st ≠ .verifying) ∨ x.domain = false ∨ x.id ≠ id → exec (.imageClose id errs digErrs) s = .next s) ∧
    (x.domain = true → x.id = id → aborted (.imageAbort id)) ∧
    (x.domain = false ∨ x.id ≠ id → exec (.imageAbort id) s = .next s)

/-- R529, R636 to R641: the key of a life-cycle transition opens a window of one second, in which a write of an allowed target in
SERVICE burns the fuses, wipes the secure region and restarts the engine; any other target sets ERR.  Key commands in SERVICE burn a
hash, revoke one that is not the last, write or clear a domain key; a refused one sets ERR; each clears NVM_KEYBUF.  A domain key
goes into the older copy of the key store, which is erased for it, wrapped under the device wrap key, with GEN one above. -/
def Obligations.LifeCycleAndKeys : Prop :=
  ∀ (s : State) (v : Word) (slot : Fin 4), s.Canonical →
    let f := s.nvm.fuses
    let target := bits v 17 16
    let word : Nat := leNat ((List.range 8).flatMap (fun i => leBytes 4 (mget 0 s.nvm.keybuf i).toNat))
    let cleared : State := { s with nvm := { s.nvm with keybuf := [] } }
    let refused := cleared.setFlag aNvmKeycmd 8 true
    let allowed : Prop := (f.state = 0 ∧ target = 1 ∧ f.burned 0 = true) ∨ (f.state = 1 ∧ (target = 2 ∨ target = 3)) ∨ (f.state = 2 ∧ target = 3)
    let inTime : Prop := ∃ n, s.nvm.lcOpen = some n ∧ s.grid.tick ≤ n + s.fs
    let keyed (c : Instr) (k : Option Nat) : Prop :=
      if s.pwr.mode = .service ∧ (f.state = 1 ∨ f.state = 2) ∧ slot.val ≤ 1 then
        ∃ u o x, exec c s = .next u ∧ u.nvm.keybuf = [] ∧ u.nvm.fuses = f ∧ u.regs = s.regs ∧
          (o ∈ u.nvm.waiting ∨ u.nvm.op = some o) ∧ o.kind = .erase ∧
          (match s.nvm.newerCopy with
            | some (a, y) => o.use = .keyStore (1 - a) ∧ o.addr = 4096 * (1 - a) ∧ x.gen = (y.gen + 1) % 2 ^ 32 ∧
              (if slot.val = 0 then x.valid1 = y.valid1 ∧ x.wrap1 = y.wrap1 else x.valid0 = y.valid0 ∧ x.wrap0 = y.wrap0)
            | none => o.use = .keyStore 0 ∧ o.addr = 0) ∧
          o.data = KeyCopy.bytes x ∧ u.nvm.keyGen = x.gen ∧ (if slot.val = 0 then x.valid0 else x.valid1) = k.isSome ∧
          (∀ key, k = some key → (if slot.val = 0 then x.wrap0 else x.wrap1) = beBytes 40 (aesWrap f.wrapKey (beNat (leBytes 32 key)))) ∧
          (s.secDead = false → (if slot.val = 0 then u.nvm.slot0 = k else u.nvm.slot1 = k) ∧
            (∀ i, i < 32 → u.rdB (0x18000100 + 32 * slot.val + i) = BitVec.ofNat 8 (k.getD 0 / 256 ^ i)) ∧
            (u.rdB 0x18000140).getLsbD slot = k.isSome ∧
            ∀ b, b < 0x18000000 ∨ 0x18040000 ≤ b → u.rdB b = s.rdB b) ∧
          (s.secDead = true → u.nvm.slot0 = none ∧ u.nvm.slot1 = none ∧ u.mem = s.mem)
      else exec c s = .next refused
    exec (.lcKey v) s = .next { s with nvm := { s.nvm with lcOpen := if v = 0x4C435452#32 then some s.grid.tick else none } } ∧
    (s.domOn 79 = true → s.svc.stewDown = false → target ≠ 0 →
      (s.pwr.mode = .service → inTime → allowed → ∃ u, exec (.lifeCycleTransition v) s = .next u ∧ u.nvm.fuses.state = target ∧
        (f.state = 0 → u.nvm.fuses.wrap = true) ∧ (f.wrap = true → u.nvm.fuses.wrapKey = f.wrapKey) ∧ u.nvm.fuses.hash = f.hash ∧ u.nvm.fuses.revoked = f.revoked ∧ u.pwr.mode = .boot ∧
        u.flag aPwrRstCause 5 = true ∧ u.ms.wiping = true ∧ u.nvm.slot0 = none ∧ u.nvm.slot1 = none ∧
        (∀ b, 0x18000000 ≤ b → b < 0x18040000 → u.rdB b = 0)) ∧
      (s.pwr.mode ≠ .service ∨ ¬inTime ∨ ¬allowed → ∃ u, exec (.lifeCycleTransition v) s = .next u ∧ u.flag aNvmLc 9 = true ∧
        u.nvm = { s.nvm with lcOpen := none } ∧ u.mem = s.mem ∧ u.pwr = s.pwr)) ∧
    (let ok : Prop := s.pwr.mode = .service ∧ f.state ≤ 1 ∧ f.burned slot = false
     (ok → exec (.burnHash slot) s = .next { s with nvm := { s.nvm with keybuf := [], fuses := { f with hash := mset none f.hash slot (some word) } } }) ∧
     (¬ok → exec (.burnHash slot) s = .next refused)) ∧
    (let ok : Prop := s.pwr.mode = .service ∧ (f.state = 1 ∨ f.state = 2) ∧
       ((∃ k, k < 4 ∧ k ≠ slot.val ∧ f.burned k = true ∧ k ∉ f.revoked) ∨ f.burned slot = false)
     (ok → slot.val ∉ f.revoked → exec (.revokeKey slot) s = .next { s with nvm := { s.nvm with keybuf := [], fuses := { f with revoked := f.revoked ++ [slot.val] } } }) ∧
     (ok → slot.val ∈ f.revoked → exec (.revokeKey slot) s = .next cleared) ∧
     (¬ok → exec (.revokeKey slot) s = .next refused)) ∧
    keyed (.setDomainKey slot) (some word) ∧ keyed (.clearDomainKey slot) none

/-! ## The recorder and the service port -/

/-- R649, R652, R653, R657, R664: a MARK of the service port is coalesced into the newest record of its subject, takes the lowest empty
slot, replaces the oldest record that is not more severe, or is dropped and counted.  The reading cursor is set, or a search finds the
oldest record that is newer than the number given. -/
def Obligations.RecorderAndCursor : Prop :=
  ∀ (s : State) (v : Word), mwf none s.tly.store = true → (∀ e ∈ s.tly.store, e.1 < 2048) →
    let sev := bits v 17 16
    let at_ (k : Nat) : Option TRec := mget none s.tly.store k
    let r : TRec := { seq := s.tly.seq, kind := 3, sev := sev, source := bits v 15 0, body := [1, 0] ++ leBytes 4 s.p32 ++ [0xFF, 0xFF] ++ List.replicate 10 0 }
    let same (n : TRec) : Prop := n.kind = 3 ∧ n.source = bits v 15 0 ∧ sev ≤ n.sev
    let irq (u : State) : Prop := u.flag aSvcIrq 0 = (s.flag aSvcIrq 0 || decide (s.fld aSvcIrqEn 9 8 ≤ sev))
    let placed (u : State) (k : Nat) : Prop := irq u ∧
      u.tly = { s.tly with store := mset none s.tly.store k (some r), head := some k, seq := (s.tly.seq + 1) % 2 ^ 32, repAt := 0 } ∧
      ((∀ n, s.newest = some n → n.rep ≤ s.tly.repAt) → (sev < 2 → u.nvm = s.nvm) ∧
        (2 ≤ sev → s.nvm.queue.length < 64 → u.nvm.queue = s.nvm.queue ++ [{ type := 7, data := r.bytes }]))
    (∀ k n, s.tly.head = some k → at_ k = some n → same n → ∃ u, exec (.tlyMark v) s = .next u ∧ irq u ∧ u.nvm = s.nvm ∧
      u.tly = { s.tly with store := mset none s.tly.store k (some { n with rep := min 65535 (n.rep + 1) }) }) ∧
    ((∀ n, s.newest = some n → ¬same n) →
      (∀ k, k < 2048 → at_ k = none → (∀ j, j < k → (at_ j).isSome = true) → ∃ u, exec (.tlyMark v) s = .next u ∧ placed u k) ∧
      ((∀ j, j < 2048 → (at_ j).isSome = true) →
        ((∀ j n, at_ j = some n → sev < n.sev) → exec (.tlyMark v) s = .next (s.count aTlyDrop 31 0 1)) ∧
        (∀ j n, at_ j = some n → n.sev ≤ sev → let age (x : TRec) : Int := seqDiff x.seq ((s.tly.seq + 2 ^ 32 - 1) % 2 ^ 32)
          ∃ u k o, exec (.tlyMark v) s = .next u ∧ placed u k ∧ at_ k = some o ∧ o.sev ≤ sev ∧ age o ≤ age n))) ∧
    exec (.cursorSet v) s = .next (if v.getLsbD 31 then s else { s with tly := { s.tly with slot := bits v 10 0, ready := true, empty := false } }) ∧
    exec (.cursorSearch v) s = .next (if v.getLsbD 31 then { s with tly := { s.tly with ready := false, empty := false } } else s) ∧
    (s.tly.ready = true → exec .cursorReady s = .next s) ∧
    (s.tly.ready = false → let newer (n : TRec) : Prop := 0 < seqDiff n.seq (s.reg aTlyCurseq).toNat
      ∃ u, exec .cursorReady s = .next u ∧ u.flag aSvcIrq 5 = true ∧ u.tly.ready = true ∧ u.tly.store = s.tly.store ∧
        ((∀ j n, at_ j = some n → ¬newer n) → u.tly.empty = true ∧ u.tly.slot = s.tly.slot) ∧
        (∀ j n, at_ j = some n → newer n → u.tly.empty = false ∧ ∃ o, at_ u.tly.slot = some o ∧ newer o ∧ 0 ≤ seqDiff n.seq o.seq))

/-- R645 to R648, R650, R655, R697: the monitors.  EN starts a valid one in the pass after the next, clearing it closes its window at
the end of the pass that recognises it; a close, by hand at the end of such a pass or at the end of WIN passes, moves the values to the
held bank and opens the next window; the closed window's records are written in a later pass as HCFG.REC and the limits say; the hourly
TIME record. -/
def Obligations.MonitorWindows : Prop :=
  ∀ (s : State) (m : Fin 64) (v : Word) (p : Nat),
    let x := s.mon m
    let cfg := s.reg (aTlyMonCfg m)
    let w := v &&& 0xBFBF1FFF#32
    let t := s.setReg (aTlyMonCfg m) w
    let win := s.fld (aTlyMonWin m) 31 0
    let ended : Mon := { x with held := x.cur, heldIx := x.ix, cur := {}, ix := (x.ix + 1) % 2 ^ 32, left := win, due := some s.p32,
                                run := (x.stop.filter (fun e => e.1 ≤ s.grid.tick)).all (fun e => e.2),
                                stop := x.stop.filter (fun e => s.grid.tick < e.1) }
    (v.getLsbD 31 = true → s.flag (aTlyMonCfg m) 31 = false → x.run = false →
      exec (.monitorEnable m v) s = .next (if t.monBad m then t else t.setMon m { x with on := true, first := s.nextPass + 1 })) ∧
    (v.getLsbD 31 = false → s.flag (aTlyMonCfg m) 31 = true →
      (w ||| 0x80000000#32 = cfg → exec (.monitorDisable m v) s = .next (t.setMon m { x with on := false, stop := x.stop ++ [(s.nextPass, false)] })) ∧
      ((w ^^^ cfg) &&& 0x7FFFFFFF#32 ≠ 0 → exec (.monitorDisable m v) s = .next (s.setFlag (aTlyMonCtrl m) 9 true))) ∧
    exec (.monitorClose m) s = .next (if x.on then s.setMon m { x with stop := x.stop ++ [(s.nextPass, true)] } else s) ∧
    (s.tly.mons = [(m.val, x)] → x.run = true → s.windowsStop = if ∃ e ∈ x.stop, e.1 ≤ s.grid.tick then s.setMon m ended else s) ∧
    (win = 0 ∨ x.left ≠ 0 → exec (.windowEnd m) s = .next s) ∧
    (win ≠ 0 → x.left = 0 → x.run = true → exec (.windowEnd m) s = .next (s.setMon m ended)) ∧
    (x.due = none ∨ x.due = some s.p32 → exec (.windowRecords m) s = .next s) ∧
    (x.due = some p → p ≠ s.p32 →
      let h := x.held
      let done := s.setMon m { x with due := none }
      let crossed : Prop := h.count ≠ 0 ∧ ((s.reg (aTlyMonLimHi m)).toInt < h.max ∨ h.min < (s.reg (aTlyMonLimLo m)).toInt)
      let mode := s.fld (aTlyMonHcfg m) 21 20
      let src : Byte := BitVec.ofNat 8 (s.fld (aTlyMonCfg m) 29 24)
      let log : Byte := if s.flag (aTlyMonHcfg m) 31 then 1 else 0
      let value (i : Int) : List Byte := leBytes 4 (BitVec.ofInt 32 i).toNat
      let written (sev : Nat) : State := (done.record 4 sev false m ([src, 0] ++ leBytes 4 p ++ value h.min ++ value h.max ++ leBytes 4 h.count)).record
        5 sev false m ([src, log] ++ (List.range 16).map (fun b => binByte (mget 0 h.bins b)))
      (mode ≠ 1 → mode ≠ 2 → exec (.windowRecords m) s = .next done) ∧
      (mode = 2 → ¬crossed → exec (.windowRecords m) s = .next done) ∧
      (mode = 1 → ¬crossed → exec (.windowRecords m) s = .next (written (s.fld (aTlyMonHcfg m) 25 24))) ∧
      (mode = 1 ∨ mode = 2 → crossed → exec (.windowRecords m) s = .next (written (s.fld (aTlyMonHcfg m) 27 26)))) ∧
    (s.inDomain = false → exec .timeRecord s = .next (if s.grid.tick % (3600 * s.fs) = 0 ∧ s.graphRuns = true then s.timeRec true s.rtc 0 else s)) ∧
    (s.inDomain = true → exec .timeRecord s = .next (if s.grid.p.toNat % (3600 * s.fs) = 0 ∧ s.grid.fnOn = true ∧ s.grid.fnFade = none then
      s.timeRec false (s.grid.p.toNat / s.fs) (s.grid.p.toNat % s.fs * 1000000000 / s.fs) else s))

/-- R660 to R663: requests of the service port.  An interface that is not enabled does not answer; a request while the other
interface runs, with a wrong CRC, an unknown CMD, an unaligned address or a wrong length is answered with its status and makes no
access; the accesses of a request are made in order until one does not complete, and words not accessed read 0; an aborted SPI request
finishes the accesses it started.  SVC_PARAM_GO queues a raw parameter write and answers a RESULT. -/
def Obligations.ServicePort : Prop :=
  ∀ (s : State) (i2c other : Bool) (addr v w w2 : Word) (n cycle : Nat) (data : List Word) (q : SvcReq) (r : NodeRec),
    let up (i : Bool) : Prop := s.domOn 79 = true ∧ s.flag aSvcCfg (if i then 9 else 8) = true
    let t := s.setFlag aSvcStat 1 i2c
    let zeros := List.replicate n (0 : Word)
    let answer (x : State) (status done : Nat) (d : List Word) : State := { x with svc := { x.svc with status := status, done := done, data := d } }
    let crc (right : Bool) (cmd : Byte) (q : SvcReq) : BitVec 16 := if right then reqCrc cmd q else ~~~reqCrc cmd q
    let read (c : Bool) (k : Bool) : Instr :=
      let cmd : Byte := if k then 0x03#8 else 0x09#8
      .svcRead i2c other cmd (crc c cmd { write := false, addr := addr, n := n }) addr n cycle
    let write (c : Bool) (k : Bool) : Instr :=
      let cmd : Byte := if k then 0x02#8 else 0x09#8
      .svcWrite i2c other cmd (crc c cmd { write := true, addr := addr, n := data.length, data := data }) addr data
    let bad := t.count aSvcStat 31 16 1
    (¬up i2c → exec (read true true) s = .next s ∧ exec (write true true) s = .next s) ∧
    (up i2c → other = true → exec (read true true) s = .next (if i2c then s else answer s 8 0 zeros) ∧
      exec (write true true) s = .next (if i2c then s else answer s 8 0 [])) ∧
    (up i2c → other = false →
      exec (read false true) s = .next (answer bad 4 0 zeros) ∧ exec (write false true) s = .next (answer bad 4 0 []) ∧
      exec (read true false) s = .next (answer t 7 0 []) ∧ exec (write true false) s = .next (answer t 7 0 []) ∧
      (addr.toNat % 4 ≠ 0 → exec (read true true) s = .next (answer t 5 0 zeros) ∧ exec (write true true) s = .next (answer t 5 0 [])) ∧
      (addr.toNat % 4 = 0 →
        (n = 0 ∨ 64 < n → exec (read true true) s = .next (answer t 6 0 [])) ∧
        (data.length = 0 ∨ 64 < data.length → exec (write true true) s = .next (answer t 6 0 [])) ∧
        (1 ≤ n → n ≤ 64 → ∃ u, exec (read true true) s = .next u ∧ u.svc.status ≤ 3 ∧ u.svc.done ≤ n ∧ u.svc.data.length = n ∧
          (u.svc.status = 0 → u.svc.done = n) ∧ ∀ i, u.svc.done ≤ i → i < n → u.svc.data[i]? = some 0) ∧
        (1 ≤ data.length → data.length ≤ 64 → ∃ u, exec (write true true) s = .next u ∧ u.svc.status ≤ 3 ∧ u.svc.done ≤ data.length ∧
          u.svc.data = [] ∧ (u.svc.status = 0 → u.svc.done = data.length)) ∧
        (n = 1 → ∃ u, exec (.readClear .svc addr .word cycle) t = .next u ∧ exec (read true true) s = .next (match u.svc.resp with
          | .ok => answer u 0 1 [u.svc.rdata] | .busy => answer u 3 1 [u.svc.rdata] | .error => answer u 1 0 [0] | .hang => answer u 2 0 [0])) ∧
        (n = 2 → ∃ u, exec (.readClear .svc addr .word cycle) t = .next u ∧ (u.svc.resp = .ok →
          ∃ u2, exec (.readClear .svc (addr + 4#32) .word cycle) u = .next u2 ∧ exec (read true true) s = .next (match u2.svc.resp with
            | .ok => answer u2 0 2 [u.svc.rdata, u2.svc.rdata] | .busy => answer u2 3 2 [u.svc.rdata, u2.svc.rdata]
            | .error => answer u2 1 1 [u.svc.rdata, 0] | .hang => answer u2 2 1 [u.svc.rdata, 0]))) ∧
        (data = [w] → ∃ u, exec (.registerWrite .svc addr .word w) t = .next u ∧ exec (write true true) s = .next (match u.svc.resp with
          | .ok => answer u 0 1 [] | .busy => answer u 3 1 [] | .error => answer u 1 0 [] | .hang => answer u 2 0 [])) ∧
        (data = [w, w2] → ∃ u, exec (.registerWrite .svc addr .word w) t = .next u ∧
          (u.svc.resp = .error → exec (write true true) s = .next (answer u 1 0 [])) ∧
          (u.svc.resp = .ok → ∃ u2, exec (.registerWrite .svc (addr + 4#32) .word w2) u = .next u2 ∧
            (u2.svc.resp = .ok → exec (write true true) s = .next (answer u2 0 2 [])))))) ∧
    exec (.spiAbort none n) s = .next s ∧
    (¬up false → exec (.spiAbort (some q) n) s = .next s) ∧
    (up false → exec (.spiAbort (some q) 0) s = .next ((s.setFlag aSvcStat 1 false).setFlag aSvcStat 2 true) ∧
      (∃ u, exec (.spiAbort (some q) n) s = .next u ∧ u.flag aSvcStat 2 = true ∧ u.flag aSvcStat 1 = false) ∧
      (q.write = false → 0 < q.n → ∃ u, exec (.readClear .svc q.addr .word 0) s = .next u ∧
        exec (.spiAbort (some q) 1) s = .next ((u.setFlag aSvcStat 1 false).setFlag aSvcStat 2 true))) ∧
    (s.domOn 79 = true → s.svc.stewDown = false →
      let inst := s.fld aSvcParamId 28 16
      let k := s.fld aSvcParamId 15 0
      let x := s.reg aSvcParamVal
      let result (c : Nat) (y : State) : State := { y with svc := { y.svc with goResult := c } }
      (v.getLsbD 0 = false → exec (.svcParamGo v) s = .next s) ∧
      (v.getLsbD 0 = true → s.decides = false → exec (.svcParamGo v) s = .next (result 4 s)) ∧
      (v.getLsbD 0 = true → s.decides = true →
        (s.node inst = none → exec (.svcParamGo v) s = .next (result 1 s)) ∧
        (s.node inst = some r →
          (r.paramWords ≤ k → exec (.svcParamGo v) s = .next (result 1 s)) ∧
          (k < r.paramWords → v.getLsbD 1 = true → 1024 ≤ s.trims.length → (inst, k) ∉ s.trims → exec (.svcParamGo v) s = .next (result 3 s)) ∧
          (k < r.paramWords → v.getLsbD 1 = false → s.twin.on = false → let c := s.cluster r.cluster
            (c.queue.length < 1024 → exec (.svcParamGo v) s = .next
              (result 0 (s.setCluster r.cluster { c with queue := c.queue ++ [{ inst := inst, param := k, value := (s.codeOf r k).store x }] }))) ∧
            (1024 ≤ c.queue.length → exec (.svcParamGo v) s = .next (result 2 (s.event sevNotice (0x40400000 + 0x1000 * r.cluster) 0 0 0 inst)))))))
end

