-- ==== Sys2Proof/Laws/Exec.lean ====
section
/-!
SUPPORT. Each arm of `exec`, as a rewrite rule.
-/

namespace Sys2Proof.Machine

theorem exec_registerWrite (m : Master) (addr : Word) (size : AccSize) (v : Word) (s : State) : exec (.registerWrite m addr size v) s = execRegisterWrite m addr size v s := rfl
theorem exec_readClear (m : Master) (addr : Word) (size : AccSize) (cycle : Nat) (s : State) : exec (.readClear m addr size cycle) s = execReadClear m addr size cycle s := rfl
theorem exec_loRead (m : Master) (addr : Word) (s : State) : exec (.loRead m addr) s = execLoRead m addr s := rfl
theorem exec_strobe (x : StrobeIn) (s : State) : exec (.strobe x) s = execStrobe x s := rfl
theorem exec_anchoring (s : State) : exec (.anchoring) s = execAnchoring s := rfl
theorem exec_aligned (s : State) : exec (.aligned) s = execAligned s := rfl
theorem exec_exchangeDescriptor (c : ClusterNo) (s : State) : exec (.exchangeDescriptor c) s = execExchangeDescriptor c s := rfl
theorem exec_controlSwitch (n : TileNo) (spent : Nat) (s : State) : exec (.controlSwitch n spent) s = execControlSwitch n spent s := rfl
theorem exec_restart (t : TileNo) (s : State) : exec (.restart t) s = execRestart t s := rfl
theorem exec_eccWordRewrite (a : Word) (s : State) : exec (.eccWordRewrite a) s = execEccWordRewrite a s := rfl
theorem exec_nop (t : TileNo) (last : Bool) (s : State) : exec (.nop t last) s = execNop t last s := rfl
theorem exec_yield (t : TileNo) (last : Bool) (s : State) : exec (.yield t last) s = execYield t last s := rfl
theorem exec_cret (t : TileNo) (last : Bool) (s : State) : exec (.cret t last) s = execCret t last s := rfl
theorem exec_setmodeImm (t : TileNo) (last : Bool) (nosat trunc : Bool) (s : State) : exec (.setmodeImm t last nosat trunc) s = execSetmodeImm t last nosat trunc s := rfl
theorem exec_setmodeS (t : TileNo) (last : Bool) (a : Fin 16) (s : State) : exec (.setmodeS t last a) s = execSetmodeS t last a s := rfl
theorem exec_waits (t : TileNo) (last : Bool) (cycle : BitVec 13) (s : State) : exec (.waits t last cycle) s = execWaits t last cycle s := rfl
theorem exec_gang (t : TileNo) (last : Bool) (sec : Fin 16) (s : State) : exec (.gang t last sec) s = execGang t last sec s := rfl
theorem exec_add (t : TileNo) (last : Bool) (d a b : Fin 16) (sf : Bool) (s : State) : exec (.add t last d a b sf) s = execAdd t last d a b sf s := rfl
theorem exec_sub (t : TileNo) (last : Bool) (d a b : Fin 16) (sf : Bool) (s : State) : exec (.sub t last d a b sf) s = execSub t last d a b sf s := rfl
theorem exec_and (t : TileNo) (last : Bool) (d a b : Fin 16) (sf : Bool) (s : State) : exec (.and t last d a b sf) s = execAnd t last d a b sf s := rfl
theorem exec_or (t : TileNo) (last : Bool) (d a b : Fin 16) (sf : Bool) (s : State) : exec (.or t last d a b sf) s = execOr t last d a b sf s := rfl
theorem exec_xor (t : TileNo) (last : Bool) (d a b : Fin 16) (sf : Bool) (s : State) : exec (.xor t last d a b sf) s = execXor t last d a b sf s := rfl
theorem exec_andn (t : TileNo) (last : Bool) (d a b : Fin 16) (sf : Bool) (s : State) : exec (.andn t last d a b sf) s = execAndn t last d a b sf s := rfl
theorem exec_shl (t : TileNo) (last : Bool) (d a b : Fin 16) (sf : Bool) (s : State) : exec (.shl t last d a b sf) s = execShl t last d a b sf s := rfl
theorem exec_shr (t : TileNo) (last : Bool) (d a b : Fin 16) (sf : Bool) (s : State) : exec (.shr t last d a b sf) s = execShr t last d a b sf s := rfl
theorem exec_asr (t : TileNo) (last : Bool) (d a b : Fin 16) (sf : Bool) (s : State) : exec (.asr t last d a b sf) s = execAsr t last d a b sf s := rfl
theorem exec_min (t : TileNo) (last : Bool) (d a b : Fin 16) (sf : Bool) (s : State) : exec (.min t last d a b sf) s = execMin t last d a b sf s := rfl
theorem exec_max (t : TileNo) (last : Bool) (d a b : Fin 16) (sf : Bool) (s : State) : exec (.max t last d a b sf) s = execMax t last d a b sf s := rfl
theorem exec_minu (t : TileNo) (last : Bool) (d a b : Fin 16) (sf : Bool) (s : State) : exec (.minu t last d a b sf) s = execMinu t last d a b sf s := rfl
theorem exec_maxu (t : TileNo) (last : Bool) (d a b : Fin 16) (sf : Bool) (s : State) : exec (.maxu t last d a b sf) s = execMaxu t last d a b sf s := rfl
theorem exec_mull (t : TileNo) (last : Bool) (d a b : Fin 16) (sf : Bool) (s : State) : exec (.mull t last d a b sf) s = execMull t last d a b sf s := rfl
theorem exec_mulh (t : TileNo) (last : Bool) (d a b : Fin 16) (sf : Bool) (s : State) : exec (.mulh t last d a b sf) s = execMulh t last d a b sf s := rfl
theorem exec_abs (t : TileNo) (last : Bool) (d a : Fin 16) (sf : Bool) (s : State) : exec (.abs t last d a sf) s = execAbs t last d a sf s := rfl
theorem exec_neg (t : TileNo) (last : Bool) (d a : Fin 16) (sf : Bool) (s : State) : exec (.neg t last d a sf) s = execNeg t last d a sf s := rfl
theorem exec_cls (t : TileNo) (last : Bool) (d a : Fin 16) (sf : Bool) (s : State) : exec (.cls t last d a sf) s = execCls t last d a sf s := rfl
theorem exec_clz (t : TileNo) (last : Bool) (d a : Fin 16) (sf : Bool) (s : State) : exec (.clz t last d a sf) s = execClz t last d a sf s := rfl
theorem exec_cmp (t : TileNo) (last : Bool) (a b : Fin 16) (s : State) : exec (.cmp t last a b) s = execCmp t last a b s := rfl
theorem exec_tst (t : TileNo) (last : Bool) (a b : Fin 16) (s : State) : exec (.tst t last a b) s = execTst t last a b s := rfl
theorem exec_addsat (t : TileNo) (last : Bool) (d a b : Fin 16) (sf : Bool) (s : State) : exec (.addsat t last d a b sf) s = execAddsat t last d a b sf s := rfl
theorem exec_subsat (t : TileNo) (last : Bool) (d a b : Fin 16) (sf : Bool) (s : State) : exec (.subsat t last d a b sf) s = execSubsat t last d a b sf s := rfl
theorem exec_addi (t : TileNo) (last : Bool) (d a : Fin 16) (imm : BitVec 8) (s : State) : exec (.addi t last d a imm) s = execAddi t last d a imm s := rfl
theorem exec_andi (t : TileNo) (last : Bool) (d a : Fin 16) (imm : BitVec 8) (s : State) : exec (.andi t last d a imm) s = execAndi t last d a imm s := rfl
theorem exec_ori (t : TileNo) (last : Bool) (d a : Fin 16) (imm : BitVec 8) (s : State) : exec (.ori t last d a imm) s = execOri t last d a imm s := rfl
theorem exec_xori (t : TileNo) (last : Bool) (d a : Fin 16) (imm : BitVec 8) (s : State) : exec (.xori t last d a imm) s = execXori t last d a imm s := rfl
theorem exec_shli (t : TileNo) (last : Bool) (d a : Fin 16) (amt : Fin 32) (s : State) : exec (.shli t last d a amt) s = execShli t last d a amt s := rfl
theorem exec_shri (t : TileNo) (last : Bool) (d a : Fin 16) (amt : Fin 32) (s : State) : exec (.shri t last d a amt) s = execShri t last d a amt s := rfl
theorem exec_asri (t : TileNo) (last : Bool) (d a : Fin 16) (amt : Fin 32) (s : State) : exec (.asri t last d a amt) s = execAsri t last d a amt s := rfl
theorem exec_cmpi (t : TileNo) (last : Bool) (a : Fin 16) (imm : BitVec 8) (s : State) : exec (.cmpi t last a imm) s = execCmpi t last a imm s := rfl
theorem exec_mini (t : TileNo) (last : Bool) (d a : Fin 16) (imm : BitVec 8) (s : State) : exec (.mini t last d a imm) s = execMini t last d a imm s := rfl
theorem exec_maxi (t : TileNo) (last : Bool) (d a : Fin 16) (imm : BitVec 8) (s : State) : exec (.maxi t last d a imm) s = execMaxi t last d a imm s := rfl
theorem exec_ldi (t : TileNo) (last : Bool) (d : Fin 16) (imm : BitVec 16) (s : State) : exec (.ldi t last d imm) s = execLdi t last d imm s := rfl
theorem exec_ldih (t : TileNo) (last : Bool) (d : Fin 16) (imm : BitVec 16) (s : State) : exec (.ldih t last d imm) s = execLdih t last d imm s := rfl
theorem exec_movx (t : TileNo) (last : Bool) (dst : MovDst) (src : MovSrc) (s : State) : exec (.movx t last dst src) s = execMovx t last dst src s := rfl
theorem exec_b (t : TileNo) (last : Bool) (cond : Cond) (annul : Bool) (target : BundleIx) (s : State) : exec (.b t last cond annul target) s = execB t last cond annul target s := rfl
theorem exec_bal (t : TileNo) (last : Bool) (cond : Cond) (annul : Bool) (target : BundleIx) (s : State) : exec (.bal t last cond annul target) s = execBal t last cond annul target s := rfl
theorem exec_br (t : TileNo) (last : Bool) (cond : Cond) (annul : Bool) (a : Fin 16) (s : State) : exec (.br t last cond annul a) s = execBr t last cond annul a s := rfl
theorem exec_loop (t : TileNo) (last : Bool) (a : Fin 16) (lend : BundleIx) (s : State) : exec (.loop t last a lend) s = execLoop t last a lend s := rfl
theorem exec_loopi (t : TileNo) (last : Bool) (count : BitVec 9) (lend : BundleIx) (s : State) : exec (.loopi t last count lend) s = execLoopi t last count lend s := rfl
theorem exec_rpt (t : TileNo) (last : Bool) (count : RptCount) (s : State) : exec (.rpt t last count) s = execRpt t last count s := rfl
theorem exec_rcp (t : TileNo) (last : Bool) (d a : Fin 16) (s : State) : exec (.rcp t last d a) s = execRcp t last d a s := rfl
theorem exec_rsq (t : TileNo) (last : Bool) (d a : Fin 16) (s : State) : exec (.rsq t last d a) s = execRsq t last d a s := rfl
theorem exec_log2 (t : TileNo) (last : Bool) (d a : Fin 16) (s : State) : exec (.log2 t last d a) s = execLog2 t last d a s := rfl
theorem exec_exp2 (t : TileNo) (last : Bool) (d a : Fin 16) (s : State) : exec (.exp2 t last d a) s = execExp2 t last d a s := rfl
theorem exec_div (t : TileNo) (last : Bool) (d a b : Fin 16) (s : State) : exec (.div t last d a b) s = execDiv t last d a b s := rfl
theorem exec_lds (t : TileNo) (last : Bool) (r : SReg) (ptr : Fin 8) (post : Post) (rot : Bool) (off : Fin 16) (s : State) : exec (.lds t last r ptr post rot off) s = execLds t last r ptr post rot off s := rfl
theorem exec_sts (t : TileNo) (last : Bool) (r : SReg) (ptr : Fin 8) (post : Post) (rot : Bool) (off : Fin 16) (s : State) : exec (.sts t last r ptr post rot off) s = execSts t last r ptr post rot off s := rfl
theorem exec_ldv (t : TileNo) (last : Bool) (v : Fin 16) (ptr : Fin 8) (post : Post) (off : Fin 32) (s : State) : exec (.ldv t last v ptr post off) s = execLdv t last v ptr post off s := rfl
theorem exec_stv (t : TileNo) (last : Bool) (v : Fin 16) (ptr : Fin 8) (post : Post) (off : Fin 32) (s : State) : exec (.stv t last v ptr post off) s = execStv t last v ptr post off s := rfl
theorem exec_ldb (t : TileNo) (last : Bool) (v : Fin 16) (ptr : Fin 8) (post : Post) (off : Fin 32) (s : State) : exec (.ldb t last v ptr post off) s = execLdb t last v ptr post off s := rfl
theorem exec_ldl (t : TileNo) (last : Bool) (v : Fin 16) (lane : Fin 4) (ptr : Fin 8) (post : Post) (p3 : Bool) (off : Fin 16) (s : State) : exec (.ldl t last v lane ptr post p3 off) s = execLdl t last v lane ptr post p3 off s := rfl
theorem exec_stl (t : TileNo) (last : Bool) (v : Fin 16) (lane : Fin 4) (ptr : Fin 8) (post : Post) (p3 : Bool) (off : Fin 16) (s : State) : exec (.stl t last v lane ptr post p3 off) s = execStl t last v lane ptr post p3 off s := rfl
theorem exec_ldd (t : TileNo) (last : Bool) (pair : Fin 8) (pa : Fin 8) (posta : Post) (pb : Fin 8) (postb : Post) (bc : Bool) (s : State) : exec (.ldd t last pair pa posta pb postb bc) s = execLdd t last pair pa posta pb postb bc s := rfl
theorem exec_sta (t : TileNo) (last : Bool) (acc : Fin 2) (conv : Conv) (ptr : Fin 8) (post : Post) (sel : StaLanes) (s : State) : exec (.sta t last acc conv ptr post sel) s = execSta t last acc conv ptr post sel s := rfl
theorem exec_lea (t : TileNo) (last : Bool) (pd pa : Fin 8) (imm : BitVec 10) (s : State) : exec (.lea t last pd pa imm) s = execLea t last pd pa imm s := rfl
theorem exec_stepPtr (t : TileNo) (last : Bool) (ptr : Fin 8) (s : State) : exec (.stepPtr t last ptr) s = execStepPtr t last ptr s := rfl
theorem exec_mul (t : TileNo) (last : Bool) (form : MacForm) (acc : Fin 2) (va vb : Fin 16) (s : State) : exec (.mul t last form acc va vb) s = execMul t last form acc va vb s := rfl
theorem exec_mac (t : TileNo) (last : Bool) (form : MacForm) (acc : Fin 2) (va vb : Fin 16) (s : State) : exec (.mac t last form acc va vb) s = execMac t last form acc va vb s := rfl
theorem exec_msu (t : TileNo) (last : Bool) (form : MacForm) (acc : Fin 2) (va vb : Fin 16) (s : State) : exec (.msu t last form acc va vb) s = execMsu t last form acc va vb s := rfl
theorem exec_cvt (t : TileNo) (last : Bool) (vd : Fin 16) (acc : Fin 2) (conv : Conv) (s : State) : exec (.cvt t last vd acc conv) s = execCvt t last vd acc conv s := rfl
theorem exec_clr (t : TileNo) (last : Bool) (acc : Fin 2) (s : State) : exec (.clr t last acc) s = execClr t last acc s := rfl
theorem exec_lda (t : TileNo) (last : Bool) (acc : Fin 2) (v : Fin 16) (s : State) : exec (.lda t last acc v) s = execLda t last acc v s := rfl
theorem exec_adda (t : TileNo) (last : Bool) (acc : Fin 2) (v : Fin 16) (s : State) : exec (.adda t last acc v) s = execAdda t last acc v s := rfl
theorem exec_suba (t : TileNo) (last : Bool) (acc : Fin 2) (v : Fin 16) (s : State) : exec (.suba t last acc v) s = execSuba t last acc v s := rfl
theorem exec_suma (t : TileNo) (last : Bool) (acc : Fin 2) (s : State) : exec (.suma t last acc) s = execSuma t last acc s := rfl
theorem exec_vadd (t : TileNo) (last : Bool) (vd va vb : Fin 16) (s : State) : exec (.vadd t last vd va vb) s = execVadd t last vd va vb s := rfl
theorem exec_vsub (t : TileNo) (last : Bool) (vd va vb : Fin 16) (s : State) : exec (.vsub t last vd va vb) s = execVsub t last vd va vb s := rfl
theorem exec_vadds (t : TileNo) (last : Bool) (vd va vb : Fin 16) (s : State) : exec (.vadds t last vd va vb) s = execVadds t last vd va vb s := rfl
theorem exec_vsubs (t : TileNo) (last : Bool) (vd va vb : Fin 16) (s : State) : exec (.vsubs t last vd va vb) s = execVsubs t last vd va vb s := rfl
theorem exec_vmin (t : TileNo) (last : Bool) (vd va vb : Fin 16) (s : State) : exec (.vmin t last vd va vb) s = execVmin t last vd va vb s := rfl
theorem exec_vmax (t : TileNo) (last : Bool) (vd va vb : Fin 16) (s : State) : exec (.vmax t last vd va vb) s = execVmax t last vd va vb s := rfl
theorem exec_vabs (t : TileNo) (last : Bool) (vd va : Fin 16) (s : State) : exec (.vabs t last vd va) s = execVabs t last vd va s := rfl
theorem exec_vneg (t : TileNo) (last : Bool) (vd va : Fin 16) (s : State) : exec (.vneg t last vd va) s = execVneg t last vd va s := rfl
theorem exec_vand (t : TileNo) (last : Bool) (vd va vb : Fin 16) (s : State) : exec (.vand t last vd va vb) s = execVand t last vd va vb s := rfl
theorem exec_vor (t : TileNo) (last : Bool) (vd va vb : Fin 16) (s : State) : exec (.vor t last vd va vb) s = execVor t last vd va vb s := rfl
theorem exec_vxor (t : TileNo) (last : Bool) (vd va vb : Fin 16) (s : State) : exec (.vxor t last vd va vb) s = execVxor t last vd va vb s := rfl
theorem exec_vandn (t : TileNo) (last : Bool) (vd va vb : Fin 16) (s : State) : exec (.vandn t last vd va vb) s = execVandn t last vd va vb s := rfl
theorem exec_vcmpgt (t : TileNo) (last : Bool) (vd va vb : Fin 16) (s : State) : exec (.vcmpgt t last vd va vb) s = execVcmpgt t last vd va vb s := rfl
theorem exec_vcmpeq (t : TileNo) (last : Bool) (vd va vb : Fin 16) (s : State) : exec (.vcmpeq t last vd va vb) s = execVcmpeq t last vd va vb s := rfl
theorem exec_vmov (t : TileNo) (last : Bool) (vd va : Fin 16) (s : State) : exec (.vmov t last vd va) s = execVmov t last vd va s := rfl
theorem exec_vshl (t : TileNo) (last : Bool) (vd va : Fin 16) (amt : Fin 32) (s : State) : exec (.vshl t last vd va amt) s = execVshl t last vd va amt s := rfl
theorem exec_vshr (t : TileNo) (last : Bool) (vd va : Fin 16) (amt : Fin 32) (s : State) : exec (.vshr t last vd va amt) s = execVshr t last vd va amt s := rfl
theorem exec_vasr (t : TileNo) (last : Bool) (vd va : Fin 16) (amt : Fin 32) (s : State) : exec (.vasr t last vd va amt) s = execVasr t last vd va amt s := rfl
theorem exec_vshls (t : TileNo) (last : Bool) (vd va : Fin 16) (amt : Fin 32) (s : State) : exec (.vshls t last vd va amt) s = execVshls t last vd va amt s := rfl
theorem exec_vperm (t : TileNo) (last : Bool) (vd va : Fin 16) (sel : BitVec 8) (s : State) : exec (.vperm t last vd va sel) s = execVperm t last vd va sel s := rfl
theorem exec_learnedFloor (inst : Nat) (s : State) : exec (.learnedFloor inst) s = execLearnedFloor inst s := rfl
theorem exec_scnRecall (v : Word) (s : State) : exec (.scnRecall v) s = execScnRecall v s := rfl
theorem exec_startPass (s : State) : exec (.startPass) s = execStartPass s := rfl
theorem exec_audibleStart (s : State) : exec (.audibleStart) s = execAudibleStart s := rfl
theorem exec_swapPass (s : State) : exec (.swapPass) s = execSwapPass s := rfl
theorem exec_recallComplete (s : State) : exec (.recallComplete) s = execRecallComplete s := rfl
theorem exec_coldFetch (scene : Nat) (errs : List (Nat × Byte)) (s : State) : exec (.coldFetch scene errs) s = execColdFetch scene errs s := rfl
theorem exec_coldFetchLate (s : State) : exec (.coldFetchLate) s = execColdFetchLate s := rfl
theorem exec_hotRecordRefetch (scene : Nat) (s : State) : exec (.hotRecordRefetch scene) s = execHotRecordRefetch scene s := rfl
theorem exec_dealMsg (h : MsgHdr) (d : DealMsg) (s : State) : exec (.dealMsg h d) s = execDealMsg h d s := rfl
theorem exec_dealDue (s : State) : exec (.dealDue) s = execDealDue s := rfl
theorem exec_dealAck (h : MsgHdr) (id : BitVec 32) (scene status : Nat) (p : PassIx) (s : State) : exec (.dealAck h id scene status p) s = execDealAck h id scene status p s := rfl
theorem exec_dealAckDeadline (s : State) : exec (.dealAckDeadline) s = execDealAckDeadline s := rfl
theorem exec_dealCancel (h : MsgHdr) (id : BitVec 32) (s : State) : exec (.dealCancel h id) s = execDealCancel h id s := rfl
theorem exec_cuePinEdge (pin : Fin 16) (s : State) : exec (.cuePinEdge pin) s = execCuePinEdge pin s := rfl
theorem exec_cuePinStale (pin : Fin 16) (s : State) : exec (.cuePinStale pin) s = execCuePinStale pin s := rfl
theorem exec_timeTrigger (ix : Fin 1024) (s : State) : exec (.timeTrigger ix) s = execTimeTrigger ix s := rfl
theorem exec_timedCue (s : State) : exec (.timedCue) s = execTimedCue s := rfl
theorem exec_cueMsg (h : MsgHdr) (n level : Nat) (time : Option (Nat × Nat)) (s : State) : exec (.cueMsg h n level time) s = execCueMsg h n level time s := rfl
theorem exec_statStuck (pin : Fin 8) (s : State) : exec (.statStuck pin) s = execStatStuck pin s := rfl
theorem exec_pulseEnd (pin : Fin 8) (s : State) : exec (.pulseEnd pin) s = execPulseEnd pin s := rfl
theorem exec_portEnable (k : PortNo) (v : Word) (s : State) : exec (.portEnable k v) s = execPortEnable k v s := rfl
theorem exec_portDisable (k : PortNo) (v : Word) (s : State) : exec (.portDisable k v) s = execPortDisable k v s := rfl
theorem exec_portLock (k : PortNo) (e : Nat) (s : State) : exec (.portLock k e) s = execPortLock k e s := rfl
theorem exec_runinEnd (k : PortNo) (s : State) : exec (.runinEnd k) s = execRuninEnd k s := rfl
theorem exec_portRampEnd (k : PortNo) (s : State) : exec (.portRampEnd k) s = execPortRampEnd k s := rfl
theorem exec_portStop (k : PortNo) (s : State) : exec (.portStop k) s = execPortStop k s := rfl
theorem exec_tdmFrame (k : PortNo) (out : Bool) (e len : Nat) (agree : Bool) (din : List Bool) (s : State) : exec (.tdmFrame k out e len agree din) s = execTdmFrame k out e len agree din s := rfl
theorem exec_frameLoss (k : PortNo) (s : State) : exec (.frameLoss k) s = execFrameLoss k s := rfl
theorem exec_portStuck (k : PortNo) (fsync level : Bool) (s : State) : exec (.portStuck k fsync level) s = execPortStuck k fsync level s := rfl
theorem exec_portRecovery (k : PortNo) (s : State) : exec (.portRecovery k) s = execPortRecovery k s := rfl
theorem exec_rateMeasurement (k : PortNo) (cycles : Nat) (s : State) : exec (.rateMeasurement k cycles) s = execRateMeasurement k cycles s := rfl
theorem exec_nonAudioRelease (k : PortNo) (pair : Fin 16) (s : State) : exec (.nonAudioRelease k pair) s = execNonAudioRelease k pair s := rfl
theorem exec_pdmEnable (v : Word) (s : State) : exec (.pdmEnable v) s = execPdmEnable v s := rfl
theorem exec_pdmDisable (v : Word) (s : State) : exec (.pdmDisable v) s = execPdmDisable v s := rfl
theorem exec_micEnable (v : Word) (s : State) : exec (.micEnable v) s = execMicEnable v s := rfl
theorem exec_micDisable (v : Word) (s : State) : exec (.micDisable v) s = execMicDisable v s := rfl
theorem exec_trimWrite (ix : Fin 4) (v : Word) (s : State) : exec (.trimWrite ix v) s = execTrimWrite ix v s := rfl
theorem exec_settleEnd (m : MicNo) (s : State) : exec (.settleEnd m) s = execSettleEnd m s := rfl
theorem exec_pdmDataStuck (m : MicNo) (s : State) : exec (.pdmDataStuck m) s = execPdmDataStuck m s := rfl
theorem exec_pdmDataRecovery (m : MicNo) (s : State) : exec (.pdmDataRecovery m) s = execPdmDataRecovery m s := rfl
theorem exec_pdmClkStuck (clk : Fin 2) (level : Bool) (s : State) : exec (.pdmClkStuck clk level) s = execPdmClkStuck clk level s := rfl
theorem exec_pdmClkRecovery (clk : Fin 2) (s : State) : exec (.pdmClkRecovery clk) s = execPdmClkRecovery clk s := rfl
theorem exec_srcEnable (c : Fin 8) (v : Word) (s : State) : exec (.srcEnable c v) s = execSrcEnable c v s := rfl
theorem exec_srcDisable (c : Fin 8) (v : Word) (s : State) : exec (.srcDisable c v) s = execSrcDisable c v s := rfl
theorem exec_converterLocked (c : Fin 8) (s : State) : exec (.converterLocked c) s = execConverterLocked c s := rfl
theorem exec_refBlockEnd (code : Fin 20) (cycles : Nat) (s : State) : exec (.refBlockEnd code cycles) s = execRefBlockEnd code cycles s := rfl
theorem exec_refEdgeLoss (code : Fin 20) (s : State) : exec (.refEdgeLoss code) s = execRefEdgeLoss code s := rfl
theorem exec_wtrExpiry (entry : Fin 8) (s : State) : exec (.wtrExpiry entry) s = execWtrExpiry entry s := rfl
theorem exec_refPrioWrite (second : Bool) (v : Word) (s : State) : exec (.refPrioWrite second v) s = execRefPrioWrite second v s := rfl
theorem exec_clockLock (e : Int) (s : State) : exec (.clockLock e) s = execClockLock e s := rfl
theorem exec_lockLoss (e : Int) (s : State) : exec (.lockLoss e) s = execLockLoss e s := rfl
theorem exec_holdoverAverage (s : State) : exec (.holdoverAverage) s = execHoldoverAverage s := rfl
theorem exec_holdoverLimit (s : State) : exec (.holdoverLimit) s = execHoldoverLimit s := rfl
theorem exec_clkCtrlWrite (v : Word) (s : State) : exec (.clkCtrlWrite v) s = execClkCtrlWrite v s := rfl
theorem exec_syncArm (v : Word) (s : State) : exec (.syncArm v) s = execSyncArm v s := rfl
theorem exec_dividerSync (s : State) : exec (.dividerSync) s = execDividerSync s := rfl
theorem exec_syncInEdge (rising : Bool) (cycle : Nat) (s : State) : exec (.syncInEdge rising cycle) s = execSyncInEdge rising cycle s := rfl
theorem exec_refMonitor (count : Nat) (s : State) : exec (.refMonitor count) s = execRefMonitor count s := rfl
theorem exec_coreLockLoss (s : State) : exec (.coreLockLoss) s = execCoreLockLoss s := rfl
theorem exec_coreFrequency (count : Nat) (s : State) : exec (.coreFrequency count) s = execCoreFrequency count s := rfl
theorem exec_netLockLoss (s : State) : exec (.netLockLoss) s = execNetLockLoss s := rfl
theorem exec_linkStatus (one up half : Bool) (speed : Fin 3) (s : State) : exec (.linkStatus one up half speed) s = execLinkStatus one up half speed s := rfl
theorem exec_ethFrame (one : Bool) (f : EthFrame) (s : State) : exec (.ethFrame one f) s = execEthFrame one f s := rfl
theorem exec_mdioGo (v : Word) (s : State) : exec (.mdioGo v) s = execMdioGo v s := rfl
theorem exec_mdioDone (data : BitVec 16) (s : State) : exec (.mdioDone data) s = execMdioDone data s := rfl
theorem exec_ptpSync (one : Bool) (dom : Nat) (cycle stay : Int) (seq : Nat) (sender : PtpFrom) (twoStep : Bool) (sec ns : Nat) (corr : Int) (s : State) : exec (.ptpSync one dom cycle stay seq sender twoStep sec ns corr) s = execPtpSync one dom cycle stay seq sender twoStep sec ns corr s := rfl
theorem exec_followUp (one : Bool) (dom : Nat) (seq : PtpSeq) (sec ns : Nat) (corr : Int) (s : State) : exec (.followUp one dom seq sec ns corr) s = execFollowUp one dom seq sec ns corr s := rfl
theorem exec_delayResp (one : Bool) (dom : Nat) (seq : PtpReply) (sec ns : Nat) (corr : Int) (s : State) : exec (.delayResp one dom seq sec ns corr) s = execDelayResp one dom seq sec ns corr s := rfl
theorem exec_delayReq (one : Bool) (dom : Nat) (cycle stay : Int) (seq : PtpSeq) (corr : Int) (s : State) : exec (.delayReq one dom cycle stay seq corr) s = execDelayReq one dom cycle stay seq corr s := rfl
theorem exec_announceMsg (one : Bool) (dom : Nat) (d : AnnData) (s : State) : exec (.announceMsg one dom d) s = execAnnounceMsg one dom d s := rfl
theorem exec_ptpTimeValid (s : State) : exec (.ptpTimeValid) s = execPtpTimeValid s := rfl
theorem exec_syncTimeout (s : State) : exec (.syncTimeout) s = execSyncTimeout s := rfl
theorem exec_announceTimeout (s : State) : exec (.announceTimeout) s = execAnnounceTimeout s := rfl
theorem exec_syncSend (cycle : Int × Int) (s : State) : exec (.syncSend cycle) s = execSyncSend cycle s := rfl
theorem exec_announceSend (s : State) : exec (.announceSend) s = execAnnounceSend s := rfl
theorem exec_delayReqSend (cycle : Int) (s : State) : exec (.delayReqSend cycle) s = execDelayReqSend cycle s := rfl
theorem exec_tsetGo (v : Word) (s : State) : exec (.tsetGo v) s = execTsetGo v s := rfl
theorem exec_timeNsRead (cycle : Nat) (s : State) : exec (.timeNsRead cycle) s = execTimeNsRead cycle s := rfl
theorem exec_captureEdge (k : Fin 4) (falling : Bool) (cycle : Nat) (s : State) : exec (.captureEdge k falling cycle) s = execCaptureEdge k falling cycle s := rfl
theorem exec_capNsRead (k : Fin 4) (s : State) : exec (.capNsRead k) s = execCapNsRead k s := rfl
theorem exec_igmpQuery (one : Bool) (group : Word) (maxMs : Nat) (s : State) : exec (.igmpQuery one group maxMs) s = execIgmpQuery one group maxMs s := rfl
theorem exec_arpRequest (one : Bool) (ask : ArpAsk) (s : State) : exec (.arpRequest one ask) s = execArpRequest one ask s := rfl
theorem exec_echoRequest (one : Bool) (ask : EchoAsk) (s : State) : exec (.echoRequest one ask) s = execEchoRequest one ask s := rfl
theorem exec_streamPacket (one : Bool) (c : Nat) (p : RtpPacket) (s : State) : exec (.streamPacket one c p) s = execStreamPacket one c p s := rfl
theorem exec_streamRamp (j : StreamNo) (s : State) : exec (.streamRamp j) s = execStreamRamp j s := rfl
theorem exec_supervisionFrame (s : State) : exec (.supervisionFrame) s = execSupervisionFrame s := rfl
theorem exec_nodeEntryExpiry (src : Nat) (s : State) : exec (.nodeEntryExpiry src) s = execNodeEntryExpiry src s := rfl
theorem exec_raceLinkEnable (k : LinkNo) (v : Word) (s : State) : exec (.raceLinkEnable k v) s = execRaceLinkEnable k v s := rfl
theorem exec_raceFrame (k : LinkNo) (f : RaceIn) (s : State) : exec (.raceFrame k f) s = execRaceFrame k f s := rfl
theorem exec_raceSync (k : LinkNo) (s : State) : exec (.raceSync k) s = execRaceSync k s := rfl
theorem exec_raceSyncLoss (k : LinkNo) (s : State) : exec (.raceSyncLoss k) s = execRaceSyncLoss k s := rfl
theorem exec_raceCommit (s : State) : exec (.raceCommit) s = execRaceCommit s := rfl
theorem exec_channelRamp (c : Fin 1536) (s : State) : exec (.channelRamp c) s = execChannelRamp c s := rfl
theorem exec_joinMsg (h : MsgHdr) (own : Nat) (rate96 twin twinB : Bool) (build nTx : Nat) (s : State) : exec (.joinMsg h own rate96 twin twinB build nTx) s = execJoinMsg h own rate96 twin twinB build nTx s := rfl
theorem exec_admitMsg (h : MsgHdr) (ver : Nat) (epoch : PassIx) (s : State) : exec (.admitMsg h ver epoch) s = execAdmitMsg h ver epoch s := rfl
theorem exec_refuseMsg (h : MsgHdr) (reason : Nat) (s : State) : exec (.refuseMsg h reason) s = execRefuseMsg h reason s := rfl
theorem exec_leaveMsg (h : MsgHdr) (s : State) : exec (.leaveMsg h) s = execLeaveMsg h s := rfl
theorem exec_managerMsg (h : MsgHdr) (term : BitVec 16) (ver : Nat) (lastDeal : BitVec 32) (used : Nat) (s : State) : exec (.managerMsg h term ver lastDeal used) s = execManagerMsg h term ver lastDeal used s := rfl
theorem exec_heartbeatMsg (h : MsgHdr) (mode grid twin : Nat) (flt : Word) (s : State) : exec (.heartbeatMsg h mode grid twin flt) s = execHeartbeatMsg h mode grid twin flt s := rfl
theorem exec_mirrorMsg (h : MsgHdr) (cs : List MirrorChange) (s : State) : exec (.mirrorMsg h cs) s = execMirrorMsg h cs s := rfl
theorem exec_streamsMsg (h : MsgHdr) (epoch : PassIx) (es : List StreamEntry) (s : State) : exec (.streamsMsg h epoch es) s = execStreamsMsg h epoch es s := rfl
theorem exec_streamEpoch (s : State) : exec (.streamEpoch) s = execStreamEpoch s := rfl
theorem exec_tallyPull (h : MsgHdr) (fromSeq : BitVec 32) (minSev max : Nat) (s : State) : exec (.tallyPull h fromSeq minSev max) s = execTallyPull h fromSeq minSev max s := rfl
theorem exec_tallySummary (h : MsgHdr) (head drops : Nat) (records : List (List Byte)) (s : State) : exec (.tallySummary h head drops records) s = execTallySummary h head drops records s := rfl
theorem exec_paramMsg (h : MsgHdr) (es : List (Nat × Nat × Word)) (s : State) : exec (.paramMsg h es) s = execParamMsg h es s := rfl
theorem exec_imageOpen (session bytes : Nat) (s : State) : exec (.imageOpen session bytes) s = execImageOpen session bytes s := rfl
theorem exec_imageData (session offset : Nat) (data : List Byte) (s : State) : exec (.imageData session offset data) s = execImageData session offset data s := rfl
theorem exec_imageClose (session : Nat) (errs digErrs : List (Nat × Byte)) (s : State) : exec (.imageClose session errs digErrs) s = execImageClose session errs digErrs s := rfl
theorem exec_imageAbort (session : Nat) (s : State) : exec (.imageAbort session) s = execImageAbort session s := rfl
theorem exec_managerSend (s : State) : exec (.managerSend) s = execManagerSend s := rfl
theorem exec_managerTakeover (s : State) : exec (.managerTakeover) s = execManagerTakeover s := rfl
theorem exec_heartbeatSend (s : State) : exec (.heartbeatSend) s = execHeartbeatSend s := rfl
theorem exec_heartbeatExpiry (d : Fin 2048) (s : State) : exec (.heartbeatExpiry d) s = execHeartbeatExpiry d s := rfl
theorem exec_joinRetry (s : State) : exec (.joinRetry) s = execJoinRetry s := rfl
theorem exec_scrubRow (memid : BitVec 10) (s : State) : exec (.scrubRow memid) s = execScrubRow memid s := rfl
theorem exec_eccRewrite (s : State) : exec (.eccRewrite) s = execEccRewrite s := rfl
theorem exec_clipRestore (addr : Nat) (s : State) : exec (.clipRestore addr) s = execClipRestore addr s := rfl
theorem exec_tamperLow (s : State) : exec (.tamperLow) s = execTamperLow s := rfl
theorem exec_wipeDone (clean : Bool) (s : State) : exec (.wipeDone clean) s = execWipeDone clean s := rfl
theorem exec_marchGo (v : Word) (s : State) : exec (.marchGo v) s = execMarchGo v s := rfl
theorem exec_marchRow (fails : Bool) (s : State) : exec (.marchRow fails) s = execMarchRow fails s := rfl
theorem exec_marchEnd (s : State) : exec (.marchEnd) s = execMarchEnd s := rfl
theorem exec_semaphoreRead (k : Fin 32) (m : Master) (s : State) : exec (.semaphoreRead k m) s = execSemaphoreRead k m s := rfl
theorem exec_semRelease (k : Fin 32) (m : Master) (s : State) : exec (.semRelease k m) s = execSemRelease k m s := rfl
theorem exec_busHang (m : Master) (addr : Word) (s : State) : exec (.busHang m addr) s = execBusHang m addr s := rfl
theorem exec_domainPowerUp (d : Fin 80) (s : State) : exec (.domainPowerUp d) s = execDomainPowerUp d s := rfl
theorem exec_faultReport (hw : Option ParityHit) (late : Bool) (s : State) : exec (.faultReport hw late) s = execFaultReport hw late s := rfl
theorem exec_queueDrain (s : State) : exec (.queueDrain) s = execQueueDrain s := rfl
theorem exec_injectArm (v : Word) (s : State) : exec (.injectArm v) s = execInjectArm v s := rfl
theorem exec_watchdog (s : State) : exec (.watchdog) s = execWatchdog s := rfl
theorem exec_stewardRestart (s : State) : exec (.stewardRestart) s = execStewardRestart s := rfl
theorem exec_supplyMonitor (rail : Fin 9) (crossed : Option Bool) (s : State) : exec (.supplyMonitor rail crossed) s = execSupplyMonitor rail crossed s := rfl
theorem exec_sluiceFrameEnd (k : PortNo) (s : State) : exec (.sluiceFrameEnd k) s = execSluiceFrameEnd k s := rfl
theorem exec_twinStartWait (s : State) : exec (.twinStartWait) s = execTwinStartWait s := rfl
theorem exec_twinStart (p : PassIx) (g : Word) (s : State) : exec (.twinStart p g) s = execTwinStart p g s := rfl
theorem exec_peerWait (peer : Bool) (s : State) : exec (.peerWait peer) s = execPeerWait peer s := rfl
theorem exec_twinSkew (s : State) : exec (.twinSkew) s = execTwinSkew s := rfl
theorem exec_twinPinStuck (pin : Fin 3) (s : State) : exec (.twinPinStuck pin) s = execTwinPinStuck pin s := rfl
theorem exec_digestWindow (s : State) : exec (.digestWindow) s = execDigestWindow s := rfl
theorem exec_diagnosisEnd (peerFound : Bool) (s : State) : exec (.diagnosisEnd peerFound) s = execDiagnosisEnd peerFound s := rfl
theorem exec_twinCmdYield (s : State) : exec (.twinCmdYield) s = execTwinCmdYield s := rfl
theorem exec_twinCmdRejoin (s : State) : exec (.twinCmdRejoin) s = execTwinCmdRejoin s := rfl
theorem exec_twinTakeover (s : State) : exec (.twinTakeover) s = execTwinTakeover s := rfl
theorem exec_rejoinReq (s : State) : exec (.rejoinReq) s = execRejoinReq s := rfl
theorem exec_copyEnd (b : Machine.StewBlock) (s : State) : exec (.copyEnd b) s = execCopyEnd b s := rfl
theorem exec_rejoinLimit (s : State) : exec (.rejoinLimit) s = execRejoinLimit s := rfl
theorem exec_powerOnReset (size : Fin 33) (octal selB railHeld : Bool) (s : State) : exec (.powerOnReset size octal selB railHeld) s = execPowerOnReset size octal selB railHeld s := rfl
theorem exec_resetN (s : State) : exec (.resetN) s = execResetN s := rfl
theorem exec_imageApplied (plan : LibPlan) (errsA errsB : List (Nat × Byte)) (ms : Nat) (tests : List (Nat × List Nat)) (s : State) : exec (.imageApplied plan errsA errsB ms tests) s = execImageApplied plan errsA errsB ms tests s := rfl
theorem exec_bootFailure (s : State) : exec (.bootFailure) s = execBootFailure s := rfl
theorem exec_serviceRequest (s : State) : exec (.serviceRequest) s = execServiceRequest s := rfl
theorem exec_serviceEntry (s : State) : exec (.serviceEntry) s = execServiceEntry s := rfl
theorem exec_dormantRequest (s : State) : exec (.dormantRequest) s = execDormantRequest s := rfl
theorem exec_dormantEntry (s : State) : exec (.dormantEntry) s = execDormantEntry s := rfl
theorem exec_runRequest (s : State) : exec (.runRequest) s = execRunRequest s := rfl
theorem exec_wakeBall (level : Bool) (s : State) : exec (.wakeBall level) s = execWakeBall level s := rfl
theorem exec_rtcAlarm (s : State) : exec (.rtcAlarm) s = execRtcAlarm s := rfl
theorem exec_temperatureReading (reading : Int) (s : State) : exec (.temperatureReading reading) s = execTemperatureReading reading s := rfl
theorem exec_pfailLow (s : State) : exec (.pfailLow) s = execPfailLow s := rfl
theorem exec_pfailRelease (s : State) : exec (.pfailRelease) s = execPfailRelease s := rfl
theorem exec_regionGated (r : Fin 64) (s : State) : exec (.regionGated r) s = execRegionGated r s := rfl
theorem exec_quietEntry (s : State) : exec (.quietEntry) s = execQuietEntry s := rfl
theorem exec_pwrQuietWrite (v : Word) (s : State) : exec (.pwrQuietWrite v) s = execPwrQuietWrite v s := rfl
theorem exec_pageProgramDone (ok : Bool) (s : State) : exec (.pageProgramDone ok) s = execPageProgramDone ok s := rfl
theorem exec_eraseDone (ok : Bool) (s : State) : exec (.eraseDone ok) s = execEraseDone ok s := rfl
theorem exec_flashReadDone (s : State) : exec (.flashReadDone) s = execFlashReadDone s := rfl
theorem exec_flashTimeout (s : State) : exec (.flashTimeout) s = execFlashTimeout s := rfl
theorem exec_journalCommit (s : State) : exec (.journalCommit) s = execJournalCommit s := rfl
theorem exec_compaction (s : State) : exec (.compaction) s = execCompaction s := rfl
theorem exec_countersRecord (s : State) : exec (.countersRecord) s = execCountersRecord s := rfl
theorem exec_updOpen (s : State) : exec (.updOpen) s = execUpdOpen s := rfl
theorem exec_updProgram (s : State) : exec (.updProgram) s = execUpdProgram s := rfl
theorem exec_updClose (errs digErrs : List (Nat × Byte)) (s : State) : exec (.updClose errs digErrs) s = execUpdClose errs digErrs s := rfl
theorem exec_updAbort (s : State) : exec (.updAbort) s = execUpdAbort s := rfl
theorem exec_lcKey (v : Word) (s : State) : exec (.lcKey v) s = execLcKey v s := rfl
theorem exec_lifeCycleTransition (v : Word) (s : State) : exec (.lifeCycleTransition v) s = execLifeCycleTransition v s := rfl
theorem exec_burnHash (slot : Fin 4) (s : State) : exec (.burnHash slot) s = execBurnHash slot s := rfl
theorem exec_revokeKey (slot : Fin 4) (s : State) : exec (.revokeKey slot) s = execRevokeKey slot s := rfl
theorem exec_setDomainKey (slot : Fin 4) (s : State) : exec (.setDomainKey slot) s = execSetDomainKey slot s := rfl
theorem exec_clearDomainKey (slot : Fin 4) (s : State) : exec (.clearDomainKey slot) s = execClearDomainKey slot s := rfl
theorem exec_monitorEnable (m : Fin 64) (v : Word) (s : State) : exec (.monitorEnable m v) s = execMonitorEnable m v s := rfl
theorem exec_monitorDisable (m : Fin 64) (v : Word) (s : State) : exec (.monitorDisable m v) s = execMonitorDisable m v s := rfl
theorem exec_monitorClose (m : Fin 64) (s : State) : exec (.monitorClose m) s = execMonitorClose m s := rfl
theorem exec_windowEnd (m : Fin 64) (s : State) : exec (.windowEnd m) s = execWindowEnd m s := rfl
theorem exec_windowRecords (m : Fin 64) (s : State) : exec (.windowRecords m) s = execWindowRecords m s := rfl
theorem exec_timeRecord (s : State) : exec (.timeRecord) s = execTimeRecord s := rfl
theorem exec_cursorSet (v : Word) (s : State) : exec (.cursorSet v) s = execCursorSet v s := rfl
theorem exec_cursorSearch (v : Word) (s : State) : exec (.cursorSearch v) s = execCursorSearch v s := rfl
theorem exec_cursorReady (s : State) : exec (.cursorReady) s = execCursorReady s := rfl
theorem exec_tlyMark (v : Word) (s : State) : exec (.tlyMark v) s = execTlyMark v s := rfl
theorem exec_svcRead (i2c other : Bool) (cmd : Byte) (crc : BitVec 16) (addr : Word) (n cycle : Nat) (s : State) : exec (.svcRead i2c other cmd crc addr n cycle) s = execSvcRead i2c other cmd crc addr n cycle s := rfl
theorem exec_svcWrite (i2c other : Bool) (cmd : Byte) (crc : BitVec 16) (addr : Word) (data : List Word) (s : State) : exec (.svcWrite i2c other cmd crc addr data) s = execSvcWrite i2c other cmd crc addr data s := rfl
theorem exec_spiAbort (req : Option SvcReq) (started : Nat) (s : State) : exec (.spiAbort req started) s = execSpiAbort req started s := rfl
theorem exec_svcParamGo (v : Word) (s : State) : exec (.svcParamGo v) s = execSvcParamGo v s := rfl
theorem exec_scrubSweep (arg : BitVec 10) (s : State) : exec (.scrubSweep arg) s = execScrubSweep arg s := rfl
theorem exec_tileRestart (n : TileNo) (s : State) : exec (.tileRestart n) s = execTileRestart n s := rfl
theorem exec_maintEnd (s : State) : exec (.maintEnd) s = execMaintEnd s := rfl
theorem exec_sluiceFrame (port : Option PortNo) (input : List Word) (s : State) : exec (.sluiceFrame port input) s = execSluiceFrame port input s := rfl
theorem exec_raceLinkDisable (k : LinkNo) (v : Word) (s : State) : exec (.raceLinkDisable k v) s = execRaceLinkDisable k v s := rfl
theorem exec_tamperRelease (s : State) : exec (.tamperRelease) s = execTamperRelease s := rfl

end Sys2Proof.Machine
end

