-- ==== Sys2Proof/Laws/Maps.lean ====
section
/-!
SUPPORT. The laws of sparse maps: reads after writes, and the canonical form that every write keeps.
-/

namespace Sys2Proof.Machine

variable {α : Type} {d v : α} {m : SMap α} {k j lo : Nat}

/-! ## Writes keep the canonical form -/

theorem mwfFrom_mono [DecidableEq α] (h : mwfFrom d lo m = true) {lo' : Nat} (hl : lo' ≤ lo) : mwfFrom d lo' m = true := by
  cases m with
  | nil => rfl
  | cons e m =>
    simp only [mwfFrom, Bool.and_eq_true, decide_eq_true_eq] at h ⊢
    exact ⟨⟨by omega, h.1.2⟩, h.2⟩

theorem mwfFrom_mdel [DecidableEq α] (h : mwfFrom d lo m = true) : mwfFrom d lo (mdel m k) = true := by
  induction m generalizing lo with
  | nil => rfl
  | cons e m ih =>
    obtain ⟨j, w⟩ := e
    simp only [mwfFrom, Bool.and_eq_true, decide_eq_true_eq] at h
    simp only [mdel]
    split
    · exact mwfFrom_mono h.2 (by omega)
    · split
      · simp [mwfFrom, h]
      · simp [mwfFrom, h.1, ih h.2]

theorem mwfFrom_mput [DecidableEq α] (h : mwfFrom d lo m = true) (hv : v ≠ d) (hk : lo ≤ k) :
    mwfFrom d lo (mput m k v) = true := by
  induction m generalizing lo with
  | nil => simp [mput, mwfFrom, hv, hk]
  | cons e m ih =>
    obtain ⟨j, w⟩ := e
    simp only [mwfFrom, Bool.and_eq_true, decide_eq_true_eq] at h
    simp only [mput]
    split
    · next e => subst e; simp [mwfFrom, h.2, hv, h.1.1]
    · split
      · simp only [mwfFrom, Bool.and_eq_true, decide_eq_true_eq]
        exact ⟨⟨hk, hv⟩, ⟨by omega, h.1.2⟩, h.2⟩
      · simp only [mwfFrom, Bool.and_eq_true, decide_eq_true_eq]
        exact ⟨h.1, ih h.2 (by omega)⟩

theorem mwf_mset [DecidableEq α] (h : mwf d m = true) : mwf d (mset d m k v) = true := by
  unfold mset
  split
  · exact mwfFrom_mdel h
  · next hv => exact mwfFrom_mput h hv (Nat.zero_le k)

theorem mwf_mupd [DecidableEq α] {f : α → α} (h : mwf d m = true) : mwf d (mupd d m k f) = true := mwf_mset h

theorem mwf_mupdAll [DecidableEq α] {f : Nat → α → α} {l : List Nat} (h : mwf d m = true) :
    mwf d (mupdAll d m f l) = true := by
  induction l generalizing m with
  | nil => exact h
  | cons k l ih => exact ih (mwf_mupd h)

theorem mwfFrom_filter [DecidableEq α] {p : Nat × α → Bool} (h : mwfFrom d lo m = true) :
    mwfFrom d lo (m.filter p) = true := by
  induction m generalizing lo with
  | nil => rfl
  | cons e m ih =>
    obtain ⟨j, w⟩ := e
    simp only [mwfFrom, Bool.and_eq_true, decide_eq_true_eq] at h
    by_cases hp : p (j, w)
    · simp [hp, mwfFrom, h.1, ih h.2]
    · simp only [hp, Bool.false_eq_true, not_false_iff, List.filter_cons_of_neg]
      exact mwfFrom_mono (ih h.2) (by omega)

theorem mwf_filter [DecidableEq α] {p : Nat × α → Bool} (h : mwf d m = true) : mwf d (m.filter p) = true :=
  mwfFrom_filter h

@[simp] theorem mwf_nil [DecidableEq α] : mwf d ([] : SMap α) = true := rfl

/-! ## Reads after writes -/

theorem mget_low [DecidableEq α] (h : mwfFrom d lo m = true) (hk : k < lo) : mget d m k = d := by
  cases m with
  | nil => rfl
  | cons e m =>
    obtain ⟨j, w⟩ := e
    simp only [mwfFrom, Bool.and_eq_true, decide_eq_true_eq] at h
    have : j ≠ k := by omega
    have : k < j := by omega
    simp [mget, *]

theorem mget_mput (m : SMap α) (k j : Nat) (v : α) : mget d (mput m k v) j = if k = j then v else mget d m j := by
  induction m with
  | nil =>
    simp only [mput, mget]
    split <;> simp
  | cons e m ih =>
    obtain ⟨i, w⟩ := e
    simp only [mput]
    split
    · next h => subst h; simp only [mget]; split <;> simp
    · split
      · simp only [mget]
        split
        · rfl
        · split
          · next h1 h2 h3 =>
            have : i ≠ j := by omega
            have : j < i := by omega
            simp [*]
          · rfl
      · simp only [mget, ih]
        by_cases h1 : i = j
        · subst h1; simp only [if_true]; split
          · next h => exact absurd h.symm (by omega)
          · rfl
        · simp only [h1, if_false]
          by_cases h2 : j < i
          · simp only [h2, if_true]; split
            · next h => omega
            · rfl
          · simp only [h2, if_false]

theorem mget_mdel [DecidableEq α] (h : mwfFrom d lo m = true) : mget d (mdel m k) j = if k = j then d else mget d m j := by
  induction m generalizing lo with
  | nil => simp [mdel, mget]
  | cons e m ih =>
    obtain ⟨i, w⟩ := e
    simp only [mwfFrom, Bool.and_eq_true, decide_eq_true_eq] at h
    simp only [mdel]
    by_cases h1 : i = k
    · subst h1
      simp only [if_true]
      by_cases h2 : i = j
      · subst h2; simp only [if_true]; exact mget_low h.2 (by omega)
      · simp only [mget, h2, if_false]
        by_cases h3 : j < i
        · simp only [h3, if_true]; exact mget_low h.2 (by omega)
        · simp only [h3, if_false]
    · simp only [h1, if_false]
      by_cases h2 : k < i
      · simp only [h2, if_true, mget]
        by_cases h3 : k = j
        · subst h3; simp [h1, h2]
        · simp [h3]
      · simp only [h2, if_false, mget, ih h.2]
        by_cases h3 : i = j
        · subst h3
          have : k ≠ i := fun e => h1 e.symm
          simp [this]
        · simp only [h3, if_false]
          by_cases h4 : j < i
          · simp only [h4, if_true]
            have : k ≠ j := by omega
            simp [this]
          · simp only [h4, if_false]

/-- A read after a write: the written value at its key, every other key as before. -/
theorem mget_mset [DecidableEq α] (h : mwf d m = true) (k j : Nat) (v : α) :
    mget d (mset d m k v) j = if k = j then v else mget d m j := by
  unfold mset
  split
  · next hv => rw [mget_mdel h, hv]
  · exact mget_mput m k j v

theorem mget_mset_self [DecidableEq α] (h : mwf d m = true) : mget d (mset d m k v) k = v := by
  rw [mget_mset h]; simp

theorem mget_mset_ne [DecidableEq α] (h : mwf d m = true) (hk : k ≠ j) : mget d (mset d m k v) j = mget d m j := by
  rw [mget_mset h]; simp [hk]

/-- Two canonical maps that read the same are the same. -/
theorem mwf_ext [DecidableEq α] {m m' : SMap α} (h : mwfFrom d lo m = true) (h' : mwfFrom d lo m' = true)
    (hg : ∀ k, mget d m k = mget d m' k) : m = m' := by
  induction m generalizing lo m' with
  | nil =>
    cases m' with
    | nil => rfl
    | cons e m' =>
      obtain ⟨i, w⟩ := e
      simp only [mwfFrom, Bool.and_eq_true, decide_eq_true_eq] at h'
      have := hg i
      simp [mget] at this
      exact absurd this.symm h'.1.2
  | cons e m ih =>
    obtain ⟨i, w⟩ := e
    simp only [mwfFrom, Bool.and_eq_true, decide_eq_true_eq] at h
    cases m' with
    | nil =>
      have := hg i
      simp [mget] at this
      exact absurd this h.1.2
    | cons e' m' =>
      obtain ⟨i', w'⟩ := e'
      simp only [mwfFrom, Bool.and_eq_true, decide_eq_true_eq] at h'
      have hi : i = i' := by
        rcases Nat.lt_trichotomy i i' with hl | he | hg'
        · have := hg i
          have h1 : i' ≠ i := by omega
          simp [mget, h1, hl] at this
          exact absurd this h.1.2
        · exact he
        · have := hg i'
          have h1 : i ≠ i' := by omega
          simp [mget, h1, hg'] at this
          exact absurd this.symm h'.1.2
      subst hi
      have hw : w = w' := by simpa [mget] using hg i
      subst hw
      congr 1
      refine ih h.2 h'.2 (fun k => ?_)
      rcases Nat.lt_or_ge i k with hl | hl
      · have := hg k
        have h1 : i ≠ k := by omega
        have h2 : ¬k < i := by omega
        simpa [mget, h1, h2] using this
      · rw [mget_low h.2 (by omega), mget_low h'.2 (by omega)]

end Sys2Proof.Machine
end

