-- ==== Sys2Proof/Laws/Keeps.lean ====
section
/-!
SUPPORT. How `Keeps` is put together: it is reflexive and transitive, and it goes through choices, folds and updates of
the fields it does not speak of.
-/

namespace Sys2Proof.Machine

theorem Fuses.Within.refl (a : Fuses) : Fuses.Within a a := ⟨id, id, id, fun h => ⟨h, rfl⟩, fun _ _ h => h, fun _ h => h, rfl⟩

theorem Fuses.Within.trans {a b c : Fuses} (h : Fuses.Within a b) (g : Fuses.Within b c) : Fuses.Within a c :=
  ⟨g.1 ∘ h.1, g.2 ∘ h.2, g.3 ∘ h.3, fun w => ⟨(g.4 (h.4 w).1).1, (g.4 (h.4 w).1).2.trans (h.4 w).2⟩, fun k x e => g.5 k x (h.5 k x e), fun k e => g.6 k (h.6 k e), g.7.trans h.7⟩

variable {P : Counters → Prop}

theorem Keeps.refl (s : State) : Keeps P s s := ⟨rfl, id, fun h => ⟨h, .refl _⟩, Nat.le_refl _, id⟩

theorem Keeps.trans {s t u : State} (h : Keeps P s t) (g : Keeps P t u) : Keeps P s u :=
  ⟨g.1.trans h.1, fun c => g.2 (h.2 c), fun w => ⟨(g.3 (h.3 w).1).1, (h.3 w).2.trans (g.3 (h.3 w).1).2⟩,
    Nat.le_trans h.4 g.4, g.5 ∘ h.5⟩

variable {s0 s : State}

/-- A bound intermediate state: what holds of it may be used for the rest. -/
theorem Keeps.cut (x : State) {Q : Prop} (h : Keeps P s0 x) (f : Keeps P s0 x → Q) : Q := f h

theorem Keeps.ite {c : Prop} [Decidable c] {a b : State} (ha : Keeps P s0 a) (hb : Keeps P s0 b) :
    Keeps P s0 (if c then a else b) := by
  split <;> assumption

theorem Keeps.foldl {α : Type} {l : List α} {f : State → α → State} (h : Keeps P s0 s)
    (hf : ∀ s, Keeps P s0 s → ∀ e, Keeps P s0 (f s e)) : Keeps P s0 (l.foldl f s) := by
  induction l generalizing s with
  | nil => exact h
  | cons a l ih => exact ih (hf s h a)

theorem Keeps.foldlSnd {α β : Type} {l : List α} {f : β × State → α → β × State} {b : β × State} (h : Keeps P s0 b.2)
    (hf : ∀ b, Keeps P s0 b.2 → ∀ e, Keeps P s0 (f b e).2) : Keeps P s0 (l.foldl f b).2 := by
  induction l generalizing b with
  | nil => exact h
  | cons a l ih => exact ih (hf b h a)

theorem Keeps.foldlFst {α β : Type} {l : List α} {f : State × β → α → State × β} {b : State × β} (h : Keeps P s0 b.1)
    (hf : ∀ b, Keeps P s0 b.1 → ∀ e, Keeps P s0 (f b e).1) : Keeps P s0 (l.foldl f b).1 := by
  induction l generalizing b with
  | nil => exact h
  | cons a l ih => exact ih (hf b h a)

theorem Keeps.snd {α : Type} {p : α × State} {a : α} (e : p = (a, s)) (h : Keeps P s0 p.2) : Keeps P s0 s := by
  subst e; exact h

theorem Keeps.fst {α : Type} {p : State × α} {a : α} (e : p = (s, a)) (h : Keeps P s0 p.1) : Keeps P s0 s := by
  subst e; exact h

theorem Keeps.iteSnd {α : Type} {c : Prop} [Decidable c] {a b : α × State} (ha : Keeps P s0 a.2) (hb : Keeps P s0 b.2) :
    Keeps P s0 (if c then a else b).2 := by
  split <;> assumption

theorem Keeps.iteFst {α : Type} {c : Prop} [Decidable c] {a b : State × α} (ha : Keeps P s0 a.1) (hb : Keeps P s0 b.1) :
    Keeps P s0 (if c then a else b).1 := by
  split <;> assumption

theorem Keeps.iteThird {α β : Type} {c : Prop} [Decidable c] {a b : α × β × State} (ha : Keeps P s0 a.2.2)
    (hb : Keeps P s0 b.2.2) : Keeps P s0 (if c then a else b).2.2 := by
  split <;> assumption

/-- An update of fields that `Keeps` does not speak of. -/
theorem Keeps.lit {a6 a7 a8 a12 a13 a15 a17 a18 a19 a20 a21 a22 a23 a24 n a26 a27 a28} (h : Keeps P s0 s)
    (hn : n.fuses = s.nvm.fuses) (hm : mwf 0 s.ms.ecc = true → mwf 0 a22.ecc = true)
    (hg : P s.grid.counters → P a8.counters) :
    Keeps P s0 (State.mk s.pending s.regs s.latch s.mem s.imem a6 a7 a8 s.clusters s.tiles s.nodes a12 a13 s.ports a15
      s.srcs a17 a18 a19 a20 a21 a22 a23 a24 n a26 a27 a28 s.draws) :=
  h.trans ⟨rfl, fun c => ⟨c.1, c.2, c.3, c.4, c.5, c.6, c.7, c.8, c.9, c.10, hm c.11⟩, fun w => by rw [hn]; exact ⟨w, .refl _⟩, Nat.le_refl _, hg⟩

/-! ## Tiles -/

theorem Bank.Canonical.empty : Bank.Canonical {} := ⟨rfl, rfl, rfl, rfl, rfl, rfl⟩

theorem Tile.Canonical.empty : Tile.Canonical {} := ⟨.empty, .empty⟩

theorem Bank.Canonical.ite {c : Prop} [Decidable c] {a b : Bank} (ha : a.Canonical) (hb : b.Canonical) :
    (if c then a else b).Canonical := by
  split <;> assumption

theorem Bank.Canonical.applyWrite {b : Bank} (h : b.Canonical) (w : RegWrite) : (applyWrite b w).Canonical := by
  cases w <;> first
    | exact ⟨mwf_mset h.s, h.p, h.m, h.n, h.v, h.a⟩
    | exact ⟨h.s, mwf_mset h.p, h.m, h.n, h.v, h.a⟩
    | exact ⟨h.s, h.p, mwf_mset h.m, h.n, h.v, h.a⟩
    | exact ⟨h.s, h.p, h.m, mwf_mset h.n, h.v, h.a⟩
    | exact ⟨h.s, h.p, h.m, h.n, mwf_mset h.v, h.a⟩
    | exact ⟨h.s, h.p, h.m, h.n, h.v, mwf_mset h.a⟩
    | exact ⟨h.s, h.p, h.m, h.n, h.v, h.a⟩

theorem Bank.Canonical.applyAll {α : Type} {b : Bank} (h : b.Canonical) (l : List α) (f : α → RegWrite) :
    (l.foldl (fun b e => Sys2Proof.Machine.applyWrite b (f e)) b).Canonical := by
  induction l generalizing b with
  | nil => exact h
  | cons e l ih => exact ih (h.applyWrite (f e))

theorem Bank.Canonical.retire {b : Bank} (h : b.Canonical) (l : List Pend) (n : Nat) : (retire b l n).Canonical :=
  h.applyAll _ _

theorem Bank.Canonical.retireAll {b : Bank} (h : b.Canonical) (l : List Pend) : (retireAll b l).Canonical :=
  h.applyAll _ _

theorem Bank.Canonical.setLoops {b : Bank} (h : b.Canonical) (l : List Level) : (b.setLoops l).Canonical :=
  ⟨h.s, h.p, h.m, h.n, h.v, h.a⟩

theorem Bank.Canonical.withMode {b : Bank} (h : b.Canonical) (x : BitVec 2) : ({ b with mode := x } : Bank).Canonical :=
  ⟨h.s, h.p, h.m, h.n, h.v, h.a⟩

theorem Tile.Canonical.bank {t : Tile} (h : t.Canonical) : t.bank.Canonical := by
  unfold Tile.bank; split
  · exact h.ctl
  · exact h.smp

theorem Tile.Canonical.setBank {t : Tile} (h : t.Canonical) {b : Bank} (hb : b.Canonical) : (t.setBank b).Canonical := by
  unfold Tile.setBank; split
  · exact ⟨h.smp, hb⟩
  · exact ⟨hb, h.ctl⟩

theorem Tile.Canonical.setFlow {t : Tile} (h : t.Canonical) (f : Flow) : (t.setFlow f).Canonical := by
  unfold Tile.setFlow; split
  · exact ⟨h.smp, h.ctl⟩
  · exact ⟨h.smp, h.ctl⟩

theorem Tile.Canonical.spend {t : Tile} (h : t.Canonical) (k : Nat) : (t.spend k).Canonical := ⟨h.smp, h.ctl⟩

theorem Tile.Canonical.waitEnds {t : Tile} (h : t.Canonical) : t.waitEnds.Canonical := by
  unfold Tile.waitEnds; split
  · exact ⟨h.smp, h.ctl⟩
  · exact h

theorem Tile.Canonical.openBundle {t : Tile} (h : t.Canonical) : t.openBundle.Canonical :=
  (h.waitEnds.setBank (h.waitEnds.bank.retire _ _)).setFlow _

theorem Tile.Canonical.issued {t : Tile} (h : t.Canonical) (fu : Option (FuOp × Fin 16)) (l : List Level) (an : Bool)
    (c : Ctl) (inj : Bool) (at_ pre cyc : Nat) : (t.issued fu l an c inj at_ pre cyc).Canonical := by
  have h1 : ∀ u : Tile, u.Canonical → ∀ f l', ((u.setFlow f).setBank (u.bank.setLoops l')).Canonical := fun u hu f l' =>
    (hu.setFlow f).setBank (hu.bank.setLoops l')
  have h2 : ∀ u : Tile, u.Canonical → (u.yield at_).Canonical := fun u hu => ⟨hu.smp.retireAll _, hu.ctl⟩
  have h3 : ∀ u : Tile, u.Canonical → u.cret.Canonical := fun u hu => ⟨hu.smp, hu.ctl.retireAll _⟩
  have h4 : ∀ u : Tile, u.Canonical → ∀ b, ({ u with buf := [], bufOpen := false, afterCret := u.afterCret && u.ctx, injYield := b } : Tile).Canonical :=
    fun u hu _ => ⟨hu.smp, hu.ctl⟩
  unfold Tile.issued
  cases fu
  · dsimp only
    split
    · split
      · exact h4 _ (h1 _ h _ _) _
      · exact h2 _ (h4 _ (h1 _ h _ _) _)
    · exact h3 _ (h4 _ (h1 _ h _ _) _)
    · exact h4 _ (h1 _ h _ _) _
  · dsimp only
    have h5 : ∀ f, ({ t with fu := f } : Tile).Canonical := fun _ => ⟨h.smp, h.ctl⟩
    split
    · split
      · exact h4 _ (h1 _ (h5 _) _ _) _
      · exact h2 _ (h4 _ (h1 _ (h5 _) _ _) _)
    · exact h3 _ (h4 _ (h1 _ (h5 _) _ _) _)
    · exact h4 _ (h1 _ (h5 _) _ _) _

/-- The tiles of a state that keeps what `s0` has. -/
theorem Keeps.tileOf (h : Keeps P s0 s) (c : s0.Canonical) (n : Nat) : (s.tile n).Canonical := (h.canonical c).banks n

/-- A meaning answers a next state, and keeps what every effect keeps. -/
structure Completes (s : State) (o : Host.Outcome State Fault Refusal) : Prop where
  next : ∃ t, o = .next t ∧ Keeps Counters.any s t

theorem Completes.of {t : State} (h : Keeps Counters.any s t) : Completes s (.next t) := ⟨⟨t, rfl, h⟩⟩

theorem Completes.ite {c : Prop} [Decidable c] {a b : Host.Outcome State Fault Refusal} (ha : Completes s a)
    (hb : Completes s b) : Completes s (if c then a else b) := by
  split <;> assumption

end Sys2Proof.Machine
end

