-- ==== Sys2Proof/Laws/KeepsOps.lean ====
section
/-!
SUPPORT. What the operations of Ops keep.
-/

namespace Sys2Proof.Machine

variable {P : Counters → Prop} {s0 s : State}

theorem State.setReg_keeps : ∀ a v, Keeps P s0 s → Keeps P s0 (s.setReg a v) := fun _ _ h =>
  h.trans ⟨rfl, fun c => ⟨mwf_mset c.1, c.2, c.3, c.4, c.5, c.6, c.7, c.8, c.9, c.10, c.11⟩, fun w => ⟨w, .refl _⟩, Nat.le_refl _, id⟩

/-- Latched _HI parts change. -/
theorem Keeps.latch {m : SMap Word} (h : Keeps P s0 s) (hm : mwf 0 s.latch = true → mwf 0 m = true) :
    Keeps P s0 { s with latch := m } :=
  h.trans ⟨rfl, fun c => ⟨c.1, hm c.2, c.3, c.4, c.5, c.6, c.7, c.8, c.9, c.10, c.11⟩, fun w => ⟨w, .refl _⟩, Nat.le_refl _, id⟩

/-- Bytes of memory change. -/
theorem Keeps.mem {m : List Host.Cell} (h : Keeps P s0 s) (hm : Memory.wf s.mem → Memory.wf m) :
    Keeps P s0 { s with mem := m } :=
  h.trans ⟨rfl, fun c => ⟨c.1, c.2, hm c.3, c.4, c.5, c.6, c.7, c.8, c.9, c.10, c.11⟩, fun w => ⟨w, .refl _⟩, Nat.le_refl _, id⟩

/-- Bytes of instruction memories change. -/
theorem Keeps.imem {m : List Host.Cell} (h : Keeps P s0 s) (hm : Memory.wf s.imem → Memory.wf m) :
    Keeps P s0 { s with imem := m } :=
  h.trans ⟨rfl, fun c => ⟨c.1, c.2, c.3, hm c.4, c.5, c.6, c.7, c.8, c.9, c.10, c.11⟩, fun w => ⟨w, .refl _⟩, Nat.le_refl _, id⟩

/-- The map of tiles changes. -/
theorem Keeps.tiles {m : SMap Tile} (h : Keeps P s0 s) (hm : mwf {} s.tiles = true → mwf {} m = true)
    (hb : s0.Canonical → ∀ n, (mget {} m n).Canonical) : Keeps P s0 { s with tiles := m } :=
  ⟨h.1, fun c => have d := h.2 c; ⟨d.1, d.2, d.3, d.4, hm d.5, d.6, d.7, d.8, d.9, hb c, d.11⟩, h.3, h.4, h.5⟩

/-- Another free value has been drawn. -/
theorem Keeps.drawn (h : Keeps P s0 s) : Keeps P s0 { s with draws := s.draws + 1 } :=
  h.trans ⟨rfl, fun c => ⟨c.1, c.2, c.3, c.4, c.5, c.6, c.7, c.8, c.9, c.10, c.11⟩, fun w => ⟨w, .refl _⟩, Nat.le_succ _, id⟩

/-- Fuses are burned. -/
theorem Keeps.burn {n : Nvm} (h : Keeps P s0 s) (hn : mwf none s.nvm.fuses.hash = true →
    mwf none n.fuses.hash = true ∧ Fuses.Within s.nvm.fuses n.fuses) : Keeps P s0 { s with nvm := n } :=
  h.trans ⟨rfl, fun c => ⟨c.1, c.2, c.3, c.4, c.5, c.6, c.7, c.8, c.9, c.10, c.11⟩, hn, Nat.le_refl _, id⟩

theorem memPut_wf {m : List Host.Cell} {a : Nat} {bs : List Byte} (h : Memory.wf m) : Memory.wf (memPut m a bs) := by
  induction bs generalizing m a with
  | nil => exact h
  | cons b bs ih => exact ih (mwf_mset h)

theorem State.setFld_keeps : ∀ a1 a2 a3 a4, Keeps P s0 s → Keeps P s0 (State.setFld s a1 a2 a3 a4) := by
  intro a1 a2 a3 a4 h
  unfold State.setFld
  repeat' (first
    | with_reducible assumption
    | with_reducible apply State.setReg_keeps
    )

theorem State.setFlag_keeps : ∀ a1 a2 a3, Keeps P s0 s → Keeps P s0 (State.setFlag s a1 a2 a3) := by
  intro a1 a2 a3 h
  unfold State.setFlag
  repeat' (first
    | with_reducible assumption
    | with_reducible apply State.setFld_keeps
    )

theorem State.count_keeps : ∀ a1 a2 a3 a4, Keeps P s0 s → Keeps P s0 (State.count s a1 a2 a3 a4) := by
  intro a1 a2 a3 a4 h
  unfold State.count
  repeat' (first
    | with_reducible assumption
    | with_reducible apply State.setFld_keeps
    )

theorem State.wrB_keeps : ∀ a b, Keeps P s0 s → Keeps P s0 (s.wrB a b) := fun _ _ h => h.mem mwf_mset

theorem State.eccWrite_keeps : ∀ l, Keeps P s0 s → Keeps P s0 (s.eccWrite l) := by
  intro l h
  induction l generalizing s with
  | nil => exact h
  | cons w ws ih =>
    unfold State.eccWrite
    exact ih (Keeps.lit h rfl mwf_mset id)

theorem State.markDirty_keeps : ∀ a1 a2, Keeps P s0 s → Keeps P s0 (State.markDirty s a1 a2) := by
  intro a1 a2 h
  unfold State.markDirty
  repeat' (first
    | with_reducible assumption
    | with_reducible apply Keeps.ite
    | fail_if_no_progress (with_reducible refine Keeps.lit ?_ rfl id id)
    )

theorem State.wrBytes_keeps : ∀ a bs, Keeps P s0 s → Keeps P s0 (s.wrBytes a bs) := by
  intro a bs h
  unfold State.wrBytes
  have h1 := State.markDirty_keeps a bs.length (h.mem (m := memPut s.mem a bs) memPut_wf)
  refine Keeps.ite h1 (State.eccWrite_keeps _ h1)

theorem State.wr32_keeps : ∀ a1 a2, Keeps P s0 s → Keeps P s0 (State.wr32 s a1 a2) := by
  intro a1 a2 h
  unfold State.wr32
  repeat' (first
    | with_reducible assumption
    | with_reducible apply State.wrBytes_keeps
    )

theorem State.setDom_keeps : ∀ a1 a2, Keeps P s0 s → Keeps P s0 (State.setDom s a1 a2) := by
  intro a1 a2 h
  unfold State.setDom
  repeat' (first
    | with_reducible assumption
    | fail_if_no_progress (with_reducible refine Keeps.lit ?_ rfl id id)
    )

theorem State.setTile_keeps : ∀ n t, (s0.Canonical → t.Canonical) → Keeps P s0 s → Keeps P s0 (s.setTile n t) := by
  intro n t ht h
  refine h.tiles mwf_mset fun c m => ?_
  rw [mget_mset (h.canonical c).tiles]
  split
  · exact ht c
  · exact (h.canonical c).banks m

theorem State.setCluster_keeps : ∀ c x, Keeps P s0 s → Keeps P s0 (s.setCluster c x) := fun _ _ h =>
  h.trans ⟨rfl, fun c => ⟨c.1, c.2, c.3, c.4, c.5, mwf_mset c.6, c.7, c.8, c.9, c.10, c.11⟩, fun w => ⟨w, .refl _⟩, Nat.le_refl _, id⟩

theorem State.setPort_keeps : ∀ k x, Keeps P s0 s → Keeps P s0 (s.setPort k x) := fun _ _ h =>
  h.trans ⟨rfl, fun c => ⟨c.1, c.2, c.3, c.4, c.5, c.6, c.7, mwf_mset c.8, c.9, c.10, c.11⟩, fun w => ⟨w, .refl _⟩, Nat.le_refl _, id⟩

theorem State.setSrc_keeps : ∀ c x, Keeps P s0 s → Keeps P s0 (s.setSrc c x) := fun _ _ h =>
  h.trans ⟨rfl, fun c => ⟨c.1, c.2, c.3, c.4, c.5, c.6, c.7, c.8, mwf_mset c.9, c.10, c.11⟩, fun w => ⟨w, .refl _⟩, Nat.le_refl _, id⟩

theorem State.setMic_keeps : ∀ a1 a2, Keeps P s0 s → Keeps P s0 (State.setMic s a1 a2) := by
  intro a1 a2 h
  unfold State.setMic
  repeat' (first
    | with_reducible assumption
    | fail_if_no_progress (with_reducible refine Keeps.lit ?_ rfl id id)
    )

theorem State.setMon_keeps : ∀ a1 a2, Keeps P s0 s → Keeps P s0 (State.setMon s a1 a2) := by
  intro a1 a2 h
  unfold State.setMon
  repeat' (first
    | with_reducible assumption
    | fail_if_no_progress (with_reducible refine Keeps.lit ?_ rfl id id)
    )

theorem forAll_keeps {α : Type} {l : List α} {f : α → State → State} (h : Keeps P s0 s)
    (hf : ∀ s, Keeps P s0 s → ∀ k, Keeps P s0 (f k s)) : Keeps P s0 (forAll l s f) := Keeps.foldl h hf

theorem State.irq_keeps : ∀ a1, Keeps P s0 s → Keeps P s0 (State.irq s a1) := by
  intro a1 h
  unfold State.irq
  repeat' (first
    | with_reducible assumption
    | with_reducible apply State.setFlag_keeps
    )

theorem State.raise_keeps : ∀ a1 a2 a3 a4, Keeps P s0 s → Keeps P s0 (State.raise s a1 a2 a3 a4) := by
  intro a1 a2 a3 a4 h
  unfold State.raise
  repeat' (first
    | with_reducible assumption
    | fail_if_no_progress (with_reducible refine Keeps.lit ?_ rfl id id)
    )

theorem State.raiseInj_keeps : ∀ a1 a2 a3 a4, Keeps P s0 s → Keeps P s0 (State.raiseInj s a1 a2 a3 a4) := by
  intro a1 a2 a3 a4 h
  unfold State.raiseInj
  repeat' (first
    | with_reducible assumption
    | fail_if_no_progress (with_reducible refine Keeps.lit ?_ rfl id id)
    )

theorem State.journal_keeps : ∀ a1 a2, Keeps P s0 s → Keeps P s0 (State.journal s a1 a2) := by
  intro a1 a2 h
  unfold State.journal
  repeat' (first
    | with_reducible assumption
    | with_reducible apply State.count_keeps
    | with_reducible apply Keeps.ite
    | fail_if_no_progress (with_reducible refine Keeps.lit ?_ rfl id id)
    )

theorem State.tlyIrq_keeps : ∀ a1, Keeps P s0 s → Keeps P s0 (State.tlyIrq s a1) := by
  intro a1 h
  unfold State.tlyIrq
  repeat' (first
    | with_reducible assumption
    | with_reducible apply State.irq_keeps
    | with_reducible apply Keeps.ite
    )

theorem State.requeueNewest_keeps : Keeps P s0 s → Keeps P s0 (State.requeueNewest s) := by
  intro h
  unfold State.requeueNewest
  repeat' (first
    | with_reducible assumption
    | with_reducible apply State.journal_keeps
    | split
    )

theorem State.placeAt_keeps : ∀ a1 a2, Keeps P s0 s → Keeps P s0 (State.placeAt s a1 a2) := by
  intro a1 a2 h
  unfold State.placeAt
  repeat' (first
    | with_reducible assumption
    | with_reducible apply State.requeueNewest_keeps
    | with_reducible apply State.journal_keeps
    | with_reducible apply State.tlyIrq_keeps
    | with_reducible apply Keeps.ite
    | fail_if_no_progress (with_reducible refine Keeps.lit ?_ rfl id id)
    )

theorem State.record_keeps : ∀ a1 a2 a3 a4 a5, Keeps P s0 s → Keeps P s0 (State.record s a1 a2 a3 a4 a5) := by
  intro a1 a2 a3 a4 a5 h
  unfold State.record
  repeat' (first
    | with_reducible assumption
    | ((try lift_lets); intro x)
    | with_reducible apply State.tlyIrq_keeps
    | with_reducible apply State.placeAt_keeps
    | with_reducible apply State.count_keeps
    | fail_if_no_progress (with_reducible refine Keeps.lit ?_ rfl id id)
    | split
    )

theorem State.event_keeps : ∀ a1 a2 a3 a4 a5 a6, Keeps P s0 s → Keeps P s0 (State.event s a1 a2 a3 a4 a5 a6) := by
  intro a1 a2 a3 a4 a5 a6 h
  unfold State.event
  repeat' (first
    | with_reducible assumption
    | with_reducible apply State.record_keeps
    )

theorem State.mark_keeps : ∀ a1 a2 a3 a4 a5, Keeps P s0 s → Keeps P s0 (State.mark s a1 a2 a3 a4 a5) := by
  intro a1 a2 a3 a4 a5 h
  unfold State.mark
  repeat' (first
    | with_reducible assumption
    | with_reducible apply State.record_keeps
    )

theorem State.timeRec_keeps : ∀ a1 a2 a3, Keeps P s0 s → Keeps P s0 (State.timeRec s a1 a2 a3) := by
  intro a1 a2 a3 h
  unfold State.timeRec
  repeat' (first
    | with_reducible assumption
    | with_reducible apply State.record_keeps
    )

theorem State.setMode_keeps : ∀ a1, Keeps P s0 s → Keeps P s0 (State.setMode s a1) := by
  intro a1 h
  unfold State.setMode
  repeat' (first
    | with_reducible assumption
    | with_reducible apply State.irq_keeps
    | with_reducible apply Keeps.ite
    | fail_if_no_progress (with_reducible refine Keeps.lit ?_ rfl id id)
    )

end Sys2Proof.Machine
end

