-- ==== Sys2Proof/Laws/KeepsInjects.lean ====
section
/-!
SUPPORT. What the operations of Injects keep.
-/

namespace Sys2Proof.Machine

variable {P : Counters → Prop} {s0 s : State}

theorem State.disarm_keeps : Keeps P s0 s → Keeps P s0 (State.disarm s) := by
  intro h
  unfold State.disarm
  repeat' (first
    | with_reducible assumption
    | fail_if_no_progress (with_reducible refine Keeps.lit ?_ rfl id id)
    )

theorem State.detect_keeps : ∀ a1 a2 a3 a4 a5 a6, Keeps P s0 s → Keeps P s0 (State.detect s a1 a2 a3 a4 a5 a6) := by
  intro a1 a2 a3 a4 a5 a6 h
  unfold State.detect
  repeat' (first
    | with_reducible assumption
    | with_reducible apply State.raiseInj_keeps
    | with_reducible apply State.disarm_keeps
    | with_reducible apply State.raise_keeps
    | with_reducible apply Keeps.ite
    )

theorem State.drawWord_keeps : Keeps P s0 s → Keeps P s0 s.drawWord.2 := fun h => h.drawn

theorem State.drawBool_keeps : Keeps P s0 s → Keeps P s0 s.drawBool.2 := fun h => h.drawn

end Sys2Proof.Machine
end

