-- ==== Sys2Proof/Laws/KeepsCueOps.lean ====
section
/-!
SUPPORT. What the operations of CueOps keep.
-/

namespace Sys2Proof.Machine

variable {P : Counters → Prop} {s0 s : State}

theorem State.updCue_keeps : ∀ a1, Keeps P s0 s → Keeps P s0 (State.updCue s a1) := by
  intro a1 h
  unfold State.updCue
  repeat' (first
    | with_reducible assumption
    | fail_if_no_progress (with_reducible refine Keeps.lit ?_ rfl id id)
    )

theorem State.twinOut_keeps : ∀ a1, Keeps P s0 s → Keeps P s0 (State.twinOut s a1) := by
  intro a1 h
  unfold State.twinOut
  repeat' (first
    | with_reducible assumption
    | with_reducible apply State.event_keeps
    | with_reducible apply Keeps.ite
    | fail_if_no_progress (with_reducible refine Keeps.lit ?_ rfl id id)
    )

theorem State.later_keeps : ∀ a1 a2, Keeps P s0 s → Keeps P s0 (State.later s a1 a2) := by
  intro a1 a2 h
  unfold State.later
  repeat' (first
    | with_reducible assumption
    | fail_if_no_progress (with_reducible refine Keeps.lit ?_ rfl id id)
    )

theorem State.relayIn_keeps {f : Nat → State → State} (hf : ∀ s, Keeps P s0 s → ∀ n, Keeps P s0 (f n s)) :
    ∀ p e, Keeps P s0 s → Keeps P s0 (s.relayIn p e f) := by
  intro p e h
  unfold State.relayIn
  exact Keeps.ite h (Keeps.ite (State.twinOut_keeps _ (State.later_keeps _ _ h)) (Keeps.ite (State.later_keeps _ _ h) (hf _ h _)))

theorem State.relay_keeps {f : Nat → State → State} (hf : ∀ s, Keeps P s0 s → ∀ n, Keeps P s0 (f n s)) :
    ∀ e, Keeps P s0 s → Keeps P s0 (s.relay e f) := fun e h => State.relayIn_keeps hf _ e h

theorem State.relayNow_keeps {f : Nat → State → State} (hf : ∀ s, Keeps P s0 s → ∀ n, Keeps P s0 (f n s)) :
    ∀ e, Keeps P s0 s → Keeps P s0 (s.relayNow e f) := by
  intro e h
  unfold State.relayNow
  exact Keeps.ite h (Keeps.ite (State.twinOut_keeps _ (hf _ h _)) (hf _ h _))

theorem State.hitTrig_keeps : ∀ a1, Keeps P s0 s → Keeps P s0 (State.hitTrig s a1) := by
  intro a1 h
  unfold State.hitTrig
  repeat' (first
    | with_reducible assumption
    | with_reducible apply State.twinOut_keeps
    | with_reducible apply Keeps.ite
    | fail_if_no_progress (with_reducible refine Keeps.lit ?_ rfl id id)
    )

theorem State.recognise_keeps : ∀ a1, Keeps P s0 s → Keeps P s0 (State.recognise s a1) := by
  intro a1 h
  unfold State.recognise
  repeat' (first
    | with_reducible assumption
    | intro x
    | with_reducible apply forAll_keeps
    | with_reducible apply State.hitTrig_keeps
    )

theorem State.setPinState_keeps : ∀ a1 a2, Keeps P s0 s → Keeps P s0 (State.setPinState s a1 a2) := by
  intro a1 a2 h
  unfold State.setPinState
  repeat' (first
    | with_reducible assumption
    | with_reducible apply State.updCue_keeps
    )

theorem State.levelAct_keeps : ∀ a1 a2 a3, Keeps P s0 s → Keeps P s0 (State.levelAct s a1 a2 a3) := by
  intro a1 a2 a3 h
  unfold State.levelAct
  repeat' (first
    | with_reducible assumption
    | with_reducible apply State.setPinState_keeps
    | with_reducible apply State.updCue_keeps
    | with_reducible apply Keeps.ite
    | fail_if_no_progress (with_reducible refine Keeps.lit ?_ rfl id id)
    )

end Sys2Proof.Machine
end

