-- ==== Sys2Proof/Laws/KeepsPorts.lean ====
section
/-!
SUPPORT. What the operations of Ports keep.
-/

namespace Sys2Proof.Machine

variable {P : Counters → Prop} {s0 s : State}

theorem State.nextly_keeps {f : State → State} (hf : ∀ s, Keeps P s0 s → Keeps P s0 (f s)) :
    ∀ x, Keeps P s0 s → Keeps P s0 (s.nextly x f) := fun x h => Keeps.ite (hf _ h) (State.later_keeps _ _ h)

theorem State.relayWrite_keeps {f : State → State} (hf : ∀ s, Keeps P s0 s → Keeps P s0 (f s)) :
    ∀ a v, Keeps P s0 s → Keeps P s0 (s.relayWrite a v f) := by
  intro a v h
  unfold State.relayWrite
  exact Keeps.ite h (Keeps.ite (State.twinOut_keeps _ (hf s h)) (hf s h))

theorem State.portStart_keeps : ∀ a1 a2, Keeps P s0 s → Keeps P s0 (State.portStart s a1 a2) := by
  intro a1 a2 h
  unfold State.portStart
  repeat' (first
    | with_reducible assumption
    | with_reducible apply State.setPort_keeps
    | with_reducible apply Keeps.ite
    )

theorem State.portFadeOne_keeps : ∀ a1 a2, Keeps P s0 s → Keeps P s0 (State.portFadeOne s a1 a2) := by
  intro a1 a2 h
  unfold State.portFadeOne
  repeat' (first
    | with_reducible assumption
    | ((try lift_lets); intro x)
    | with_reducible apply State.setPort_keeps
    | split
    )

theorem State.portFade_keeps : ∀ a1 a2, Keeps P s0 s → Keeps P s0 (State.portFade s a1 a2) := by
  intro a1 a2 h
  unfold State.portFade
  repeat' (first
    | with_reducible assumption
    | intro x
    | with_reducible apply forAll_keeps
    | with_reducible apply State.portFadeOne_keeps
    )

theorem State.portStop_keeps : ∀ a1 a2, Keeps P s0 s → Keeps P s0 (State.portStop s a1 a2) := by
  intro a1 a2 h
  unfold State.portStop
  repeat' (first
    | with_reducible assumption
    | ((try lift_lets); intro x; with_reducible refine Keeps.cut (P := P) (s0 := s0) x ?_ ?_ <;> [(unfold x; clear x); (intro hx; clear_value x)])
    | ((try lift_lets); intro x)
    | with_reducible apply State.setPort_keeps
    | with_reducible apply forAll_keeps
    | split
    )

theorem State.writePortCtrl_keeps : ∀ a1 a2, Keeps P s0 s → Keeps P s0 (State.writePortCtrl s a1 a2) := by
  intro a1 a2 h
  unfold State.writePortCtrl
  repeat' (first
    | with_reducible assumption
    | with_reducible apply State.later_keeps
    | with_reducible apply State.setFlag_keeps
    | with_reducible apply State.setReg_keeps
    | with_reducible apply State.portStart_keeps
    | with_reducible apply State.portStop_keeps
    | with_reducible apply Keeps.ite
    | ((try lift_lets); intro x)
    | with_reducible apply forAll_keeps
    | with_reducible apply Keeps.foldl
    | split
    )

theorem State.naOn_keeps : ∀ a1 a2 a3, Keeps P s0 s → Keeps P s0 (State.naOn s a1 a2 a3) := by
  intro a1 a2 a3 h
  unfold State.naOn
  repeat' (first
    | with_reducible assumption
    | with_reducible apply State.event_keeps
    | with_reducible apply State.setPort_keeps
    )

theorem State.naFrame_keeps : ∀ a1 a2, Keeps P s0 s → Keeps P s0 (State.naFrame s a1 a2) := by
  intro a1 a2 h
  unfold State.naFrame
  repeat' (first
    | with_reducible assumption
    | ((try lift_lets); intro x)
    | with_reducible apply forAll_keeps
    | with_reducible apply State.setPort_keeps
    | with_reducible apply State.relay_keeps
    | with_reducible apply State.naOn_keeps
    | with_reducible apply Keeps.ite
    )

theorem State.putSample_keeps : ∀ a1 a2 a3, Keeps P s0 s → Keeps P s0 (State.putSample s a1 a2 a3) := by
  intro a1 a2 a3 h
  unfold State.putSample
  repeat' (first
    | with_reducible assumption
    | with_reducible apply State.wr32_keeps
    | with_reducible apply State.wrBytes_keeps
    | with_reducible apply Keeps.ite
    )

theorem State.putFrame_keeps : ∀ a1 a2 a3, Keeps P s0 s → Keeps P s0 (State.putFrame s a1 a2 a3) := by
  intro a1 a2 a3 h
  unfold State.putFrame
  repeat' (first
    | with_reducible assumption
    | ((try lift_lets); intro x)
    | with_reducible apply forAll_keeps
    | with_reducible apply State.putSample_keeps
    | with_reducible apply Keeps.ite
    )

theorem State.slipAct_keeps : ∀ a1 a2, Keeps P s0 s → Keeps P s0 (State.slipAct s a1 a2) := by
  intro a1 a2 h
  unfold State.slipAct
  repeat' (first
    | with_reducible assumption
    | with_reducible apply State.portFade_keeps
    | with_reducible apply State.count_keeps
    | ((try lift_lets); intro x)
    | with_reducible apply Keeps.ite
    | with_reducible apply forAll_keeps
    | with_reducible apply Keeps.foldl
    | split
    )

theorem State.slip_keeps : ∀ a1 a2 a3 a4, Keeps P s0 s → Keeps P s0 (State.slip s a1 a2 a3 a4) := by
  intro a1 a2 a3 a4 h
  unfold State.slip
  repeat' (first
    | with_reducible assumption
    | with_reducible apply State.relayIn_keeps
    | with_reducible apply State.setPort_keeps
    | ((try lift_lets); intro x)
    | with_reducible apply forAll_keeps
    | with_reducible apply State.count_keeps
    | with_reducible apply State.relay_keeps
    | with_reducible apply State.putFrame_keeps
    | with_reducible apply State.slipAct_keeps
    | with_reducible apply Keeps.ite
    | with_reducible apply Keeps.foldl
    | split
    )

theorem State.sendFrame_keeps : ∀ a1 a2 a3, Keeps P s0 s → Keeps P s0 (State.sendFrame s a1 a2 a3) := by
  intro a1 a2 a3 h
  unfold State.sendFrame
  repeat' (first
    | with_reducible assumption
    | ((try lift_lets); intro x)
    | with_reducible apply State.setPort_keeps
    | fail_if_no_progress (with_reducible refine Keeps.lit ?_ rfl id id)
    | with_reducible apply Keeps.ite
    | with_reducible apply forAll_keeps
    | with_reducible apply Keeps.foldl
    | split
    )

theorem State.runFrame_keeps : ∀ a1 a2 a3 a4 a5 a6, Keeps P s0 s → Keeps P s0 (State.runFrame s a1 a2 a3 a4 a5 a6) := by
  intro a1 a2 a3 a4 a5 a6 h
  unfold State.runFrame
  repeat' (first
    | with_reducible assumption
    | with_reducible apply State.sendFrame_keeps
    | ((try lift_lets); intro x; with_reducible refine Keeps.cut (P := P) (s0 := s0) x ?_ ?_ <;> [(unfold x; clear x); (intro hx; clear_value x)])
    | ((try lift_lets); intro x)
    | with_reducible apply State.setPort_keeps
    | with_reducible apply State.slip_keeps
    | with_reducible apply State.naFrame_keeps
    | with_reducible apply State.putFrame_keeps
    | split
    | with_reducible apply Keeps.ite
    | with_reducible apply forAll_keeps
    | with_reducible apply Keeps.foldl
    )

theorem State.portFrame_keeps : ∀ a1 a2 a3 a4 a5 a6, Keeps P s0 s → Keeps P s0 (State.portFrame s a1 a2 a3 a4 a5 a6) := by
  intro a1 a2 a3 a4 a5 a6 h
  unfold State.portFrame
  repeat' (first
    | with_reducible assumption
    | with_reducible apply State.sendFrame_keeps
    | ((try lift_lets); intro x; with_reducible refine Keeps.cut (P := P) (s0 := s0) x ?_ ?_ <;> [(unfold x; clear x); (intro hx; clear_value x)])
    | ((try lift_lets); intro x)
    | with_reducible apply State.setPort_keeps
    | with_reducible apply State.runFrame_keeps
    | split
    )

theorem State.seenRef_keeps : ∀ a1 a2 a3, Keeps P s0 s → Keeps P s0 (State.seenRef s a1 a2 a3) := by
  intro a1 a2 a3 h
  unfold State.seenRef
  repeat' (first
    | with_reducible assumption
    | ((try lift_lets); intro x)
    | with_reducible apply State.setPort_keeps
    | with_reducible apply Keeps.ite
    | fail_if_no_progress (with_reducible refine Keeps.lit ?_ rfl id id)
    )

theorem State.portFadeEnd_keeps : ∀ a1, Keeps P s0 s → Keeps P s0 (State.portFadeEnd s a1) := by
  intro a1 h
  unfold State.portFadeEnd
  repeat' (first
    | with_reducible assumption
    | ((try lift_lets); intro x)
    | with_reducible apply State.setPort_keeps
    | split
    )

theorem State.setClass_keeps : ∀ a1 a2, Keeps P s0 s → Keeps P s0 (State.setClass s a1 a2) := by
  intro a1 a2 h
  unfold State.setClass
  repeat' (first
    | with_reducible assumption
    | with_reducible apply State.setPort_keeps
    | with_reducible apply State.event_keeps
    | with_reducible apply State.recognise_keeps
    | with_reducible apply Keeps.ite
    )

end Sys2Proof.Machine
end

