-- ==== Sys2Proof/Laws/KeepsPdmOps.lean ====
section
/-!
SUPPORT. What the operations of PdmOps keep.
-/

namespace Sys2Proof.Machine

variable {P : Counters → Prop} {s0 s : State}

theorem State.micStart_keeps : ∀ a1 a2, Keeps P s0 s → Keeps P s0 (State.micStart s a1 a2) := by
  intro a1 a2 h
  unfold State.micStart
  repeat' (first
    | with_reducible assumption
    | with_reducible apply State.later_keeps
    | with_reducible apply State.setMic_keeps
    | with_reducible apply Keeps.ite
    | ((try lift_lets); intro x)
    | with_reducible apply forAll_keeps
    | with_reducible apply Keeps.foldl
    | split
    )

theorem State.micGo_keeps : ∀ a1 a2, Keeps P s0 s → Keeps P s0 (State.micGo s a1 a2) := by
  intro a1 a2 h
  unfold State.micGo
  repeat' (first
    | with_reducible assumption
    | ((try lift_lets); intro x)
    | with_reducible apply State.setMic_keeps
    | with_reducible apply Keeps.ite
    )

theorem State.micStop_keeps : ∀ a1 a2, Keeps P s0 s → Keeps P s0 (State.micStop s a1 a2) := by
  intro a1 a2 h
  unfold State.micStop
  repeat' (first
    | with_reducible assumption
    | ((try lift_lets); intro x)
    | with_reducible apply State.setMic_keeps
    | split
    )

theorem State.micHold_keeps : ∀ a1 a2, Keeps P s0 s → Keeps P s0 (State.micHold s a1 a2) := by
  intro a1 a2 h
  unfold State.micHold
  repeat' (first
    | with_reducible assumption
    | ((try lift_lets); intro x)
    | with_reducible apply State.setMic_keeps
    | split
    | with_reducible apply Keeps.ite
    | with_reducible apply forAll_keeps
    | with_reducible apply Keeps.foldl
    )

theorem State.micStuckAct_keeps : ∀ a1 a2, Keeps P s0 s → Keeps P s0 (State.micStuckAct s a1 a2) := by
  intro a1 a2 h
  unfold State.micStuckAct
  repeat' (first
    | with_reducible assumption
    | with_reducible apply State.micHold_keeps
    | with_reducible apply State.setMic_keeps
    )

theorem State.micStuckSeen_keeps : ∀ a1, Keeps P s0 s → Keeps P s0 (State.micStuckSeen s a1) := by
  intro a1 h
  unfold State.micStuckSeen
  repeat' (first
    | with_reducible assumption
    | ((try lift_lets); intro x)
    | with_reducible apply State.micStuckAct_keeps
    | with_reducible apply State.raise_keeps
    | with_reducible apply State.relay_keeps
    | with_reducible apply Keeps.ite
    )

theorem State.micBackAct_keeps : ∀ a1 a2, Keeps P s0 s → Keeps P s0 (State.micBackAct s a1 a2) := by
  intro a1 a2 h
  unfold State.micBackAct
  repeat' (first
    | with_reducible assumption
    | with_reducible apply State.setMic_keeps
    )

theorem State.micBackSeen_keeps : ∀ a1, Keeps P s0 s → Keeps P s0 (State.micBackSeen s a1) := by
  intro a1 h
  unfold State.micBackSeen
  repeat' (first
    | with_reducible assumption
    | ((try lift_lets); intro x)
    | with_reducible apply State.micBackAct_keeps
    | with_reducible apply State.relay_keeps
    | with_reducible apply Keeps.ite
    | with_reducible apply forAll_keeps
    | with_reducible apply Keeps.foldl
    | split
    )

theorem State.micPass_keeps : ∀ a1 a2, Keeps P s0 s → Keeps P s0 (State.micPass s a1 a2) := by
  intro a1 a2 h
  unfold State.micPass
  repeat' (first
    | with_reducible assumption
    | with_reducible apply State.micBackSeen_keeps
    | with_reducible apply State.micStuckSeen_keeps
    | with_reducible apply State.setMic_keeps
    | with_reducible apply State.wr32_keeps
    | with_reducible apply Keeps.ite
    | ((try lift_lets); intro x)
    | with_reducible apply forAll_keeps
    | with_reducible apply Keeps.foldl
    | split
    )

theorem State.micFadeEnd_keeps : ∀ a1, Keeps P s0 s → Keeps P s0 (State.micFadeEnd s a1) := by
  intro a1 h
  unfold State.micFadeEnd
  repeat' (first
    | with_reducible assumption
    | ((try lift_lets); intro x)
    | with_reducible apply State.setMic_keeps
    | split
    | with_reducible apply Keeps.ite
    | with_reducible apply forAll_keeps
    | with_reducible apply Keeps.foldl
    )

theorem State.pdmPass_keeps : ∀ a1 a2, Keeps P s0 s → Keeps P s0 (State.pdmPass s a1 a2) := by
  intro a1 a2 h
  unfold State.pdmPass
  repeat' (first
    | with_reducible assumption
    | ((try lift_lets); intro x)
    | with_reducible apply forAll_keeps
    | with_reducible apply State.wr32_keeps
    | with_reducible apply State.micPass_keeps
    | with_reducible apply Keeps.ite
    )

theorem State.pdmStart_keeps : ∀ a1, Keeps P s0 s → Keeps P s0 (State.pdmStart s a1) := by
  intro a1 h
  unfold State.pdmStart
  repeat' (first
    | with_reducible assumption
    | with_reducible apply State.later_keeps
    | ((try lift_lets); intro x)
    | with_reducible apply forAll_keeps
    | with_reducible apply State.micStart_keeps
    | with_reducible apply Keeps.ite
    | fail_if_no_progress (with_reducible refine Keeps.lit ?_ rfl id id)
    | with_reducible apply Keeps.foldl
    | split
    )

theorem State.pdmClocksOn_keeps : Keeps P s0 s → Keeps P s0 (State.pdmClocksOn s) := by
  intro h
  unfold State.pdmClocksOn
  repeat' (first
    | with_reducible assumption
    | with_reducible apply Keeps.ite
    | fail_if_no_progress (with_reducible refine Keeps.lit ?_ rfl id id)
    )

theorem State.pdmStop_keeps : ∀ a1, Keeps P s0 s → Keeps P s0 (State.pdmStop s a1) := by
  intro a1 h
  unfold State.pdmStop
  repeat' (first
    | with_reducible assumption
    | ((try lift_lets); intro x)
    | with_reducible apply forAll_keeps
    | with_reducible apply State.micStop_keeps
    | with_reducible apply Keeps.ite
    | fail_if_no_progress (with_reducible refine Keeps.lit ?_ rfl id id)
    | with_reducible apply Keeps.foldl
    | split
    )

theorem State.pdmStopEnd_keeps : Keeps P s0 s → Keeps P s0 (State.pdmStopEnd s) := by
  intro h
  unfold State.pdmStopEnd
  repeat' (first
    | with_reducible assumption
    | fail_if_no_progress (with_reducible refine Keeps.lit ?_ rfl id id)
    | split
    )

theorem State.writePdmCtrl_keeps : ∀ a1, Keeps P s0 s → Keeps P s0 (State.writePdmCtrl s a1) := by
  intro a1 h
  unfold State.writePdmCtrl
  repeat' (first
    | with_reducible assumption
    | with_reducible apply State.later_keeps
    | with_reducible apply State.setFlag_keeps
    | with_reducible apply State.setReg_keeps
    | with_reducible apply State.pdmStart_keeps
    | with_reducible apply State.pdmStop_keeps
    | with_reducible apply Keeps.ite
    | ((try lift_lets); intro x)
    | with_reducible apply forAll_keeps
    | with_reducible apply Keeps.foldl
    | split
    )

theorem State.writeMicEn_keeps : ∀ a1, Keeps P s0 s → Keeps P s0 (State.writeMicEn s a1) := by
  intro a1 h
  unfold State.writeMicEn
  repeat' (first
    | with_reducible assumption
    | with_reducible apply State.later_keeps
    | ((try lift_lets); intro x)
    | with_reducible apply State.setReg_keeps
    | with_reducible apply forAll_keeps
    | with_reducible apply State.micStart_keeps
    | with_reducible apply State.micStop_keeps
    | with_reducible apply Keeps.ite
    | with_reducible apply Keeps.foldl
    | split
    )

theorem State.writeTrim_keeps : ∀ a1 a2, Keeps P s0 s → Keeps P s0 (State.writeTrim s a1 a2) := by
  intro a1 a2 h
  unfold State.writeTrim
  repeat' (first
    | with_reducible assumption
    | with_reducible apply State.later_keeps
    | intro x
    | with_reducible apply State.setReg_keeps
    | with_reducible apply forAll_keeps
    | with_reducible apply State.micStart_keeps
    | with_reducible apply Keeps.ite
    | with_reducible apply Keeps.foldl
    | split
    )

end Sys2Proof.Machine
end

