-- ==== Sys2Proof/Laws/KeepsSrcOps.lean ====
section
/-!
SUPPORT. What the operations of SrcOps keep.
-/

namespace Sys2Proof.Machine

variable {P : Counters → Prop} {s0 s : State}
theorem State.srcTake_keeps : ∀ a1 a2, Keeps P s0 s → Keeps P s0 (State.srcTake s a1 a2) := by
  intro a1 a2 h
  unfold State.srcTake
  repeat' (first
    | with_reducible assumption
    | with_reducible apply State.twinOut_keeps
    | ((try lift_lets); intro x)
    | with_reducible apply State.count_keeps
    | with_reducible apply State.setSrc_keeps
    | with_reducible apply Keeps.foldl
    | with_reducible apply Keeps.ite
    | fail_if_no_progress (with_reducible refine Keeps.lit ?_ rfl id id)
    | split
    | with_reducible apply forAll_keeps
    )

theorem State.srcFrame_keeps : ∀ a1 a2 a3, Keeps P s0 s → Keeps P s0 (State.srcFrame s a1 a2 a3) := by
  intro a1 a2 a3 h
  unfold State.srcFrame
  repeat' (first
    | with_reducible assumption
    | with_reducible apply State.srcTake_keeps
    | with_reducible apply State.twinOut_keeps
    | with_reducible apply State.setSrc_keeps
    | with_reducible apply Keeps.ite
    | ((try lift_lets); intro x)
    | with_reducible apply forAll_keeps
    | with_reducible apply Keeps.foldl
    | split
    )

theorem State.srcNumber_keeps : ∀ a1 a2 a3, Keeps P s0 s → Keeps P s0 (State.srcNumber s a1 a2 a3) := by
  intro a1 a2 a3 h
  unfold State.srcNumber
  repeat' (first
    | with_reducible assumption
    | ((try lift_lets); intro x)
    | with_reducible apply State.setSrc_keeps
    | with_reducible apply State.srcTake_keeps
    | with_reducible apply Keeps.foldl
    | with_reducible apply Keeps.ite
    | fail_if_no_progress (with_reducible refine Keeps.lit ?_ rfl id id)
    | split
    | with_reducible apply forAll_keeps
    )


theorem State.srcAcquire_keeps : ∀ a1 a2 a3, Keeps P s0 s → Keeps P s0 (State.srcAcquire s a1 a2 a3) := by
  intro a1 a2 a3 h
  unfold State.srcAcquire
  repeat' (first
    | with_reducible assumption
    | with_reducible apply State.srcTake_keeps
    | with_reducible apply State.setSrc_keeps
    | ((try lift_lets); intro x)
    | with_reducible apply Keeps.ite
    | with_reducible apply forAll_keeps
    | with_reducible apply Keeps.foldl
    | split
    )

theorem State.srcMeasure_keeps : ∀ a1 a2 a3 a4, Keeps P s0 s → Keeps P s0 (State.srcMeasure s a1 a2 a3 a4) := by
  intro a1 a2 a3 a4 h
  unfold State.srcMeasure
  repeat' (first
    | with_reducible assumption
    | with_reducible apply State.setSrc_keeps
    | with_reducible apply State.srcAcquire_keeps
    | with_reducible apply Keeps.ite
    )

theorem State.srcLost_keeps : ∀ a1 a2, Keeps P s0 s → Keeps P s0 (State.srcLost s a1 a2) := by
  intro a1 a2 h
  unfold State.srcLost
  repeat' (first
    | with_reducible assumption
    | ((try lift_lets); intro x)
    | with_reducible apply State.setSrc_keeps
    | split
    | with_reducible apply Keeps.ite
    | with_reducible apply forAll_keeps
    | with_reducible apply Keeps.foldl
    )

theorem State.srcStart_keeps : ∀ a1, Keeps P s0 s → Keeps P s0 (State.srcStart s a1) := by
  intro a1 h
  unfold State.srcStart
  repeat' (first
    | with_reducible assumption
    | with_reducible apply State.setSrc_keeps
    | with_reducible apply Keeps.ite
    )

theorem State.srcStop_keeps : ∀ a1 a2, Keeps P s0 s → Keeps P s0 (State.srcStop s a1 a2) := by
  intro a1 a2 h
  unfold State.srcStop
  repeat' (first
    | with_reducible assumption
    | with_reducible apply State.setSrc_keeps
    | with_reducible apply Keeps.ite
    )

theorem State.srcKeep_keeps : ∀ a1 a2, Keeps P s0 s → Keeps P s0 (State.srcKeep s a1 a2) := by
  intro a1 a2 h
  unfold State.srcKeep
  repeat' (first
    | with_reducible assumption
    | ((try lift_lets); intro x)
    | with_reducible apply State.setSrc_keeps
    | with_reducible apply Keeps.ite
    | fail_if_no_progress (with_reducible refine Keeps.lit ?_ rfl id id)
    | with_reducible apply forAll_keeps
    | with_reducible apply Keeps.foldl
    | split
    )

theorem State.srcPhase_keeps : ∀ a1 a2, Keeps P s0 s → Keeps P s0 (State.srcPhase s a1 a2) := by
  intro a1 a2 h
  unfold State.srcPhase
  repeat' (first
    | with_reducible assumption
    | ((try lift_lets); intro x)
    | with_reducible apply State.count_keeps
    | with_reducible apply State.setSrc_keeps
    | with_reducible apply Keeps.ite
    | fail_if_no_progress (with_reducible refine Keeps.lit ?_ rfl id id)
    | with_reducible apply forAll_keeps
    | with_reducible apply Keeps.foldl
    | split
    )

theorem State.srcStep_keeps : ∀ a1 a2, Keeps P s0 s → Keeps P s0 (State.srcStep s a1 a2) := by
  intro a1 a2 h
  unfold State.srcStep
  repeat' (first
    | with_reducible assumption
    | with_reducible apply State.later_keeps
    | with_reducible apply State.srcPhase_keeps
    | ((try lift_lets); intro x)
    | with_reducible apply State.setSrc_keeps
    | with_reducible apply forAll_keeps
    | with_reducible apply State.wr32_keeps
    | with_reducible apply Keeps.ite
    | with_reducible apply Keeps.foldl
    | split
    )

theorem State.writeSrcCtrl_keeps : ∀ a1 a2, Keeps P s0 s → Keeps P s0 (State.writeSrcCtrl s a1 a2) := by
  intro a1 a2 h
  unfold State.writeSrcCtrl
  repeat' (first
    | with_reducible assumption
    | with_reducible apply State.later_keeps
    | with_reducible apply State.setFlag_keeps
    | with_reducible apply State.setReg_keeps
    | with_reducible apply State.setSrc_keeps
    | with_reducible apply Keeps.ite
    | ((try lift_lets); intro x)
    | with_reducible apply forAll_keeps
    | with_reducible apply Keeps.foldl
    | split
    )

end Sys2Proof.Machine
end

