-- ==== Sys2Proof/Laws/KeepsClockOps.lean ====
section
/-!
SUPPORT. What the operations of ClockOps keep.
-/

namespace Sys2Proof.Machine

variable {P : Counters → Prop} {s0 s : State}

theorem State.leaveSync_keeps : Keeps P s0 s → Keeps P s0 (State.leaveSync s) := by
  intro h
  unfold State.leaveSync
  repeat' (first
    | with_reducible assumption
    | with_reducible apply State.setMode_keeps
    | with_reducible apply Keeps.ite
    )

theorem State.syncOver_keeps : Keeps P s0 s → Keeps P s0 (State.syncOver s) := by
  intro h
  unfold State.syncOver
  repeat' (first
    | with_reducible assumption
    | with_reducible apply State.leaveSync_keeps
    | with_reducible apply Keeps.ite
    )

theorem State.outsDrive_keeps : Keeps P s0 s → Keeps P s0 (State.outsDrive s) := by
  intro h
  unfold State.outsDrive
  repeat' (first
    | with_reducible assumption
    | ((try lift_lets); intro x)
    | fail_if_no_progress (with_reducible refine Keeps.lit ?_ rfl id id)
    )

theorem State.regate_keeps : Keeps P s0 s → Keeps P s0 (State.regate s) := by
  intro h
  unfold State.regate
  repeat' (first
    | with_reducible assumption
    | fail_if_no_progress (with_reducible refine Keeps.lit ?_ rfl id id)
    )

theorem State.gateOuts_keeps : Keeps P s0 s → Keeps P s0 (State.gateOuts s) := fun h => Keeps.lit (Keeps.drawn h) rfl id id

theorem State.setRefSt_keeps : ∀ a1, Keeps P s0 s → Keeps P s0 (State.setRefSt s a1) := by
  intro a1 h
  unfold State.setRefSt
  repeat' (first
    | with_reducible assumption
    | with_reducible apply State.gateOuts_keeps
    | with_reducible apply State.count_keeps
    | with_reducible apply State.setFld_keeps
    | with_reducible apply State.regate_keeps
    | with_reducible apply Keeps.ite
    | fail_if_no_progress (with_reducible refine Keeps.lit ?_ rfl id id)
    | ((try lift_lets); intro x)
    | with_reducible apply forAll_keeps
    | with_reducible apply Keeps.foldl
    | split
    )

theorem State.takeRef_keeps : ∀ a1, Keeps P s0 s → Keeps P s0 (State.takeRef s a1) := by
  intro a1 h
  unfold State.takeRef
  repeat' (first
    | with_reducible assumption
    | with_reducible apply State.later_keeps
    | ((try lift_lets); intro x)
    | with_reducible apply State.count_keeps
    | with_reducible apply State.setRefSt_keeps
    | with_reducible apply State.event_keeps
    | fail_if_no_progress (with_reducible refine Keeps.lit ?_ rfl id id)
    | split
    | with_reducible apply Keeps.ite
    | with_reducible apply forAll_keeps
    | with_reducible apply Keeps.foldl
    )

theorem State.crystalLock_keeps : Keeps P s0 s → Keeps P s0 (State.crystalLock s) := by
  intro h
  unfold State.crystalLock
  repeat' (first
    | with_reducible assumption
    | with_reducible apply State.setRefSt_keeps
    | with_reducible apply Keeps.ite
    )

theorem State.candLost_keeps : ∀ a1, Keeps P s0 s → Keeps P s0 (State.candLost s a1) := by
  intro a1 h
  unfold State.candLost
  repeat' (first
    | with_reducible assumption
    | with_reducible apply State.takeRef_keeps
    | with_reducible apply Keeps.ite
    | fail_if_no_progress (with_reducible refine Keeps.lit ?_ rfl id id)
    )

theorem State.candFound_keeps : Keeps P s0 s → Keeps P s0 (State.candFound s) := by
  intro h
  unfold State.candFound
  repeat' (first
    | with_reducible assumption
    | with_reducible apply State.takeRef_keeps
    | split
    )

theorem State.candStops_keeps : ∀ a1, Keeps P s0 s → Keeps P s0 (State.candStops s a1) := by
  intro a1 h
  unfold State.candStops
  repeat' (first
    | with_reducible assumption
    | with_reducible apply State.candLost_keeps
    | with_reducible apply Keeps.ite
    | ((try lift_lets); intro x)
    | with_reducible apply forAll_keeps
    | with_reducible apply Keeps.foldl
    | split
    )

theorem State.newList_keeps : Keeps P s0 s → Keeps P s0 (State.newList s) := by
  intro h
  unfold State.newList
  extract_lets k t
  have ht : Keeps P s0 t := Keeps.lit h rfl id id
  clear_value t
  repeat' (first
    | with_reducible assumption
    | with_reducible apply State.setRefSt_keeps
    | with_reducible apply State.takeRef_keeps
    | with_reducible apply Keeps.ite
    | split
    | ((try lift_lets); intro x)
    | with_reducible apply forAll_keeps
    | with_reducible apply Keeps.foldl
    )

theorem State.phaseBlock_keeps : ∀ a1 a2, Keeps P s0 s → Keeps P s0 (State.phaseBlock s a1 a2) := fun _ _ h =>
  Keeps.ite (Keeps.lit (Keeps.drawn h) rfl id id) (Keeps.lit h rfl id id)

theorem State.refBlock_keeps : ∀ a1 a2, Keeps P s0 s → Keeps P s0 (State.refBlock s a1 a2) := by
  intro a1 a2 h
  unfold State.refBlock
  repeat' (first
    | with_reducible assumption
    | with_reducible apply State.phaseBlock_keeps
    | with_reducible apply State.candFound_keeps
    | with_reducible apply State.candLost_keeps
    | with_reducible apply Keeps.ite
    | fail_if_no_progress (with_reducible refine Keeps.lit ?_ rfl id id)
    | ((try lift_lets); intro x)
    | with_reducible apply forAll_keeps
    | with_reducible apply Keeps.foldl
    | split
    )

theorem State.holdMean_keeps : ∀ a1, Keeps P s0 s → Keeps P s0 (State.holdMean s a1).2 := by
  intro a1 h
  unfold State.holdMean
  repeat' (first
    | with_reducible assumption
    | with_reducible apply State.drawBool_keeps
    | with_reducible apply Keeps.iteSnd
    | ((try lift_lets); intro x)
    | with_reducible apply Keeps.ite
    | with_reducible apply forAll_keeps
    | with_reducible apply Keeps.foldl
    | split
    )

theorem State.holdAverage_keeps : Keeps P s0 s → Keeps P s0 (State.holdAverage s) := by
  intro h
  unfold State.holdAverage
  repeat' (first
    | with_reducible assumption
    | with_reducible apply State.drawBool_keeps
    | with_reducible apply State.holdMean_keeps
    | with_reducible apply Keeps.ite
    | with_reducible apply Keeps.iteSnd
    | fail_if_no_progress (with_reducible refine Keeps.lit ?_ rfl id id)
    | ((try lift_lets); intro x)
    | with_reducible apply forAll_keeps
    | with_reducible apply Keeps.foldl
    | split
    )

theorem State.refGoal_keeps : Keeps P s0 s → Keeps P s0 s.refGoal.2 := by
  intro h
  unfold State.refGoal
  repeat' split
  all_goals first | exact h | exact h.drawn

theorem State.holdPass_keeps : Keeps P s0 s → Keeps P s0 (State.holdPass s) := by
  intro h
  unfold State.holdPass
  repeat' (first
    | with_reducible assumption
    | ((try lift_lets); intro x)
    | with_reducible apply State.setFld_keeps
    | with_reducible apply Keeps.ite
    | fail_if_no_progress (with_reducible refine Keeps.lit ?_ rfl id id)
    )

theorem State.syncStrobe_keeps : Keeps P s0 s → Keeps P s0 (State.syncStrobe s) := by
  intro h
  unfold State.syncStrobe
  repeat' (first
    | with_reducible assumption
    | ((try lift_lets); intro x)
    | with_reducible apply Keeps.ite
    | fail_if_no_progress (with_reducible refine Keeps.lit ?_ rfl id id)
    | with_reducible apply forAll_keeps
    | with_reducible apply Keeps.foldl
    | split
    )

theorem State.clkStrobe_keeps : Keeps P s0 s → Keeps P s0 (State.clkStrobe s) := by
  intro h
  unfold State.clkStrobe
  repeat' (first
    | with_reducible assumption
    | with_reducible apply State.holdPass_keeps
    | with_reducible apply State.syncStrobe_keeps
    | with_reducible apply State.refGoal_keeps
    | fail_if_no_progress (with_reducible refine Keeps.lit ?_ rfl id id)
    | ((try lift_lets); intro x)
    | with_reducible apply Keeps.ite
    | with_reducible apply forAll_keeps
    | with_reducible apply Keeps.foldl
    | split
    )

theorem State.realign_keeps : ∀ a1 a2 a3, Keeps P s0 s → Keeps P s0 (State.realign s a1 a2 a3) := by
  intro a1 a2 a3 h
  unfold State.realign
  repeat' (first
    | with_reducible assumption
    | fail_if_no_progress (with_reducible refine Keeps.lit ?_ rfl id id)
    )

end Sys2Proof.Machine
end

