-- ==== Sys2Proof/Laws/KeepsPortCmds.lean ====
section
/-!
SUPPORT. What the operations of PortCmds keep.
-/

namespace Sys2Proof.Machine

variable {P : Counters → Prop} {s0 s : State}

theorem execPortEnable_keeps : ∀ a0 a1, Completes s (execPortEnable a0 a1 s) := by
  intro a0 a1
  have h : Keeps Counters.any s s := .refl s
  unfold execPortEnable
  repeat' (first
    | with_reducible assumption
    | with_reducible apply Completes.of
    | with_reducible apply State.writePortCtrl_keeps
    | with_reducible apply Keeps.ite
    )

theorem execPortDisable_keeps : ∀ a0 a1, Completes s (execPortDisable a0 a1 s) := by
  intro a0 a1
  have h : Keeps Counters.any s s := .refl s
  unfold execPortDisable
  repeat' (first
    | with_reducible assumption
    | with_reducible apply Completes.of
    | with_reducible apply State.writePortCtrl_keeps
    | with_reducible apply Keeps.ite
    )

theorem State.lockAct_keeps : ∀ a1 a2 a3, Keeps P s0 s → Keeps P s0 (State.lockAct s a1 a2 a3) := by
  intro a1 a2 a3 h
  unfold State.lockAct
  repeat' (first
    | with_reducible assumption
    | with_reducible apply State.setPort_keeps
    | with_reducible apply Keeps.ite
    )

theorem execPortLock_keeps : ∀ a0 a1, Completes s (execPortLock a0 a1 s) := by
  intro a0 a1
  have h : Keeps Counters.any s s := .refl s
  unfold execPortLock
  repeat' (first
    | with_reducible assumption
    | intro x
    | with_reducible apply Completes.of
    | with_reducible apply State.relay_keeps
    | with_reducible apply State.lockAct_keeps
    | with_reducible apply Keeps.ite
    )

theorem execRuninEnd_keeps : ∀ a0, Completes s (execRuninEnd a0 s) := by
  intro a0
  have h : Keeps Counters.any s s := .refl s
  unfold execRuninEnd
  repeat' (first
    | with_reducible assumption
    | with_reducible apply Completes.of
    | with_reducible apply State.setPort_keeps
    | with_reducible apply Keeps.ite
    )

theorem execPortRampEnd_keeps : ∀ a0, Completes s (execPortRampEnd a0 s) := by
  intro a0
  have h : Keeps Counters.any s s := .refl s
  unfold execPortRampEnd
  repeat' (first
    | with_reducible assumption
    | with_reducible apply Completes.of
    | with_reducible apply State.setPort_keeps
    | with_reducible apply Keeps.ite
    )

theorem State.restLevels_keeps : ∀ a1, Keeps P s0 s → Keeps P s0 (State.restLevels s a1) := by
  intro a1 h
  unfold State.restLevels
  repeat' (first
    | with_reducible assumption
    | ((try lift_lets); intro x)
    | with_reducible apply State.setPort_keeps
    | with_reducible apply Keeps.ite
    | fail_if_no_progress (with_reducible refine Keeps.lit ?_ rfl id id)
    )

theorem execPortStop_keeps : ∀ a0, Completes s (execPortStop a0 s) := by
  intro a0
  have h : Keeps Counters.any s s := .refl s
  unfold execPortStop
  repeat' (first
    | with_reducible assumption
    | with_reducible apply State.later_keeps
    | with_reducible apply State.restLevels_keeps
    | with_reducible apply Completes.of
    | with_reducible apply State.setPort_keeps
    | with_reducible apply State.portStart_keeps
    | with_reducible apply Keeps.ite
    | ((try lift_lets); intro x)
    | with_reducible apply forAll_keeps
    | with_reducible apply Keeps.foldl
    | split
    )

theorem execTdmFrame_keeps : ∀ a0 a1 a2 a3 a4 a5, Completes s (execTdmFrame a0 a1 a2 a3 a4 a5 s) := by
  intro a0 a1 a2 a3 a4 a5
  have h : Keeps Counters.any s s := .refl s
  unfold execTdmFrame
  repeat' (first
    | with_reducible assumption
    | with_reducible apply State.seenRef_keeps
    | ((try lift_lets); intro x)
    | with_reducible apply Completes.of
    | with_reducible apply State.setPort_keeps
    | with_reducible apply forAll_keeps
    | with_reducible apply State.srcFrame_keeps
    | with_reducible apply State.portFrame_keeps
    | with_reducible apply Keeps.ite
    | with_reducible apply Keeps.foldl
    | split
    )

theorem State.lossAct_keeps : ∀ a1 a2, Keeps P s0 s → Keeps P s0 (State.lossAct s a1 a2) := by
  intro a1 a2 h
  unfold State.lossAct
  repeat' (first
    | with_reducible assumption
    | with_reducible apply State.candStops_keeps
    | ((try lift_lets); intro x)
    | with_reducible apply State.setPort_keeps
    | with_reducible apply State.portFade_keeps
    | with_reducible apply State.setClass_keeps
    | with_reducible apply forAll_keeps
    | with_reducible apply State.srcLost_keeps
    | with_reducible apply Keeps.ite
    | with_reducible apply Keeps.foldl
    | split
    )

theorem execFrameLoss_keeps : ∀ a0, Completes s (execFrameLoss a0 s) := by
  intro a0
  have h : Keeps Counters.any s s := .refl s
  unfold execFrameLoss
  repeat' (first
    | with_reducible assumption
    | intro x
    | with_reducible apply Completes.of
    | with_reducible apply State.relay_keeps
    | with_reducible apply State.lossAct_keeps
    | with_reducible apply State.candLost_keeps
    | with_reducible apply Keeps.ite
    | with_reducible apply forAll_keeps
    | with_reducible apply Keeps.foldl
    | split
    )

theorem execPortStuck_keeps : ∀ a0 a1 a2, Completes s (execPortStuck a0 a1 a2 s) := by
  intro a0 a1 a2
  have h : Keeps Counters.any s s := .refl s
  unfold execPortStuck
  repeat' (first
    | with_reducible assumption
    | with_reducible apply State.later_keeps
    | with_reducible apply Completes.of
    | with_reducible apply State.setPort_keeps
    | with_reducible apply State.setFlag_keeps
    | with_reducible apply State.raise_keeps
    | with_reducible apply State.portFade_keeps
    | with_reducible apply Keeps.ite
    | ((try lift_lets); intro x)
    | with_reducible apply forAll_keeps
    | with_reducible apply Keeps.foldl
    | split
    )

theorem State.recoveryAct_keeps : ∀ a1 a2, Keeps P s0 s → Keeps P s0 (State.recoveryAct s a1 a2) := by
  intro a1 a2 h
  unfold State.recoveryAct
  repeat' (first
    | with_reducible assumption
    | with_reducible apply State.setPort_keeps
    | with_reducible apply Keeps.ite
    )

theorem execPortRecovery_keeps : ∀ a0, Completes s (execPortRecovery a0 s) := by
  intro a0
  have h : Keeps Counters.any s s := .refl s
  unfold execPortRecovery
  repeat' (first
    | with_reducible assumption
    | ((try lift_lets); intro x)
    | with_reducible apply Completes.of
    | with_reducible apply State.relay_keeps
    | with_reducible apply State.recoveryAct_keeps
    | with_reducible apply Keeps.ite
    )

theorem State.rateAct_keeps : ∀ a1 a2 a3 a4, Keeps P s0 s → Keeps P s0 (State.rateAct s a1 a2 a3 a4) := by
  intro a1 a2 a3 a4 h
  unfold State.rateAct
  repeat' (first
    | with_reducible assumption
    | intro x
    | with_reducible apply forAll_keeps
    | with_reducible apply State.srcMeasure_keeps
    | with_reducible apply Keeps.ite
    )

theorem execRateMeasurement_keeps : ∀ a0 a1, Completes s (execRateMeasurement a0 a1 s) := by
  intro a0 a1
  have h : Keeps Counters.any s s := .refl s
  unfold execRateMeasurement
  repeat' (first
    | with_reducible assumption
    | ((try lift_lets); intro x)
    | with_reducible apply Completes.of
    | with_reducible apply State.setPort_keeps
    | with_reducible apply State.relay_keeps
    | with_reducible apply State.setClass_keeps
    | with_reducible apply State.rateAct_keeps
    | with_reducible apply Keeps.ite
    )

theorem State.naOff_keeps : ∀ a1 a2 a3, Keeps P s0 s → Keeps P s0 (State.naOff s a1 a2 a3) := by
  intro a1 a2 a3 h
  unfold State.naOff
  repeat' (first
    | with_reducible assumption
    | with_reducible apply State.event_keeps
    | with_reducible apply State.setPort_keeps
    )

theorem execNonAudioRelease_keeps : ∀ a0 a1, Completes s (execNonAudioRelease a0 a1 s) := by
  intro a0 a1
  have h : Keeps Counters.any s s := .refl s
  unfold execNonAudioRelease
  repeat' (first
    | with_reducible assumption
    | ((try lift_lets); intro x)
    | with_reducible apply Completes.of
    | with_reducible apply State.relay_keeps
    | with_reducible apply State.naOff_keeps
    | with_reducible apply Keeps.ite
    )

end Sys2Proof.Machine
end

