-- ==== Sys2Proof/Laws/KeepsPdmCmds.lean ====
section
/-!
SUPPORT. What the operations of PdmCmds keep.
-/

namespace Sys2Proof.Machine

variable {P : Counters → Prop} {s0 s : State}

theorem execPdmEnable_keeps : ∀ a0, Completes s (execPdmEnable a0 s) := by
  intro a0
  have h : Keeps Counters.any s s := .refl s
  unfold execPdmEnable
  repeat' (first
    | with_reducible assumption
    | with_reducible refine fun (x : State) (hx : Keeps Counters.any _ x) => ?_
    | with_reducible apply Completes.of
    | with_reducible apply State.relayWrite_keeps
    | with_reducible apply State.writePdmCtrl_keeps
    | with_reducible apply Keeps.ite
    )

theorem execPdmDisable_keeps : ∀ a0, Completes s (execPdmDisable a0 s) := by
  intro a0
  have h : Keeps Counters.any s s := .refl s
  unfold execPdmDisable
  repeat' (first
    | with_reducible assumption
    | with_reducible refine fun (x : State) (hx : Keeps Counters.any _ x) => ?_
    | with_reducible apply Completes.of
    | with_reducible apply State.relayWrite_keeps
    | with_reducible apply State.writePdmCtrl_keeps
    | with_reducible apply Keeps.ite
    )

theorem execMicEnable_keeps : ∀ a0, Completes s (execMicEnable a0 s) := by
  intro a0
  have h : Keeps Counters.any s s := .refl s
  unfold execMicEnable
  repeat' (first
    | with_reducible assumption
    | with_reducible refine fun (x : State) (hx : Keeps Counters.any _ x) => ?_
    | with_reducible apply Completes.of
    | with_reducible apply State.relayWrite_keeps
    | with_reducible apply State.writeMicEn_keeps
    | with_reducible apply Keeps.ite
    )

theorem execMicDisable_keeps : ∀ a0, Completes s (execMicDisable a0 s) := by
  intro a0
  have h : Keeps Counters.any s s := .refl s
  unfold execMicDisable
  repeat' (first
    | with_reducible assumption
    | with_reducible refine fun (x : State) (hx : Keeps Counters.any _ x) => ?_
    | with_reducible apply Completes.of
    | with_reducible apply State.relayWrite_keeps
    | with_reducible apply State.writeMicEn_keeps
    | with_reducible apply Keeps.ite
    )

theorem execTrimWrite_keeps : ∀ a0 a1, Completes s (execTrimWrite a0 a1 s) := by
  intro a0 a1
  have h : Keeps Counters.any s s := .refl s
  unfold execTrimWrite
  repeat' (first
    | with_reducible assumption
    | with_reducible refine fun (x : State) (hx : Keeps Counters.any _ x) => ?_
    | with_reducible apply Completes.of
    | with_reducible apply State.relayWrite_keeps
    | with_reducible apply State.writeTrim_keeps
    )

theorem execSettleEnd_keeps : ∀ a0, Completes s (execSettleEnd a0 s) := by
  intro a0
  have h : Keeps Counters.any s s := .refl s
  unfold execSettleEnd
  repeat' (first
    | with_reducible assumption
    | with_reducible apply Completes.of
    | with_reducible apply State.setMic_keeps
    | with_reducible apply Keeps.ite
    )

theorem execPdmDataStuck_keeps : ∀ a0, Completes s (execPdmDataStuck a0 s) := by
  intro a0
  have h : Keeps Counters.any s s := .refl s
  unfold execPdmDataStuck
  repeat' (first
    | with_reducible assumption
    | with_reducible apply State.micStuckSeen_keeps
    | ((try lift_lets); intro x)
    | with_reducible apply Completes.of
    | with_reducible apply State.raise_keeps
    | with_reducible apply State.relay_keeps
    | with_reducible apply State.micStuckAct_keeps
    | with_reducible apply Keeps.ite
    | with_reducible apply forAll_keeps
    | with_reducible apply Keeps.foldl
    | split
    )

theorem execPdmDataRecovery_keeps : ∀ a0, Completes s (execPdmDataRecovery a0 s) := by
  intro a0
  have h : Keeps Counters.any s s := .refl s
  unfold execPdmDataRecovery
  repeat' (first
    | with_reducible assumption
    | with_reducible apply State.micBackSeen_keeps
    | ((try lift_lets); intro x)
    | with_reducible apply Completes.of
    | with_reducible apply State.relay_keeps
    | with_reducible apply State.micBackAct_keeps
    | with_reducible apply Keeps.ite
    | with_reducible apply forAll_keeps
    | with_reducible apply Keeps.foldl
    | split
    )

theorem State.clkStuckAct_keeps : ∀ a1 a2, Keeps P s0 s → Keeps P s0 (State.clkStuckAct s a1 a2) := by
  intro a1 a2 h
  unfold State.clkStuckAct
  repeat' (first
    | with_reducible assumption
    | ((try lift_lets); intro x)
    | with_reducible apply forAll_keeps
    | with_reducible apply State.setFlag_keeps
    | with_reducible apply State.micHold_keeps
    | with_reducible apply State.setMic_keeps
    | with_reducible apply Keeps.ite
    | with_reducible apply Keeps.foldl
    | split
    | fail_if_no_progress (with_reducible refine Keeps.lit ?_ rfl id id)
    )

theorem execPdmClkStuck_keeps : ∀ a0 a1, Completes s (execPdmClkStuck a0 a1 s) := by
  intro a0 a1
  have h : Keeps Counters.any s s := .refl s
  unfold execPdmClkStuck
  repeat' (first
    | with_reducible assumption
    | intro x
    | with_reducible apply Completes.of
    | with_reducible apply State.raise_keeps
    | with_reducible apply State.relay_keeps
    | with_reducible apply State.clkStuckAct_keeps
    | with_reducible apply Keeps.ite
    | with_reducible apply forAll_keeps
    | with_reducible apply Keeps.foldl
    | split
    | fail_if_no_progress (with_reducible refine Keeps.lit ?_ rfl id (fun _ => trivial))
    )

theorem State.clkBackAct_keeps : ∀ a1 a2, Keeps P s0 s → Keeps P s0 (State.clkBackAct s a1 a2) := by
  intro a1 a2 h
  unfold State.clkBackAct
  repeat' (first
    | with_reducible assumption
    | intro x
    | with_reducible apply forAll_keeps
    | with_reducible apply State.micStart_keeps
    | with_reducible apply Keeps.ite
    | with_reducible apply Keeps.foldl
    | split
    | fail_if_no_progress (with_reducible refine Keeps.lit ?_ rfl id id)
    )

theorem execPdmClkRecovery_keeps : ∀ a0, Completes s (execPdmClkRecovery a0 s) := by
  intro a0
  have h : Keeps Counters.any s s := .refl s
  unfold execPdmClkRecovery
  repeat' (first
    | with_reducible assumption
    | intro x
    | with_reducible apply Completes.of
    | with_reducible apply State.relay_keeps
    | with_reducible apply State.clkBackAct_keeps
    | with_reducible apply Keeps.ite
    )

theorem execSrcEnable_keeps : ∀ a0 a1, Completes s (execSrcEnable a0 a1 s) := by
  intro a0 a1
  have h : Keeps Counters.any s s := .refl s
  unfold execSrcEnable
  repeat' (first
    | with_reducible assumption
    | with_reducible refine fun (x : State) (hx : Keeps Counters.any _ x) => ?_
    | with_reducible apply Completes.of
    | with_reducible apply State.relayWrite_keeps
    | with_reducible apply State.writeSrcCtrl_keeps
    | with_reducible apply Keeps.ite
    )

theorem execSrcDisable_keeps : ∀ a0 a1, Completes s (execSrcDisable a0 a1 s) := by
  intro a0 a1
  have h : Keeps Counters.any s s := .refl s
  unfold execSrcDisable
  repeat' (first
    | with_reducible assumption
    | with_reducible refine fun (x : State) (hx : Keeps Counters.any _ x) => ?_
    | with_reducible apply Completes.of
    | with_reducible apply State.relayWrite_keeps
    | with_reducible apply State.writeSrcCtrl_keeps
    | with_reducible apply Keeps.ite
    )

theorem execConverterLocked_keeps : ∀ a0, Completes s (execConverterLocked a0 s) := by
  intro a0
  have h : Keeps Counters.any s s := .refl s
  unfold execConverterLocked
  repeat' (first
    | with_reducible assumption
    | with_reducible apply Completes.of
    | with_reducible apply State.setSrc_keeps
    | with_reducible apply Keeps.ite
    )

end Sys2Proof.Machine
end

