-- ==== Sys2Proof/Laws/KeepsClockCmds.lean ====
section
/-!
SUPPORT. What the operations of ClockCmds keep.
-/

namespace Sys2Proof.Machine

variable {P : Counters → Prop} {s0 s : State}

theorem execRefBlockEnd_keeps : ∀ a0 a1, Completes s (execRefBlockEnd a0 a1 s) := by
  intro a0 a1
  have h : Keeps Counters.any s s := .refl s
  unfold execRefBlockEnd
  repeat' (first
    | with_reducible assumption
    | with_reducible apply Completes.of
    | with_reducible apply State.refBlock_keeps
    | with_reducible apply Keeps.ite
    )

theorem execRefEdgeLoss_keeps : ∀ a0, Completes s (execRefEdgeLoss a0 s) := by
  intro a0
  have h : Keeps Counters.any s s := .refl s
  unfold execRefEdgeLoss
  repeat' (first
    | with_reducible assumption
    | with_reducible apply Completes.of
    | with_reducible apply State.candLost_keeps
    | with_reducible apply Keeps.ite
    )

theorem execWtrExpiry_keeps : ∀ a0, Completes s (execWtrExpiry a0 s) := by
  intro a0
  have h : Keeps Counters.any s s := .refl s
  unfold execWtrExpiry
  repeat' (first
    | with_reducible assumption
    | with_reducible apply Completes.of
    | with_reducible apply State.takeRef_keeps
    | split
    )

theorem execRefPrioWrite_keeps : ∀ a0 a1, Completes s (execRefPrioWrite a0 a1 s) := by
  intro a0 a1
  have h : Keeps Counters.any s s := .refl s
  unfold execRefPrioWrite
  repeat' (first
    | with_reducible assumption
    | with_reducible apply State.later_keeps
    | with_reducible apply Completes.of
    | with_reducible apply State.newList_keeps
    | with_reducible apply State.setReg_keeps
    | fail_if_no_progress (with_reducible refine Keeps.lit ?_ rfl id (fun _ => trivial))
    | ((try lift_lets); intro x)
    | with_reducible apply Keeps.ite
    | with_reducible apply forAll_keeps
    | with_reducible apply Keeps.foldl
    | split
    )

theorem execClockLock_keeps : ∀ a0, Completes s (execClockLock a0 s) := by
  intro a0
  have h : Keeps Counters.any s s := .refl s
  unfold execClockLock
  repeat' (first
    | with_reducible assumption
    | with_reducible apply State.syncOver_keeps
    | with_reducible apply Completes.of
    | with_reducible apply State.setRefSt_keeps
    | with_reducible apply State.leaveSync_keeps
    | with_reducible apply Keeps.ite
    | fail_if_no_progress (with_reducible refine Keeps.lit ?_ rfl id (fun _ => trivial))
    | ((try lift_lets); intro x)
    | with_reducible apply forAll_keeps
    | with_reducible apply Keeps.foldl
    | split
    )

theorem execLockLoss_keeps : ∀ a0, Completes s (execLockLoss a0 s) := by
  intro a0
  have h : Keeps Counters.any s s := .refl s
  unfold execLockLoss
  repeat' (first
    | with_reducible assumption
    | with_reducible apply Completes.of
    | with_reducible apply State.setRefSt_keeps
    | with_reducible apply Keeps.ite
    | fail_if_no_progress (with_reducible refine Keeps.lit ?_ rfl id (fun _ => trivial))
    )

theorem execHoldoverAverage_keeps : Completes s (execHoldoverAverage s) := by
  have h : Keeps Counters.any s s := .refl s
  unfold execHoldoverAverage
  repeat' (first
    | with_reducible assumption
    | with_reducible apply Completes.of
    | with_reducible apply State.holdAverage_keeps
    )

theorem execHoldoverLimit_keeps : Completes s (execHoldoverLimit s) := by
  have h : Keeps Counters.any s s := .refl s
  unfold execHoldoverLimit
  repeat' (first
    | with_reducible assumption
    | with_reducible apply Completes.of
    | with_reducible apply State.event_keeps
    | with_reducible apply Keeps.ite
    | fail_if_no_progress (with_reducible refine Keeps.lit ?_ rfl id (fun _ => trivial))
    )

theorem State.writeClkCtrl_keeps : ∀ a1, Keeps P s0 s → Keeps P s0 (State.writeClkCtrl s a1) := by
  intro a1 h
  unfold State.writeClkCtrl
  repeat' (first
    | with_reducible assumption
    | with_reducible apply State.setReg_keeps
    | with_reducible apply Keeps.ite
    | fail_if_no_progress (with_reducible refine Keeps.lit ?_ rfl id id)
    )

theorem execClkCtrlWrite_keeps : ∀ a0, Completes s (execClkCtrlWrite a0 s) := by
  intro a0
  have h : Keeps Counters.any s s := .refl s
  unfold execClkCtrlWrite
  repeat' (first
    | with_reducible assumption
    | with_reducible apply Completes.of
    | with_reducible apply State.writeClkCtrl_keeps
    )

theorem State.writeClkSync_keeps : ∀ a1, Keeps P s0 s → Keeps P s0 (State.writeClkSync s a1) := by
  intro a1 h
  unfold State.writeClkSync
  repeat' (first
    | with_reducible assumption
    | with_reducible apply State.setReg_keeps
    | with_reducible apply Keeps.ite
    | fail_if_no_progress (with_reducible refine Keeps.lit ?_ rfl id id)
    )

theorem execSyncArm_keeps : ∀ a0, Completes s (execSyncArm a0 s) := by
  intro a0
  have h : Keeps Counters.any s s := .refl s
  unfold execSyncArm
  repeat' (first
    | with_reducible assumption
    | with_reducible apply Completes.of
    | with_reducible apply State.writeClkSync_keeps
    | with_reducible apply Keeps.ite
    )

theorem State.syncNow_keeps : ∀ a1 a2 a3, Keeps P s0 s → Keeps P s0 (State.syncNow s a1 a2 a3) := by
  intro a1 a2 a3 h
  unfold State.syncNow
  repeat' (first
    | with_reducible assumption
    | intro x
    | with_reducible apply forAll_keeps
    | with_reducible apply State.realign_keeps
    | with_reducible apply State.setFlag_keeps
    | with_reducible apply State.event_keeps
    | with_reducible apply Keeps.ite
    | fail_if_no_progress (with_reducible refine Keeps.lit ?_ rfl id id)
    )

theorem execDividerSync_keeps : Completes s (execDividerSync s) := by
  have h : Keeps Counters.any s s := .refl s
  unfold execDividerSync
  repeat' (first
    | with_reducible assumption
    | ((try lift_lets); intro x)
    | with_reducible apply Completes.of
    | with_reducible apply State.syncNow_keeps
    | split
    )

theorem execSyncInEdge_keeps : ∀ a0 a1, Completes s (execSyncInEdge a0 a1 s) := by
  intro a0 a1
  have h : Keeps Counters.any s s := .refl s
  unfold execSyncInEdge
  repeat' (first
    | with_reducible assumption
    | intro x
    | with_reducible apply Completes.of
    | with_reducible apply forAll_keeps
    | with_reducible apply State.realign_keeps
    | with_reducible apply Keeps.ite
    | fail_if_no_progress (with_reducible refine Keeps.lit ?_ rfl id (fun _ => trivial))
    )

theorem execRefMonitor_keeps : ∀ a0, Completes s (execRefMonitor a0 s) := by
  intro a0
  have h : Keeps Counters.any s s := .refl s
  unfold execRefMonitor
  repeat' (first
    | with_reducible assumption
    | with_reducible apply Completes.of
    | with_reducible apply State.detect_keeps
    )

theorem execCoreLockLoss_keeps : Completes s (execCoreLockLoss s) := by
  have h : Keeps Counters.any s s := .refl s
  unfold execCoreLockLoss
  repeat' (first
    | with_reducible assumption
    | with_reducible apply Completes.of
    | with_reducible apply State.detect_keeps
    )

theorem execCoreFrequency_keeps : ∀ a0, Completes s (execCoreFrequency a0 s) := by
  intro a0
  have h : Keeps Counters.any s s := .refl s
  unfold execCoreFrequency
  repeat' (first
    | with_reducible assumption
    | with_reducible apply Completes.of
    | with_reducible apply State.detect_keeps
    )

theorem execNetLockLoss_keeps : Completes s (execNetLockLoss s) := by
  have h : Keeps Counters.any s s := .refl s
  unfold execNetLockLoss
  repeat' (first
    | with_reducible assumption
    | with_reducible apply Completes.of
    | with_reducible apply State.detect_keeps
    )

end Sys2Proof.Machine
end

