-- ==== Sys2Proof/Laws/KeepsMemOps.lean ====
section
/-!
SUPPORT. What the operations of MemOps keep.
-/

namespace Sys2Proof.Machine

variable {P : Counters → Prop} {s0 s : State}

theorem State.stopTile_keeps : ∀ a1, Keeps P s0 s → Keeps P s0 (State.stopTile s a1) := by
  intro a1 h
  unfold State.stopTile
  repeat' (first
    | with_reducible assumption
    | exact fun c => ⟨(Keeps.tileOf (by assumption) c _).smp.retireAll _, (Keeps.tileOf (by assumption) c _).ctl.retireAll _⟩
    | with_reducible apply State.setTile_keeps
    | with_reducible apply Keeps.ite
    )

theorem State.eccSeen_keeps : ∀ a1 a2 a3, Keeps P s0 s → Keeps P s0 (State.eccSeen s a1 a2 a3) := by
  intro a1 a2 a3 h
  unfold State.eccSeen
  repeat' (first
    | with_reducible assumption
    | with_reducible apply State.count_keeps
    | with_reducible apply State.setReg_keeps
    | with_reducible apply Keeps.ite
    )

theorem State.zeroRange_keeps : ∀ a n, Keeps P s0 s → Keeps P s0 (s.zeroRange a n) := by
  intro a n h
  unfold State.zeroRange
  exact State.markDirty_keeps _ _ (Keeps.lit (h.mem mwf_filter) rfl mwf_filter id)

theorem State.ueAction_keeps : ∀ a1, Keeps P s0 s → Keeps P s0 (State.ueAction s a1) := by
  intro a1 h
  unfold State.ueAction
  repeat' (first
    | with_reducible assumption
    | ((try lift_lets); intro x; with_reducible refine Keeps.cut (P := P) (s0 := s0) x ?_ ?_ <;> [(unfold x; clear x); (intro hx; clear_value x)])
    | ((try lift_lets); intro x)
    | with_reducible apply State.raise_keeps
    | with_reducible apply State.zeroRange_keeps
    | with_reducible apply State.event_keeps
    | with_reducible apply State.stopTile_keeps
    | fail_if_no_progress (with_reducible refine Keeps.lit ?_ rfl id id)
    | split
    )

theorem State.readWord_keeps : ∀ a1, Keeps P s0 s → Keeps P s0 (State.readWord s a1).2 := by
  intro a1 h
  unfold State.readWord
  repeat' (first
    | with_reducible assumption
    | with_reducible apply State.raise_keeps
    | with_reducible apply State.eccSeen_keeps
    | with_reducible apply State.ueAction_keeps
    | with_reducible apply Keeps.iteSnd
    | fail_if_no_progress (with_reducible refine Keeps.lit ?_ rfl id id)
    )

theorem State.scrubWord_keeps : ∀ a1, Keeps P s0 s → Keeps P s0 (State.scrubWord s a1) := by
  intro a1 h
  unfold State.scrubWord
  repeat' (first
    | with_reducible assumption
    | with_reducible apply State.raise_keeps
    | with_reducible apply State.eccSeen_keeps
    | with_reducible apply State.ueAction_keeps
    | with_reducible apply Keeps.ite
    | fail_if_no_progress (with_reducible refine Keeps.lit ?_ rfl mwf_mset id)
    )

theorem State.scrubRow_keeps : ∀ a1, Keeps P s0 s → Keeps P s0 (State.scrubRow s a1) := by
  intro a1 h
  unfold State.scrubRow
  repeat' (first
    | with_reducible assumption
    | ((try lift_lets); intro x)
    | with_reducible apply forAll_keeps
    | with_reducible apply State.scrubWord_keeps
    | with_reducible apply Keeps.ite
    | fail_if_no_progress (with_reducible refine Keeps.lit ?_ rfl id id)
    )

theorem State.startWipe_keeps : ∀ a1, Keeps P s0 s → Keeps P s0 (State.startWipe s a1) := by
  intro a1 h
  unfold State.startWipe
  repeat' (first
    | with_reducible assumption
    | with_reducible apply State.zeroRange_keeps
    | with_reducible apply State.setFlag_keeps
    | with_reducible apply Keeps.ite
    | fail_if_no_progress (with_reducible refine Keeps.lit ?_ rfl id id)
    )

end Sys2Proof.Machine
end

