-- ==== Sys2Proof/Laws/KeepsSvcOps.lean ====
section
/-!
SUPPORT. What the operations of SvcOps keep.
-/

namespace Sys2Proof.Machine

variable {P : Counters → Prop} {s0 s : State}

theorem State.coreStop_keeps : Keeps Counters.any s0 s → Keeps Counters.any s0 (State.coreStop s) := by
  intro h
  unfold State.coreStop
  repeat' (first
    | with_reducible assumption
    | fail_if_no_progress (with_reducible refine Keeps.lit ?_ rfl id (fun _ => trivial))
    )

theorem State.powerOffBut_keeps : ∀ a1, Keeps P s0 s → Keeps P s0 (State.powerOffBut s a1) := by
  intro a1 h
  unfold State.powerOffBut
  repeat' (first
    | with_reducible assumption
    | fail_if_no_progress (with_reducible refine Keeps.lit ?_ rfl id id)
    )

theorem State.thermalOff_keeps : Keeps Counters.any s0 s → Keeps Counters.any s0 (State.thermalOff s) := by
  intro h
  unfold State.thermalOff
  repeat' (first
    | with_reducible assumption
    | with_reducible apply State.coreStop_keeps
    | with_reducible apply State.powerOffBut_keeps
    )

theorem State.monSample_keeps : ∀ a1 a2, Keeps P s0 s → Keeps P s0 (State.monSample s a1 a2) := by
  intro a1 a2 h
  unfold State.monSample
  repeat' (first
    | with_reducible assumption
    | with_reducible apply State.setMon_keeps
    | with_reducible apply Keeps.ite
    )

theorem State.monitor_keeps : ∀ a1 a2 a3, Keeps P s0 s → Keeps P s0 (State.monitor s a1 a2 a3) := by
  intro a1 a2 a3 h
  unfold State.monitor
  repeat' (first
    | with_reducible assumption
    | ((try lift_lets); intro x)
    | with_reducible apply State.monSample_keeps
    | with_reducible apply Keeps.ite
    | with_reducible apply Keeps.foldl
    )

theorem State.monClose_keeps : ∀ a1, Keeps P s0 s → Keeps P s0 (State.monClose s a1) := by
  intro a1 h
  unfold State.monClose
  repeat' (first
    | with_reducible assumption
    | with_reducible apply State.setMon_keeps
    | with_reducible apply Keeps.ite
    | fail_if_no_progress (with_reducible refine Keeps.lit ?_ rfl id id)
    | ((try lift_lets); intro x)
    | with_reducible apply forAll_keeps
    | with_reducible apply Keeps.foldl
    | split
    )

theorem State.windowsStop_keeps : Keeps P s0 s → Keeps P s0 (State.windowsStop s) := by
  intro h
  unfold State.windowsStop
  repeat' (first
    | with_reducible assumption
    | ((try lift_lets); intro x)
    | with_reducible apply State.monClose_keeps
    | with_reducible apply Keeps.foldl
    | with_reducible apply Keeps.ite
    )

theorem State.monRecords_keeps : ∀ a1, Keeps P s0 s → Keeps P s0 (State.monRecords s a1) := by
  intro a1 h
  unfold State.monRecords
  repeat' (first
    | with_reducible assumption
    | ((try lift_lets); intro x)
    | with_reducible apply State.setMon_keeps
    | with_reducible apply State.record_keeps
    | split
    )

end Sys2Proof.Machine
end

