-- ==== Sys2Proof/Laws/KeepsNvmOps.lean ====
section
/-!
SUPPORT. What the operations of NvmOps keep.
-/

namespace Sys2Proof.Machine

variable {P : Counters → Prop} {s0 s : State}

theorem State.flashNext_keeps : Keeps P s0 s → Keeps P s0 (State.flashNext s) := by
  intro h
  unfold State.flashNext
  repeat' (first
    | with_reducible assumption
    | fail_if_no_progress (with_reducible refine Keeps.lit ?_ rfl id id)
    | split
    )

theorem State.flashAsk_keeps : ∀ a1, Keeps P s0 s → Keeps P s0 (State.flashAsk s a1) := by
  intro a1 h
  unfold State.flashAsk
  repeat' (first
    | with_reducible assumption
    | ((try lift_lets); intro x)
    | with_reducible apply State.flashNext_keeps
    | fail_if_no_progress (with_reducible refine Keeps.lit ?_ rfl id id)
    | split
    )

theorem State.restoresAsk_keeps : Keeps P s0 s → Keeps P s0 (State.restoresAsk s) := by
  intro h
  unfold State.restoresAsk
  repeat' (first
    | with_reducible assumption
    | ((try lift_lets); intro x)
    | with_reducible apply State.flashAsk_keeps
    | with_reducible apply Keeps.foldl
    | with_reducible apply Keeps.ite
    )

theorem State.readOver_keeps : ∀ a1, Keeps P s0 s → Keeps P s0 (State.readOver s a1) := by
  intro a1 h
  unfold State.readOver
  repeat' (first
    | with_reducible assumption
    | with_reducible apply State.flashNext_keeps
    | fail_if_no_progress (with_reducible refine Keeps.lit ?_ rfl id id)
    )

theorem State.flashSuspend_keeps : Keeps P s0 s → Keeps P s0 (State.flashSuspend s) := by
  intro h
  unfold State.flashSuspend
  repeat' (first
    | with_reducible assumption
    | fail_if_no_progress (with_reducible refine Keeps.lit ?_ rfl id id)
    | split
    )

theorem State.setSess_keeps : ∀ a1, Keeps P s0 s → Keeps P s0 (State.setSess s a1) := by
  intro a1 h
  unfold State.setSess
  repeat' (first
    | with_reducible assumption
    | with_reducible apply State.irq_keeps
    | with_reducible apply Keeps.ite
    | fail_if_no_progress (with_reducible refine Keeps.lit ?_ rfl id id)
    )

theorem State.sessFail_keeps : ∀ a1, Keeps P s0 s → Keeps P s0 (State.sessFail s a1) := by
  intro a1 h
  unfold State.sessFail
  repeat' (first
    | with_reducible assumption
    | with_reducible apply State.setSess_keeps
    | with_reducible apply State.event_keeps
    | with_reducible apply Keeps.ite
    | fail_if_no_progress (with_reducible refine Keeps.lit ?_ rfl id id)
    )

theorem State.compactEnds_keeps : ∀ a1, Keeps P s0 s → Keeps P s0 (State.compactEnds s a1) := by
  intro a1 h
  exact Keeps.ite (Keeps.lit h rfl id id) h

theorem State.compactDrop_keeps : Keeps P s0 s → Keeps P s0 (State.compactDrop s) := by
  intro h
  exact State.compactEnds_keeps _ (Keeps.lit h rfl id id)

theorem State.flashFails_keeps : Keeps P s0 s → Keeps P s0 (State.flashFails s) := by
  intro h
  exact State.compactDrop_keeps (State.event_keeps _ _ _ _ _ _ (Keeps.lit h rfl id id))

theorem State.flashResult_keeps : ∀ a1, Keeps P s0 s → Keeps P s0 (State.flashResult s a1) := by
  intro a1 h
  unfold State.flashResult
  repeat' (first
    | with_reducible assumption
    | with_reducible apply State.flashFails_keeps
    | with_reducible apply State.event_keeps
    | with_reducible apply Keeps.ite
    | fail_if_no_progress (with_reducible refine Keeps.lit ?_ rfl id id)
    )

theorem State.commitDone_keeps : ∀ a1, Keeps P s0 s → Keeps P s0 (State.commitDone s a1) := by
  intro a1 h
  unfold State.commitDone
  repeat' (first
    | with_reducible assumption
    | with_reducible apply Keeps.ite
    | fail_if_no_progress (with_reducible refine Keeps.lit ?_ rfl id id)
    )

theorem State.journalCommit_keeps : Keeps P s0 s → Keeps P s0 (State.journalCommit s) := by
  intro h
  unfold State.journalCommit
  repeat' (first
    | with_reducible assumption
    | with_reducible apply State.flashAsk_keeps
    | with_reducible apply Keeps.ite
    | fail_if_no_progress (with_reducible refine Keeps.lit ?_ rfl id id)
    )

theorem State.compactPage_keeps : ∀ a1, Keeps P s0 s → Keeps P s0 (State.compactPage s a1) := by
  intro a1 h
  exact State.flashAsk_keeps _ (Keeps.lit h rfl id id)

theorem State.compactInto_keeps : ∀ a1 a2 a3 a4, Keeps P s0 s → Keeps P s0 (State.compactInto s a1 a2 a3 a4) := by
  intro a1 a2 a3 a4 h
  exact State.compactPage_keeps _ h

theorem State.compact_keeps : ∀ a1, Keeps P s0 s → Keeps P s0 (State.compact s a1) := by
  intro a1 h
  exact State.compactInto_keeps _ _ _ _ h

theorem State.eraseChain_keeps : ∀ a1, Keeps P s0 s → Keeps P s0 (State.eraseChain s a1) := by
  intro a1 h
  exact forAll_keeps h fun s hs k => State.flashAsk_keeps _ hs

theorem State.compactOver_keeps : ∀ a1, Keeps P s0 s → Keeps P s0 (State.compactOver s a1) := by
  intro a1 h
  unfold State.compactOver
  refine Keeps.ite ?_ (State.eraseChain_keeps _ ?_)
  all_goals exact State.compactEnds_keeps _ (Keeps.lit h rfl id id)

theorem State.compactStep_keeps : ∀ a1, Keeps P s0 s → Keeps P s0 (State.compactStep s a1) := by
  intro a1 h
  unfold State.compactStep
  split
  · exact h
  · exact Keeps.ite (Keeps.ite (State.compactOver_keeps _ h) (State.compactPage_keeps _ h)) (Keeps.ite h (Keeps.ite
      (State.eraseChain_keeps _ (Keeps.lit h rfl id id)) (State.compactPage_keeps _ h)))

theorem State.formatJournal_keeps : Keeps P s0 s → Keeps P s0 (State.formatJournal s) := by
  intro h
  unfold State.formatJournal
  exact Keeps.ite h (Keeps.ite (State.compactInto_keeps _ _ _ _ h) (State.eraseChain_keeps _ (Keeps.lit h rfl id id)))

theorem State.setSlot_keeps : ∀ a1 a2, Keeps P s0 s → Keeps P s0 (State.setSlot s a1 a2) := by
  intro a1 a2 h
  unfold State.setSlot
  split <;> exact Keeps.lit h rfl id id

theorem State.setKeyGen_keeps : ∀ a1, Keeps P s0 s → Keeps P s0 (State.setKeyGen s a1) := by
  intro a1 h
  exact Keeps.lit h rfl id id

theorem State.loadKey_keeps : ∀ a1 a2 a3, Keeps P s0 s → Keeps P s0 (State.loadKey s a1 a2 a3) := by
  intro a1 a2 a3 h
  unfold State.loadKey
  repeat' (first
    | with_reducible assumption
    | with_reducible apply State.setSlot_keeps
    | with_reducible apply State.event_keeps
    | split
    )

theorem State.loadKeys_keeps : Keeps P s0 s → Keeps P s0 (State.loadKeys s) := by
  intro h
  have h1 : Keeps P s0 ((s.setSlot 0 none).setSlot 1 none) := State.setSlot_keeps _ _ (State.setSlot_keeps _ _ h)
  unfold State.loadKeys
  dsimp only
  split
  · exact State.setKeyGen_keeps _ h1
  · have h2 {g : Nat} := State.setKeyGen_keeps g h1
    exact Keeps.ite h2 (State.loadKey_keeps _ _ _ (State.loadKey_keeps _ _ _ h2))

theorem State.writeKeys_keeps : ∀ a1 a2, Keeps P s0 s → Keeps P s0 (State.writeKeys s a1 a2) := by
  intro a1 a2 h
  have h1 : Keeps P s0 (if s.secDead then (s.setSlot 0 none).setSlot 1 none else s.setSlot a1 a2) :=
    Keeps.ite (State.setSlot_keeps _ _ (State.setSlot_keeps _ _ h)) (State.setSlot_keeps _ _ h)
  exact State.flashAsk_keeps _ (State.setKeyGen_keeps _ h1)

theorem State.fillSecure_keeps : Keeps P s0 s → Keeps P s0 (State.fillSecure s) := by
  intro h
  unfold State.fillSecure
  repeat' (first
    | with_reducible assumption
    | with_reducible apply State.wrBytes_keeps
    )

end Sys2Proof.Machine
end

