-- ==== Sys2Proof/Laws/KeepsMaintOps.lean ====
section
/-!
SUPPORT. What the operations of MaintOps keep.
-/

namespace Sys2Proof.Machine

variable {P : Counters → Prop} {s0 s : State}

theorem State.slotRecord_keeps : ∀ a1, Keeps P s0 s → Keeps P s0 (State.slotRecord s a1) := by
  intro a1 h
  unfold State.slotRecord
  repeat' (first
    | with_reducible assumption
    | with_reducible apply State.journal_keeps
    )

theorem State.sessionStart_keeps : Keeps P s0 s → Keeps P s0 (State.sessionStart s) := by
  intro h
  unfold State.sessionStart
  repeat' (first
    | with_reducible assumption
    | ((try lift_lets); intro x)
    | with_reducible apply State.slotRecord_keeps
    | with_reducible apply State.setSess_keeps
    | with_reducible apply forAll_keeps
    | with_reducible apply State.flashAsk_keeps
    | fail_if_no_progress (with_reducible refine Keeps.lit ?_ rfl id id)
    | split
    )

theorem State.leaveQuiet_keeps : Keeps P s0 s → Keeps P s0 (State.leaveQuiet s) := by
  intro h
  unfold State.leaveQuiet
  repeat' (first
    | with_reducible assumption
    | with_reducible apply State.setMode_keeps
    | with_reducible apply Keeps.ite
    | fail_if_no_progress (with_reducible refine Keeps.lit ?_ rfl id id)
    )

theorem State.maintStart_keeps : ∀ a1, Keeps P s0 s → Keeps P s0 (State.maintStart s a1) := by
  intro a1 h
  unfold State.maintStart
  repeat' (first
    | with_reducible assumption
    | with_reducible apply State.sessionStart_keeps
    | fail_if_no_progress (with_reducible refine Keeps.lit ?_ rfl id id)
    | split
    )

theorem State.maintAdmit_keeps : ∀ a1 a2, Keeps P s0 s → Keeps P s0 (State.maintAdmit s a1 a2) := by
  intro a1 a2 h
  unfold State.maintAdmit
  repeat' (first
    | with_reducible assumption
    | with_reducible apply State.later_keeps
    | fail_if_no_progress (with_reducible refine Keeps.lit ?_ rfl id id)
    )

theorem State.maintDue_keeps : Keeps P s0 s → Keeps P s0 (State.maintDue s) := by
  intro h
  unfold State.maintDue
  repeat' (first
    | with_reducible assumption
    | with_reducible apply State.maintStart_keeps
    | with_reducible apply Keeps.ite
    | split
    )

theorem State.maintRequest_keeps : ∀ a1, Keeps P s0 s → Keeps P s0 (State.maintRequest s a1).2 := by
  intro a1 h
  unfold State.maintRequest
  repeat' (first
    | with_reducible assumption
    | with_reducible apply State.later_keeps
    | with_reducible apply State.maintAdmit_keeps
    | ((try lift_lets); intro x; with_reducible refine Keeps.cut (P := P) (s0 := s0) x ?_ ?_ <;> [(unfold x; clear x); (intro hx; clear_value x)])
    | with_reducible apply State.leaveQuiet_keeps
    | with_reducible apply State.maintStart_keeps
    | fail_if_no_progress (with_reducible refine Keeps.lit ?_ rfl id id)
    | split
    | with_reducible apply Keeps.ite
    | with_reducible apply forAll_keeps
    | with_reducible apply Keeps.foldl
    )

theorem State.compactDue_keeps : Keeps P s0 s → Keeps P s0 (State.compactDue s) := by
  intro h
  unfold State.compactDue
  repeat' (first
    | with_reducible assumption
    | ((try lift_lets); intro x)
    | with_reducible apply State.later_keeps
    | with_reducible apply State.maintRequest_keeps
    | with_reducible apply Keeps.ite
    | fail_if_no_progress (with_reducible refine Keeps.lit ?_ rfl id id)
    | with_reducible apply forAll_keeps
    | with_reducible apply Keeps.foldl
    | split
    )

theorem State.maintEnd_keeps : ∀ a1, Keeps P s0 s → Keeps P s0 (State.maintEnd s a1) := by
  intro a1 h
  unfold State.maintEnd
  repeat' (first
    | with_reducible assumption
    | with_reducible apply State.maintAdmit_keeps
    | ((try lift_lets); intro x; with_reducible refine Keeps.cut (P := P) (s0 := s0) x ?_ ?_ <;> [(unfold x; clear x); (intro hx; clear_value x)])
    | ((try lift_lets); intro x)
    | with_reducible apply State.irq_keeps
    | with_reducible apply State.maintStart_keeps
    | fail_if_no_progress (with_reducible refine Keeps.lit ?_ rfl id id)
    | split
    | with_reducible apply Keeps.ite
    | with_reducible apply forAll_keeps
    | with_reducible apply Keeps.foldl
    )

theorem State.maintAbort_keeps : Keeps P s0 s → Keeps P s0 (State.maintAbort s) := by
  intro h
  unfold State.maintAbort
  repeat' (first
    | with_reducible assumption
    | with_reducible apply State.maintEnd_keeps
    | with_reducible apply State.compactDrop_keeps
    | fail_if_no_progress (with_reducible refine Keeps.lit ?_ rfl id id)
    )

end Sys2Proof.Machine
end

