-- ==== Sys2Proof/Laws/KeepsNvmCmds.lean ====
section
/-!
SUPPORT. What the operations of NvmCmds keep.
-/

namespace Sys2Proof.Machine

variable {P : Counters → Prop} {s0 s : State}

theorem State.programUsed_keeps : ∀ a1 a2, Keeps P s0 s → Keeps P s0 (State.programUsed s a1 a2) := by
  intro a1 a2 h
  unfold State.programUsed
  repeat' (first
    | with_reducible assumption
    | with_reducible apply State.commitDone_keeps
    | with_reducible apply State.sessFail_keeps
    | with_reducible apply State.compactStep_keeps
    | with_reducible apply Keeps.ite
    | split
    )

theorem execPageProgramDone_keeps : ∀ a0, Completes s (execPageProgramDone a0 s) := by
  intro a0
  have h : Keeps Counters.any s s := .refl s
  unfold execPageProgramDone
  repeat' (first
    | with_reducible assumption
    | with_reducible apply State.programUsed_keeps
    | ((try lift_lets); intro x)
    | with_reducible apply Keeps.ite
    | with_reducible apply State.thermalOff_keeps
    | with_reducible apply Completes.of
    | with_reducible apply State.flashResult_keeps
    | with_reducible apply State.commitDone_keeps
    | with_reducible apply State.sessFail_keeps
    | with_reducible apply State.flashNext_keeps
    | fail_if_no_progress (with_reducible refine Keeps.lit ?_ rfl id (fun _ => trivial))
    | split
    )

theorem execEraseDone_keeps : ∀ a0, Completes s (execEraseDone a0 s) := by
  intro a0
  have h : Keeps Counters.any s s := .refl s
  unfold execEraseDone
  repeat' (first
    | with_reducible assumption
    | with_reducible apply Completes.of
    | with_reducible apply State.flashResult_keeps
    | with_reducible apply State.sessFail_keeps
    | with_reducible apply State.setSess_keeps
    | with_reducible apply State.flashNext_keeps
    | with_reducible apply State.flashAsk_keeps
    | with_reducible apply State.formatJournal_keeps
    | fail_if_no_progress (with_reducible refine Keeps.lit ?_ rfl id (fun _ => trivial))
    | split
    )

theorem execFlashReadDone_keeps : Completes s (execFlashReadDone s) := by
  have h : Keeps Counters.any s s := .refl s
  unfold execFlashReadDone
  repeat' (first
    | with_reducible assumption
    | with_reducible apply Completes.of
    | with_reducible apply State.flashNext_keeps
    | fail_if_no_progress (with_reducible refine Keeps.lit ?_ rfl id (fun _ => trivial))
    | split
    )

theorem execFlashTimeout_keeps : Completes s (execFlashTimeout s) := by
  have h : Keeps Counters.any s s := .refl s
  unfold execFlashTimeout
  repeat' (first
    | with_reducible assumption
    | with_reducible apply Completes.of
    | with_reducible apply State.flashFails_keeps
    | with_reducible apply State.sessFail_keeps
    | with_reducible apply State.commitDone_keeps
    | with_reducible apply State.flashNext_keeps
    | fail_if_no_progress (with_reducible refine Keeps.lit ?_ rfl id (fun _ => trivial))
    | split
    )

theorem execJournalCommit_keeps : Completes s (execJournalCommit s) := by
  have h : Keeps Counters.any s s := .refl s
  unfold execJournalCommit
  repeat' (first
    | with_reducible assumption
    | with_reducible apply Completes.of
    | with_reducible apply State.journalCommit_keeps
    )

theorem execCompaction_keeps : Completes s (execCompaction s) := by
  have h : Keeps Counters.any s s := .refl s
  unfold execCompaction
  repeat' (first
    | with_reducible assumption
    | with_reducible apply State.compactDue_keeps
    | with_reducible apply Completes.of
    | with_reducible apply State.compact_keeps
    | with_reducible apply State.compactDrop_keeps
    | with_reducible apply State.compactEnds_keeps
    | with_reducible apply State.maintRequest_keeps
    | with_reducible apply Keeps.ite
    | fail_if_no_progress (with_reducible refine Keeps.lit ?_ rfl id (fun _ => trivial))
    | ((try lift_lets); intro x)
    | with_reducible apply forAll_keeps
    | with_reducible apply Keeps.foldl
    | split
    )

theorem State.countersRecord_keeps : Keeps P s0 s → Keeps P s0 (State.countersRecord s) := by
  intro h
  unfold State.countersRecord
  repeat' (first
    | with_reducible assumption
    | with_reducible apply State.journal_keeps
    )

theorem execCountersRecord_keeps : Completes s (execCountersRecord s) := by
  have h : Keeps Counters.any s s := .refl s
  unfold execCountersRecord
  repeat' (first
    | with_reducible assumption
    | with_reducible apply Completes.of
    | with_reducible apply State.countersRecord_keeps
    | with_reducible apply Keeps.ite
    | fail_if_no_progress (with_reducible refine Keeps.lit ?_ rfl id (fun _ => trivial))
    )

theorem State.updErr_keeps : ∀ a1, Keeps P s0 s → Keeps P s0 (State.updErr s a1) := by
  intro a1 h
  unfold State.updErr
  repeat' (first
    | with_reducible assumption
    | with_reducible apply State.setSess_keeps
    )

theorem State.sessionOpen_keeps : ∀ a1, Keeps P s0 s → Keeps P s0 (State.sessionOpen s a1).2 := by
  intro a1 h
  unfold State.sessionOpen
  repeat' (first
    | with_reducible assumption
    | with_reducible apply State.setSess_keeps
    | with_reducible apply State.maintRequest_keeps
    | with_reducible apply Keeps.ite
    | with_reducible apply Keeps.iteSnd
    | fail_if_no_progress (with_reducible refine Keeps.lit ?_ rfl id id)
    )

theorem State.updOpen_keeps : Keeps P s0 s → Keeps P s0 (State.updOpen s).2 := by
  intro h
  unfold State.updOpen
  repeat' (first
    | with_reducible assumption
    | with_reducible apply State.updErr_keeps
    | with_reducible apply State.sessionOpen_keeps
    | with_reducible apply Keeps.iteSnd
    )

theorem State.updProgram_keeps : Keeps P s0 s → Keeps P s0 (State.updProgram s).2 := by
  intro h
  unfold State.updProgram
  repeat' (first
    | with_reducible assumption
    | with_reducible apply State.updErr_keeps
    | with_reducible apply State.setSess_keeps
    | with_reducible apply State.flashAsk_keeps
    | with_reducible apply Keeps.iteSnd
    )

theorem State.sessionVerify_keeps : ∀ a1 a2, Keeps P s0 s → Keeps P s0 (State.sessionVerify s a1 a2) := by
  intro a1 a2 h
  unfold State.sessionVerify
  repeat' (first
    | with_reducible assumption
    | ((try lift_lets); intro x)
    | with_reducible apply State.setSess_keeps
    | with_reducible apply State.sessFail_keeps
    | with_reducible apply State.slotRecord_keeps
    | with_reducible apply State.event_keeps
    | with_reducible apply Keeps.ite
    | fail_if_no_progress (with_reducible refine Keeps.lit ?_ rfl id id)
    | split
    )

theorem State.sessionClose_keeps : ∀ a1 a2 a3, Keeps P s0 s → Keeps P s0 (State.sessionClose s a1 a2 a3) := by
  intro a1 a2 a3 h
  unfold State.sessionClose
  have h1 := State.setSess_keeps { (s.setReg aNvmUpdMiss (BitVec.ofNat 32 a1)).nvm.sess with st := .verifying } (State.setReg_keeps aNvmUpdMiss (BitVec.ofNat 32 a1) h)
  refine Keeps.ite (State.sessFail_keeps _ h1) (Keeps.ite h1 ?_)
  have h2 {c : Prop} [Decidable c] {o : FlashOp} := Keeps.ite (c := c) (State.flashAsk_keeps o h1) h1
  exact Keeps.ite (State.sessionVerify_keeps _ _ (State.readOver_keeps _ h2)) h2

theorem State.sessionAbort_keeps : Keeps P s0 s → Keeps P s0 (State.sessionAbort s) := by
  intro h
  unfold State.sessionAbort
  repeat' (first
    | with_reducible assumption
    | with_reducible apply State.setSess_keeps
    | with_reducible apply Keeps.ite
    | fail_if_no_progress (with_reducible refine Keeps.lit ?_ rfl id id)
    )

theorem execUpdOpen_keeps : Completes s (execUpdOpen s) := by
  have h : Keeps Counters.any s s := .refl s
  unfold execUpdOpen
  repeat' (first
    | with_reducible assumption
    | with_reducible apply Completes.of
    | with_reducible apply State.updOpen_keeps
    )

theorem execUpdProgram_keeps : Completes s (execUpdProgram s) := by
  have h : Keeps Counters.any s s := .refl s
  unfold execUpdProgram
  repeat' (first
    | with_reducible assumption
    | with_reducible apply Completes.of
    | with_reducible apply State.updProgram_keeps
    )

theorem execUpdClose_keeps : ∀ a0 a1, Completes s (execUpdClose a0 a1 s) := by
  intro a0 a1
  have h : Keeps Counters.any s s := .refl s
  unfold execUpdClose
  repeat' (first
    | with_reducible assumption
    | with_reducible apply Completes.of
    | with_reducible apply State.updErr_keeps
    | with_reducible apply State.sessionClose_keeps
    | with_reducible apply Keeps.ite
    )

theorem execUpdAbort_keeps : Completes s (execUpdAbort s) := by
  have h : Keeps Counters.any s s := .refl s
  unfold execUpdAbort
  repeat' (first
    | with_reducible assumption
    | with_reducible apply Completes.of
    | with_reducible apply State.sessionAbort_keeps
    )

theorem execImageOpen_keeps : ∀ a0 a1, Completes s (execImageOpen a0 a1 s) := by
  intro a0 a1
  have h : Keeps Counters.any s s := .refl s
  unfold execImageOpen
  repeat' (first
    | with_reducible assumption
    | with_reducible apply Completes.of
    | with_reducible apply State.event_keeps
    | with_reducible apply State.maintEnd_keeps
    | with_reducible apply State.sessionAbort_keeps
    | with_reducible apply State.sessionOpen_keeps
    | with_reducible apply Keeps.ite
    )

theorem execImageData_keeps : ∀ a0 a1 a2, Completes s (execImageData a0 a1 a2 s) := by
  intro a0 a1 a2
  have h : Keeps Counters.any s s := .refl s
  unfold execImageData
  repeat' (first
    | with_reducible assumption
    | ((try lift_lets); intro x)
    | with_reducible apply Completes.of
    | with_reducible apply State.setSess_keeps
    | with_reducible apply forAll_keeps
    | with_reducible apply State.flashAsk_keeps
    | with_reducible apply Keeps.ite
    )

theorem execImageClose_keeps : ∀ a0 a1 a2, Completes s (execImageClose a0 a1 a2 s) := by
  intro a0 a1 a2
  have h : Keeps Counters.any s s := .refl s
  unfold execImageClose
  repeat' (first
    | with_reducible assumption
    | with_reducible apply Completes.of
    | with_reducible apply State.sessionClose_keeps
    | with_reducible apply Keeps.ite
    )

theorem execImageAbort_keeps : ∀ a0, Completes s (execImageAbort a0 s) := by
  intro a0
  have h : Keeps Counters.any s s := .refl s
  unfold execImageAbort
  repeat' (first
    | with_reducible assumption
    | with_reducible apply Completes.of
    | with_reducible apply State.sessionAbort_keeps
    | with_reducible apply Keeps.ite
    )

theorem State.keyEnd_keeps : ∀ a1, Keeps P s0 s → Keeps P s0 (State.keyEnd s a1) := by
  intro a1 h
  unfold State.keyEnd
  repeat' (first
    | with_reducible assumption
    | with_reducible apply State.setFlag_keeps
    | with_reducible apply Keeps.ite
    | fail_if_no_progress (with_reducible refine Keeps.lit ?_ rfl id id)
    )

theorem State.burnHash_keeps : ∀ slot, Keeps P s0 s → Keeps P s0 (s.burnHash slot) := by
  intro slot h
  unfold State.burnHash
  refine State.keyEnd_keeps _ ?_
  split
  · next ok =>
    simp only [Bool.and_eq_true, Bool.not_eq_true', Fuses.burned] at ok
    refine h.burn fun w => ⟨?_, id, id, id, fun h => ⟨h, rfl⟩, fun k x hk => ?_, fun _ hk => hk, rfl⟩
    · show mwf none (mset none s.nvm.fuses.hash slot (some s.nvm.keyWord)) = true
      exact mwf_mset w
    show mget none (mset none s.nvm.fuses.hash slot (some s.nvm.keyWord)) k = some x
    rw [mget_mset w]
    split
    · next e => subst e; simp [hk] at ok
    · exact hk
  · exact h

theorem execBurnHash_keeps : ∀ a0, Completes s (execBurnHash a0 s) := by
  intro a0
  have h : Keeps Counters.any s s := .refl s
  unfold execBurnHash
  repeat' (first
    | with_reducible assumption
    | with_reducible apply Completes.of
    | with_reducible apply State.burnHash_keeps
    )

theorem State.revokeHash_keeps : ∀ slot, Keeps P s0 s → Keeps P s0 (s.revokeHash slot) := by
  intro slot h
  unfold State.revokeHash
  refine State.keyEnd_keeps _ (Keeps.ite (h.burn fun w => ⟨w, id, id, id, fun h => ⟨h, rfl⟩, fun _ _ h => h, fun k hk => ?_, rfl⟩) h)
  exact List.mem_append_left _ hk

theorem execRevokeKey_keeps : ∀ a0, Completes s (execRevokeKey a0 s) := by
  intro a0
  have h : Keeps Counters.any s s := .refl s
  unfold execRevokeKey
  repeat' (first
    | with_reducible assumption
    | with_reducible apply Completes.of
    | with_reducible apply State.revokeHash_keeps
    )

theorem State.storeKey_keeps : ∀ a1 a2, Keeps P s0 s → Keeps P s0 (State.storeKey s a1 a2) := by
  intro a1 a2 h
  unfold State.storeKey
  repeat' (first
    | with_reducible assumption
    | with_reducible apply State.keyEnd_keeps
    | with_reducible apply State.fillSecure_keeps
    | with_reducible apply State.writeKeys_keeps
    | with_reducible apply Keeps.ite
    )

theorem execSetDomainKey_keeps : ∀ a0, Completes s (execSetDomainKey a0 s) := by
  intro a0
  have h : Keeps Counters.any s s := .refl s
  unfold execSetDomainKey
  repeat' (first
    | with_reducible assumption
    | with_reducible apply Completes.of
    | with_reducible apply State.storeKey_keeps
    )

theorem execClearDomainKey_keeps : ∀ a0, Completes s (execClearDomainKey a0 s) := by
  intro a0
  have h : Keeps Counters.any s s := .refl s
  unfold execClearDomainKey
  repeat' (first
    | with_reducible assumption
    | with_reducible apply Completes.of
    | with_reducible apply State.storeKey_keeps
    )

theorem State.keyCmd_keeps : ∀ a1 a2, Keeps P s0 s → Keeps P s0 (State.keyCmd s a1 a2) := by
  intro a1 a2 h
  unfold State.keyCmd
  repeat' (first
    | with_reducible assumption
    | with_reducible apply State.burnHash_keeps
    | with_reducible apply State.revokeHash_keeps
    | with_reducible apply State.storeKey_keeps
    | split
    )

theorem State.writeLcKey_keeps : ∀ a1, Keeps P s0 s → Keeps P s0 (State.writeLcKey s a1) := by
  intro a1 h
  unfold State.writeLcKey
  repeat' (first
    | with_reducible assumption
    | fail_if_no_progress (with_reducible refine Keeps.lit ?_ rfl id id)
    )

theorem execLcKey_keeps : ∀ a0, Completes s (execLcKey a0 s) := by
  intro a0
  have h : Keeps Counters.any s s := .refl s
  unfold execLcKey
  repeat' (first
    | with_reducible assumption
    | with_reducible apply Completes.of
    | with_reducible apply State.writeLcKey_keeps
    )

end Sys2Proof.Machine
end

