-- ==== Sys2Proof/Laws/KeepsMemCmds.lean ====
section
/-!
SUPPORT. What the operations of MemCmds keep.
-/

namespace Sys2Proof.Machine

variable {P : Counters → Prop} {s0 s : State}

theorem execScrubRow_keeps : ∀ a0, Completes s (execScrubRow a0 s) := by
  intro a0
  have h : Keeps Counters.any s s := .refl s
  unfold execScrubRow
  repeat' (first
    | with_reducible assumption
    | with_reducible apply Completes.of
    | with_reducible apply State.scrubRow_keeps
    )

theorem execEccRewrite_keeps : Completes s (execEccRewrite s) := by
  have h : Keeps Counters.any s s := .refl s
  unfold execEccRewrite
  repeat' (first
    | with_reducible assumption
    | with_reducible apply Completes.of
    | fail_if_no_progress (with_reducible refine Keeps.lit ?_ rfl mwf_mset id)
    | split
    )

theorem execClipRestore_keeps : ∀ a0, Completes s (execClipRestore a0 s) := by
  intro a0
  have h : Keeps Counters.any s s := .refl s
  unfold execClipRestore
  repeat' (first
    | with_reducible assumption
    | with_reducible apply State.readOver_keeps
    | with_reducible apply Completes.of
    | with_reducible apply State.wrBytes_keeps
    | with_reducible apply Keeps.ite
    | fail_if_no_progress (with_reducible refine Keeps.lit ?_ rfl id (fun _ => trivial))
    | ((try lift_lets); intro x)
    | with_reducible apply forAll_keeps
    | with_reducible apply Keeps.foldl
    | split
    )

theorem execTamperLow_keeps : Completes s (execTamperLow s) := by
  have h : Keeps Counters.any s s := .refl s
  unfold execTamperLow
  repeat' (first
    | with_reducible assumption
    | with_reducible apply Completes.of
    | with_reducible apply State.startWipe_keeps
    | with_reducible apply Keeps.ite
    | fail_if_no_progress (with_reducible refine Keeps.lit ?_ rfl id (fun _ => trivial))
    )

theorem execWipeDone_keeps : ∀ a0, Completes s (execWipeDone a0 s) := by
  intro a0
  have h : Keeps Counters.any s s := .refl s
  unfold execWipeDone
  repeat' (first
    | with_reducible assumption
    | ((try lift_lets); intro x)
    | with_reducible apply Completes.of
    | with_reducible apply State.event_keeps
    | with_reducible apply forAll_keeps
    | with_reducible apply State.flashAsk_keeps
    | with_reducible apply State.fillSecure_keeps
    | with_reducible apply State.loadKeys_keeps
    | with_reducible apply Keeps.ite
    | fail_if_no_progress (with_reducible refine Keeps.lit ?_ rfl id (fun _ => trivial))
    )

theorem execTamperRelease_keeps : Completes s (execTamperRelease s) := by
  have h : Keeps Counters.any s s := .refl s
  unfold execTamperRelease
  repeat' (first
    | with_reducible assumption
    | with_reducible apply Completes.of
    | fail_if_no_progress (with_reducible refine Keeps.lit ?_ rfl id (fun _ => trivial))
    )

theorem State.writeMarchCtrl_keeps : ∀ a1, Keeps P s0 s → Keeps P s0 (State.writeMarchCtrl s a1).2 := by
  intro a1 h
  unfold State.writeMarchCtrl
  repeat' (first
    | with_reducible assumption
    | with_reducible apply State.setReg_keeps
    | with_reducible apply State.setFlag_keeps
    | with_reducible apply State.maintRequest_keeps
    | with_reducible apply Keeps.iteSnd
    )

theorem execMarchGo_keeps : ∀ a0, Completes s (execMarchGo a0 s) := by
  intro a0
  have h : Keeps Counters.any s s := .refl s
  unfold execMarchGo
  repeat' (first
    | with_reducible assumption
    | with_reducible apply Completes.of
    | with_reducible apply State.writeMarchCtrl_keeps
    | with_reducible apply Keeps.ite
    )

theorem execMarchRow_keeps : ∀ a0, Completes s (execMarchRow a0 s) := by
  intro a0
  have h : Keeps Counters.any s s := .refl s
  unfold execMarchRow
  repeat' (first
    | with_reducible assumption
    | with_reducible apply Completes.of
    | fail_if_no_progress (with_reducible refine Keeps.lit ?_ rfl id (fun _ => trivial))
    | split
    )

theorem State.rowRepaired_keeps : ∀ a1 a2 a3, Keeps P s0 s → Keeps P s0 (State.rowRepaired s a1 a2 a3) := by
  intro a1 a2 a3 h
  unfold State.rowRepaired
  repeat' (first
    | with_reducible assumption
    | ((try lift_lets); intro x; with_reducible refine Keeps.cut (P := P) (s0 := s0) x ?_ ?_ <;> [(unfold x; clear x); (intro hx; clear_value x)])
    | with_reducible apply State.journal_keeps
    | with_reducible apply State.event_keeps
    | split
    )

theorem execMarchEnd_keeps : Completes s (execMarchEnd s) := by
  have h : Keeps Counters.any s s := .refl s
  unfold execMarchEnd
  repeat' (first
    | with_reducible assumption
    | ((try lift_lets); intro x; with_reducible refine Keeps.cut (P := Counters.any) (s0 := s) x ?_ ?_ <;> [(unfold x; clear x); (intro hx; clear_value x)])
    | ((try lift_lets); intro x)
    | with_reducible apply Completes.of
    | with_reducible apply forAll_keeps
    | with_reducible apply State.zeroRange_keeps
    | with_reducible apply State.rowRepaired_keeps
    | with_reducible apply State.journal_keeps
    | with_reducible apply State.event_keeps
    | fail_if_no_progress (with_reducible refine Keeps.lit ?_ rfl id (fun _ => trivial))
    | split
    )

theorem State.semRead_keeps : ∀ a1 a2, Keeps P s0 s → Keeps P s0 (State.semRead s a1 a2).2 := by
  intro a1 a2 h
  unfold State.semRead
  repeat' (first
    | with_reducible assumption
    | with_reducible apply State.setReg_keeps
    | with_reducible apply Keeps.iteSnd
    )

theorem execSemaphoreRead_keeps : ∀ a0 a1, Completes s (execSemaphoreRead a0 a1 s) := by
  intro a0 a1
  have h : Keeps Counters.any s s := .refl s
  unfold execSemaphoreRead
  repeat' (first
    | with_reducible assumption
    | with_reducible apply Completes.of
    | with_reducible apply State.semRead_keeps
    | fail_if_no_progress (with_reducible refine Keeps.lit ?_ rfl id (fun _ => trivial))
    )

theorem State.semWrite_keeps : ∀ a1 a2 a3, Keeps P s0 s → Keeps P s0 (State.semWrite s a1 a2 a3) := by
  intro a1 a2 a3 h
  unfold State.semWrite
  repeat' (first
    | with_reducible assumption
    | with_reducible apply State.setFlag_keeps
    | with_reducible apply Keeps.ite
    )

theorem execSemRelease_keeps : ∀ a0 a1, Completes s (execSemRelease a0 a1 s) := by
  intro a0 a1
  have h : Keeps Counters.any s s := .refl s
  unfold execSemRelease
  repeat' (first
    | with_reducible assumption
    | with_reducible apply Completes.of
    | with_reducible apply State.semWrite_keeps
    )

theorem State.busHang_keeps : ∀ a1 a2, Keeps P s0 s → Keeps P s0 (State.busHang s a1 a2) := by
  intro a1 a2 h
  unfold State.busHang
  repeat' (first
    | with_reducible assumption
    | with_reducible apply State.raise_keeps
    | with_reducible apply State.count_keeps
    | with_reducible apply State.setReg_keeps
    | with_reducible apply State.setFld_keeps
    | with_reducible apply State.event_keeps
    | fail_if_no_progress (with_reducible refine Keeps.lit ?_ rfl id id)
    | split
    )

theorem execBusHang_keeps : ∀ a0 a1, Completes s (execBusHang a0 a1 s) := by
  intro a0 a1
  have h : Keeps Counters.any s s := .refl s
  unfold execBusHang
  repeat' (first
    | with_reducible assumption
    | with_reducible apply Completes.of
    | with_reducible apply State.busHang_keeps
    )

end Sys2Proof.Machine
end

