-- ==== Sys2Proof/Laws/KeepsTallyCmds.lean ====
section
/-!
SUPPORT. What the operations of TallyCmds keep.
-/

namespace Sys2Proof.Machine

variable {P : Counters → Prop} {s0 s : State}

theorem State.writeMonCfg_keeps : ∀ a1 a2, Keeps P s0 s → Keeps P s0 (State.writeMonCfg s a1 a2) := by
  intro a1 a2 h
  unfold State.writeMonCfg
  repeat' (first
    | with_reducible assumption
    | with_reducible apply State.setFlag_keeps
    | with_reducible apply State.setReg_keeps
    | with_reducible apply State.setMon_keeps
    | with_reducible apply State.monClose_keeps
    | with_reducible apply Keeps.ite
    )

theorem State.writeMonReg_keeps : ∀ a1 a2 a3 a4, Keeps P s0 s → Keeps P s0 (State.writeMonReg s a1 a2 a3 a4) := by
  intro a1 a2 a3 a4 h
  unfold State.writeMonReg
  repeat' (first
    | with_reducible assumption
    | with_reducible apply State.setFlag_keeps
    | with_reducible apply State.setReg_keeps
    | with_reducible apply Keeps.ite
    )

theorem execMonitorEnable_keeps : ∀ a0 a1, Completes s (execMonitorEnable a0 a1 s) := by
  intro a0 a1
  have h : Keeps Counters.any s s := .refl s
  unfold execMonitorEnable
  repeat' (first
    | with_reducible assumption
    | with_reducible apply Completes.of
    | with_reducible apply State.writeMonCfg_keeps
    | with_reducible apply Keeps.ite
    )

theorem execMonitorDisable_keeps : ∀ a0 a1, Completes s (execMonitorDisable a0 a1 s) := by
  intro a0 a1
  have h : Keeps Counters.any s s := .refl s
  unfold execMonitorDisable
  repeat' (first
    | with_reducible assumption
    | with_reducible apply Completes.of
    | with_reducible apply State.writeMonCfg_keeps
    | with_reducible apply Keeps.ite
    )

theorem State.closeWindow_keeps : ∀ a1, Keeps P s0 s → Keeps P s0 (State.closeWindow s a1) := by
  intro a1 h
  unfold State.closeWindow
  repeat' (first
    | with_reducible assumption
    | ((try lift_lets); intro x)
    | with_reducible apply State.setMon_keeps
    | with_reducible apply Keeps.ite
    | fail_if_no_progress (with_reducible refine Keeps.lit ?_ rfl id id)
    )

theorem execMonitorClose_keeps : ∀ a0, Completes s (execMonitorClose a0 s) := by
  intro a0
  have h : Keeps Counters.any s s := .refl s
  unfold execMonitorClose
  repeat' (first
    | with_reducible assumption
    | with_reducible apply State.closeWindow_keeps
    | with_reducible apply Completes.of
    | with_reducible apply State.monClose_keeps
    | fail_if_no_progress (with_reducible refine Keeps.lit ?_ rfl id (fun _ => trivial))
    | ((try lift_lets); intro x)
    | with_reducible apply Keeps.ite
    | with_reducible apply forAll_keeps
    | with_reducible apply Keeps.foldl
    | split
    )

theorem execWindowEnd_keeps : ∀ a0, Completes s (execWindowEnd a0 s) := by
  intro a0
  have h : Keeps Counters.any s s := .refl s
  unfold execWindowEnd
  repeat' (first
    | with_reducible assumption
    | with_reducible apply Completes.of
    | with_reducible apply State.monClose_keeps
    | with_reducible apply Keeps.ite
    )

theorem execWindowRecords_keeps : ∀ a0, Completes s (execWindowRecords a0 s) := by
  intro a0
  have h : Keeps Counters.any s s := .refl s
  unfold execWindowRecords
  repeat' (first
    | with_reducible assumption
    | with_reducible apply Completes.of
    | with_reducible apply State.monRecords_keeps
    )

theorem execTimeRecord_keeps : Completes s (execTimeRecord s) := by
  have h : Keeps Counters.any s s := .refl s
  unfold execTimeRecord
  repeat' (first
    | with_reducible assumption
    | with_reducible apply Completes.of
    | with_reducible apply State.timeRec_keeps
    | with_reducible apply Keeps.ite
    )

theorem State.writeCursor_keeps : ∀ a1, Keeps P s0 s → Keeps P s0 (State.writeCursor s a1) := by
  intro a1 h
  unfold State.writeCursor
  repeat' (first
    | with_reducible assumption
    | with_reducible apply Keeps.ite
    | fail_if_no_progress (with_reducible refine Keeps.lit ?_ rfl id id)
    )

theorem execCursorSet_keeps : ∀ a0, Completes s (execCursorSet a0 s) := by
  intro a0
  have h : Keeps Counters.any s s := .refl s
  unfold execCursorSet
  repeat' (first
    | with_reducible assumption
    | with_reducible apply Completes.of
    | with_reducible apply State.writeCursor_keeps
    | with_reducible apply Keeps.ite
    )

theorem execCursorSearch_keeps : ∀ a0, Completes s (execCursorSearch a0 s) := by
  intro a0
  have h : Keeps Counters.any s s := .refl s
  unfold execCursorSearch
  repeat' (first
    | with_reducible assumption
    | with_reducible apply Completes.of
    | with_reducible apply State.writeCursor_keeps
    | with_reducible apply Keeps.ite
    )

theorem execCursorReady_keeps : Completes s (execCursorReady s) := by
  have h : Keeps Counters.any s s := .refl s
  unfold execCursorReady
  repeat' (first
    | with_reducible assumption
    | ((try lift_lets); intro x; with_reducible refine Keeps.cut (P := Counters.any) (s0 := s) x ?_ ?_ <;> [(unfold x; clear x); (intro hx; clear_value x)])
    | with_reducible apply Completes.of
    | with_reducible apply State.irq_keeps
    | fail_if_no_progress (with_reducible refine Keeps.lit ?_ rfl id (fun _ => trivial))
    | split
    )

theorem execTlyMark_keeps : ∀ a0, Completes s (execTlyMark a0 s) := by
  intro a0
  have h : Keeps Counters.any s s := .refl s
  unfold execTlyMark
  repeat' (first
    | with_reducible assumption
    | with_reducible apply Completes.of
    | with_reducible apply State.mark_keeps
    )

theorem execScrubSweep_keeps : ∀ a0, Completes s (execScrubSweep a0 s) := by
  intro a0
  have h : Keeps Counters.any s s := .refl s
  unfold execScrubSweep
  repeat' (first
    | with_reducible assumption
    | with_reducible apply Completes.of
    | with_reducible apply State.maintRequest_keeps
    )

theorem State.maintOver_keeps : Keeps P s0 s → Keeps P s0 (State.maintOver s) := by
  intro h
  unfold State.maintOver
  repeat' (first
    | with_reducible assumption
    | with_reducible apply State.maintEnd_keeps
    | split
    )

end Sys2Proof.Machine
end

