-- ==== Sys2Proof/Laws/KeepsFaultOps.lean ====
section
/-!
SUPPORT. What the operations of FaultOps keep.
-/

namespace Sys2Proof.Machine

variable {P : Counters → Prop} {s0 s : State}

theorem State.decideYield_keeps : ∀ a1, Keeps P s0 s → Keeps P s0 (State.decideYield s a1) := by
  intro a1 h
  unfold State.decideYield
  repeat' (first
    | with_reducible assumption
    | with_reducible apply State.count_keeps
    | with_reducible apply Keeps.ite
    | fail_if_no_progress (with_reducible refine Keeps.lit ?_ rfl id id)
    )

theorem State.safeState_keeps : Keeps P s0 s → Keeps P s0 (State.safeState s) := by
  intro h
  unfold State.safeState
  repeat' (first
    | with_reducible assumption
    | with_reducible apply State.setMode_keeps
    | fail_if_no_progress (with_reducible refine Keeps.lit ?_ rfl id id)
    )

theorem State.fatalReaction_keeps : Keeps P s0 s → Keeps P s0 (State.fatalReaction s) := by
  intro h
  unfold State.fatalReaction
  repeat' (first
    | with_reducible assumption
    | with_reducible apply State.decideYield_keeps
    | with_reducible apply State.flashSuspend_keeps
    | with_reducible apply State.maintAbort_keeps
    | with_reducible apply State.safeState_keeps
    | with_reducible apply State.powerOffBut_keeps
    | with_reducible apply Keeps.ite
    | fail_if_no_progress (with_reducible refine Keeps.lit ?_ rfl id id)
    )

theorem State.sluiceInput_keeps : ∀ a1, Keeps P s0 s → Keeps P s0 (State.sluiceInput s a1).2 := by
  intro a1 h
  unfold State.sluiceInput
  repeat' (first
    | with_reducible assumption
    | fail_if_no_progress (with_reducible refine Keeps.lit ?_ rfl id id)
    | split
    )

theorem State.sluiceFrame_keeps : ∀ a1 a2, Keeps P s0 s → Keeps P s0 (State.sluiceFrame s a1 a2) := by
  intro a1 a2 h
  unfold State.sluiceFrame
  repeat' (first
    | with_reducible assumption
    | ((try lift_lets); intro x; with_reducible refine Keeps.cut (P := P) (s0 := s0) x ?_ ?_ <;> [(unfold x; clear x); (intro hx; clear_value x)])
    | ((try lift_lets); intro x)
    | with_reducible apply State.sluiceInput_keeps
    | fail_if_no_progress (with_reducible refine Keeps.lit ?_ rfl id id)
    | split
    )

theorem execSluiceFrame_keeps : ∀ a0 a1, Completes s (execSluiceFrame a0 a1 s) := by
  intro a0 a1
  have h : Keeps Counters.any s s := .refl s
  unfold execSluiceFrame
  repeat' (first
    | with_reducible assumption
    | with_reducible apply Completes.of
    | with_reducible apply State.sluiceFrame_keeps
    | with_reducible apply Keeps.ite
    )

theorem execSluiceFrameEnd_keeps : ∀ a0, Completes s (execSluiceFrameEnd a0 s) := by
  intro a0
  have h : Keeps Counters.any s s := .refl s
  unfold execSluiceFrameEnd
  repeat' (first
    | with_reducible assumption
    | with_reducible apply Completes.of
    | with_reducible apply Keeps.ite
    | fail_if_no_progress (with_reducible refine Keeps.lit ?_ rfl id (fun _ => trivial))
    )

theorem keptRegs_wfFrom {m : SMap Word} {lo : Nat} (h : mwfFrom 0 lo m = true) : mwfFrom 0 lo (keptRegs m) = true := by
  unfold keptRegs
  replace h := mwfFrom_filter (p := fun e => decide (e.1 / 65536 = 0x4001) || decide (e.1 / 65536 = 0x4003) ||
    decide (e.1 / 65536 = 0x4004) || decide (e.1 = aMpdSecStat)) h
  generalize m.filter _ = l at h ⊢
  induction l generalizing lo with
  | nil => rfl
  | cons e l ih =>
    obtain ⟨j, w⟩ := e
    simp only [mwfFrom, Bool.and_eq_true, decide_eq_true_eq] at h
    simp only [List.foldr_cons]
    generalize hv : (if 0x40041000 ≤ j ∧ j < 0x40043000 ∧ (j - 0x40041000) % 0x80 = 0 then w &&& 0x7FFFFFFF#32
        else if j = aMpdSecStat then w &&& 0x80000000#32 else w) = v
    split
    · exact mwfFrom_mono (ih h.2) (by omega)
    · next hz =>
      simp only [mwfFrom, Bool.and_eq_true, decide_eq_true_eq]
      exact ⟨⟨h.1.1, hz⟩, ih h.2⟩

theorem Keeps.rebuilt {t : State} (h : Keeps Counters.any s0 s) (hq : t.pending = s.pending) (hd : t.draws = s.draws)
    (hf : t.nvm.fuses = s.nvm.fuses) (hc : s.Canonical → t.Canonical) : Keeps Counters.any s0 t :=
  h.trans ⟨hq, hc, fun w => by rw [hf]; exact ⟨w, .refl _⟩, Nat.le_of_eq hd.symm, fun _ => trivial⟩

theorem State.switchedReset_keeps : ∀ c, Keeps Counters.any s0 s → Keeps Counters.any s0 (s.switchedReset c) := by
  intro c h
  unfold State.switchedReset
  refine State.irq_keeps _ (State.setFlag_keeps _ _ _ (h.rebuilt rfl rfl rfl fun c => ?_))
  exact ⟨keptRegs_wfFrom c.1, rfl, mwf_filter c.3, rfl, rfl, rfl, rfl, rfl, rfl, fun _ => .empty, mwf_filter c.11⟩

theorem Nvm.countersOf_fuses (n : Nvm) : n.countersOf.fuses = n.fuses := by
  unfold Nvm.countersOf; split <;> rfl

theorem Fuses.within_completed (f : Fuses) : Fuses.Within f f.completed := by
  refine ⟨?_, ?_, ?_, fun h => ⟨h, rfl⟩, fun _ _ h => h, fun _ h => h, rfl⟩ <;> (intro hp; unfold Fuses.completed; dsimp only; split <;> omega)

theorem State.takeChain_keeps : ∀ c g, Keeps P s0 s → Keeps P s0 (s.takeChain c g) := by
  intro c g h
  unfold State.takeChain
  refine Keeps.ite ?_ (State.eraseChain_keeps _ ?_)
  all_goals exact State.count_keeps _ _ _ _ (Keeps.lit h (Nvm.countersOf_fuses _) id id)

theorem State.blankJournal_keeps : Keeps P s0 s → Keeps P s0 s.blankJournal := by
  intro h
  exact Keeps.lit h rfl id id

theorem State.bootScan_keeps : Keeps P s0 s → Keeps P s0 s.bootScan := by
  intro h
  unfold State.bootScan
  refine Keeps.ite (Keeps.lit h rfl id id) ?_
  have h1 := h.burn (n := { s.nvm with fuses := s.nvm.fuses.completed }) fun w => ⟨w, Fuses.within_completed _⟩
  have h2 : Keeps P s0 (match ({ s with nvm := { s.nvm with fuses := s.nvm.fuses.completed } } : State).nvm.activeChain with
      | some (c, g) => ({ s with nvm := { s.nvm with fuses := s.nvm.fuses.completed } } : State).takeChain c g
      | none => ({ s with nvm := { s.nvm with fuses := s.nvm.fuses.completed } } : State).blankJournal) := by
    split
    · exact State.takeChain_keeps _ _ h1
    · exact State.blankJournal_keeps h1
  have h3 := State.loadKeys_keeps h2
  exact Keeps.lit (Keeps.ite h3 (State.fillSecure_keeps h3)) rfl id id

theorem State.reboot_keeps : ∀ a1, Keeps Counters.any s0 s → Keeps Counters.any s0 (State.reboot s a1) := by
  intro a1 h
  unfold State.reboot
  repeat' (first
    | with_reducible assumption
    | with_reducible apply State.bootScan_keeps
    | with_reducible apply State.switchedReset_keeps
    )

theorem State.enterBootFail_keeps : Keeps P s0 s → Keeps P s0 (State.enterBootFail s) := by
  intro h
  unfold State.enterBootFail
  repeat' (first
    | with_reducible assumption
    | with_reducible apply State.safeState_keeps
    | fail_if_no_progress (with_reducible refine Keeps.lit ?_ rfl id id)
    )

theorem State.takeClasses_keeps : Keeps P s0 s → Keeps P s0 s.takeClasses := fun h => Keeps.lit (Keeps.drawn h) rfl id id

theorem execPowerOnReset_keeps : ∀ size octal selB railHeld, Completes s (execPowerOnReset size octal selB railHeld s) := by
  intro size octal selB railHeld
  unfold execPowerOnReset
  refine Completes.of (Keeps.lit (State.bootScan_keeps (State.takeClasses_keeps ((Keeps.refl s).rebuilt rfl rfl rfl fun c => ?_))) rfl id id)
  refine ⟨rfl, rfl, ?_, rfl, rfl, rfl, rfl, rfl, rfl, fun _ => .empty, rfl⟩
  dsimp only
  split
  · exact mwf_filter c.3
  · rfl

theorem execResetN_keeps : Completes s (execResetN s) := by
  have h : Keeps Counters.any s s := .refl s
  unfold execResetN
  repeat' (first
    | with_reducible assumption
    | with_reducible apply Completes.of
    | with_reducible apply State.setFlag_keeps
    | with_reducible apply State.reboot_keeps
    | with_reducible apply Keeps.ite
    | fail_if_no_progress (with_reducible refine Keeps.lit ?_ rfl id (fun _ => trivial))
    )

end Sys2Proof.Machine
end

