-- ==== Sys2Proof/Laws/KeepsPowerCmds.lean ====
section
/-!
SUPPORT. What the operations of PowerCmds keep.
-/

namespace Sys2Proof.Machine

variable {P : Counters → Prop} {s0 s : State}

theorem State.thermalShutdown_keeps : Keeps Counters.any s0 s → Keeps Counters.any s0 (State.thermalShutdown s) := by
  intro h
  unfold State.thermalShutdown
  repeat' (first
    | with_reducible assumption
    | with_reducible apply State.thermalOff_keeps
    | with_reducible apply State.decideYield_keeps
    | with_reducible apply State.setFlag_keeps
    | with_reducible apply State.event_keeps
    | with_reducible apply State.flashSuspend_keeps
    | with_reducible apply State.safeState_keeps
    | with_reducible apply State.powerOffBut_keeps
    | with_reducible apply Keeps.ite
    | fail_if_no_progress (with_reducible refine Keeps.lit ?_ rfl id (fun _ => trivial))
    )

theorem State.thermalWarn_keeps : ∀ a1, Keeps P s0 s → Keeps P s0 (State.thermalWarn s a1) := by
  intro a1 h
  unfold State.thermalWarn
  repeat' (first
    | with_reducible assumption
    | with_reducible apply State.raise_keeps
    | with_reducible apply State.setFlag_keeps
    | with_reducible apply State.recognise_keeps
    | with_reducible apply State.event_keeps
    | with_reducible apply State.flashNext_keeps
    | with_reducible apply Keeps.ite
    )

theorem State.coolDown_keeps : ∀ a1, Keeps Counters.any s0 s → Keeps Counters.any s0 (State.coolDown s a1) := by
  intro a1 h
  unfold State.coolDown
  repeat' (first
    | with_reducible assumption
    | with_reducible apply State.reboot_keeps
    | with_reducible apply State.setFlag_keeps
    | with_reducible apply Keeps.ite
    | fail_if_no_progress (with_reducible refine Keeps.lit ?_ rfl id (fun _ => trivial))
    )

theorem execTemperatureReading_keeps : ∀ a0, Completes s (execTemperatureReading a0 s) := by
  intro a0
  have h : Keeps Counters.any s s := .refl s
  unfold execTemperatureReading
  repeat' (first
    | with_reducible assumption
    | with_reducible apply Completes.of
    | with_reducible apply State.raiseInj_keeps
    | with_reducible apply State.disarm_keeps
    | with_reducible apply State.setFld_keeps
    | with_reducible apply State.thermalWarn_keeps
    | with_reducible apply State.monitor_keeps
    | with_reducible apply State.thermalShutdown_keeps
    | with_reducible apply State.coolDown_keeps
    | with_reducible apply Keeps.ite
    )

theorem execPfailLow_keeps : Completes s (execPfailLow s) := by
  have h : Keeps Counters.any s s := .refl s
  unfold execPfailLow
  repeat' (first
    | with_reducible assumption
    | with_reducible apply Completes.of
    | with_reducible apply State.count_keeps
    | with_reducible apply State.setFlag_keeps
    | with_reducible apply State.event_keeps
    | with_reducible apply State.flashSuspend_keeps
    | with_reducible apply Keeps.ite
    | fail_if_no_progress (with_reducible refine Keeps.lit ?_ rfl id (fun _ => trivial))
    )

theorem execPfailRelease_keeps : Completes s (execPfailRelease s) := by
  have h : Keeps Counters.any s s := .refl s
  unfold execPfailRelease
  repeat' (first
    | with_reducible assumption
    | with_reducible apply Completes.of
    | with_reducible apply State.flashNext_keeps
    | with_reducible apply State.setFlag_keeps
    | with_reducible apply Keeps.ite
    )

theorem execRegionGated_keeps : ∀ a0, Completes s (execRegionGated a0 s) := by
  intro a0
  have h : Keeps Counters.any s s := .refl s
  unfold execRegionGated
  repeat' (first
    | with_reducible assumption
    | exact fun c => ⟨(Keeps.tileOf (by assumption) c _).smp, (Keeps.tileOf (by assumption) c _).ctl⟩
    | ((try lift_lets); intro x)
    | with_reducible apply Completes.of
    | with_reducible apply forAll_keeps
    | with_reducible apply State.setTile_keeps
    | with_reducible apply State.setDom_keeps
    | with_reducible apply State.count_keeps
    | with_reducible apply Keeps.ite
    | fail_if_no_progress (with_reducible refine Keeps.lit ?_ rfl id (fun _ => trivial))
    )

theorem execQuietEntry_keeps : Completes s (execQuietEntry s) := by
  have h : Keeps Counters.any s s := .refl s
  unfold execQuietEntry
  repeat' (first
    | with_reducible assumption
    | with_reducible apply Completes.of
    | with_reducible apply State.setMode_keeps
    | with_reducible apply Keeps.ite
    )

theorem State.writePwrQuiet_keeps : ∀ a1, Keeps P s0 s → Keeps P s0 (State.writePwrQuiet s a1) := by
  intro a1 h
  unfold State.writePwrQuiet
  repeat' (first
    | with_reducible assumption
    | with_reducible apply State.later_keeps
    | with_reducible apply State.leaveQuiet_keeps
    | with_reducible apply State.setReg_keeps
    | fail_if_no_progress (with_reducible refine Keeps.lit ?_ rfl id id)
    | ((try lift_lets); intro x)
    | with_reducible apply Keeps.ite
    | with_reducible apply forAll_keeps
    | with_reducible apply Keeps.foldl
    | split
    )

theorem execPwrQuietWrite_keeps : ∀ a0, Completes s (execPwrQuietWrite a0 s) := by
  intro a0
  have h : Keeps Counters.any s s := .refl s
  unfold execPwrQuietWrite
  repeat' (first
    | with_reducible assumption
    | with_reducible apply Completes.of
    | with_reducible apply State.writePwrQuiet_keeps
    )

theorem State.regionWake_keeps : ∀ a1, Keeps P s0 s → Keeps P s0 (State.regionWake s a1) := by
  intro a1 h
  unfold State.regionWake
  repeat' (first
    | with_reducible assumption
    | with_reducible apply State.count_keeps
    | with_reducible apply State.leaveQuiet_keeps
    | with_reducible apply Keeps.ite
    | fail_if_no_progress (with_reducible refine Keeps.lit ?_ rfl id id)
    )

theorem State.wakeUp_keeps : Keeps Counters.any s0 s → Keeps Counters.any s0 (State.wakeUp s) := by
  intro h
  unfold State.wakeUp
  repeat' (first
    | with_reducible assumption
    | with_reducible apply State.reboot_keeps
    | with_reducible apply Keeps.ite
    | fail_if_no_progress (with_reducible refine Keeps.lit ?_ rfl id (fun _ => trivial))
    )

theorem execWakeBall_keeps : ∀ a0, Completes s (execWakeBall a0 s) := by
  intro a0
  have h : Keeps Counters.any s s := .refl s
  unfold execWakeBall
  repeat' (first
    | with_reducible assumption
    | with_reducible apply Completes.of
    | with_reducible apply State.wakeUp_keeps
    | with_reducible apply Keeps.ite
    )

theorem execRtcAlarm_keeps : Completes s (execRtcAlarm s) := by
  have h : Keeps Counters.any s s := .refl s
  unfold execRtcAlarm
  repeat' (first
    | with_reducible assumption
    | with_reducible apply Completes.of
    | with_reducible apply State.wakeUp_keeps
    | with_reducible apply Keeps.ite
    )

end Sys2Proof.Machine
end

