-- ==== Sys2Proof/Laws/KeepsNetOps.lean ====
section
/-!
SUPPORT. What the operations of NetOps keep.
-/

namespace Sys2Proof.Machine

variable {P : Counters → Prop} {s0 s : State}

theorem State.divFree_keeps : ∀ a1 a2, Keeps P s0 s → Keeps P s0 (State.divFree s a1 a2).2 := by
  intro a1 a2 h
  unfold State.divFree
  repeat' (first
    | with_reducible assumption
    | with_reducible apply State.drawBool_keeps
    | with_reducible apply Keeps.iteSnd
    )

theorem State.netSend_keeps : ∀ a1 a2, Keeps P s0 s → Keeps P s0 (State.netSend s a1 a2) := by
  intro a1 a2 h
  unfold State.netSend
  repeat' (first
    | with_reducible assumption
    | with_reducible apply State.disarm_keeps
    | with_reducible apply Keeps.ite
    | fail_if_no_progress (with_reducible refine Keeps.lit ?_ rfl id id)
    | ((try lift_lets); intro x)
    | with_reducible apply forAll_keeps
    | with_reducible apply Keeps.foldl
    | split
    )

theorem State.updPtp_keeps : ∀ a1, Keeps P s0 s → Keeps P s0 (State.updPtp s a1) := by
  intro a1 h
  unfold State.updPtp
  repeat' (first
    | with_reducible assumption
    | fail_if_no_progress (with_reducible refine Keeps.lit ?_ rfl id id)
    | ((try lift_lets); intro x)
    | with_reducible apply Keeps.ite
    | with_reducible apply forAll_keeps
    | with_reducible apply Keeps.foldl
    | split
    )

theorem State.joinGroup_keeps : ∀ a1 a2, Keeps P s0 s → Keeps P s0 (State.joinGroup s a1 a2) := by
  intro a1 a2 h
  unfold State.joinGroup
  repeat' (first
    | with_reducible assumption
    | with_reducible apply State.netSend_keeps
    | fail_if_no_progress (with_reducible refine Keeps.lit ?_ rfl id id)
    | ((try lift_lets); intro x)
    | with_reducible apply Keeps.ite
    | with_reducible apply forAll_keeps
    | with_reducible apply Keeps.foldl
    | split
    )

theorem State.reportsDue_keeps : Keeps P s0 s → Keeps P s0 (State.reportsDue s) := by
  intro h
  unfold State.reportsDue
  repeat' (first
    | with_reducible assumption
    | ((try lift_lets); intro x)
    | with_reducible apply State.netSend_keeps
    | with_reducible apply Keeps.foldl
    | fail_if_no_progress (with_reducible refine Keeps.lit ?_ rfl id id)
    )

theorem State.joinDomain_keeps : Keeps P s0 s → Keeps P s0 (State.joinDomain s) := by
  intro h
  unfold State.joinDomain
  repeat' (first
    | with_reducible assumption
    | ((try lift_lets); intro x)
    | with_reducible apply State.joinGroup_keeps
    | with_reducible apply Keeps.ite
    | split
    )

theorem State.joinStream_keeps : ∀ a1, Keeps P s0 s → Keeps P s0 (State.joinStream s a1) := by
  intro a1 h
  unfold State.joinStream
  repeat' (first
    | with_reducible assumption
    | with_reducible apply State.joinGroup_keeps
    )

theorem State.setRxBuf_keeps : ∀ a1 a2, Keeps P s0 s → Keeps P s0 (State.setRxBuf s a1 a2) := by
  intro a1 a2 h
  unfold State.setRxBuf
  repeat' (first
    | with_reducible assumption
    | fail_if_no_progress (with_reducible refine Keeps.lit ?_ rfl id id)
    )

theorem State.rxTake_keeps : ∀ a1, Keeps P s0 s → Keeps P s0 (State.rxTake s a1) := by
  intro a1 h
  unfold State.rxTake
  repeat' (first
    | with_reducible assumption
    | with_reducible apply State.setRxBuf_keeps
    | fail_if_no_progress (with_reducible refine Keeps.lit ?_ rfl id id)
    | ((try lift_lets); intro x)
    | with_reducible apply Keeps.ite
    | with_reducible apply forAll_keeps
    | with_reducible apply Keeps.foldl
    | split
    )

theorem State.rxFrom_keeps {f : State → State} (hf : ∀ s, Keeps P s0 s → Keeps P s0 (f s)) :
    ∀ p, Keeps P s0 s → Keeps P s0 (s.rxFrom p f) := fun _ h => Keeps.ite (hf _ (State.rxTake_keeps _ h)) h

theorem State.nodeCheck_keeps : ∀ a1 a2, Keeps P s0 s → Keeps P s0 (State.nodeCheck s a1 a2).2 := by
  intro a1 a2 h
  unfold State.nodeCheck
  repeat' (first
    | with_reducible assumption
    | with_reducible apply State.count_keeps
    | fail_if_no_progress (with_reducible refine Keeps.lit ?_ rfl id id)
    | split
    )

theorem State.forward_keeps : ∀ a1 a2, Keeps P s0 s → Keeps P s0 (State.forward s a1 a2) := by
  intro a1 a2 h
  unfold State.forward
  repeat' (first
    | with_reducible assumption
    | with_reducible apply State.netSend_keeps
    | with_reducible apply Keeps.ite
    )

theorem State.hsrForward_keeps : ∀ a1 a2 a3, Keeps P s0 s → Keeps P s0 (State.hsrForward s a1 a2 a3) := by
  intro a1 a2 a3 h
  unfold State.hsrForward
  repeat' (first
    | with_reducible assumption
    | with_reducible apply State.netSend_keeps
    | with_reducible apply Keeps.ite
    | fail_if_no_progress (with_reducible refine Keeps.lit ?_ rfl id id)
    | ((try lift_lets); intro x)
    | with_reducible apply forAll_keeps
    | with_reducible apply Keeps.foldl
    | split
    )

theorem State.rxStore_keeps : ∀ a1 a2, Keeps P s0 s → Keeps P s0 (State.rxStore s a1 a2) := by
  intro a1 a2 h
  unfold State.rxStore
  repeat' (first
    | with_reducible assumption
    | with_reducible apply State.count_keeps
    | with_reducible apply State.setRxBuf_keeps
    | with_reducible apply Keeps.ite
    )

theorem State.ethFrame_keeps : ∀ a1 a2, Keeps P s0 s → Keeps P s0 (State.ethFrame s a1 a2) := by
  intro port f h
  unfold State.ethFrame
  refine Keeps.ite h (Keeps.ite (State.raise_keeps _ _ _ _ (State.count_keeps _ _ _ _ h)) ?_)
  have fwd {c : Prop} [Decidable c] : Keeps P s0 ((if c then s.forward port f else s).rxStore port f) :=
    State.rxStore_keeps _ _ (Keeps.ite (State.forward_keeps _ _ h) h)
  have dup (q) : Keeps P s0 (s.nodeCheck f.src q).2 := State.nodeCheck_keeps _ _ h
  have fst (q) {u : State} (hu : Keeps P s0 u) :
      Keeps P s0 (if (s.nodeCheck f.src q).1 then u.count aNetDup 31 16 1 else u.rxStore port f) :=
    Keeps.ite (State.count_keeps _ _ _ _ hu) (State.rxStore_keeps _ _ hu)
  dsimp only
  cases f.red with
  | none => exact fwd
  | some q =>
    exact Keeps.ite (Keeps.ite (Keeps.lit h rfl id id) (fst q (dup q)))
      (Keeps.ite (Keeps.ite h (fst q (State.hsrForward_keeps _ _ _ (dup q)))) fwd)

theorem State.ptpStrobe_keeps : Keeps P s0 s → Keeps P s0 (State.ptpStrobe s) := by
  intro h
  unfold State.ptpStrobe
  repeat' (first
    | with_reducible assumption
    | with_reducible apply State.updPtp_keeps
    | with_reducible apply State.count_keeps
    | with_reducible apply State.setFlag_keeps
    | with_reducible apply Keeps.ite
    )

theorem State.gridHold_keeps : Keeps P s0 s → Keeps P s0 (State.gridHold s) := by
  intro h
  unfold State.gridHold
  repeat' (first
    | with_reducible assumption
    | with_reducible apply Keeps.ite
    | fail_if_no_progress (with_reducible refine Keeps.lit ?_ rfl id id)
    )

theorem State.setTimeValid_keeps : ∀ a1, Keeps P s0 s → Keeps P s0 (State.setTimeValid s a1) := by
  intro a1 h
  unfold State.setTimeValid
  repeat' (first
    | with_reducible assumption
    | with_reducible apply State.gridHold_keeps
    | with_reducible apply State.candFound_keeps
    | with_reducible apply State.candLost_keeps
    | with_reducible apply Keeps.ite
    | fail_if_no_progress (with_reducible refine Keeps.lit ?_ rfl id id)
    )

theorem State.uncalibrate_keeps : Keeps P s0 s → Keeps P s0 (State.uncalibrate s) := by
  intro h
  unfold State.uncalibrate
  repeat' (first
    | with_reducible assumption
    | with_reducible apply State.updPtp_keeps
    )

theorem State.selectGm_keeps : ∀ a1, Keeps P s0 s → Keeps P s0 (State.selectGm s a1) := by
  intro a1 h
  unfold State.selectGm
  repeat' (first
    | with_reducible assumption
    | with_reducible apply State.updPtp_keeps
    | with_reducible apply State.setReg_keeps
    | with_reducible apply State.setTimeValid_keeps
    | with_reducible apply State.uncalibrate_keeps
    | with_reducible apply Keeps.ite
    )

theorem State.becomeMaster_keeps : Keeps P s0 s → Keeps P s0 (State.becomeMaster s) := by
  intro h
  unfold State.becomeMaster
  repeat' (first
    | with_reducible assumption
    | with_reducible apply State.updPtp_keeps
    | with_reducible apply State.setReg_keeps
    | with_reducible apply State.setTimeValid_keeps
    | with_reducible apply Keeps.ite
    )

theorem State.ptpDecide_keeps : Keeps P s0 s → Keeps P s0 (State.ptpDecide s) := by
  intro h
  unfold State.ptpDecide
  repeat' (first
    | with_reducible assumption
    | with_reducible apply State.selectGm_keeps
    | with_reducible apply State.updPtp_keeps
    | with_reducible apply State.setTimeValid_keeps
    | with_reducible apply State.becomeMaster_keeps
    | split
    )

theorem State.ptpAnnounce_keeps : ∀ a1 a2 a3, Keeps P s0 s → Keeps P s0 (State.ptpAnnounce s a1 a2 a3) := by
  intro a1 a2 a3 h
  unfold State.ptpAnnounce
  repeat' (first
    | with_reducible assumption
    | with_reducible apply State.rxTake_keeps
    | with_reducible apply State.updPtp_keeps
    | with_reducible apply State.ptpDecide_keeps
    | with_reducible apply Keeps.ite
    )

theorem State.servo_keeps : ∀ a1, Keeps P s0 s → Keeps P s0 (State.servo s a1) := by
  intro a1 h
  unfold State.servo
  repeat' (first
    | with_reducible assumption
    | with_reducible apply State.divFree_keeps
    | with_reducible apply State.updPtp_keeps
    | with_reducible apply Keeps.ite
    | fail_if_no_progress (with_reducible refine Keeps.lit ?_ rfl id id)
    )

theorem State.ptpOffset_keeps : ∀ a1, Keeps P s0 s → Keeps P s0 (State.ptpOffset s a1) := by
  intro a1 h
  unfold State.ptpOffset
  repeat' (first
    | with_reducible assumption
    | with_reducible apply State.monitor_keeps
    | with_reducible apply State.updPtp_keeps
    | with_reducible apply State.servo_keeps
    | with_reducible apply State.uncalibrate_keeps
    | with_reducible apply State.setTimeValid_keeps
    | with_reducible apply Keeps.ite
    )

theorem State.delaySample_keeps : ∀ a1 a2 a3 a4, Keeps P s0 s → Keeps P s0 (State.delaySample s a1 a2 a3 a4) := by
  intro a1 a2 a3 a4 h
  unfold State.delaySample
  repeat' (first
    | with_reducible assumption
    | ((try lift_lets); intro x)
    | with_reducible apply State.divFree_keeps
    | with_reducible apply State.monitor_keeps
    | with_reducible apply State.updPtp_keeps
    | with_reducible apply Keeps.foldl
    | with_reducible apply Keeps.ite
    | fail_if_no_progress (with_reducible refine Keeps.lit ?_ rfl id id)
    | split
    | with_reducible apply forAll_keeps
    )

theorem State.reqKnown_keeps : ∀ a1 a2, Keeps P s0 s → Keeps P s0 (State.reqKnown s a1 a2) := by
  intro a1 a2 h
  unfold State.reqKnown
  repeat' (first
    | with_reducible assumption
    | with_reducible apply State.delaySample_keeps
    | with_reducible apply State.updPtp_keeps
    | with_reducible apply Keeps.ite
    | fail_if_no_progress (with_reducible refine Keeps.lit ?_ rfl id id)
    | split
    )

theorem State.syncKnown_keeps : ∀ a1 a2, Keeps P s0 s → Keeps P s0 (State.syncKnown s a1 a2) := by
  intro a1 a2 h
  unfold State.syncKnown
  repeat' (first
    | with_reducible assumption
    | with_reducible apply State.reqKnown_keeps
    | ((try lift_lets); intro x; with_reducible refine Keeps.cut (P := P) (s0 := s0) x ?_ ?_ <;> [(unfold x; clear x); (intro hx; clear_value x)])
    | with_reducible apply State.updPtp_keeps
    | with_reducible apply State.ptpOffset_keeps
    | split
    | fail_if_no_progress (with_reducible refine Keeps.lit ?_ rfl id id)
    | with_reducible apply Keeps.ite
    | with_reducible apply forAll_keeps
    | with_reducible apply Keeps.foldl
    )

theorem State.ptpSync_keeps : ∀ a1 a2 a3 a4 a5 a6 a7 a8, Keeps P s0 s → Keeps P s0 (State.ptpSync s a1 a2 a3 a4 a5 a6 a7 a8) := by
  intro a1 a2 a3 a4 a5 a6 a7 a8 h
  unfold State.ptpSync
  repeat' (first
    | with_reducible assumption
    | with_reducible apply State.rxTake_keeps
    | with_reducible apply State.updPtp_keeps
    | with_reducible apply State.syncKnown_keeps
    | with_reducible apply Keeps.ite
    | fail_if_no_progress (with_reducible refine Keeps.lit ?_ rfl id id)
    | ((try lift_lets); intro x)
    | with_reducible apply forAll_keeps
    | with_reducible apply Keeps.foldl
    | split
    )

theorem State.ptpFollow_keeps : ∀ a1 a2 a3 a4 a5, Keeps P s0 s → Keeps P s0 (State.ptpFollow s a1 a2 a3 a4 a5) := by
  intro a1 a2 a3 a4 a5 h
  unfold State.ptpFollow
  repeat' (first
    | with_reducible assumption
    | ((try lift_lets); intro x; with_reducible refine Keeps.cut (P := P) (s0 := s0) x ?_ ?_ <;> [(unfold x; clear x); (intro hx; clear_value x)])
    | with_reducible apply State.rxTake_keeps
    | with_reducible apply State.updPtp_keeps
    | with_reducible apply State.syncKnown_keeps
    | split
    )

theorem State.ptpSend_keeps : ∀ a1, Keeps P s0 s → Keeps P s0 (State.ptpSend s a1) := by
  intro a1 h
  unfold State.ptpSend
  repeat' (first
    | with_reducible assumption
    | ((try lift_lets); intro x)
    | with_reducible apply State.netSend_keeps
    | with_reducible apply Keeps.foldl
    )

theorem State.ptpReq_keeps : ∀ a1, Keeps P s0 s → Keeps P s0 (State.ptpReq s a1) := by
  intro a1 h
  unfold State.ptpReq
  repeat' (first
    | with_reducible assumption
    | with_reducible apply State.ptpSend_keeps
    | with_reducible apply State.updPtp_keeps
    | with_reducible apply State.netSend_keeps
    | fail_if_no_progress (with_reducible refine Keeps.lit ?_ rfl id id)
    | ((try lift_lets); intro x)
    | with_reducible apply Keeps.ite
    | with_reducible apply forAll_keeps
    | with_reducible apply Keeps.foldl
    | split
    )

theorem State.ptpResp_keeps : ∀ a1 a2 a3 a4 a5, Keeps P s0 s → Keeps P s0 (State.ptpResp s a1 a2 a3 a4 a5) := by
  intro a1 a2 a3 a4 a5 h
  unfold State.ptpResp
  repeat' (first
    | with_reducible assumption
    | with_reducible apply State.delaySample_keeps
    | ((try lift_lets); intro x; with_reducible refine Keeps.cut (P := P) (s0 := s0) x ?_ ?_ <;> [(unfold x; clear x); (intro hx; clear_value x)])
    | with_reducible apply State.rxTake_keeps
    | with_reducible apply State.divFree_keeps
    | with_reducible apply State.updPtp_keeps
    | with_reducible apply State.monitor_keeps
    | with_reducible apply Keeps.ite
    | split
    | fail_if_no_progress (with_reducible refine Keeps.lit ?_ rfl id id)
    | with_reducible apply forAll_keeps
    | with_reducible apply Keeps.foldl
    )

theorem State.setRxs_keeps : ∀ a1 a2, Keeps P s0 s → Keeps P s0 (State.setRxs s a1 a2) := by
  intro a1 a2 h
  unfold State.setRxs
  repeat' (first
    | with_reducible assumption
    | fail_if_no_progress (with_reducible refine Keeps.lit ?_ rfl id id)
    )

theorem State.rxFollow_keeps : ∀ a1, Keeps P s0 s → Keeps P s0 (State.rxFollow s a1) := by
  intro a1 h
  unfold State.rxFollow
  repeat' (first
    | with_reducible assumption
    | ((try lift_lets); intro x)
    | with_reducible apply State.joinStream_keeps
    | with_reducible apply State.setRxs_keeps
    | with_reducible apply Keeps.ite
    | fail_if_no_progress (with_reducible refine Keeps.lit ?_ rfl id id)
    | with_reducible apply forAll_keeps
    | with_reducible apply Keeps.foldl
    | split
    )

theorem State.rxEnable_keeps : ∀ a1, Keeps P s0 s → Keeps P s0 (State.rxEnable s a1) := by
  intro a1 h
  unfold State.rxEnable
  repeat' (first
    | with_reducible assumption
    | with_reducible apply State.rxFollow_keeps
    | with_reducible apply State.joinGroup_keeps
    | with_reducible apply State.setRxs_keeps
    | with_reducible apply Keeps.ite
    | fail_if_no_progress (with_reducible refine Keeps.lit ?_ rfl id id)
    | ((try lift_lets); intro x)
    | with_reducible apply forAll_keeps
    | with_reducible apply Keeps.foldl
    | split
    )

theorem State.writeRx_keeps : ∀ a1 a2, Keeps P s0 s → Keeps P s0 (State.writeRx s a1 a2) := by
  intro a1 a2 h
  unfold State.writeRx
  repeat' (first
    | with_reducible assumption
    | with_reducible apply State.nextly_keeps
    | with_reducible apply State.setFlag_keeps
    | with_reducible apply State.rxEnable_keeps
    | with_reducible apply State.setReg_keeps
    | with_reducible apply Keeps.ite
    | fail_if_no_progress (with_reducible refine Keeps.lit ?_ rfl id id)
    | ((try lift_lets); intro x)
    | with_reducible apply forAll_keeps
    | with_reducible apply Keeps.foldl
    | split
    )

theorem State.writeTx_keeps : ∀ a1 a2, Keeps P s0 s → Keeps P s0 (State.writeTx s a1 a2) := by
  intro a1 a2 h
  unfold State.writeTx
  repeat' (first
    | with_reducible assumption
    | with_reducible apply State.setFlag_keeps
    | with_reducible apply State.setReg_keeps
    | with_reducible apply Keeps.ite
    )

theorem State.writeStrmField_keeps : ∀ a1 a2 a3 a4 a5, Keeps P s0 s → Keeps P s0 (State.writeStrmField s a1 a2 a3 a4 a5) := by
  intro a1 a2 a3 a4 a5 h
  unfold State.writeStrmField
  repeat' (first
    | with_reducible assumption
    | with_reducible apply State.setFlag_keeps
    | with_reducible apply State.setReg_keeps
    | with_reducible apply Keeps.ite
    | fail_if_no_progress (with_reducible refine Keeps.lit ?_ rfl id id)
    | ((try lift_lets); intro x)
    | with_reducible apply forAll_keeps
    | with_reducible apply Keeps.foldl
    | split
    )

theorem State.txPacket_keeps : ∀ a1 a2 a3, Keeps P s0 s → Keeps P s0 (State.txPacket s a1 a2 a3) := by
  intro a1 a2 a3 h
  unfold State.txPacket
  repeat' (first
    | with_reducible assumption
    | with_reducible apply State.netSend_keeps
    )

theorem State.txStrobe_keeps : Keeps P s0 s → Keeps P s0 (State.txStrobe s) := by
  intro h
  unfold State.txStrobe
  repeat' (first
    | with_reducible assumption
    | ((try lift_lets); intro x)
    | with_reducible apply forAll_keeps
    | with_reducible apply State.txPacket_keeps
    | with_reducible apply Keeps.ite
    )

theorem State.rxWrite_keeps : ∀ a1 a2 a3, Keeps P s0 s → Keeps P s0 (State.rxWrite s a1 a2 a3) := by
  intro a1 a2 a3 h
  unfold State.rxWrite
  repeat' (first
    | with_reducible assumption
    | ((try lift_lets); intro x)
    | with_reducible apply forAll_keeps
    | with_reducible apply State.wr32_keeps
    | with_reducible apply State.setRxs_keeps
    )

theorem State.rxPlace_keeps : ∀ a1 a2 a3, Keeps P s0 s → Keeps P s0 (State.rxPlace s a1 a2 a3) := by
  intro a1 a2 a3 h
  unfold State.rxPlace
  repeat' (first
    | with_reducible assumption
    | ((try lift_lets); intro x; with_reducible refine Keeps.cut (P := P) (s0 := s0) x ?_ ?_ <;> [(unfold x; clear x); (intro hx; clear_value x)])
    | ((try lift_lets); intro x)
    | with_reducible apply State.count_keeps
    | with_reducible apply State.monitor_keeps
    | with_reducible apply State.rxWrite_keeps
    | with_reducible apply Keeps.foldl
    | split
    | fail_if_no_progress (with_reducible refine Keeps.lit ?_ rfl id id)
    | with_reducible apply Keeps.ite
    | with_reducible apply forAll_keeps
    )

theorem State.streamPacket_keeps : ∀ a1 a2 a3, Keeps P s0 s → Keeps P s0 (State.streamPacket s a1 a2 a3) := fun _ _ _ h =>
  Keeps.ite h (Keeps.foldl h fun _ hs _ => State.rxPlace_keeps _ _ _ hs)

theorem State.rxStrobe_keeps : ∀ a1, Keeps P s0 s → Keeps P s0 (State.rxStrobe s a1) := by
  intro a1 h
  unfold State.rxStrobe
  repeat' (first
    | with_reducible assumption
    | ((try lift_lets); intro x)
    | with_reducible apply State.setRxs_keeps
    | with_reducible apply forAll_keeps
    | with_reducible apply State.wr32_keeps
    | with_reducible apply Keeps.ite
    | with_reducible apply Keeps.foldl
    )

theorem State.netStart_keeps : Keeps P s0 s → Keeps P s0 (State.netStart s) := by
  intro h
  unfold State.netStart
  repeat' (first
    | with_reducible assumption
    | ((try lift_lets); intro x)
    | with_reducible apply State.joinDomain_keeps
    | with_reducible apply State.joinGroup_keeps
    | with_reducible apply State.joinStream_keeps
    | with_reducible apply forAll_keeps
    | with_reducible apply Keeps.ite
    )

theorem State.ptpRecognised_keeps : ∀ a1, Keeps P s0 s → Keeps P s0 (State.ptpRecognised s a1) := by
  intro a1 h
  unfold State.ptpRecognised
  repeat' (first
    | with_reducible assumption
    | ((try lift_lets); intro x)
    | with_reducible apply State.joinGroup_keeps
    | with_reducible apply State.setTimeValid_keeps
    | with_reducible apply State.updPtp_keeps
    | with_reducible apply Keeps.ite
    | fail_if_no_progress (with_reducible refine Keeps.lit ?_ rfl id id)
    )

end Sys2Proof.Machine
end

