-- ==== Sys2Proof/Laws/KeepsNetCmds.lean ====
section
/-!
SUPPORT. What the operations of NetCmds keep.
-/

namespace Sys2Proof.Machine

variable {P : Counters → Prop} {s0 s : State}

theorem execLinkStatus_keeps : ∀ a0 a1 a2 a3, Completes s (execLinkStatus a0 a1 a2 a3 s) := by
  intro a0 a1 a2 a3
  have h : Keeps Counters.any s s := .refl s
  unfold execLinkStatus
  repeat' (first
    | with_reducible assumption
    | with_reducible apply Completes.of
    | with_reducible apply State.setFlag_keeps
    | with_reducible apply State.setFld_keeps
    )

theorem State.writeMdio_keeps : ∀ a1, Keeps P s0 s → Keeps P s0 (State.writeMdio s a1) := by
  intro a1 h
  unfold State.writeMdio
  repeat' (first
    | with_reducible assumption
    | with_reducible apply State.setReg_keeps
    | with_reducible apply Keeps.ite
    )

theorem execMdioGo_keeps : ∀ a0, Completes s (execMdioGo a0 s) := by
  intro a0
  have h : Keeps Counters.any s s := .refl s
  unfold execMdioGo
  repeat' (first
    | with_reducible assumption
    | with_reducible apply Completes.of
    | with_reducible apply State.writeMdio_keeps
    | with_reducible apply Keeps.ite
    )

theorem execMdioDone_keeps : ∀ a0, Completes s (execMdioDone a0 s) := by
  intro a0
  have h : Keeps Counters.any s s := .refl s
  unfold execMdioDone
  repeat' (first
    | with_reducible assumption
    | with_reducible apply Completes.of
    | with_reducible apply State.setFld_keeps
    | with_reducible apply State.setFlag_keeps
    | with_reducible apply Keeps.ite
    | fail_if_no_progress (with_reducible refine Keeps.lit ?_ rfl id (fun _ => trivial))
    | ((try lift_lets); intro x)
    | with_reducible apply forAll_keeps
    | with_reducible apply Keeps.foldl
    | split
    )

theorem State.writeNetCtrl_keeps : ∀ a1, Keeps P s0 s → Keeps P s0 (State.writeNetCtrl s a1) := by
  intro a1 h
  unfold State.writeNetCtrl
  repeat' (first
    | with_reducible assumption
    | with_reducible apply State.netStart_keeps
    | with_reducible apply State.nextly_keeps
    | with_reducible apply State.setFlag_keeps
    | with_reducible apply State.setReg_keeps
    | with_reducible apply Keeps.ite
    | fail_if_no_progress (with_reducible refine Keeps.lit ?_ rfl id id)
    | ((try lift_lets); intro x)
    | with_reducible apply forAll_keeps
    | with_reducible apply Keeps.foldl
    | split
    )

theorem State.tcForward_keeps : ∀ a1 a2 a3 a4, Keeps P s0 s → Keeps P s0 (State.tcForward s a1 a2 a3 a4) := by
  intro a1 a2 a3 a4 h
  unfold State.tcForward
  repeat' (first
    | with_reducible assumption
    | with_reducible apply State.netSend_keeps
    | with_reducible apply Keeps.ite
    | fail_if_no_progress (with_reducible refine Keeps.lit ?_ rfl id id)
    | ((try lift_lets); intro x)
    | with_reducible apply forAll_keeps
    | with_reducible apply Keeps.foldl
    | split
    )

theorem execPtpSync_keeps : ∀ a0 a1 a2 a3 a4 a5 a6 a7 a8 a9, Completes s (execPtpSync a0 a1 a2 a3 a4 a5 a6 a7 a8 a9 s) := by
  intro a0 a1 a2 a3 a4 a5 a6 a7 a8 a9
  have h : Keeps Counters.any s s := .refl s
  unfold execPtpSync
  repeat' (first
    | with_reducible assumption
    | with_reducible apply State.rxFrom_keeps
    | with_reducible apply Completes.of
    | with_reducible apply State.ptpSync_keeps
    | with_reducible apply State.tcForward_keeps
    | fail_if_no_progress (with_reducible refine Keeps.lit ?_ rfl id (fun _ => trivial))
    | ((try lift_lets); intro x)
    | with_reducible apply Keeps.ite
    | with_reducible apply forAll_keeps
    | with_reducible apply Keeps.foldl
    | split
    )

theorem execFollowUp_keeps : ∀ a0 a1 a2 a3 a4 a5, Completes s (execFollowUp a0 a1 a2 a3 a4 a5 s) := by
  intro a0 a1 a2 a3 a4 a5
  have h : Keeps Counters.any s s := .refl s
  unfold execFollowUp
  repeat' (first
    | with_reducible assumption
    | with_reducible apply State.rxFrom_keeps
    | with_reducible apply Completes.of
    | with_reducible apply State.ptpFollow_keeps
    | fail_if_no_progress (with_reducible refine Keeps.lit ?_ rfl id (fun _ => trivial))
    | ((try lift_lets); intro x)
    | with_reducible apply Keeps.ite
    | with_reducible apply forAll_keeps
    | with_reducible apply Keeps.foldl
    | split
    )

theorem execDelayResp_keeps : ∀ a0 a1 a2 a3 a4 a5, Completes s (execDelayResp a0 a1 a2 a3 a4 a5 s) := by
  intro a0 a1 a2 a3 a4 a5
  have h : Keeps Counters.any s s := .refl s
  unfold execDelayResp
  repeat' (first
    | with_reducible assumption
    | with_reducible apply State.rxFrom_keeps
    | with_reducible apply Completes.of
    | with_reducible apply State.ptpResp_keeps
    | fail_if_no_progress (with_reducible refine Keeps.lit ?_ rfl id (fun _ => trivial))
    | ((try lift_lets); intro x)
    | with_reducible apply Keeps.ite
    | with_reducible apply forAll_keeps
    | with_reducible apply Keeps.foldl
    | split
    )

theorem State.ptpAnswer_keeps : ∀ a1 a2 a3 a4 a5, Keeps P s0 s → Keeps P s0 (State.ptpAnswer s a1 a2 a3 a4 a5) := by
  intro a1 a2 a3 a4 a5 h
  unfold State.ptpAnswer
  repeat' (first
    | with_reducible assumption
    | with_reducible apply State.netSend_keeps
    | with_reducible apply Keeps.ite
    | fail_if_no_progress (with_reducible refine Keeps.lit ?_ rfl id id)
    | ((try lift_lets); intro x)
    | with_reducible apply forAll_keeps
    | with_reducible apply Keeps.foldl
    | split
    )

theorem execDelayReq_keeps : ∀ a0 a1 a2 a3 a4 a5, Completes s (execDelayReq a0 a1 a2 a3 a4 a5 s) := by
  intro a0 a1 a2 a3 a4 a5
  have h : Keeps Counters.any s s := .refl s
  unfold execDelayReq
  repeat' (first
    | with_reducible assumption
    | with_reducible apply State.ptpAnswer_keeps
    | with_reducible apply State.rxFrom_keeps
    | with_reducible apply Completes.of
    | with_reducible apply State.rxTake_keeps
    | with_reducible apply State.tcForward_keeps
    | with_reducible apply State.netSend_keeps
    | with_reducible apply Keeps.ite
    | fail_if_no_progress (with_reducible refine Keeps.lit ?_ rfl id (fun _ => trivial))
    | ((try lift_lets); intro x)
    | with_reducible apply forAll_keeps
    | with_reducible apply Keeps.foldl
    | split
    )

theorem execAnnounceMsg_keeps : ∀ a0 a1 a2, Completes s (execAnnounceMsg a0 a1 a2 s) := by
  intro a0 a1 a2
  have h : Keeps Counters.any s s := .refl s
  unfold execAnnounceMsg
  repeat' (first
    | with_reducible assumption
    | with_reducible apply State.rxFrom_keeps
    | with_reducible apply Completes.of
    | with_reducible apply State.ptpAnnounce_keeps
    | fail_if_no_progress (with_reducible refine Keeps.lit ?_ rfl id (fun _ => trivial))
    | ((try lift_lets); intro x)
    | with_reducible apply Keeps.ite
    | with_reducible apply forAll_keeps
    | with_reducible apply Keeps.foldl
    | split
    )

theorem execPtpTimeValid_keeps : Completes s (execPtpTimeValid s) := by
  have h : Keeps Counters.any s s := .refl s
  unfold execPtpTimeValid
  repeat' (first
    | with_reducible assumption
    | with_reducible apply Completes.of
    | with_reducible apply State.setTimeValid_keeps
    | with_reducible apply State.updPtp_keeps
    | with_reducible apply Keeps.ite
    | fail_if_no_progress (with_reducible refine Keeps.lit ?_ rfl id (fun _ => trivial))
    | ((try lift_lets); intro x)
    | with_reducible apply forAll_keeps
    | with_reducible apply Keeps.foldl
    | split
    )

theorem execSyncTimeout_keeps : Completes s (execSyncTimeout s) := by
  have h : Keeps Counters.any s s := .refl s
  unfold execSyncTimeout
  repeat' (first
    | with_reducible assumption
    | with_reducible apply Completes.of
    | with_reducible apply State.setTimeValid_keeps
    | with_reducible apply State.updPtp_keeps
    | with_reducible apply Keeps.ite
    | fail_if_no_progress (with_reducible refine Keeps.lit ?_ rfl id (fun _ => trivial))
    | ((try lift_lets); intro x)
    | with_reducible apply forAll_keeps
    | with_reducible apply Keeps.foldl
    | split
    )

theorem execAnnounceTimeout_keeps : Completes s (execAnnounceTimeout s) := by
  have h : Keeps Counters.any s s := .refl s
  unfold execAnnounceTimeout
  repeat' (first
    | with_reducible assumption
    | with_reducible apply Completes.of
    | with_reducible apply State.count_keeps
    | with_reducible apply State.updPtp_keeps
    | with_reducible apply State.setTimeValid_keeps
    | with_reducible apply State.becomeMaster_keeps
    | with_reducible apply Keeps.ite
    | fail_if_no_progress (with_reducible refine Keeps.lit ?_ rfl id (fun _ => trivial))
    | ((try lift_lets); intro x)
    | with_reducible apply forAll_keeps
    | with_reducible apply Keeps.foldl
    | split
    )

theorem execSyncSend_keeps : ∀ a0, Completes s (execSyncSend a0 s) := by
  intro a0
  have h : Keeps Counters.any s s := .refl s
  unfold execSyncSend
  repeat' (first
    | with_reducible assumption
    | with_reducible apply State.ptpSend_keeps
    | with_reducible apply Completes.of
    | with_reducible apply State.netSend_keeps
    | with_reducible apply State.updPtp_keeps
    | with_reducible apply Keeps.ite
    | fail_if_no_progress (with_reducible refine Keeps.lit ?_ rfl id (fun _ => trivial))
    | ((try lift_lets); intro x)
    | with_reducible apply forAll_keeps
    | with_reducible apply Keeps.foldl
    | split
    )

theorem execAnnounceSend_keeps : Completes s (execAnnounceSend s) := by
  have h : Keeps Counters.any s s := .refl s
  unfold execAnnounceSend
  repeat' (first
    | with_reducible assumption
    | with_reducible apply State.ptpSend_keeps
    | with_reducible apply Completes.of
    | with_reducible apply State.netSend_keeps
    | with_reducible apply State.updPtp_keeps
    | with_reducible apply Keeps.ite
    | fail_if_no_progress (with_reducible refine Keeps.lit ?_ rfl id (fun _ => trivial))
    | ((try lift_lets); intro x)
    | with_reducible apply forAll_keeps
    | with_reducible apply Keeps.foldl
    | split
    )

theorem execDelayReqSend_keeps : ∀ a0, Completes s (execDelayReqSend a0 s) := by
  intro a0
  have h : Keeps Counters.any s s := .refl s
  unfold execDelayReqSend
  repeat' (first
    | with_reducible assumption
    | with_reducible apply Completes.of
    | with_reducible apply State.ptpReq_keeps
    | with_reducible apply Keeps.ite
    | fail_if_no_progress (with_reducible refine Keeps.lit ?_ rfl id (fun _ => trivial))
    | ((try lift_lets); intro x)
    | with_reducible apply forAll_keeps
    | with_reducible apply Keeps.foldl
    | split
    )

theorem State.writePtpCtrl_keeps : ∀ a1, Keeps P s0 s → Keeps P s0 (State.writePtpCtrl s a1) := by
  intro a1 h
  unfold State.writePtpCtrl
  repeat' (first
    | with_reducible assumption
    | with_reducible apply State.nextly_keeps
    | with_reducible apply State.ptpRecognised_keeps
    | with_reducible apply State.setReg_keeps
    | with_reducible apply State.setTimeValid_keeps
    | with_reducible apply State.updPtp_keeps
    | with_reducible apply State.joinGroup_keeps
    | with_reducible apply Keeps.ite
    | fail_if_no_progress (with_reducible refine Keeps.lit ?_ rfl id id)
    | ((try lift_lets); intro x)
    | with_reducible apply forAll_keeps
    | with_reducible apply Keeps.foldl
    | split
    )

theorem State.writeTsetGo_keeps : ∀ a1, Keeps P s0 s → Keeps P s0 (State.writeTsetGo s a1) := by
  intro a1 h
  unfold State.writeTsetGo
  repeat' (first
    | with_reducible assumption
    | with_reducible apply State.updPtp_keeps
    | with_reducible apply Keeps.ite
    | fail_if_no_progress (with_reducible refine Keeps.lit ?_ rfl id id)
    )

theorem execTsetGo_keeps : ∀ a0, Completes s (execTsetGo a0 s) := by
  intro a0
  have h : Keeps Counters.any s s := .refl s
  unfold execTsetGo
  repeat' (first
    | with_reducible assumption
    | with_reducible apply Completes.of
    | with_reducible apply State.writeTsetGo_keeps
    )

theorem State.latchSec_keeps : ∀ lo hi sec, Keeps P s0 s → Keeps P s0 (s.latchSec lo hi sec) := fun _ _ _ h =>
  h.latch fun w => mwf_mset (mwf_mset w)

theorem State.readTimeNs_keeps : ∀ a1, Keeps P s0 s → Keeps P s0 (State.readTimeNs s a1).2 := by
  intro a1 h
  unfold State.readTimeNs
  repeat' (first
    | with_reducible assumption
    | with_reducible apply State.latchSec_keeps
    | fail_if_no_progress (with_reducible refine Keeps.lit ?_ rfl id id)
    | ((try lift_lets); intro x)
    | with_reducible apply Keeps.ite
    | with_reducible apply forAll_keeps
    | with_reducible apply Keeps.foldl
    | split
    )

theorem State.answer_keeps : ∀ a1, Keeps P s0 s → Keeps P s0 (State.answer s a1) := by
  intro a1 h
  unfold State.answer
  repeat' (first
    | with_reducible assumption
    | fail_if_no_progress (with_reducible refine Keeps.lit ?_ rfl id id)
    | ((try lift_lets); intro x)
    | with_reducible apply Keeps.ite
    | with_reducible apply forAll_keeps
    | with_reducible apply Keeps.foldl
    | split
    )

theorem execTimeNsRead_keeps : ∀ a0, Completes s (execTimeNsRead a0 s) := by
  intro a0
  have h : Keeps Counters.any s s := .refl s
  unfold execTimeNsRead
  repeat' (first
    | with_reducible assumption
    | with_reducible apply Completes.of
    | with_reducible apply State.readTimeNs_keeps
    | with_reducible apply State.answer_keeps
    | fail_if_no_progress (with_reducible refine Keeps.lit ?_ rfl id (fun _ => trivial))
    | ((try lift_lets); intro x)
    | with_reducible apply Keeps.ite
    | with_reducible apply forAll_keeps
    | with_reducible apply Keeps.foldl
    | split
    )

theorem execCaptureEdge_keeps : ∀ a0 a1 a2, Completes s (execCaptureEdge a0 a1 a2 s) := by
  intro a0 a1 a2
  have h : Keeps Counters.any s s := .refl s
  unfold execCaptureEdge
  repeat' (first
    | with_reducible assumption
    | with_reducible apply Completes.of
    | with_reducible apply State.setFlag_keeps
    | with_reducible apply State.setReg_keeps
    | with_reducible apply Keeps.ite
    | fail_if_no_progress (with_reducible refine Keeps.lit ?_ rfl id (fun _ => trivial))
    | ((try lift_lets); intro x)
    | with_reducible apply forAll_keeps
    | with_reducible apply Keeps.foldl
    | split
    )

theorem State.readCapNs_keeps : ∀ a1, Keeps P s0 s → Keeps P s0 (State.readCapNs s a1).2 := by
  intro a1 h
  unfold State.readCapNs
  repeat' (first
    | with_reducible assumption
    | with_reducible apply State.setFlag_keeps
    | with_reducible apply State.latchSec_keeps
    | fail_if_no_progress (with_reducible refine Keeps.lit ?_ rfl id id)
    | ((try lift_lets); intro x)
    | with_reducible apply Keeps.ite
    | with_reducible apply forAll_keeps
    | with_reducible apply Keeps.foldl
    | split
    )

theorem execCapNsRead_keeps : ∀ a0, Completes s (execCapNsRead a0 s) := by
  intro a0
  have h : Keeps Counters.any s s := .refl s
  unfold execCapNsRead
  repeat' (first
    | with_reducible assumption
    | with_reducible apply Completes.of
    | with_reducible apply State.readCapNs_keeps
    | with_reducible apply State.answer_keeps
    | fail_if_no_progress (with_reducible refine Keeps.lit ?_ rfl id (fun _ => trivial))
    | ((try lift_lets); intro x)
    | with_reducible apply Keeps.ite
    | with_reducible apply forAll_keeps
    | with_reducible apply Keeps.foldl
    | split
    )

theorem execIgmpQuery_keeps : ∀ a0 a1 a2, Completes s (execIgmpQuery a0 a1 a2 s) := fun _ _ _ =>
  .of (State.rxFrom_keeps (fun _ h => Keeps.ite (Keeps.lit h rfl id id) h) _ (.refl s))

theorem execArpRequest_keeps : ∀ a0 a1, Completes s (execArpRequest a0 a1 s) := fun _ _ =>
  .of (State.rxFrom_keeps (fun _ h => Keeps.ite (State.netSend_keeps _ _ h) h) _ (.refl s))

theorem execEchoRequest_keeps : ∀ a0 a1, Completes s (execEchoRequest a0 a1 s) := fun _ _ =>
  .of (State.rxFrom_keeps (fun _ h => Keeps.ite (State.netSend_keeps _ _ h) h) _ (.refl s))

theorem execStreamPacket_keeps : ∀ a0 a1 a2, Completes s (execStreamPacket a0 a1 a2 s) := by
  intro a0 a1 a2
  have h : Keeps Counters.any s s := .refl s
  unfold execStreamPacket
  repeat' (first
    | with_reducible assumption
    | with_reducible apply State.rxFrom_keeps
    | with_reducible apply Completes.of
    | with_reducible apply State.streamPacket_keeps
    | fail_if_no_progress (with_reducible refine Keeps.lit ?_ rfl id (fun _ => trivial))
    | ((try lift_lets); intro x)
    | with_reducible apply Keeps.ite
    | with_reducible apply forAll_keeps
    | with_reducible apply Keeps.foldl
    | split
    )

theorem execStreamRamp_keeps : ∀ a0, Completes s (execStreamRamp a0 s) := by
  intro a0
  have h : Keeps Counters.any s s := .refl s
  unfold execStreamRamp
  repeat' (first
    | with_reducible assumption
    | with_reducible apply Completes.of
    | with_reducible apply State.setRxs_keeps
    )

theorem execSupervisionFrame_keeps : Completes s (execSupervisionFrame s) := by
  have h : Keeps Counters.any s s := .refl s
  unfold execSupervisionFrame
  repeat' (first
    | with_reducible assumption
    | with_reducible apply Completes.of
    | with_reducible apply State.netSend_keeps
    | with_reducible apply Keeps.ite
    | fail_if_no_progress (with_reducible refine Keeps.lit ?_ rfl id (fun _ => trivial))
    )

theorem execNodeEntryExpiry_keeps : ∀ a0, Completes s (execNodeEntryExpiry a0 s) := by
  intro a0
  have h : Keeps Counters.any s s := .refl s
  unfold execNodeEntryExpiry
  repeat' (first
    | with_reducible assumption
    | with_reducible apply Completes.of
    | fail_if_no_progress (with_reducible refine Keeps.lit ?_ rfl id (fun _ => trivial))
    )

end Sys2Proof.Machine
end

