-- ==== Sys2Proof/Laws/KeepsGraphOps.lean ====
section
/-!
SUPPORT. What the operations of GraphOps keep.
-/

namespace Sys2Proof.Machine

variable {P : Counters → Prop} {s0 s : State}

theorem State.setParam_keeps : ∀ a1 a2 a3, Keeps P s0 s → Keeps P s0 (State.setParam s a1 a2 a3) := by
  intro a1 a2 a3 h
  unfold State.setParam
  repeat' (first
    | with_reducible assumption
    | with_reducible apply State.wr32_keeps
    | with_reducible apply Keeps.ite
    )

theorem State.rawWrite_keeps : ∀ a1 a2 a3 a4, Keeps P s0 s → Keeps P s0 (State.rawWrite s a1 a2 a3 a4).2 := by
  intro a1 a2 a3 a4 h
  unfold State.rawWrite
  repeat' (first
    | with_reducible assumption
    | ((try lift_lets); intro x)
    | with_reducible apply State.event_keeps
    | with_reducible apply State.setCluster_keeps
    | split
    )

theorem State.rawLater_keeps : ∀ a1 a2 a3 a4 a5, Keeps P s0 s → Keeps P s0 (State.rawLater s a1 a2 a3 a4 a5) := by
  intro a1 a2 a3 a4 a5 h
  unfold State.rawLater
  repeat' (first
    | with_reducible assumption
    | fail_if_no_progress (with_reducible refine Keeps.lit ?_ rfl id id)
    )

theorem State.rawsDue_keeps : Keeps P s0 s → Keeps P s0 (State.rawsDue s) := by
  intro h
  unfold State.rawsDue
  repeat' (first
    | with_reducible assumption
    | ((try lift_lets); intro x)
    | with_reducible apply State.rawWrite_keeps
    | with_reducible apply Keeps.ite
    | with_reducible apply Keeps.foldl
    | fail_if_no_progress (with_reducible refine Keeps.lit ?_ rfl id id)
    )

theorem State.moveParam_keeps : ∀ a1 a2 a3, Keeps P s0 s → Keeps P s0 (State.moveParam s a1 a2 a3) := by
  intro a1 a2 a3 h
  unfold State.moveParam
  repeat' (first
    | with_reducible assumption
    | ((try lift_lets); intro x)
    | with_reducible apply State.setCluster_keeps
    | with_reducible apply State.setParam_keeps
    | with_reducible apply Keeps.ite
    | fail_if_no_progress (with_reducible refine Keeps.lit ?_ rfl id id)
    )

theorem State.rampWrites_keeps : ∀ a1, Keeps P s0 s → Keeps P s0 (State.rampWrites s a1) := by
  intro a1 h
  unfold State.rampWrites
  repeat' (first
    | with_reducible assumption
    | with_reducible apply State.moveParam_keeps
    | ((try lift_lets); intro x)
    | with_reducible apply State.setParam_keeps
    | with_reducible apply State.setCluster_keeps
    | with_reducible apply Keeps.foldl
    | split
    )

theorem State.startRamp_keeps : ∀ inst k v len, Keeps P s0 s → Keeps P s0 (s.startRamp inst k v len) := by
  intro inst k v len h
  unfold State.startRamp
  split
  · exact h
  · refine Keeps.ite (State.moveParam_keeps _ _ _ (State.setCluster_keeps _ _ h)) (State.setCluster_keeps _ _ ?_)
    refine Keeps.ite ?_ h
    split
    · refine State.event_keeps _ _ _ _ _ _ ?_
      split
      · exact State.moveParam_keeps _ _ _ h
      · exact h
    · exact h

theorem State.queueWrites_keeps : ∀ a1, Keeps P s0 s → Keeps P s0 (State.queueWrites s a1) := by
  intro a1 h
  unfold State.queueWrites
  repeat' (first
    | with_reducible assumption
    | ((try lift_lets); intro x; with_reducible refine Keeps.cut (P := P) (s0 := s0) x ?_ ?_ <;> [(unfold x; clear x); (intro hx; clear_value x)])
    | ((try lift_lets); intro x)
    | with_reducible apply State.setCluster_keeps
    | with_reducible apply State.setParam_keeps
    | with_reducible apply State.journal_keeps
    | with_reducible apply Keeps.foldl
    | split
    )

theorem State.readWord3_keeps : ∀ a1, Keeps P s0 s → Keeps P s0 (State.readWord3 s a1).2 := by
  intro a1 h
  unfold State.readWord3
  dsimp only
  split
  · exact State.readWord_keeps _ h
  · exact State.readWord_keeps _ (State.readWord_keeps _ h)

theorem State.exchangeRead_keeps : ∀ a1 a2, Keeps P s0 s → Keeps P s0 (State.exchangeRead s a1 a2).2 := by
  intro a1 a2 h
  unfold State.exchangeRead
  repeat' (first
    | with_reducible assumption
    | with_reducible apply State.readWord_keeps
    | with_reducible apply State.readWord3_keeps
    | with_reducible refine Keeps.snd (by assumption) ?_
    | split
    )

theorem State.moveElem_keeps : ∀ a1 a2 a3 a4, Keeps P s0 s → Keeps P s0 (State.moveElem s a1 a2 a3 a4).2 := by
  intro a1 a2 a3 a4 h
  unfold State.moveElem
  repeat' (first
    | with_reducible assumption
    | with_reducible apply State.exchangeRead_keeps
    | with_reducible apply State.wrBytes_keeps
    | with_reducible apply State.wr32_keeps
    | with_reducible apply Keeps.ite
    | with_reducible apply Keeps.iteSnd
    )

theorem State.noteOut_keeps : ∀ a1 a2, Keeps P s0 s → Keeps P s0 (State.noteOut s a1 a2) := by
  intro a1 a2 h
  unfold State.noteOut
  repeat' (first
    | with_reducible assumption
    | fail_if_no_progress (with_reducible refine Keeps.lit ?_ rfl id id)
    | split
    )

theorem State.digestWord_keeps : ∀ a1 a2, Keeps P s0 s → Keeps P s0 (State.digestWord s a1 a2) := by
  intro a1 a2 h
  unfold State.digestWord
  repeat' (first
    | with_reducible assumption
    | with_reducible apply Keeps.ite
    | fail_if_no_progress (with_reducible refine Keeps.lit ?_ rfl id id)
    )

theorem State.runDesc_keeps : ∀ a1 a2 a3 a4, Keeps P s0 s → Keeps P s0 (State.runDesc s a1 a2 a3 a4) := by
  intro a1 a2 a3 a4 h
  unfold State.runDesc
  repeat' (first
    | with_reducible assumption
    | ((try lift_lets); intro x)
    | with_reducible apply State.wrBytes_keeps
    | with_reducible apply State.wr32_keeps
    | with_reducible apply State.moveElem_keeps
    | with_reducible apply State.digestWord_keeps
    | with_reducible apply State.noteOut_keeps
    | with_reducible apply State.raise_keeps
    | with_reducible apply Keeps.ite
    | with_reducible apply Keeps.foldl
    | with_reducible apply Keeps.iteSnd
    )

theorem State.zeroDesc_keeps : ∀ a1 a2, Keeps P s0 s → Keeps P s0 (State.zeroDesc s a1 a2) := by
  intro a1 a2 h
  unfold State.zeroDesc
  repeat' (first
    | with_reducible assumption
    | ((try lift_lets); intro x)
    | with_reducible apply State.wrBytes_keeps
    | with_reducible apply State.wr32_keeps
    | with_reducible apply Keeps.ite
    | with_reducible apply Keeps.foldl
    )

theorem State.exchangeEnd_keeps : ∀ a1, Keeps P s0 s → Keeps P s0 (State.exchangeEnd s a1) := by
  intro a1 h
  unfold State.exchangeEnd
  repeat' (first
    | with_reducible assumption
    | ((try lift_lets); intro x)
    | with_reducible apply State.zeroDesc_keeps
    | with_reducible apply State.detect_keeps
    | with_reducible apply Keeps.ite
    | with_reducible apply Keeps.foldl
    )

end Sys2Proof.Machine
end

