-- ==== Sys2Proof/Laws/KeepsNodeExec.lean ====
section
/-!
SUPPORT. What the operations of NodeExec keep.
-/

namespace Sys2Proof.Machine

variable {P : Counters → Prop} {s0 s : State}

theorem State.setNodeSt_keeps : ∀ i x, Keeps P s0 s → Keeps P s0 (s.setNodeSt i x) := fun _ _ h =>
  h.trans ⟨rfl, fun c => ⟨c.1, c.2, c.3, c.4, c.5, c.6, mwf_mset c.7, c.8, c.9, c.10, c.11⟩, fun w => ⟨w, .refl _⟩, Nat.le_refl _, id⟩

theorem State.clipSample_keeps : ∀ a1 a2 a3, Keeps P s0 s → Keeps P s0 (State.clipSample s a1 a2 a3).2 := by
  intro a1 a2 a3 h
  unfold State.clipSample
  repeat' (first
    | with_reducible assumption
    | with_reducible apply State.readWord_keeps
    | with_reducible apply State.readWord3_keeps
    | with_reducible apply Keeps.iteSnd
    )

theorem State.clipRun_keeps : ∀ r x, Keeps P s0 s → Keeps P s0 (s.clipRun r x).2.2 := by
  intro r x h
  unfold State.clipRun
  dsimp only
  split
  · exact h
  · refine Keeps.iteThird h (Keeps.iteThird h ?_)
    refine Keeps.foldlSnd h fun b hb e => ?_
    split
    · exact hb
    · exact State.clipSample_keeps _ _ _ hb

theorem State.recFlush_keeps : ∀ a1 a2 a3, Keeps P s0 s → Keeps P s0 (State.recFlush s a1 a2 a3).2 := by
  intro a1 a2 a3 h
  unfold State.recFlush
  repeat' (first
    | with_reducible assumption
    | ((try lift_lets); intro x; with_reducible refine Keeps.cut (P := P) (s0 := s0) x ?_ ?_ <;> [(unfold x; clear x); (intro hx; clear_value x)])
    | ((try lift_lets); intro x)
    | with_reducible apply State.wr32_keeps
    | with_reducible apply State.wrBytes_keeps
    | with_reducible apply Keeps.foldl
    | split
    )

theorem State.meterSample_keeps : ∀ a1, Keeps P s0 s → Keeps P s0 (State.meterSample s a1) := by
  intro a1 h
  unfold State.meterSample
  repeat' (first
    | with_reducible assumption
    | ((try lift_lets); intro x)
    | with_reducible apply State.monSample_keeps
    | with_reducible apply Keeps.ite
    | with_reducible apply Keeps.foldl
    )

theorem State.recArm_keeps : ∀ a1 a2 a3 a4, Keeps P s0 s → Keeps P s0 (State.recArm s a1 a2 a3 a4) := by
  intro a1 a2 a3 a4 h
  unfold State.recArm
  repeat' (first
    | with_reducible assumption
    | with_reducible apply State.setNodeSt_keeps
    | with_reducible apply State.wrBytes_keeps
    | split
    )

theorem State.bankTurn_keeps : ∀ a1, Keeps P s0 s → Keeps P s0 (State.bankTurn s a1).1 := by
  intro a1 h
  unfold State.bankTurn
  dsimp only
  split
  · exact State.wr32_keeps _ _ h
  · exact h

theorem State.typeEffect_keeps : ∀ r y v, Keeps P s0 s → Keeps P s0 (State.typeEffect s r y v) := by
  intro r y v h
  unfold State.typeEffect
  repeat' (first
    | with_reducible assumption
    | ((try lift_lets); intro x)
    | with_reducible apply State.setNodeSt_keeps
    | with_reducible apply State.recFlush_keeps
    | with_reducible apply State.recArm_keeps
    | with_reducible apply State.meterSample_keeps
    | with_reducible apply State.wr32_keeps
    | with_reducible apply Keeps.foldl
    | split
    )

theorem State.handlerEffect_keeps : ∀ a1, Keeps P s0 s → Keeps P s0 (State.handlerEffect s a1) := by
  intro r h
  unfold State.handlerEffect
  extract_lets x t
  have ht : Keeps P s0 t := Keeps.ite h (State.setNodeSt_keeps _ _ (Keeps.foldl h fun s hs g => State.wr32_keeps _ _ hs))
  clear_value t
  split
  · exact ht
  · next l _ =>
    extract_lets val y
    refine Keeps.ite (State.typeEffect_keeps _ _ _ ht) ?_
    have h1 := State.bankTurn_keeps r ht
    generalize t.bankTurn r = q at h1 ⊢
    obtain ⟨u, b⟩ := q
    exact Keeps.ite (State.setNodeSt_keeps _ _ h1) (State.setNodeSt_keeps _ _ h1)

theorem State.handlerRead_keeps : ∀ n a1, Keeps P s0 s → Keeps P s0 (State.handlerRead s n a1) := by
  intro n r h
  unfold State.handlerRead
  extract_lets x cur l j now t b val at_ u
  have ht : Keeps P s0 t := State.setNodeSt_keeps _ _ h
  have hu : Keeps P s0 u := Keeps.foldl ht fun s hs w => State.wr32_keeps _ _ hs
  exact Keeps.ite (State.setNodeSt_keeps _ _ h) (Keeps.ite ht (State.wr32_keeps _ _ hu))

theorem State.handlersTurn_keeps : Keeps P s0 s → Keeps P s0 s.handlersTurn := by
  intro h
  unfold State.handlersTurn
  exact Keeps.foldl h fun s hs r => Keeps.ite (State.handlerEffect_keeps _ hs) hs

theorem State.releaseOf_keeps : ∀ a1 a2 a3, Keeps P s0 s → Keeps P s0 (State.releaseOf s a1 a2 a3) := fun n _ _ h =>
  Keeps.ite h (State.setTile_keeps _ _ (fun c => ⟨(Keeps.tileOf h c n).smp, (Keeps.tileOf h c n).ctl⟩) h)

theorem State.releaseRuns_keeps : ∀ a1 a2, Keeps P s0 s → Keeps P s0 (State.releaseRuns s a1 a2) := fun n a h =>
  State.releaseOf_keeps n a _ h

theorem State.libRuns_keeps (n : Nat) : ∀ l, ∀ {s : State}, Keeps P s0 s → Keeps P s0 (State.libRuns n l s) := by
  intro l
  induction l with
  | nil => intro s h; exact h
  | cons r rest ih =>
    intro s h
    have h1 : ∀ c e, Keeps P s0 (s.setTile n { s.tile n with runs := rest, ctlCyc := (s.tile n).ctlCyc + c + e }) := fun _ _ =>
      State.setTile_keeps _ _ (fun c => ⟨(Keeps.tileOf h c n).smp, (Keeps.tileOf h c n).ctl⟩) h
    unfold State.libRuns
    dsimp only
    split
    · exact ih (State.setTile_keeps _ _ (fun c => ⟨(Keeps.tileOf h c n).smp, (Keeps.tileOf h c n).ctl⟩) h)
    · refine Keeps.ite (State.setTile_keeps _ _ (fun c => ⟨(Keeps.tileOf h c n).smp, (Keeps.tileOf h c n).ctl⟩) h) (ih (State.monitor_keeps _ _ _ (Keeps.ite ?_ ?_)))
      · exact h1 _ _
      · exact State.handlerRead_keeps _ _ (h1 _ _)

theorem State.libControl_keeps : ∀ a1, Keeps P s0 s → Keeps P s0 (State.libControl s a1) := by
  intro n h
  unfold State.libControl
  have h1 : Keeps P s0 (s.setTile n { s.tile n with ctlCyc := 0 }) := State.setTile_keeps _ _ (fun c => ⟨(Keeps.tileOf h c n).smp, (Keeps.tileOf h c n).ctl⟩) h
  have h2 := State.releaseRuns_keeps n 0 h1
  exact Keeps.ite h2 (State.libRuns_keeps n _ h2)

theorem State.nodeClear_keeps : ∀ a1 a2, Keeps P s0 s → Keeps P s0 (State.nodeClear s a1 a2) := by
  intro a1 a2 h
  unfold State.nodeClear
  repeat' (first
    | with_reducible assumption
    | with_reducible apply State.setNodeSt_keeps
    )

theorem State.loadLearned_keeps : ∀ a1, Keeps P s0 s → Keeps P s0 (State.loadLearned s a1) := by
  intro a1 h
  unfold State.loadLearned
  exact Keeps.ite h (State.wr32_keeps _ _ h)

end Sys2Proof.Machine
end

