-- ==== Sys2Proof/Laws/KeepsTileOps.lean ====
section
/-!
SUPPORT. What the operations of TileOps keep.
-/

namespace Sys2Proof.Machine

variable {P : Counters → Prop} {s0 s : State}

theorem State.openBundle_keeps : ∀ a1, Keeps P s0 s → Keeps P s0 (State.openBundle s a1) := by
  intro a1 h
  unfold State.openBundle
  repeat' (first
    | with_reducible assumption
    | exact fun c => ⟨(Keeps.tileOf (by assumption) c _).smp, (Keeps.tileOf (by assumption) c _).ctl⟩
    | exact fun c => (Keeps.tileOf (by assumption) c _).openBundle
    | ((try lift_lets); intro x; with_reducible refine Keeps.cut (P := P) (s0 := s0) x ?_ ?_ <;> [(unfold x; clear x); (intro hx; clear_value x)])
    | ((try lift_lets); intro x)
    | with_reducible apply forAll_keeps
    | with_reducible apply State.setTile_keeps
    | with_reducible apply Keeps.ite
    )

theorem State.excReport_keeps : ∀ a1 a2 a3 a4 a5, Keeps P s0 s → Keeps P s0 (State.excReport s a1 a2 a3 a4 a5) := by
  intro a1 a2 a3 a4 a5 h
  unfold State.excReport
  repeat' (first
    | with_reducible assumption
    | with_reducible apply State.raiseInj_keeps
    | with_reducible apply State.raise_keeps
    | with_reducible apply Keeps.ite
    )

theorem State.excEcc_keeps : ∀ a1 a2 a3, Keeps P s0 s → Keeps P s0 (State.excEcc s a1 a2 a3) := by
  intro a1 a2 a3 h
  unfold State.excEcc
  repeat' (first
    | with_reducible assumption
    | ((try lift_lets); intro x)
    | with_reducible apply forAll_keeps
    | with_reducible apply State.ueAction_keeps
    | with_reducible apply State.eccSeen_keeps
    | with_reducible apply Keeps.ite
    )

theorem State.tileExc_keeps : ∀ a1 a2 a3 a4 a5, Keeps P s0 s → Keeps P s0 (State.tileExc s a1 a2 a3 a4 a5) := by
  intro a1 a2 a3 a4 a5 h
  unfold State.tileExc
  repeat' (first
    | with_reducible assumption
    | exact fun c => ⟨(Keeps.tileOf (by assumption) c _).smp, (Keeps.tileOf (by assumption) c _).ctl⟩
    | ((try lift_lets); intro x)
    | with_reducible apply State.stopTile_keeps
    | with_reducible apply State.setTile_keeps
    | with_reducible apply State.setCluster_keeps
    | with_reducible apply State.excEcc_keeps
    | with_reducible apply State.excReport_keeps
    | with_reducible apply Keeps.foldl
    )

theorem State.releaseNow_keeps : ∀ a1, Keeps P s0 s → Keeps P s0 (State.releaseNow s a1) := by
  intro n h
  unfold State.releaseNow
  exact Keeps.ite h (State.releaseRuns_keeps _ _ h)

theorem State.gangArrive_keeps : ∀ a1 a2, Keeps P s0 s → Keeps P s0 (State.gangArrive s a1 a2) := by
  intro a1 a2 h
  unfold State.gangArrive
  repeat' (first
    | with_reducible assumption
    | exact fun c => ⟨(Keeps.tileOf (by assumption) c _).smp, (Keeps.tileOf (by assumption) c _).ctl⟩
    | ((try lift_lets); intro x; with_reducible refine Keeps.cut (P := P) (s0 := s0) x ?_ ?_ <;> [(unfold x; clear x); (intro hx; clear_value x)])
    | ((try lift_lets); intro x)
    | with_reducible apply State.setTile_keeps
    | with_reducible apply State.setCluster_keeps
    | with_reducible apply Keeps.foldl
    | split
    )

theorem State.gangPass_keeps : ∀ a1 a2, Keeps P s0 s → Keeps P s0 (State.gangPass s a1 a2) := by
  intro a1 a2 h
  unfold State.gangPass
  repeat' (first
    | with_reducible assumption
    | exact fun c => ⟨(Keeps.tileOf (by assumption) c _).smp, (Keeps.tileOf (by assumption) c _).ctl⟩
    | ((try lift_lets); intro x)
    | with_reducible apply State.setCluster_keeps
    | with_reducible apply forAll_keeps
    | with_reducible apply State.setTile_keeps
    | with_reducible apply State.releaseNow_keeps
    | split
    )

theorem State.commitBundle_keeps : ∀ a1 a2 a3, Keeps P s0 s → Keeps P s0 (State.commitBundle s a1 a2 a3) := by
  intro a1 a2 a3 h
  unfold State.commitBundle
  repeat' (first
    | with_reducible assumption
    | exact fun c => ((Keeps.tileOf (by assumption) c _).setFlow _).spend _
    | exact fun c => (Keeps.tileOf (by assumption) c _).issued _ _ _ _ _ _ _ _
    | ((try lift_lets); intro x; with_reducible refine Keeps.cut (P := P) (s0 := s0) x ?_ ?_ <;> [(unfold x; clear x); (intro hx; clear_value x)])
    | ((try lift_lets); intro x)
    | with_reducible apply State.setTile_keeps
    | with_reducible apply State.disarm_keeps
    | with_reducible apply State.readWord_keeps
    | with_reducible apply State.wrBytes_keeps
    | with_reducible apply State.gangArrive_keeps
    | with_reducible apply State.meterSample_keeps
    | with_reducible apply State.gangPass_keeps
    | with_reducible apply Keeps.ite
    | with_reducible apply Keeps.foldl
    | split
    | (clear_value *; split)
    )

theorem State.fetchSeen_keeps : ∀ a1, Keeps P s0 s → Keeps P s0 (State.fetchSeen s a1) := by
  intro a1 h
  unfold State.fetchSeen
  exact forAll_keeps h fun s hs a => Keeps.ite (State.readWord_keeps _ hs) hs

theorem State.fuStall_keeps : ∀ a1, Keeps P s0 s → Keeps P s0 (State.fuStall s a1) := fun _ h =>
  Keeps.ite (Keeps.foldl h fun _ hs _ => State.setTile_keeps _ _ (fun c => (Keeps.tileOf hs c _).spend _) hs) h

theorem State.issueBundle_keeps : ∀ a1, Keeps P s0 s → Keeps P s0 (State.issueBundle s a1) := by
  intro a1 h
  unfold State.issueBundle
  repeat' (first
    | with_reducible assumption
    | with_reducible apply State.fuStall_keeps
    | ((try lift_lets); intro x)
    | with_reducible apply State.tileExc_keeps
    | with_reducible apply State.commitBundle_keeps
    | with_reducible apply State.fetchSeen_keeps
    | split
    | fail_if_no_progress (with_reducible refine Keeps.lit ?_ rfl id id)
    | with_reducible apply Keeps.ite
    | with_reducible apply forAll_keeps
    | with_reducible apply Keeps.foldl
    )

theorem State.slot_keeps : ∀ a1 a2 a3, Completes s (State.slot s a1 a2 a3) := by
  intro a1 a2 a3
  have h : Keeps Counters.any s s := .refl s
  unfold State.slot
  repeat' (first
    | with_reducible assumption
    | exact fun c => ⟨(Keeps.tileOf (by assumption) c _).smp, (Keeps.tileOf (by assumption) c _).ctl⟩
    | ((try lift_lets); intro x; with_reducible refine Keeps.cut (P := Counters.any) (s0 := s) x ?_ ?_ <;> [(unfold x; clear x); (intro hx; clear_value x)])
    | with_reducible apply Completes.of
    | with_reducible apply Completes.ite
    | with_reducible apply State.openBundle_keeps
    | with_reducible apply State.setTile_keeps
    | with_reducible apply State.issueBundle_keeps
    | with_reducible apply Keeps.ite
    )

theorem State.noSlot_keeps : ∀ a1 a2, Completes s (State.noSlot s a1 a2) := by
  intro a1 a2
  have h : Keeps Counters.any s s := .refl s
  unfold State.noSlot
  repeat' (first
    | with_reducible assumption
    | with_reducible apply Completes.of
    | with_reducible apply Completes.ite
    | with_reducible apply State.openBundle_keeps
    | with_reducible apply State.issueBundle_keeps
    | with_reducible apply Keeps.ite
    | fail_if_no_progress (with_reducible refine Keeps.lit ?_ rfl id (fun _ => trivial))
    | ((try lift_lets); intro x)
    | with_reducible apply forAll_keeps
    | with_reducible apply Keeps.foldl
    | split
    )

theorem Tile.Canonical.waited {t : Tile} (h : t.Canonical) (k : Nat) : (t.waited k).Canonical := ⟨h.smp, h.ctl⟩

theorem Tile.Canonical.atStrobe {t : Tile} (h : t.Canonical) (cyc : Nat) : (t.atStrobe cyc).Canonical := by
  unfold Tile.atStrobe
  extract_lets idle u
  have hu : u.Canonical := by
    unfold u
    split
    · exact h.waited _
    · exact h.waited _
    · exact h
  clear_value u
  split
  · exact hu
  · exact (hu.setBank (hu.bank.retire _ _)).setFlow _

theorem State.overrun_keeps : ∀ a1, Keeps P s0 s → Keeps P s0 (State.overrun s a1) := by
  intro n h
  unfold State.overrun
  have hs := State.setTile_keeps n ((s.tile n).atStrobe s.cyc) (fun c => (Keeps.tileOf h c n).atStrobe _) h
  exact Keeps.ite h (Keeps.ite (State.tileExc_keeps _ _ _ _ _ hs)
    (Keeps.ite (Keeps.ite h (State.tileExc_keeps _ _ _ _ _ hs)) h))

theorem State.clearState_keeps : ∀ a1, Keeps P s0 s → Keeps P s0 (State.clearState s a1) := by
  intro a1 h
  unfold State.clearState
  repeat' (first
    | with_reducible assumption
    | ((try lift_lets); intro x)
    | with_reducible apply State.zeroRange_keeps
    | with_reducible apply State.nodeClear_keeps
    | with_reducible apply Keeps.ite
    | with_reducible apply Keeps.foldl
    )

theorem State.wakeTile_keeps : ∀ a1, Keeps P s0 s → Keeps P s0 (State.wakeTile s a1) := by
  intro a1 h
  unfold State.wakeTile
  repeat' (first
    | with_reducible assumption
    | exact fun _ => ⟨.empty, .empty⟩
    | with_reducible apply State.setTile_keeps
    | with_reducible apply State.clearState_keeps
    )

theorem State.clearTile_keeps : ∀ a1, Keeps P s0 s → Keeps P s0 (State.clearTile s a1) := fun n h =>
  have hw := State.wakeTile_keeps n h
  State.setTile_keeps _ _ (fun c => ⟨(Keeps.tileOf hw c n).smp, (Keeps.tileOf hw c n).ctl⟩) hw

theorem State.startTile_keeps : ∀ a1 a2, Keeps P s0 s → Keeps P s0 (State.startTile s a1 a2) := by
  intro a1 a2 h
  unfold State.startTile
  repeat' (first
    | with_reducible assumption
    | exact fun c => ⟨(Keeps.tileOf (by assumption) c _).smp, (Keeps.tileOf (by assumption) c _).ctl⟩
    | with_reducible apply State.wr32_keeps
    | with_reducible apply State.setTile_keeps
    | fail_if_no_progress (with_reducible refine Keeps.lit ?_ rfl id id)
    | ((try lift_lets); intro x)
    | with_reducible apply Keeps.ite
    | with_reducible apply forAll_keeps
    | with_reducible apply Keeps.foldl
    | split
    )

theorem State.turnTile_keeps : ∀ a1 a2, Keeps P s0 s → Keeps P s0 (State.turnTile s a1 a2) := fun n e h =>
  Keeps.ite (State.setTile_keeps _ _ (fun c => ⟨(Keeps.tileOf h c n).smp, (Keeps.tileOf h c n).ctl⟩) h) (State.startTile_keeps n e h)

theorem State.restartTile_keeps : ∀ a1, Keeps P s0 s → Keeps P s0 (State.restartTile s a1) := by
  intro a1 h
  unfold State.restartTile
  repeat' (first
    | with_reducible assumption
    | exact fun c => ⟨(Keeps.tileOf (by assumption) c _).smp, (Keeps.tileOf (by assumption) c _).ctl⟩
    | ((try lift_lets); intro x; with_reducible refine Keeps.cut (P := P) (s0 := s0) x ?_ ?_ <;> [(unfold x; clear x); (intro hx; clear_value x)])
    | ((try lift_lets); intro x)
    | with_reducible apply State.clearTile_keeps
    | with_reducible apply State.setTile_keeps
    | with_reducible apply State.startTile_keeps
    )

theorem execRestart_keeps : ∀ a0, Completes s (execRestart a0 s) := by
  intro a0
  have h : Keeps Counters.any s s := .refl s
  unfold execRestart
  repeat' (first
    | with_reducible assumption
    | with_reducible apply Completes.of
    | with_reducible apply State.restartTile_keeps
    | with_reducible apply Keeps.ite
    )

theorem execControlSwitch_keeps : ∀ n spent, Completes s (execControlSwitch n spent s) := by
  intro n spent
  have h := Keeps.refl (P := Counters.any) s
  unfold execControlSwitch
  refine Completes.of (Keeps.ite h ?_)
  split
  · exact h
  · split
    · exact State.setTile_keeps _ _ (fun c => ⟨(h.tileOf c n).smp, (h.tileOf c n).ctl⟩) h
    · refine Keeps.ite (State.setTile_keeps _ _ (fun c => ⟨(h.tileOf c n).smp, (h.tileOf c n).ctl⟩) h)
        (State.monitor_keeps _ _ _ (State.setTile_keeps _ _ (fun c => ?_) h))
      have ht := h.tileOf c n
      refine Tile.Canonical.spend ⟨?_, ?_⟩ 1
      · split
        · exact ht.smp
        · exact ht.smp
      · refine Bank.Canonical.applyAll (f := id) ?_ _
        split
        · exact (ht.ctl.setLoops []).withMode 0
        · exact (ht.ctl.setLoops []).withMode 0

end Sys2Proof.Machine
end

