-- ==== Sys2Proof/Laws/KeepsTileAlu.lean ====
section
/-!
SUPPORT. What the operations of TileAlu keep.
-/

namespace Sys2Proof.Machine

variable {P : Counters → Prop} {s0 s : State}

theorem execNop_keeps : ∀ a0 a1, Completes s (execNop a0 a1 s) := by
  intro a0 a1
  have h : Keeps Counters.any s s := .refl s
  unfold execNop
  repeat' (first
    | with_reducible apply State.noSlot_keeps
    )

theorem execYield_keeps : ∀ a0 a1, Completes s (execYield a0 a1 s) := by
  intro a0 a1
  have h : Keeps Counters.any s s := .refl s
  unfold execYield
  repeat' (first
    | with_reducible apply State.slot_keeps
    )

theorem execCret_keeps : ∀ a0 a1, Completes s (execCret a0 a1 s) := by
  intro a0 a1
  have h : Keeps Counters.any s s := .refl s
  unfold execCret
  repeat' (first
    | with_reducible apply State.slot_keeps
    )

theorem execSetmodeImm_keeps : ∀ a0 a1 a2 a3, Completes s (execSetmodeImm a0 a1 a2 a3 s) := by
  intro a0 a1 a2 a3
  have h : Keeps Counters.any s s := .refl s
  unfold execSetmodeImm
  repeat' (first
    | with_reducible apply State.slot_keeps
    )

theorem execSetmodeS_keeps : ∀ a0 a1 a2, Completes s (execSetmodeS a0 a1 a2 s) := by
  intro a0 a1 a2
  have h : Keeps Counters.any s s := .refl s
  unfold execSetmodeS
  repeat' (first
    | with_reducible apply State.slot_keeps
    )

theorem execWaits_keeps : ∀ a0 a1 a2, Completes s (execWaits a0 a1 a2 s) := by
  intro a0 a1 a2
  have h : Keeps Counters.any s s := .refl s
  unfold execWaits
  repeat' (first
    | with_reducible apply State.slot_keeps
    )

theorem execGang_keeps : ∀ a0 a1 a2, Completes s (execGang a0 a1 a2 s) := by
  intro a0 a1 a2
  have h : Keeps Counters.any s s := .refl s
  unfold execGang
  repeat' (first
    | with_reducible apply State.slot_keeps
    )

theorem execAdd_keeps : ∀ a0 a1 a2 a3 a4 a5, Completes s (execAdd a0 a1 a2 a3 a4 a5 s) := by
  intro a0 a1 a2 a3 a4 a5
  have h : Keeps Counters.any s s := .refl s
  unfold execAdd
  repeat' (first
    | with_reducible apply State.slot_keeps
    )

theorem execSub_keeps : ∀ a0 a1 a2 a3 a4 a5, Completes s (execSub a0 a1 a2 a3 a4 a5 s) := by
  intro a0 a1 a2 a3 a4 a5
  have h : Keeps Counters.any s s := .refl s
  unfold execSub
  repeat' (first
    | with_reducible apply State.slot_keeps
    )

theorem execAnd_keeps : ∀ a0 a1 a2 a3 a4 a5, Completes s (execAnd a0 a1 a2 a3 a4 a5 s) := by
  intro a0 a1 a2 a3 a4 a5
  have h : Keeps Counters.any s s := .refl s
  unfold execAnd
  repeat' (first
    | with_reducible apply State.slot_keeps
    )

theorem execOr_keeps : ∀ a0 a1 a2 a3 a4 a5, Completes s (execOr a0 a1 a2 a3 a4 a5 s) := by
  intro a0 a1 a2 a3 a4 a5
  have h : Keeps Counters.any s s := .refl s
  unfold execOr
  repeat' (first
    | with_reducible apply State.slot_keeps
    )

theorem execXor_keeps : ∀ a0 a1 a2 a3 a4 a5, Completes s (execXor a0 a1 a2 a3 a4 a5 s) := by
  intro a0 a1 a2 a3 a4 a5
  have h : Keeps Counters.any s s := .refl s
  unfold execXor
  repeat' (first
    | with_reducible apply State.slot_keeps
    )

theorem execAndn_keeps : ∀ a0 a1 a2 a3 a4 a5, Completes s (execAndn a0 a1 a2 a3 a4 a5 s) := by
  intro a0 a1 a2 a3 a4 a5
  have h : Keeps Counters.any s s := .refl s
  unfold execAndn
  repeat' (first
    | with_reducible apply State.slot_keeps
    )

theorem execShl_keeps : ∀ a0 a1 a2 a3 a4 a5, Completes s (execShl a0 a1 a2 a3 a4 a5 s) := by
  intro a0 a1 a2 a3 a4 a5
  have h : Keeps Counters.any s s := .refl s
  unfold execShl
  repeat' (first
    | with_reducible apply State.slot_keeps
    )

theorem execShr_keeps : ∀ a0 a1 a2 a3 a4 a5, Completes s (execShr a0 a1 a2 a3 a4 a5 s) := by
  intro a0 a1 a2 a3 a4 a5
  have h : Keeps Counters.any s s := .refl s
  unfold execShr
  repeat' (first
    | with_reducible apply State.slot_keeps
    )

theorem execAsr_keeps : ∀ a0 a1 a2 a3 a4 a5, Completes s (execAsr a0 a1 a2 a3 a4 a5 s) := by
  intro a0 a1 a2 a3 a4 a5
  have h : Keeps Counters.any s s := .refl s
  unfold execAsr
  repeat' (first
    | with_reducible apply State.slot_keeps
    )

theorem execMin_keeps : ∀ a0 a1 a2 a3 a4 a5, Completes s (execMin a0 a1 a2 a3 a4 a5 s) := by
  intro a0 a1 a2 a3 a4 a5
  have h : Keeps Counters.any s s := .refl s
  unfold execMin
  repeat' (first
    | with_reducible apply State.slot_keeps
    )

theorem execMax_keeps : ∀ a0 a1 a2 a3 a4 a5, Completes s (execMax a0 a1 a2 a3 a4 a5 s) := by
  intro a0 a1 a2 a3 a4 a5
  have h : Keeps Counters.any s s := .refl s
  unfold execMax
  repeat' (first
    | with_reducible apply State.slot_keeps
    )

theorem execMinu_keeps : ∀ a0 a1 a2 a3 a4 a5, Completes s (execMinu a0 a1 a2 a3 a4 a5 s) := by
  intro a0 a1 a2 a3 a4 a5
  have h : Keeps Counters.any s s := .refl s
  unfold execMinu
  repeat' (first
    | with_reducible apply State.slot_keeps
    )

theorem execMaxu_keeps : ∀ a0 a1 a2 a3 a4 a5, Completes s (execMaxu a0 a1 a2 a3 a4 a5 s) := by
  intro a0 a1 a2 a3 a4 a5
  have h : Keeps Counters.any s s := .refl s
  unfold execMaxu
  repeat' (first
    | with_reducible apply State.slot_keeps
    )

theorem execMull_keeps : ∀ a0 a1 a2 a3 a4 a5, Completes s (execMull a0 a1 a2 a3 a4 a5 s) := by
  intro a0 a1 a2 a3 a4 a5
  have h : Keeps Counters.any s s := .refl s
  unfold execMull
  repeat' (first
    | with_reducible apply State.slot_keeps
    )

theorem execMulh_keeps : ∀ a0 a1 a2 a3 a4 a5, Completes s (execMulh a0 a1 a2 a3 a4 a5 s) := by
  intro a0 a1 a2 a3 a4 a5
  have h : Keeps Counters.any s s := .refl s
  unfold execMulh
  repeat' (first
    | with_reducible apply State.slot_keeps
    )

theorem execAbs_keeps : ∀ a0 a1 a2 a3 a4, Completes s (execAbs a0 a1 a2 a3 a4 s) := by
  intro a0 a1 a2 a3 a4
  have h : Keeps Counters.any s s := .refl s
  unfold execAbs
  repeat' (first
    | with_reducible apply State.slot_keeps
    )

theorem execNeg_keeps : ∀ a0 a1 a2 a3 a4, Completes s (execNeg a0 a1 a2 a3 a4 s) := by
  intro a0 a1 a2 a3 a4
  have h : Keeps Counters.any s s := .refl s
  unfold execNeg
  repeat' (first
    | with_reducible apply State.slot_keeps
    )

theorem execCls_keeps : ∀ a0 a1 a2 a3 a4, Completes s (execCls a0 a1 a2 a3 a4 s) := by
  intro a0 a1 a2 a3 a4
  have h : Keeps Counters.any s s := .refl s
  unfold execCls
  repeat' (first
    | with_reducible apply State.slot_keeps
    )

theorem execClz_keeps : ∀ a0 a1 a2 a3 a4, Completes s (execClz a0 a1 a2 a3 a4 s) := by
  intro a0 a1 a2 a3 a4
  have h : Keeps Counters.any s s := .refl s
  unfold execClz
  repeat' (first
    | with_reducible apply State.slot_keeps
    )

theorem execCmp_keeps : ∀ a0 a1 a2 a3, Completes s (execCmp a0 a1 a2 a3 s) := by
  intro a0 a1 a2 a3
  have h : Keeps Counters.any s s := .refl s
  unfold execCmp
  repeat' (first
    | with_reducible apply State.slot_keeps
    )

theorem execTst_keeps : ∀ a0 a1 a2 a3, Completes s (execTst a0 a1 a2 a3 s) := by
  intro a0 a1 a2 a3
  have h : Keeps Counters.any s s := .refl s
  unfold execTst
  repeat' (first
    | with_reducible apply State.slot_keeps
    )

theorem execAddsat_keeps : ∀ a0 a1 a2 a3 a4 a5, Completes s (execAddsat a0 a1 a2 a3 a4 a5 s) := by
  intro a0 a1 a2 a3 a4 a5
  have h : Keeps Counters.any s s := .refl s
  unfold execAddsat
  repeat' (first
    | with_reducible apply State.slot_keeps
    )

theorem execSubsat_keeps : ∀ a0 a1 a2 a3 a4 a5, Completes s (execSubsat a0 a1 a2 a3 a4 a5 s) := by
  intro a0 a1 a2 a3 a4 a5
  have h : Keeps Counters.any s s := .refl s
  unfold execSubsat
  repeat' (first
    | with_reducible apply State.slot_keeps
    )

theorem execAddi_keeps : ∀ a0 a1 a2 a3 a4, Completes s (execAddi a0 a1 a2 a3 a4 s) := by
  intro a0 a1 a2 a3 a4
  have h : Keeps Counters.any s s := .refl s
  unfold execAddi
  repeat' (first
    | with_reducible apply State.slot_keeps
    )

theorem execAndi_keeps : ∀ a0 a1 a2 a3 a4, Completes s (execAndi a0 a1 a2 a3 a4 s) := by
  intro a0 a1 a2 a3 a4
  have h : Keeps Counters.any s s := .refl s
  unfold execAndi
  repeat' (first
    | with_reducible apply State.slot_keeps
    )

theorem execOri_keeps : ∀ a0 a1 a2 a3 a4, Completes s (execOri a0 a1 a2 a3 a4 s) := by
  intro a0 a1 a2 a3 a4
  have h : Keeps Counters.any s s := .refl s
  unfold execOri
  repeat' (first
    | with_reducible apply State.slot_keeps
    )

theorem execXori_keeps : ∀ a0 a1 a2 a3 a4, Completes s (execXori a0 a1 a2 a3 a4 s) := by
  intro a0 a1 a2 a3 a4
  have h : Keeps Counters.any s s := .refl s
  unfold execXori
  repeat' (first
    | with_reducible apply State.slot_keeps
    )

theorem execShli_keeps : ∀ a0 a1 a2 a3 a4, Completes s (execShli a0 a1 a2 a3 a4 s) := by
  intro a0 a1 a2 a3 a4
  have h : Keeps Counters.any s s := .refl s
  unfold execShli
  repeat' (first
    | with_reducible apply State.slot_keeps
    )

theorem execShri_keeps : ∀ a0 a1 a2 a3 a4, Completes s (execShri a0 a1 a2 a3 a4 s) := by
  intro a0 a1 a2 a3 a4
  have h : Keeps Counters.any s s := .refl s
  unfold execShri
  repeat' (first
    | with_reducible apply State.slot_keeps
    )

theorem execAsri_keeps : ∀ a0 a1 a2 a3 a4, Completes s (execAsri a0 a1 a2 a3 a4 s) := by
  intro a0 a1 a2 a3 a4
  have h : Keeps Counters.any s s := .refl s
  unfold execAsri
  repeat' (first
    | with_reducible apply State.slot_keeps
    )

theorem execCmpi_keeps : ∀ a0 a1 a2 a3, Completes s (execCmpi a0 a1 a2 a3 s) := by
  intro a0 a1 a2 a3
  have h : Keeps Counters.any s s := .refl s
  unfold execCmpi
  repeat' (first
    | with_reducible apply State.slot_keeps
    )

theorem execMini_keeps : ∀ a0 a1 a2 a3 a4, Completes s (execMini a0 a1 a2 a3 a4 s) := by
  intro a0 a1 a2 a3 a4
  have h : Keeps Counters.any s s := .refl s
  unfold execMini
  repeat' (first
    | with_reducible apply State.slot_keeps
    )

theorem execMaxi_keeps : ∀ a0 a1 a2 a3 a4, Completes s (execMaxi a0 a1 a2 a3 a4 s) := by
  intro a0 a1 a2 a3 a4
  have h : Keeps Counters.any s s := .refl s
  unfold execMaxi
  repeat' (first
    | with_reducible apply State.slot_keeps
    )

theorem execLdi_keeps : ∀ a0 a1 a2 a3, Completes s (execLdi a0 a1 a2 a3 s) := by
  intro a0 a1 a2 a3
  have h : Keeps Counters.any s s := .refl s
  unfold execLdi
  repeat' (first
    | with_reducible apply State.slot_keeps
    )

theorem execLdih_keeps : ∀ a0 a1 a2 a3, Completes s (execLdih a0 a1 a2 a3 s) := by
  intro a0 a1 a2 a3
  have h : Keeps Counters.any s s := .refl s
  unfold execLdih
  repeat' (first
    | with_reducible apply State.slot_keeps
    )

theorem execMovx_keeps : ∀ a0 a1 a2 a3, Completes s (execMovx a0 a1 a2 a3 s) := by
  intro a0 a1 a2 a3
  have h : Keeps Counters.any s s := .refl s
  unfold execMovx
  repeat' (first
    | with_reducible apply State.slot_keeps
    )

theorem execB_keeps : ∀ a0 a1 a2 a3 a4, Completes s (execB a0 a1 a2 a3 a4 s) := by
  intro a0 a1 a2 a3 a4
  have h : Keeps Counters.any s s := .refl s
  unfold execB
  repeat' (first
    | with_reducible apply State.slot_keeps
    )

theorem execBal_keeps : ∀ a0 a1 a2 a3 a4, Completes s (execBal a0 a1 a2 a3 a4 s) := by
  intro a0 a1 a2 a3 a4
  have h : Keeps Counters.any s s := .refl s
  unfold execBal
  repeat' (first
    | with_reducible apply State.slot_keeps
    )

theorem execBr_keeps : ∀ a0 a1 a2 a3 a4, Completes s (execBr a0 a1 a2 a3 a4 s) := by
  intro a0 a1 a2 a3 a4
  have h : Keeps Counters.any s s := .refl s
  unfold execBr
  repeat' (first
    | with_reducible apply State.slot_keeps
    )

theorem execLoop_keeps : ∀ a0 a1 a2 a3, Completes s (execLoop a0 a1 a2 a3 s) := by
  intro a0 a1 a2 a3
  have h : Keeps Counters.any s s := .refl s
  unfold execLoop
  repeat' (first
    | with_reducible apply State.slot_keeps
    )

theorem execLoopi_keeps : ∀ a0 a1 a2 a3, Completes s (execLoopi a0 a1 a2 a3 s) := by
  intro a0 a1 a2 a3
  have h : Keeps Counters.any s s := .refl s
  unfold execLoopi
  repeat' (first
    | with_reducible apply State.slot_keeps
    )

theorem execRpt_keeps : ∀ a0 a1 a2, Completes s (execRpt a0 a1 a2 s) := by
  intro a0 a1 a2
  have h : Keeps Counters.any s s := .refl s
  unfold execRpt
  repeat' (first
    | with_reducible apply State.slot_keeps
    )

theorem execRcp_keeps : ∀ a0 a1 a2 a3, Completes s (execRcp a0 a1 a2 a3 s) := by
  intro a0 a1 a2 a3
  have h : Keeps Counters.any s s := .refl s
  unfold execRcp
  repeat' (first
    | with_reducible apply State.slot_keeps
    )

theorem execRsq_keeps : ∀ a0 a1 a2 a3, Completes s (execRsq a0 a1 a2 a3 s) := by
  intro a0 a1 a2 a3
  have h : Keeps Counters.any s s := .refl s
  unfold execRsq
  repeat' (first
    | with_reducible apply State.slot_keeps
    )

theorem execLog2_keeps : ∀ a0 a1 a2 a3, Completes s (execLog2 a0 a1 a2 a3 s) := by
  intro a0 a1 a2 a3
  have h : Keeps Counters.any s s := .refl s
  unfold execLog2
  repeat' (first
    | with_reducible apply State.slot_keeps
    )

theorem execExp2_keeps : ∀ a0 a1 a2 a3, Completes s (execExp2 a0 a1 a2 a3 s) := by
  intro a0 a1 a2 a3
  have h : Keeps Counters.any s s := .refl s
  unfold execExp2
  repeat' (first
    | with_reducible apply State.slot_keeps
    )

theorem execDiv_keeps : ∀ a0 a1 a2 a3 a4, Completes s (execDiv a0 a1 a2 a3 a4 s) := by
  intro a0 a1 a2 a3 a4
  have h : Keeps Counters.any s s := .refl s
  unfold execDiv
  repeat' (first
    | with_reducible apply State.slot_keeps
    )

end Sys2Proof.Machine
end

