-- ==== Sys2Proof/Laws/KeepsTileMem.lean ====
section
/-!
SUPPORT. What the operations of TileMem keep.
-/

namespace Sys2Proof.Machine

variable {P : Counters → Prop} {s0 s : State}

theorem execLds_keeps : ∀ a0 a1 a2 a3 a4 a5 a6, Completes s (execLds a0 a1 a2 a3 a4 a5 a6 s) := by
  intro a0 a1 a2 a3 a4 a5 a6
  have h : Keeps Counters.any s s := .refl s
  unfold execLds
  repeat' (first
    | with_reducible apply State.slot_keeps
    )

theorem execSts_keeps : ∀ a0 a1 a2 a3 a4 a5 a6, Completes s (execSts a0 a1 a2 a3 a4 a5 a6 s) := by
  intro a0 a1 a2 a3 a4 a5 a6
  have h : Keeps Counters.any s s := .refl s
  unfold execSts
  repeat' (first
    | with_reducible apply State.slot_keeps
    )

theorem execLdv_keeps : ∀ a0 a1 a2 a3 a4 a5, Completes s (execLdv a0 a1 a2 a3 a4 a5 s) := by
  intro a0 a1 a2 a3 a4 a5
  have h : Keeps Counters.any s s := .refl s
  unfold execLdv
  repeat' (first
    | with_reducible apply State.slot_keeps
    )

theorem execStv_keeps : ∀ a0 a1 a2 a3 a4 a5, Completes s (execStv a0 a1 a2 a3 a4 a5 s) := by
  intro a0 a1 a2 a3 a4 a5
  have h : Keeps Counters.any s s := .refl s
  unfold execStv
  repeat' (first
    | with_reducible apply State.slot_keeps
    )

theorem execLdb_keeps : ∀ a0 a1 a2 a3 a4 a5, Completes s (execLdb a0 a1 a2 a3 a4 a5 s) := by
  intro a0 a1 a2 a3 a4 a5
  have h : Keeps Counters.any s s := .refl s
  unfold execLdb
  repeat' (first
    | with_reducible apply State.slot_keeps
    )

theorem execLdl_keeps : ∀ a0 a1 a2 a3 a4 a5 a6 a7, Completes s (execLdl a0 a1 a2 a3 a4 a5 a6 a7 s) := by
  intro a0 a1 a2 a3 a4 a5 a6 a7
  have h : Keeps Counters.any s s := .refl s
  unfold execLdl
  repeat' (first
    | with_reducible apply State.slot_keeps
    )

theorem execStl_keeps : ∀ a0 a1 a2 a3 a4 a5 a6 a7, Completes s (execStl a0 a1 a2 a3 a4 a5 a6 a7 s) := by
  intro a0 a1 a2 a3 a4 a5 a6 a7
  have h : Keeps Counters.any s s := .refl s
  unfold execStl
  repeat' (first
    | with_reducible apply State.slot_keeps
    )

theorem execLdd_keeps : ∀ a0 a1 a2 a3 a4 a5 a6 a7, Completes s (execLdd a0 a1 a2 a3 a4 a5 a6 a7 s) := by
  intro a0 a1 a2 a3 a4 a5 a6 a7
  have h : Keeps Counters.any s s := .refl s
  unfold execLdd
  repeat' (first
    | with_reducible apply State.slot_keeps
    )

theorem execSta_keeps : ∀ a0 a1 a2 a3 a4 a5 a6, Completes s (execSta a0 a1 a2 a3 a4 a5 a6 s) := by
  intro a0 a1 a2 a3 a4 a5 a6
  have h : Keeps Counters.any s s := .refl s
  unfold execSta
  repeat' (first
    | with_reducible apply State.slot_keeps
    )

theorem execLea_keeps : ∀ a0 a1 a2 a3 a4, Completes s (execLea a0 a1 a2 a3 a4 s) := by
  intro a0 a1 a2 a3 a4
  have h : Keeps Counters.any s s := .refl s
  unfold execLea
  repeat' (first
    | with_reducible apply State.slot_keeps
    )

theorem execStepPtr_keeps : ∀ a0 a1 a2, Completes s (execStepPtr a0 a1 a2 s) := by
  intro a0 a1 a2
  have h : Keeps Counters.any s s := .refl s
  unfold execStepPtr
  repeat' (first
    | with_reducible apply State.slot_keeps
    )

end Sys2Proof.Machine
end

