-- ==== Sys2Proof/Laws/KeepsTileLane.lean ====
section
/-!
SUPPORT. What the operations of TileLane keep.
-/

namespace Sys2Proof.Machine

variable {P : Counters → Prop} {s0 s : State}

theorem execMul_keeps : ∀ a0 a1 a2 a3 a4 a5, Completes s (execMul a0 a1 a2 a3 a4 a5 s) := by
  intro a0 a1 a2 a3 a4 a5
  have h : Keeps Counters.any s s := .refl s
  unfold execMul
  repeat' (first
    | with_reducible apply State.slot_keeps
    )

theorem execMac_keeps : ∀ a0 a1 a2 a3 a4 a5, Completes s (execMac a0 a1 a2 a3 a4 a5 s) := by
  intro a0 a1 a2 a3 a4 a5
  have h : Keeps Counters.any s s := .refl s
  unfold execMac
  repeat' (first
    | with_reducible apply State.slot_keeps
    )

theorem execMsu_keeps : ∀ a0 a1 a2 a3 a4 a5, Completes s (execMsu a0 a1 a2 a3 a4 a5 s) := by
  intro a0 a1 a2 a3 a4 a5
  have h : Keeps Counters.any s s := .refl s
  unfold execMsu
  repeat' (first
    | with_reducible apply State.slot_keeps
    )

theorem execClr_keeps : ∀ a0 a1 a2, Completes s (execClr a0 a1 a2 s) := by
  intro a0 a1 a2
  have h : Keeps Counters.any s s := .refl s
  unfold execClr
  repeat' (first
    | with_reducible apply State.slot_keeps
    )

theorem execLda_keeps : ∀ a0 a1 a2 a3, Completes s (execLda a0 a1 a2 a3 s) := by
  intro a0 a1 a2 a3
  have h : Keeps Counters.any s s := .refl s
  unfold execLda
  repeat' (first
    | with_reducible apply State.slot_keeps
    )

theorem execAdda_keeps : ∀ a0 a1 a2 a3, Completes s (execAdda a0 a1 a2 a3 s) := by
  intro a0 a1 a2 a3
  have h : Keeps Counters.any s s := .refl s
  unfold execAdda
  repeat' (first
    | with_reducible apply State.slot_keeps
    )

theorem execSuba_keeps : ∀ a0 a1 a2 a3, Completes s (execSuba a0 a1 a2 a3 s) := by
  intro a0 a1 a2 a3
  have h : Keeps Counters.any s s := .refl s
  unfold execSuba
  repeat' (first
    | with_reducible apply State.slot_keeps
    )

theorem execSuma_keeps : ∀ a0 a1 a2, Completes s (execSuma a0 a1 a2 s) := by
  intro a0 a1 a2
  have h : Keeps Counters.any s s := .refl s
  unfold execSuma
  repeat' (first
    | with_reducible apply State.slot_keeps
    )

theorem execCvt_keeps : ∀ a0 a1 a2 a3 a4, Completes s (execCvt a0 a1 a2 a3 a4 s) := by
  intro a0 a1 a2 a3 a4
  have h : Keeps Counters.any s s := .refl s
  unfold execCvt
  repeat' (first
    | with_reducible apply State.slot_keeps
    )

theorem execVadd_keeps : ∀ a0 a1 a2 a3 a4, Completes s (execVadd a0 a1 a2 a3 a4 s) := by
  intro a0 a1 a2 a3 a4
  have h : Keeps Counters.any s s := .refl s
  unfold execVadd
  repeat' (first
    | with_reducible apply State.slot_keeps
    )

theorem execVsub_keeps : ∀ a0 a1 a2 a3 a4, Completes s (execVsub a0 a1 a2 a3 a4 s) := by
  intro a0 a1 a2 a3 a4
  have h : Keeps Counters.any s s := .refl s
  unfold execVsub
  repeat' (first
    | with_reducible apply State.slot_keeps
    )

theorem execVadds_keeps : ∀ a0 a1 a2 a3 a4, Completes s (execVadds a0 a1 a2 a3 a4 s) := by
  intro a0 a1 a2 a3 a4
  have h : Keeps Counters.any s s := .refl s
  unfold execVadds
  repeat' (first
    | with_reducible apply State.slot_keeps
    )

theorem execVsubs_keeps : ∀ a0 a1 a2 a3 a4, Completes s (execVsubs a0 a1 a2 a3 a4 s) := by
  intro a0 a1 a2 a3 a4
  have h : Keeps Counters.any s s := .refl s
  unfold execVsubs
  repeat' (first
    | with_reducible apply State.slot_keeps
    )

theorem execVmin_keeps : ∀ a0 a1 a2 a3 a4, Completes s (execVmin a0 a1 a2 a3 a4 s) := by
  intro a0 a1 a2 a3 a4
  have h : Keeps Counters.any s s := .refl s
  unfold execVmin
  repeat' (first
    | with_reducible apply State.slot_keeps
    )

theorem execVmax_keeps : ∀ a0 a1 a2 a3 a4, Completes s (execVmax a0 a1 a2 a3 a4 s) := by
  intro a0 a1 a2 a3 a4
  have h : Keeps Counters.any s s := .refl s
  unfold execVmax
  repeat' (first
    | with_reducible apply State.slot_keeps
    )

theorem execVabs_keeps : ∀ a0 a1 a2 a3, Completes s (execVabs a0 a1 a2 a3 s) := by
  intro a0 a1 a2 a3
  have h : Keeps Counters.any s s := .refl s
  unfold execVabs
  repeat' (first
    | with_reducible apply State.slot_keeps
    )

theorem execVneg_keeps : ∀ a0 a1 a2 a3, Completes s (execVneg a0 a1 a2 a3 s) := by
  intro a0 a1 a2 a3
  have h : Keeps Counters.any s s := .refl s
  unfold execVneg
  repeat' (first
    | with_reducible apply State.slot_keeps
    )

theorem execVand_keeps : ∀ a0 a1 a2 a3 a4, Completes s (execVand a0 a1 a2 a3 a4 s) := by
  intro a0 a1 a2 a3 a4
  have h : Keeps Counters.any s s := .refl s
  unfold execVand
  repeat' (first
    | with_reducible apply State.slot_keeps
    )

theorem execVor_keeps : ∀ a0 a1 a2 a3 a4, Completes s (execVor a0 a1 a2 a3 a4 s) := by
  intro a0 a1 a2 a3 a4
  have h : Keeps Counters.any s s := .refl s
  unfold execVor
  repeat' (first
    | with_reducible apply State.slot_keeps
    )

theorem execVxor_keeps : ∀ a0 a1 a2 a3 a4, Completes s (execVxor a0 a1 a2 a3 a4 s) := by
  intro a0 a1 a2 a3 a4
  have h : Keeps Counters.any s s := .refl s
  unfold execVxor
  repeat' (first
    | with_reducible apply State.slot_keeps
    )

theorem execVandn_keeps : ∀ a0 a1 a2 a3 a4, Completes s (execVandn a0 a1 a2 a3 a4 s) := by
  intro a0 a1 a2 a3 a4
  have h : Keeps Counters.any s s := .refl s
  unfold execVandn
  repeat' (first
    | with_reducible apply State.slot_keeps
    )

theorem execVcmpgt_keeps : ∀ a0 a1 a2 a3 a4, Completes s (execVcmpgt a0 a1 a2 a3 a4 s) := by
  intro a0 a1 a2 a3 a4
  have h : Keeps Counters.any s s := .refl s
  unfold execVcmpgt
  repeat' (first
    | with_reducible apply State.slot_keeps
    )

theorem execVcmpeq_keeps : ∀ a0 a1 a2 a3 a4, Completes s (execVcmpeq a0 a1 a2 a3 a4 s) := by
  intro a0 a1 a2 a3 a4
  have h : Keeps Counters.any s s := .refl s
  unfold execVcmpeq
  repeat' (first
    | with_reducible apply State.slot_keeps
    )

theorem execVmov_keeps : ∀ a0 a1 a2 a3, Completes s (execVmov a0 a1 a2 a3 s) := by
  intro a0 a1 a2 a3
  have h : Keeps Counters.any s s := .refl s
  unfold execVmov
  repeat' (first
    | with_reducible apply State.slot_keeps
    )

theorem execVshl_keeps : ∀ a0 a1 a2 a3 a4, Completes s (execVshl a0 a1 a2 a3 a4 s) := by
  intro a0 a1 a2 a3 a4
  have h : Keeps Counters.any s s := .refl s
  unfold execVshl
  repeat' (first
    | with_reducible apply State.slot_keeps
    )

theorem execVshr_keeps : ∀ a0 a1 a2 a3 a4, Completes s (execVshr a0 a1 a2 a3 a4 s) := by
  intro a0 a1 a2 a3 a4
  have h : Keeps Counters.any s s := .refl s
  unfold execVshr
  repeat' (first
    | with_reducible apply State.slot_keeps
    )

theorem execVasr_keeps : ∀ a0 a1 a2 a3 a4, Completes s (execVasr a0 a1 a2 a3 a4 s) := by
  intro a0 a1 a2 a3 a4
  have h : Keeps Counters.any s s := .refl s
  unfold execVasr
  repeat' (first
    | with_reducible apply State.slot_keeps
    )

theorem execVshls_keeps : ∀ a0 a1 a2 a3 a4, Completes s (execVshls a0 a1 a2 a3 a4 s) := by
  intro a0 a1 a2 a3 a4
  have h : Keeps Counters.any s s := .refl s
  unfold execVshls
  repeat' (first
    | with_reducible apply State.slot_keeps
    )

theorem execVperm_keeps : ∀ a0 a1 a2 a3 a4, Completes s (execVperm a0 a1 a2 a3 a4 s) := by
  intro a0 a1 a2 a3 a4
  have h : Keeps Counters.any s s := .refl s
  unfold execVperm
  repeat' (first
    | with_reducible apply State.slot_keeps
    )

end Sys2Proof.Machine
end

