-- ==== Sys2Proof/Laws/KeepsTileCmds.lean ====
section
/-!
SUPPORT. What the operations of TileCmds keep.
-/

namespace Sys2Proof.Machine

variable {P : Counters → Prop} {s0 s : State}

theorem State.stageWrite_keeps : ∀ a1 a2 a3, Keeps P s0 s → Keeps P s0 (State.stageWrite s a1 a2 a3) := by
  intro a1 a2 a3 h
  unfold State.stageWrite
  repeat' (first
    | with_reducible assumption
    | ((try lift_lets); intro x)
    | with_reducible apply State.wrBytes_keeps
    | with_reducible apply Keeps.foldl
    )

theorem State.wrImem_keeps : ∀ n x o bs, Keeps P s0 s → Keeps P s0 (s.wrImem n x o bs) := by
  intro n x o bs h
  unfold State.wrImem
  have h1 := h.imem (m := memPut s.imem (32768 * n + 16384 * x + o) bs) memPut_wf
  exact Keeps.ite h1 (State.eccWrite_keeps _ h1)

theorem execEccWordRewrite_keeps : ∀ a0, Completes s (execEccWordRewrite a0 s) := by
  intro a0
  have h : Keeps Counters.any s s := .refl s
  unfold execEccWordRewrite
  repeat' (first
    | with_reducible assumption
    | with_reducible apply State.readOver_keeps
    | exact fun c => ⟨(Keeps.tileOf (by assumption) c _).smp, (Keeps.tileOf (by assumption) c _).ctl⟩
    | ((try lift_lets); intro x; with_reducible refine Keeps.cut (P := Counters.any) (s0 := s) x ?_ ?_ <;> [(unfold x; clear x); (intro hx; clear_value x)])
    | ((try lift_lets); intro x)
    | with_reducible apply Completes.of
    | with_reducible apply State.wr32_keeps
    | with_reducible apply State.wrImem_keeps
    | with_reducible apply State.setTile_keeps
    | with_reducible apply Keeps.ite
    | fail_if_no_progress (with_reducible refine Keeps.lit ?_ rfl id (fun _ => trivial))
    | with_reducible apply forAll_keeps
    | with_reducible apply Keeps.foldl
    | split
    )

theorem execLearnedFloor_keeps : ∀ inst, Completes s (execLearnedFloor inst s) := by
  intro inst
  have h := Keeps.refl (P := Counters.any) s
  unfold execLearnedFloor
  refine Completes.of ?_
  dsimp only
  split
  · exact Keeps.ite h (State.journal_keeps _ _ (State.wr32_keeps _ _ (State.setNodeSt_keeps _ _ h)))
  · exact h

theorem State.powerUp_keeps : ∀ d, Keeps P s0 s → Keeps P s0 (s.powerUp d) := by
  intro d h
  unfold State.powerUp
  have h1 := State.setDom_keeps d .on h
  have h2 := State.zeroRange_keeps (tileBase d) 0x40000 h1
  exact Keeps.ite (Keeps.ite (State.wakeTile_keeps _ h1) h1) (Keeps.ite (State.setTile_keeps _ _ (fun _ => .empty) (h2.imem mwf_filter))
    (Keeps.ite (State.zeroRange_keeps _ _ h1) h1))

theorem execDomainPowerUp_keeps : ∀ a0, Completes s (execDomainPowerUp a0 s) := by
  intro a0
  have h : Keeps Counters.any s s := .refl s
  unfold execDomainPowerUp
  repeat' (first
    | with_reducible assumption
    | with_reducible apply Completes.of
    | with_reducible apply State.powerUp_keeps
    | with_reducible apply Keeps.ite
    )

end Sys2Proof.Machine
end

