-- ==== Sys2Proof/Laws/KeepsRaceOps.lean ====
section
/-!
SUPPORT. What the operations of RaceOps keep.
-/

namespace Sys2Proof.Machine

variable {P : Counters → Prop} {s0 s : State}

theorem State.setLink_keeps : ∀ a1 a2, Keeps P s0 s → Keeps P s0 (State.setLink s a1 a2) := by
  intro a1 a2 h
  unfold State.setLink
  repeat' (first
    | with_reducible assumption
    | fail_if_no_progress (with_reducible refine Keeps.lit ?_ rfl id id)
    )

theorem State.linkOn_keeps : ∀ a1, Keeps P s0 s → Keeps P s0 (State.linkOn s a1) := by
  intro a1 h
  unfold State.linkOn
  exact Keeps.ite h (State.setLink_keeps _ _ h)

theorem State.linkOff_keeps : ∀ a1, Keeps P s0 s → Keeps P s0 (State.linkOff s a1) := by
  intro a1 h
  unfold State.linkOff
  repeat' (first
    | with_reducible assumption
    | ((try lift_lets); intro x)
    | with_reducible apply State.candStops_keeps
    | with_reducible apply State.setLink_keeps
    | with_reducible apply Keeps.ite
    | fail_if_no_progress (with_reducible refine Keeps.lit ?_ rfl id id)
    )

theorem State.writeRaceCtrl_keeps : ∀ a1 a2, Keeps P s0 s → Keeps P s0 (State.writeRaceCtrl s a1 a2) := by
  intro a1 a2 h
  unfold State.writeRaceCtrl
  repeat' (first
    | with_reducible assumption
    | with_reducible apply State.linkOn_keeps
    | with_reducible apply State.linkOff_keeps
    | with_reducible apply State.nextly_keeps
    | with_reducible apply State.setFlag_keeps
    | with_reducible apply State.setReg_keeps
    | with_reducible apply State.setLink_keeps
    | with_reducible apply Keeps.ite
    | fail_if_no_progress (with_reducible refine Keeps.lit ?_ rfl id id)
    | ((try lift_lets); intro x)
    | with_reducible apply forAll_keeps
    | with_reducible apply Keeps.foldl
    | split
    )

theorem State.writeRaceField_keeps : ∀ a1 a2 a3 a4, Keeps P s0 s → Keeps P s0 (State.writeRaceField s a1 a2 a3 a4) := by
  intro a1 a2 a3 a4 h
  unfold State.writeRaceField
  repeat' (first
    | with_reducible assumption
    | with_reducible apply State.setFlag_keeps
    | with_reducible apply State.setReg_keeps
    | with_reducible apply Keeps.ite
    )

theorem State.dropParts_keeps : ∀ a1, Keeps P s0 s → Keeps P s0 (State.dropParts s a1) := by
  intro a1 h
  unfold State.dropParts
  repeat' (first
    | with_reducible assumption
    | with_reducible apply State.count_keeps
    | with_reducible apply State.setLink_keeps
    | with_reducible apply Keeps.ite
    )

theorem State.racePart_keeps : ∀ a1 a2 a3, Keeps P s0 s → Keeps P s0 (State.racePart s a1 a2 a3) := by
  intro a1 a2 a3 h
  unfold State.racePart
  repeat' (first
    | with_reducible assumption
    | ((try lift_lets); intro x)
    | with_reducible apply State.setLink_keeps
    | with_reducible apply Keeps.ite
    | fail_if_no_progress (with_reducible refine Keeps.lit ?_ rfl id id)
    | with_reducible apply forAll_keeps
    | with_reducible apply Keeps.foldl
    | split
    )

theorem State.raceCells_keeps : ∀ a1 a2, Keeps P s0 s → Keeps P s0 (State.raceCells s a1 a2) := by
  intro a1 a2 h
  unfold State.raceCells
  repeat' (first
    | with_reducible assumption
    | with_reducible apply State.racePart_keeps
    | ((try lift_lets); intro x)
    | with_reducible apply State.count_keeps
    | with_reducible apply State.setLink_keeps
    | with_reducible apply Keeps.ite
    | with_reducible apply Keeps.foldl
    | fail_if_no_progress (with_reducible refine Keeps.lit ?_ rfl id id)
    | with_reducible apply forAll_keeps
    | split
    )

theorem State.raceJudge_keeps : ∀ a1 a2, Keeps P s0 s → Keeps P s0 (State.raceJudge s a1 a2).2 := by
  intro a1 a2 h
  unfold State.raceJudge
  repeat' (first
    | with_reducible assumption
    | ((try lift_lets); intro x; with_reducible refine Keeps.cut (P := P) (s0 := s0) x ?_ ?_ <;> [(unfold x; clear x); (intro hx; clear_value x)])
    | ((try lift_lets); intro x)
    | with_reducible apply State.count_keeps
    | with_reducible apply State.raise_keeps
    | with_reducible apply State.setFlag_keeps
    | split
    )

theorem State.raceValid_keeps : ∀ a1 a2 a3, Keeps P s0 s → Keeps P s0 (State.raceValid s a1 a2 a3) := by
  intro a1 a2 a3 h
  unfold State.raceValid
  repeat' (first
    | with_reducible assumption
    | with_reducible apply State.setReg_keeps
    | with_reducible apply State.setLink_keeps
    | with_reducible apply State.raceCells_keeps
    | with_reducible apply Keeps.ite
    | fail_if_no_progress (with_reducible refine Keeps.lit ?_ rfl id id)
    )

theorem State.raceFrame_keeps : ∀ a1 a2, Keeps P s0 s → Keeps P s0 (State.raceFrame s a1 a2).2 := by
  intro a1 a2 h
  unfold State.raceFrame
  repeat' (first
    | with_reducible assumption
    | ((try lift_lets); intro x; with_reducible refine Keeps.cut (P := P) (s0 := s0) x ?_ ?_ <;> [(unfold x; clear x); (intro hx; clear_value x)])
    | ((try lift_lets); intro x)
    | with_reducible apply State.setFld_keeps
    | with_reducible apply State.setLink_keeps
    | with_reducible apply State.raceJudge_keeps
    | with_reducible apply State.raceValid_keeps
    | with_reducible apply State.monitor_keeps
    | with_reducible apply State.dropParts_keeps
    | with_reducible refine Keeps.snd (by assumption) ?_
    | split
    )

theorem State.raceQueue_keeps : ∀ a1 a2, Keeps P s0 s → Keeps P s0 (State.raceQueue s a1 a2) := by
  intro a1 a2 h
  unfold State.raceQueue
  repeat' (first
    | with_reducible assumption
    | with_reducible apply State.count_keeps
    | with_reducible apply State.setLink_keeps
    | with_reducible apply Keeps.ite
    )

theorem State.raceSend_keeps : ∀ a1, Keeps P s0 s → Keeps P s0 (State.raceSend s a1) := by
  intro a1 h
  unfold State.raceSend
  repeat' (first
    | with_reducible assumption
    | with_reducible apply State.disarm_keeps
    | with_reducible apply State.setLink_keeps
    | with_reducible apply Keeps.ite
    )

theorem State.raceCommit_keeps : ∀ a1, Keeps P s0 s → Keeps P s0 (State.raceCommit s a1) := by
  intro a1 h
  unfold State.raceCommit
  repeat' (first
    | with_reducible assumption
    | ((try lift_lets); intro x)
    | with_reducible apply forAll_keeps
    | with_reducible apply State.wr32_keeps
    | with_reducible apply Keeps.ite
    | fail_if_no_progress (with_reducible refine Keeps.lit ?_ rfl id id)
    )

end Sys2Proof.Machine
end

