-- ==== Sys2Proof/Laws/KeepsDomOps.lean ====
section
/-!
SUPPORT. What the operations of DomOps keep.
-/

namespace Sys2Proof.Machine

variable {P : Counters → Prop} {s0 s : State}

theorem State.updDom_keeps : ∀ a1, Keeps P s0 s → Keeps P s0 (State.updDom s a1) := by
  intro a1 h
  unfold State.updDom
  repeat' (first
    | with_reducible assumption
    | fail_if_no_progress (with_reducible refine Keeps.lit ?_ rfl id id)
    )

theorem State.winPut_keeps : ∀ a1 a2, Keeps P s0 s → Keeps P s0 (State.winPut s a1 a2) := by
  intro a1 a2 h
  unfold State.winPut
  repeat' (first
    | with_reducible assumption
    | with_reducible apply State.updDom_keeps
    )

theorem State.domOut_keeps : ∀ a1 a2 a3, Keeps P s0 s → Keeps P s0 (State.domOut s a1 a2 a3) := by
  intro a1 a2 a3 h
  unfold State.domOut
  repeat' (first
    | with_reducible assumption
    | intro x
    | with_reducible apply State.netSend_keeps
    | with_reducible apply forAll_keeps
    | with_reducible apply State.raceQueue_keeps
    | with_reducible apply Keeps.ite
    )

theorem State.domSend_keeps : ∀ a1 a2 a3, Keeps P s0 s → Keeps P s0 (State.domSend s a1 a2 a3) := by
  intro a1 a2 a3 h
  unfold State.domSend
  repeat' (first
    | with_reducible assumption
    | with_reducible apply State.updDom_keeps
    | with_reducible apply State.winPut_keeps
    | with_reducible apply State.domOut_keeps
    | with_reducible apply Keeps.ite
    | fail_if_no_progress (with_reducible refine Keeps.lit ?_ rfl id id)
    )

theorem State.authFail_keeps : Keeps P s0 s → Keeps P s0 (State.authFail s) := by
  intro h
  unfold State.authFail
  repeat' (first
    | with_reducible assumption
    | with_reducible apply State.count_keeps
    | with_reducible apply State.event_keeps
    | with_reducible apply State.updDom_keeps
    | with_reducible apply Keeps.ite
    )

theorem State.passOn_keeps : ∀ a1 a2, Keeps P s0 s → Keeps P s0 (State.passOn s a1 a2) := by
  intro a1 a2 h
  unfold State.passOn
  repeat' (first
    | with_reducible assumption
    | ((try lift_lets); intro x)
    | with_reducible apply State.domOut_keeps
    | with_reducible apply forAll_keeps
    | with_reducible apply State.raceQueue_keeps
    | split
    )

theorem State.domAccept_keeps : ∀ a1 a2, Keeps P s0 s → Keeps P s0 (State.domAccept s a1 a2).2 := by
  intro a1 a2 h
  unfold State.domAccept
  repeat' (first
    | with_reducible assumption
    | ((try lift_lets); intro x)
    | with_reducible apply State.authFail_keeps
    | with_reducible apply State.count_keeps
    | with_reducible apply State.passOn_keeps
    | with_reducible apply State.winPut_keeps
    | split
    )

theorem State.msgIn_keeps {m : MsgHdr} {b : MsgBody} {t : State} (e : s.msgIn m b = some t) (h : Keeps P s0 s) : Keeps P s0 t := by
  have key {c : Prop} [Decidable c] {u : State} (e : (if c then some u else none) = some t) (hu : Keeps P s0 u) : Keeps P s0 t := by
    by_cases hc : c
    · rw [if_pos hc] at e; cases e; exact hu
    · rw [if_neg hc] at e; cases e
  unfold State.msgIn at e
  by_cases hh : m.held = true
  · rw [if_pos hh] at e; cases e; exact h
  · rw [if_neg hh] at e
    cases hl : m.link with
    | none => rw [hl] at e; exact key e (State.rxTake_keeps _ h)
    | some k => rw [hl] at e; exact key e (State.setLink_keeps _ _ h)

theorem State.onMsg_keeps {f : State → State} (hf : ∀ s, Keeps P s0 s → Keeps P s0 (f s)) :
    ∀ m body, Keeps P s0 s → Keeps P s0 (s.onMsg m body f) := by
  intro m body h
  unfold State.onMsg
  split
  · exact h
  · next t e =>
    have ht := State.msgIn_keeps e h
    have h1 := State.domAccept_keeps m body ht
    exact Keeps.ite (Keeps.lit ht rfl id id) (Keeps.ite (hf _ h1) h1)

theorem State.staleMsg_keeps : ∀ a1 a2, Keeps P s0 s → Keeps P s0 (State.staleMsg s a1 a2) := by
  intro a1 a2 h
  unfold State.staleMsg
  repeat' (first
    | with_reducible assumption
    | with_reducible apply State.count_keeps
    | with_reducible apply State.onMsg_keeps
    | fail_if_no_progress (with_reducible refine Keeps.lit ?_ rfl id id)
    | ((try lift_lets); intro x)
    | with_reducible apply Keeps.ite
    | with_reducible apply forAll_keeps
    | with_reducible apply Keeps.foldl
    | split
    )

theorem State.raceStale_keeps : ∀ a1, Keeps P s0 s → Keeps P s0 (State.raceStale s a1) := by
  intro a1 h
  unfold State.raceStale
  repeat' (first
    | with_reducible assumption
    | ((try lift_lets); intro x)
    | with_reducible apply State.staleMsg_keeps
    | with_reducible apply Keeps.foldl
    | fail_if_no_progress (with_reducible refine Keeps.lit ?_ rfl id id)
    )

theorem State.ethHeard_keeps : ∀ a1 a2, Keeps P s0 s → Keeps P s0 (State.ethHeard s a1 a2) := by
  intro a1 a2 h
  unfold State.ethHeard
  repeat' (first
    | with_reducible assumption
    | ((try lift_lets); intro x)
    | with_reducible apply State.ethFrame_keeps
    | with_reducible apply State.staleMsg_keeps
    | with_reducible apply Keeps.ite
    | fail_if_no_progress (with_reducible refine Keeps.lit ?_ rfl id id)
    | split
    )

theorem State.streamsAt_keeps : ∀ a1 a2, Keeps P s0 s → Keeps P s0 (State.streamsAt s a1 a2) := by
  intro a1 a2 h
  unfold State.streamsAt
  repeat' (first
    | with_reducible assumption
    | with_reducible apply State.updDom_keeps
    | with_reducible apply Keeps.ite
    )

theorem State.sendStreams_keeps : ∀ a1 a2, Keeps P s0 s → Keeps P s0 (State.sendStreams s a1 a2) := by
  intro a1 a2 h
  unfold State.sendStreams
  repeat' (first
    | with_reducible assumption
    | with_reducible apply State.streamsAt_keeps
    | with_reducible apply State.domSend_keeps
    | with_reducible apply Keeps.ite
    )

theorem State.streamEntry_keeps : ∀ a1, Keeps P s0 s → Keeps P s0 (State.streamEntry s a1) := by
  intro a1 h
  unfold State.streamEntry
  repeat' (first
    | with_reducible assumption
    | ((try lift_lets); intro x; with_reducible refine Keeps.cut (P := P) (s0 := s0) x ?_ ?_ <;> [(unfold x; clear x); (intro hx; clear_value x)])
    | ((try lift_lets); intro x)
    | with_reducible apply State.setFlag_keeps
    | with_reducible apply State.event_keeps
    | with_reducible apply State.rxEnable_keeps
    | split
    )

theorem State.streamEpoch_keeps : Keeps P s0 s → Keeps P s0 (State.streamEpoch s) := by
  intro h
  unfold State.streamEpoch
  repeat' (first
    | with_reducible assumption
    | ((try lift_lets); intro x)
    | with_reducible apply State.updDom_keeps
    | with_reducible apply State.streamEntry_keeps
    | with_reducible apply Keeps.foldl
    )

theorem State.setRoster_keeps : ∀ a1 a2, Keeps P s0 s → Keeps P s0 (State.setRoster s a1 a2) := by
  intro a1 a2 h
  unfold State.setRoster
  repeat' (first
    | with_reducible assumption
    | with_reducible apply State.updDom_keeps
    )

theorem State.sendMirror_keeps : ∀ a1, Keeps P s0 s → Keeps P s0 (State.sendMirror s a1) := by
  intro a1 h
  unfold State.sendMirror
  repeat' (first
    | with_reducible assumption
    | with_reducible apply State.domSend_keeps
    | split
    )

theorem State.markAbsent_keeps : ∀ a1, Keeps P s0 s → Keeps P s0 (State.markAbsent s a1) := by
  intro a1 h
  unfold State.markAbsent
  repeat' (first
    | with_reducible assumption
    | with_reducible apply State.sendMirror_keeps
    | with_reducible apply State.setRoster_keeps
    | with_reducible apply State.count_keeps
    | with_reducible apply State.updDom_keeps
    | with_reducible apply State.event_keeps
    | with_reducible apply State.sendStreams_keeps
    | with_reducible apply Keeps.ite
    )

theorem State.joinAnswer_keeps : ∀ a1 a2 a3 a4 a5, Keeps P s0 s → Keeps P s0 (State.joinAnswer s a1 a2 a3 a4 a5) := by
  intro a1 a2 a3 a4 a5 h
  unfold State.joinAnswer
  repeat' (first
    | with_reducible assumption
    | ((try lift_lets); intro x)
    | with_reducible apply State.count_keeps
    | with_reducible apply State.domSend_keeps
    | with_reducible apply State.sendMirror_keeps
    | with_reducible apply State.setRoster_keeps
    | with_reducible apply State.updDom_keeps
    | with_reducible apply State.sendStreams_keeps
    | with_reducible apply State.event_keeps
    | split
    )

theorem State.joinsDue_keeps : Keeps P s0 s → Keeps P s0 (State.joinsDue s) := by
  intro h
  unfold State.joinsDue
  repeat' (first
    | with_reducible assumption
    | ((try lift_lets); intro x)
    | with_reducible apply State.updDom_keeps
    | with_reducible apply State.joinAnswer_keeps
    | with_reducible apply Keeps.foldl
    )

theorem State.joinSend_keeps : Keeps P s0 s → Keeps P s0 (State.joinSend s) := by
  intro h
  unfold State.joinSend
  repeat' (first
    | with_reducible assumption
    | with_reducible apply State.domSend_keeps
    | with_reducible apply State.updDom_keeps
    | split
    )

theorem State.leaveSend_keeps : Keeps P s0 s → Keeps P s0 (State.leaveSend s) := by
  intro h
  unfold State.leaveSend
  repeat' (first
    | with_reducible assumption
    | with_reducible apply State.domSend_keeps
    | with_reducible apply Keeps.ite
    )

end Sys2Proof.Machine
end

