-- ==== Sys2Proof/Laws/KeepsTwinOps.lean ====
section
/-!
SUPPORT. What the operations of TwinOps keep.
-/

namespace Sys2Proof.Machine

variable {P : Counters → Prop} {s0 s : State}

theorem State.updTwin_keeps : ∀ a1, Keeps P s0 s → Keeps P s0 (State.updTwin s a1) := by
  intro a1 h
  unfold State.updTwin
  repeat' (first
    | with_reducible assumption
    | fail_if_no_progress (with_reducible refine Keeps.lit ?_ rfl id id)
    )

theorem State.applyEv_keeps : ∀ a1, Keeps P s0 s → Keeps P s0 (State.applyEv s a1) := by
  intro a1 h
  unfold State.applyEv
  repeat' (first
    | with_reducible assumption
    | with_reducible apply State.levelAct_keeps
    | with_reducible apply State.srcNumber_keeps
    | ((try lift_lets); intro x)
    | with_reducible apply State.lockAct_keeps
    | with_reducible apply State.slipAct_keeps
    | with_reducible apply State.lossAct_keeps
    | with_reducible apply State.recoveryAct_keeps
    | with_reducible apply State.setClass_keeps
    | with_reducible apply State.naOn_keeps
    | with_reducible apply State.naOff_keeps
    | with_reducible apply State.rateAct_keeps
    | with_reducible apply State.setSrc_keeps
    | with_reducible apply State.micStuckAct_keeps
    | with_reducible apply State.micBackAct_keeps
    | with_reducible apply State.clkStuckAct_keeps
    | with_reducible apply State.clkBackAct_keeps
    | with_reducible apply State.writePdmCtrl_keeps
    | with_reducible apply State.writeMicEn_keeps
    | with_reducible apply State.writeTrim_keeps
    | with_reducible apply forAll_keeps
    | with_reducible apply State.writeSrcCtrl_keeps
    | with_reducible apply State.rawLater_keeps
    | with_reducible apply State.rawWrite_keeps
    | fail_if_no_progress (with_reducible refine Keeps.lit ?_ rfl id id)
    | split
    | with_reducible apply Keeps.ite
    | with_reducible apply Keeps.foldl
    )

theorem State.peerEv_keeps : ∀ a1, Keeps P s0 s → Keeps P s0 (State.peerEv s a1) := by
  intro a1 h
  unfold State.peerEv
  repeat' (first
    | with_reducible assumption
    | with_reducible apply State.applyEv_keeps
    | with_reducible apply State.later_keeps
    | with_reducible apply Keeps.ite
    | fail_if_no_progress (with_reducible refine Keeps.lit ?_ rfl id id)
    | ((try lift_lets); intro x)
    | with_reducible apply forAll_keeps
    | with_reducible apply Keeps.foldl
    | split
    )

theorem State.act_keeps : ∀ a1, Keeps P s0 s → Keeps P s0 (State.act s a1) := by
  intro a1 h
  unfold State.act
  repeat' (first
    | with_reducible assumption
    | ((try lift_lets); intro x)
    | with_reducible apply State.applyEv_keeps
    | with_reducible apply State.candStops_keeps
    | with_reducible apply State.crystalLock_keeps
    | with_reducible apply State.leaveQuiet_keeps
    | with_reducible apply State.linkOn_keeps
    | with_reducible apply State.linkOff_keeps
    | with_reducible apply State.maintDue_keeps
    | with_reducible apply State.micGo_keeps
    | with_reducible apply State.micStart_keeps
    | with_reducible apply State.micStop_keeps
    | with_reducible apply State.netStart_keeps
    | with_reducible apply State.newList_keeps
    | with_reducible apply State.pdmClocksOn_keeps
    | with_reducible apply State.pdmStart_keeps
    | with_reducible apply State.pdmStop_keeps
    | with_reducible apply State.portFade_keeps
    | with_reducible apply State.portStart_keeps
    | with_reducible apply State.portStop_keeps
    | with_reducible apply State.ptpRecognised_keeps
    | with_reducible apply State.regate_keeps
    | with_reducible apply State.rxEnable_keeps
    | with_reducible apply State.srcStart_keeps
    | with_reducible apply State.srcStop_keeps
    | with_reducible apply Keeps.ite
    | split
    )

theorem State.actsDue_keeps : ∀ a1, Keeps P s0 s → Keeps P s0 (State.actsDue s a1) := by
  intro a1 h
  unfold State.actsDue
  repeat' (first
    | with_reducible assumption
    | ((try lift_lets); intro x)
    | with_reducible apply State.act_keeps
    | with_reducible apply forAll_keeps
    | fail_if_no_progress (with_reducible refine Keeps.lit ?_ rfl id id)
    )

theorem State.rejoinStart_keeps : Keeps P s0 s → Keeps P s0 (State.rejoinStart s) := by
  intro h
  unfold State.rejoinStart
  repeat' (first
    | with_reducible assumption
    | with_reducible apply State.updTwin_keeps
    )

theorem State.rejoinAsk_keeps : Keeps P s0 s → Keeps P s0 (State.rejoinAsk s) := by
  intro h
  unfold State.rejoinAsk
  repeat' (first
    | with_reducible assumption
    | with_reducible apply State.updTwin_keeps
    )

theorem State.copyPass_keeps : Keeps P s0 s → Keeps P s0 (State.copyPass s) := by
  intro h
  unfold State.copyPass
  repeat' (first
    | with_reducible assumption
    | with_reducible apply State.updTwin_keeps
    | with_reducible apply State.setLink_keeps
    | with_reducible apply Keeps.ite
    | split
    )

theorem State.rejoinAnswer_keeps : Keeps P s0 s → Keeps P s0 (State.rejoinAnswer s) := by
  intro h
  unfold State.rejoinAnswer
  repeat' (first
    | with_reducible assumption
    | with_reducible apply State.updTwin_keeps
    | with_reducible apply Keeps.ite
    )

theorem State.mismatch_keeps : Keeps P s0 s → Keeps P s0 (State.mismatch s) := by
  intro h
  unfold State.mismatch
  repeat' (first
    | with_reducible assumption
    | with_reducible apply State.count_keeps
    | with_reducible apply State.updTwin_keeps
    | with_reducible apply State.raise_keeps
    | with_reducible apply Keeps.ite
    )

theorem State.digestCompare_keeps : ∀ a1 a2, Keeps P s0 s → Keeps P s0 (State.digestCompare s a1 a2) := by
  intro a1 a2 h
  unfold State.digestCompare
  repeat' (first
    | with_reducible assumption
    | ((try lift_lets); intro x; with_reducible refine Keeps.cut (P := P) (s0 := s0) x ?_ ?_ <;> [(unfold x; clear x); (intro hx; clear_value x)])
    | with_reducible apply State.updTwin_keeps
    | with_reducible apply State.mismatch_keeps
    | split
    )

theorem State.revertDue_keeps : Keeps P s0 s → Keeps P s0 (State.revertDue s) := by
  intro h
  unfold State.revertDue
  repeat' (first
    | with_reducible assumption
    | with_reducible apply State.decideYield_keeps
    | with_reducible apply Keeps.ite
    )

theorem State.strapConflict_keeps : Keeps P s0 s → Keeps P s0 (State.strapConflict s) := by
  intro h
  unfold State.strapConflict
  repeat' (first
    | with_reducible assumption
    | with_reducible apply State.updTwin_keeps
    | with_reducible apply State.event_keeps
    | with_reducible apply State.enterBootFail_keeps
    )

theorem State.twinState_keeps : ∀ a1, Keeps P s0 s → Keeps P s0 (State.twinState s a1) := by
  intro a1 h
  unfold State.twinState
  repeat' (first
    | with_reducible assumption
    | with_reducible apply State.strapConflict_keeps
    | with_reducible apply State.updTwin_keeps
    | with_reducible apply Keeps.ite
    )

theorem State.twinSkew_keeps : ∀ a1, Keeps P s0 s → Keeps P s0 (State.twinSkew s a1) := by
  intro a1 h
  unfold State.twinSkew
  repeat' (first
    | with_reducible assumption
    | with_reducible apply State.setReg_keeps
    | with_reducible apply State.updTwin_keeps
    )

theorem State.srcHeard_keeps : ∀ a1 a2, Keeps P s0 s → Keeps P s0 (State.srcHeard s a1 a2) := by
  intro a1 a2 h
  unfold State.srcHeard
  repeat' (first
    | with_reducible assumption
    | with_reducible apply State.setSrc_keeps
    | with_reducible apply State.srcStep_keeps
    | fail_if_no_progress (with_reducible refine Keeps.lit ?_ rfl id id)
    | ((try lift_lets); intro x)
    | with_reducible apply Keeps.ite
    | with_reducible apply forAll_keeps
    | with_reducible apply Keeps.foldl
    | split
    )

theorem State.twinCommit_keeps : ∀ b, Keeps P s0 s → Keeps P s0 (s.twinCommit b) := by
  intro b h
  unfold State.twinCommit
  extract_lets standby u w
  have hu : Keeps P s0 u := by
    unfold u
    split
    · next t =>
      refine State.updTwin_keeps _ ?_
      have h1 : Keeps P s0 (if standby then forAll t.events s (fun e s => s.peerEv e) else s) :=
        Keeps.ite (forAll_keeps h fun s hs e => State.peerEv_keeps _ hs) h
      have h2 := fun (c : Prop) [Decidable c] => Keeps.ite (c := c)
        (Keeps.foldl (l := t.copy) h1 fun s hs e => hs.mem (m := memPut s.mem e.1 (e.2.take 64)) memPut_wf) h1
      split
      · exact State.digestCompare_keeps _ _ (h2 _)
      · exact h2 _
    · exact State.updTwin_keeps _ h
  clear_value u
  have hw : Keeps P s0 w := Keeps.ite (forAll_keeps hu fun s hs c => State.srcHeard_keeps _ _ hs) hu
  exact State.rxStrobe_keeps _ hw

theorem State.twinLinkLost_keeps : Keeps P s0 s → Keeps P s0 (State.twinLinkLost s) := by
  intro h
  unfold State.twinLinkLost
  repeat' (first
    | with_reducible assumption
    | with_reducible apply State.updTwin_keeps
    | with_reducible apply State.raise_keeps
    | with_reducible apply State.rejoinStart_keeps
    | with_reducible apply Keeps.ite
    )

theorem State.linesStrobe_keeps : Keeps P s0 s → Keeps P s0 (State.linesStrobe s) := by
  intro h
  unfold State.linesStrobe
  repeat' (first
    | with_reducible assumption
    | with_reducible apply State.updTwin_keeps
    | with_reducible apply Keeps.ite
    | fail_if_no_progress (with_reducible refine Keeps.lit ?_ rfl id id)
    )

theorem State.twinStrobe_keeps : ∀ a1 a2 a3, Keeps P s0 s → Keeps P s0 (State.twinStrobe s a1 a2 a3) := by
  intro a1 a2 a3 h
  unfold State.twinStrobe
  repeat' (first
    | with_reducible assumption
    | with_reducible apply State.linesStrobe_keeps
    | ((try lift_lets); intro x; with_reducible refine Keeps.cut (P := P) (s0 := s0) x ?_ ?_ <;> [(unfold x; clear x); (intro hx; clear_value x)])
    | ((try lift_lets); intro x)
    | with_reducible apply State.updTwin_keeps
    | with_reducible apply State.setMode_keeps
    | with_reducible apply State.rejoinStart_keeps
    | with_reducible apply State.rejoinAsk_keeps
    | with_reducible apply State.rejoinAnswer_keeps
    | with_reducible apply State.copyPass_keeps
    | split
    )

end Sys2Proof.Machine
end

