-- ==== Sys2Proof/Laws/KeepsSceneOps.lean ====
section
/-!
SUPPORT. What the operations of SceneOps keep.
-/

namespace Sys2Proof.Machine

variable {P : Counters → Prop} {s0 s : State}

theorem State.updScn_keeps : ∀ a1, Keeps P s0 s → Keeps P s0 (State.updScn s a1) := by
  intro a1 h
  unfold State.updScn
  repeat' (first
    | with_reducible assumption
    | fail_if_no_progress (with_reducible refine Keeps.lit ?_ rfl id id)
    )

theorem State.recallNotice_keeps : ∀ a1, Keeps P s0 s → Keeps P s0 (State.recallNotice s a1) := by
  intro a1 h
  unfold State.recallNotice
  repeat' (first
    | with_reducible assumption
    | with_reducible apply State.event_keeps
    )

theorem State.dropRecall_keeps : ∀ a1, Keeps P s0 s → Keeps P s0 (State.dropRecall s a1) := by
  intro a1 h
  unfold State.dropRecall
  repeat' (first
    | with_reducible assumption
    | with_reducible apply State.recallNotice_keeps
    | with_reducible apply State.count_keeps
    )

theorem State.setPending_keeps : ∀ a1, Keeps P s0 s → Keeps P s0 (State.setPending s a1) := by
  intro a1 h
  unfold State.setPending
  repeat' (first
    | with_reducible assumption
    | with_reducible apply State.dropRecall_keeps
    | with_reducible apply State.updScn_keeps
    | split
    )

theorem State.fetchScene_keeps : ∀ a1, Keeps P s0 s → Keeps P s0 (State.fetchScene s a1) := by
  intro a1 h
  unfold State.fetchScene
  repeat' (first
    | with_reducible assumption
    | with_reducible apply State.updScn_keeps
    | with_reducible apply State.flashAsk_keeps
    )

theorem State.beginRecall_keeps : ∀ a1 a2 a3, Keeps P s0 s → Keeps P s0 (State.beginRecall s a1 a2 a3) := by
  intro a1 a2 a3 h
  unfold State.beginRecall
  repeat' (first
    | with_reducible assumption
    | with_reducible apply State.event_keeps
    | with_reducible apply State.fetchScene_keeps
    | with_reducible apply State.leaveQuiet_keeps
    | with_reducible apply State.updScn_keeps
    | with_reducible apply Keeps.ite
    )

theorem State.abandonRecall_keeps : Keeps P s0 s → Keeps P s0 (State.abandonRecall s) := by
  intro h
  unfold State.abandonRecall
  repeat' (first
    | with_reducible assumption
    | exact fun c => ⟨(Keeps.tileOf (by assumption) c _).smp, (Keeps.tileOf (by assumption) c _).ctl⟩
    | exact fun _ => Tile.Canonical.empty
    | ((try lift_lets); intro x)
    | with_reducible apply State.setTile_keeps
    | with_reducible apply forAll_keeps
    | with_reducible apply State.setDom_keeps
    | with_reducible apply State.setCluster_keeps
    | with_reducible apply State.updScn_keeps
    | with_reducible apply Keeps.foldl
    | split
    )

theorem State.arbTopo_keeps : ∀ a1 a2 a3, Keeps P s0 s → Keeps P s0 (State.arbTopo s a1 a2 a3) := by
  intro a1 a2 a3 h
  unfold State.arbTopo
  repeat' (first
    | with_reducible assumption
    | ((try lift_lets); intro x)
    | with_reducible apply State.beginRecall_keeps
    | with_reducible apply State.setPending_keeps
    | with_reducible apply State.abandonRecall_keeps
    | with_reducible apply State.updScn_keeps
    | with_reducible apply State.recallNotice_keeps
    | split
    )

theorem State.arbitrate_keeps : ∀ n, Keeps P s0 s → Keeps P s0 (s.arbitrate n) := by
  intro n h
  unfold State.arbitrate
  have h1 := State.updScn_keeps (fun x => { x with recognised := [] }) h
  have h2 := Keeps.foldlFst (b := (s.updScn (fun x => { x with recognised := [] }), ([] : List (SceneRec × RecallReq))))
    (l := sortReqs s.scn.recognised)
    (f := fun (a : State × List (SceneRec × RecallReq)) r =>
      match a with
      | (s, l) =>
        match s.sceneRec r.scene with
        | none => (s.recallNotice r.scene, l)
        | some c =>
          if s.topoWork c then
            if (s.deltaOf c).isSome then (s, l ++ [(c, r)]) else (s.recallNotice r.scene, l)
          else (s.beginRecall c r n, l)) h1 (by
      intro b hb r
      obtain ⟨s, l⟩ := b
      dsimp only at hb ⊢
      split
      · exact State.recallNotice_keeps _ hb
      · split
        · split
          · exact hb
          · exact State.recallNotice_keeps _ hb
        · exact State.beginRecall_keeps _ _ _ hb)
  dsimp only at h2 ⊢
  generalize List.foldl _ _ _ = p at h2 ⊢
  obtain ⟨t, topo⟩ := p
  dsimp only at h2 ⊢
  split
  · exact h2
  · refine State.arbTopo_keeps _ _ _ ?_
    have h3 := Keeps.foldl (l := List.drop 1 ‹List (SceneRec × RecallReq)›) h2 fun s hs x => State.dropRecall_keeps x.2 hs
    split
    · exact State.setPending_keeps _ h3
    · exact h3

theorem State.loadCode_keeps : ∀ n x code, Keeps P s0 s → Keeps P s0 (s.loadCode n x code) := by
  intro n x code h
  unfold State.loadCode
  exact Keeps.lit (h.imem fun w => memPut_wf (mwf_filter w)) rfl mwf_filter id

theorem State.loadInit_keeps : ∀ a1 a2, Keeps P s0 s → Keeps P s0 (State.loadInit s a1 a2) := by
  intro a1 a2 h
  unfold State.loadInit
  repeat' (first
    | with_reducible assumption
    | ((try lift_lets); intro x)
    | with_reducible apply State.wrBytes_keeps
    | with_reducible apply Keeps.foldl
    )

theorem State.stageRecall_keeps : ∀ a1, Keeps P s0 s → Keeps P s0 (State.stageRecall s a1) := by
  intro a1 h
  unfold State.stageRecall
  repeat' (first
    | with_reducible assumption
    | ((try lift_lets); intro x; with_reducible refine Keeps.cut (P := P) (s0 := s0) x ?_ ?_ <;> [(unfold x; clear x); (intro hx; clear_value x)])
    | ((try lift_lets); intro x)
    | with_reducible apply State.powerUp_keeps
    | with_reducible apply State.loadInit_keeps
    | with_reducible apply State.loadCode_keeps
    | with_reducible apply State.updScn_keeps
    | with_reducible apply State.zeroRange_keeps
    | with_reducible apply State.setCluster_keeps
    | with_reducible apply Keeps.foldl
    | split
    )

theorem State.powerDue_keeps : ∀ t, Keeps P s0 s → Keeps P s0 (s.powerDue t) := by
  intro t h
  unfold State.powerDue
  split
  · refine Keeps.ite ?_ h
    split
    · exact forAll_keeps h fun s hs n => Keeps.ite (State.powerUp_keeps _ hs) hs
    · exact h
  · exact h

theorem State.stageDue_keeps : ∀ a1, Keeps P s0 s → Keeps P s0 (State.stageDue s a1) := by
  intro a1 h
  unfold State.stageDue
  repeat' (first
    | with_reducible assumption
    | with_reducible apply State.stageRecall_keeps
    | with_reducible apply State.updScn_keeps
    | split
    )

theorem State.releaseAdded_keeps : ∀ a1 a2, Keeps P s0 s → Keeps P s0 (State.releaseAdded s a1 a2) := by
  intro a1 a2 h
  unfold State.releaseAdded
  repeat' (first
    | with_reducible assumption
    | ((try lift_lets); intro x)
    | with_reducible apply State.libRuns_keeps
    | with_reducible apply State.releaseOf_keeps
    | with_reducible apply Keeps.ite
    )

theorem State.startRecall_keeps : ∀ a1, Keeps P s0 s → Keeps P s0 (State.startRecall s a1) := by
  intro a1 h
  unfold State.startRecall
  repeat' (first
    | with_reducible assumption
    | with_reducible apply State.releaseAdded_keeps
    | with_reducible apply State.turnTile_keeps
    | with_reducible apply State.count_keeps
    | with_reducible apply State.loadLearned_keeps
    | exact fun c => ⟨(Keeps.tileOf (by assumption) c _).smp, (Keeps.tileOf (by assumption) c _).ctl⟩
    | ((try lift_lets); intro x; with_reducible refine Keeps.cut (P := P) (s0 := s0) x ?_ ?_ <;> [(unfold x; clear x); (intro hx; clear_value x)])
    | ((try lift_lets); intro x)
    | with_reducible apply State.updScn_keeps
    | with_reducible apply State.nodeClear_keeps
    | with_reducible apply State.setTile_keeps
    | with_reducible apply State.startTile_keeps
    | with_reducible apply State.setCluster_keeps
    | with_reducible apply Keeps.foldl
    | split
    | fail_if_no_progress (with_reducible refine Keeps.lit ?_ rfl id id)
    | with_reducible apply Keeps.ite
    | with_reducible apply forAll_keeps
    )

theorem State.stepParam_keeps : ∀ a1 a2 a3, Keeps P s0 s → Keeps P s0 (State.stepParam s a1 a2 a3) := by
  intro a1 a2 a3 h
  unfold State.stepParam
  repeat' (first
    | with_reducible assumption
    | with_reducible apply State.startRamp_keeps
    | with_reducible apply Keeps.ite
    )

theorem State.rampNow_keeps : ∀ a1 a2 a3 a4, Keeps P s0 s → Keeps P s0 (State.rampNow s a1 a2 a3 a4) := by
  intro a1 a2 a3 a4 h
  unfold State.rampNow
  repeat' (first
    | with_reducible assumption
    | with_reducible apply State.moveParam_keeps
    | ((try lift_lets); intro x)
    | with_reducible apply State.startRamp_keeps
    | with_reducible apply State.setParam_keeps
    | with_reducible apply State.setCluster_keeps
    | split
    | fail_if_no_progress (with_reducible refine Keeps.lit ?_ rfl id id)
    | with_reducible apply Keeps.ite
    | with_reducible apply forAll_keeps
    | with_reducible apply Keeps.foldl
    )

theorem State.applyEntries_keeps : ∀ a1 a2 a3 a4, Keeps P s0 s → Keeps P s0 (State.applyEntries s a1 a2 a3 a4) := by
  intro a1 a2 a3 a4 h
  unfold State.applyEntries
  repeat' (first
    | with_reducible assumption
    | ((try lift_lets); intro x)
    | with_reducible apply State.stepParam_keeps
    | with_reducible apply State.rampNow_keeps
    | with_reducible apply Keeps.foldl
    | split
    | fail_if_no_progress (with_reducible refine Keeps.lit ?_ rfl id id)
    | with_reducible apply Keeps.ite
    | with_reducible apply forAll_keeps
    )

theorem State.audible_keeps : ∀ a1, Keeps P s0 s → Keeps P s0 (State.audible s a1) := by
  intro a1 h
  unfold State.audible
  repeat' (first
    | with_reducible assumption
    | with_reducible apply State.count_keeps
    | ((try lift_lets); intro x; with_reducible refine Keeps.cut (P := P) (s0 := s0) x ?_ ?_ <;> [(unfold x; clear x); (intro hx; clear_value x)])
    | with_reducible apply State.updScn_keeps
    | with_reducible apply State.applyEntries_keeps
    | split
    | fail_if_no_progress (with_reducible refine Keeps.lit ?_ rfl id id)
    | with_reducible apply Keeps.ite
    | with_reducible apply forAll_keeps
    | with_reducible apply Keeps.foldl
    )

theorem State.swapRecall_keeps : ∀ a1, Keeps P s0 s → Keeps P s0 (State.swapRecall s a1) := by
  intro a1 h
  unfold State.swapRecall
  repeat' (first
    | with_reducible assumption
    | with_reducible apply State.turnTile_keeps
    | with_reducible apply State.audible_keeps
    | with_reducible apply State.recognised_keeps
    | exact fun c => ⟨(Keeps.tileOf (by assumption) c _).smp, (Keeps.tileOf (by assumption) c _).ctl⟩
    | exact fun _ => Tile.Canonical.empty
    | ((try lift_lets); intro x; with_reducible refine Keeps.cut (P := P) (s0 := s0) x ?_ ?_ <;> [(unfold x; clear x); (intro hx; clear_value x)])
    | ((try lift_lets); intro x)
    | with_reducible apply State.updScn_keeps
    | with_reducible apply State.setDom_keeps
    | with_reducible apply State.setTile_keeps
    | with_reducible apply State.startTile_keeps
    | with_reducible apply State.setCluster_keeps
    | with_reducible apply State.applyEntries_keeps
    | with_reducible apply Keeps.foldl
    | split
    | fail_if_no_progress (with_reducible refine Keeps.lit ?_ rfl id id)
    | with_reducible apply Keeps.ite
    | with_reducible apply forAll_keeps
    )

theorem State.lateEntries_keeps : Keeps P s0 s → Keeps P s0 (State.lateEntries s) := by
  intro h
  unfold State.lateEntries
  repeat' (first
    | with_reducible assumption
    | ((try lift_lets); intro x; with_reducible refine Keeps.cut (P := P) (s0 := s0) x ?_ ?_ <;> [(unfold x; clear x); (intro hx; clear_value x)])
    | ((try lift_lets); intro x)
    | with_reducible apply State.applyEntries_keeps
    | with_reducible apply State.updScn_keeps
    | with_reducible apply Keeps.foldl
    | split
    )

theorem State.dealBad_keeps : ∀ a1, Keeps P s0 s → Keeps P s0 (State.dealBad s a1) := by
  intro a1 h
  unfold State.dealBad
  repeat' (first
    | with_reducible assumption
    | with_reducible apply State.event_keeps
    )

theorem State.dealAnswer_keeps : ∀ a1 a2 a3, Keeps P s0 s → Keeps P s0 (State.dealAnswer s a1 a2 a3) := by
  intro a1 a2 a3 h
  unfold State.dealAnswer
  repeat' (first
    | with_reducible assumption
    | with_reducible apply State.updScn_keeps
    | with_reducible apply State.dealBad_keeps
    | split
    )

theorem State.dealAck_keeps : ∀ a1 a2 a3 a4, Keeps P s0 s → Keeps P s0 (State.dealAck s a1 a2 a3 a4) := by
  intro a1 a2 a3 a4 h
  unfold State.dealAck
  repeat' (first
    | with_reducible assumption
    | with_reducible apply State.dealAnswer_keeps
    | with_reducible apply State.domSend_keeps
    | with_reducible apply Keeps.ite
    )

theorem State.dealLate_keeps : ∀ a1, Keeps P s0 s → Keeps P s0 (State.dealLate s a1) := by
  intro a1 h
  unfold State.dealLate
  exact State.event_keeps _ _ _ _ _ _ h

theorem State.takeDeal_keeps : ∀ a1, Keeps P s0 s → Keeps P s0 (State.takeDeal s a1) := by
  intro a1 h
  unfold State.takeDeal
  repeat' (first
    | with_reducible assumption
    | ((try lift_lets); intro x; with_reducible refine Keeps.cut (P := P) (s0 := s0) x ?_ ?_ <;> [(unfold x; clear x); (intro hx; clear_value x)])
    | ((try lift_lets); intro x)
    | with_reducible apply State.dealAck_keeps
    | with_reducible apply State.updScn_keeps
    | with_reducible apply State.dealLate_keeps
    | with_reducible apply State.fetchScene_keeps
    | split
    )

theorem State.issueDeal_keeps : ∀ a1 a2, Keeps P s0 s → Keeps P s0 (State.issueDeal s a1 a2) := by
  intro a1 a2 h
  unfold State.issueDeal
  repeat' (first
    | with_reducible assumption
    | with_reducible apply State.updScn_keeps
    | with_reducible apply State.takeDeal_keeps
    | with_reducible apply State.domSend_keeps
    | with_reducible apply State.sendMirror_keeps
    )

theorem State.dealsDue_keeps : Keeps P s0 s → Keeps P s0 (State.dealsDue s) := by
  intro h
  unfold State.dealsDue
  repeat' (first
    | with_reducible assumption
    | with_reducible apply State.recognised_keeps
    | ((try lift_lets); intro x)
    | with_reducible apply State.updScn_keeps
    | with_reducible apply State.dealLate_keeps
    | with_reducible apply Keeps.ite
    | with_reducible apply Keeps.foldl
    )

theorem State.dealsAgain_keeps : ∀ a1, Keeps P s0 s → Keeps P s0 (State.dealsAgain s a1) := by
  intro a1 h
  unfold State.dealsAgain
  repeat' (first
    | with_reducible assumption
    | with_reducible apply State.dealLate_keeps
    | ((try lift_lets); intro x)
    | with_reducible apply State.updScn_keeps
    | with_reducible apply State.event_keeps
    | with_reducible apply State.count_keeps
    | with_reducible apply Keeps.foldl
    | split
    )

end Sys2Proof.Machine
end

