-- ==== Sys2Proof/Laws/KeepsRuleOps.lean ====
section
/-!
SUPPORT. What the operations of RuleOps keep.
-/

namespace Sys2Proof.Machine

variable {P : Counters → Prop} {s0 s : State}

theorem State.addHit_keeps : ∀ a1, Keeps P s0 s → Keeps P s0 (State.addHit s a1) := by
  intro a1 h
  unfold State.addHit
  repeat' (first
    | with_reducible assumption
    | with_reducible apply State.updCue_keeps
    | with_reducible apply Keeps.ite
    )

theorem State.addNext_keeps : ∀ a1, Keeps P s0 s → Keeps P s0 (State.addNext s a1) := by
  intro a1 h
  unfold State.addNext
  repeat' (first
    | with_reducible assumption
    | with_reducible apply State.updCue_keeps
    | with_reducible apply Keeps.ite
    )

theorem State.ruleAction_keeps : ∀ a1 a2 a3, Keeps P s0 s → Keeps P s0 (State.ruleAction s a1 a2 a3) := by
  intro a1 a2 a3 h
  unfold State.ruleAction
  repeat' (first
    | with_reducible assumption
    | with_reducible apply State.issueDeal_keeps
    | with_reducible apply State.updScn_keeps
    | with_reducible apply State.recallNotice_keeps
    | with_reducible apply State.updCue_keeps
    | with_reducible apply State.mark_keeps
    | split
    )

theorem State.runChain_keeps : ∀ h fuel i ran, Keeps P s0 s → Keeps P s0 (s.runChain h fuel i ran).1 := by
  intro h fuel i ran hs
  induction fuel generalizing s i ran with
  | zero => exact hs
  | succ fuel ih =>
    unfold State.runChain
    split
    · exact State.count_keeps _ _ _ _ hs
    · split
      · exact hs
      · lift_lets
        intro level s1
        have h1 : Keeps P s0 s1 := State.ruleAction_keeps _ _ _ hs
        clear_value s1
        intro s2
        have h2 : Keeps P s0 s2 := Keeps.ite (State.updCue_keeps _ h1) h1
        clear_value s2
        split
        · exact h2
        · exact ih _ _ h2

theorem State.runRules_keeps : Keeps P s0 s → Keeps P s0 s.runRules := by
  intro h
  unfold State.runRules
  have h2 : ∀ l : List (Nat × Nat), ∀ f, Keeps P s0 (l.foldl (fun (s : State) e => s.addHit { trig := e.2 }) (s.updCue f)) :=
    fun _ f => Keeps.foldl (State.updCue_keeps f h) fun s hs e => State.addHit_keeps _ hs
  refine Keeps.ite (State.updCue_keeps _ h) (Keeps.ite (h2 _ _) (Keeps.foldlFst ?_ fun b hb e => State.runChain_keeps _ _ _ _ hb))
  exact Keeps.ite (State.updCue_keeps _ (h2 _ _)) (State.count_keeps _ _ _ _ (State.updCue_keeps _ (h2 _ _)))

theorem State.readDetector_keeps : ∀ a1 a2, Keeps P s0 s → Keeps P s0 (State.readDetector s a1 a2) := by
  intro a1 a2 h
  unfold State.readDetector
  repeat' (first
    | with_reducible assumption
    | with_reducible apply State.readWord_keeps
    | with_reducible apply State.updCue_keeps
    | with_reducible apply State.addNext_keeps
    | with_reducible apply Keeps.ite
    | split
    )

theorem State.readDetectors_keeps : Keeps P s0 s → Keeps P s0 (State.readDetectors s) := by
  intro h
  unfold State.readDetectors
  repeat' (first
    | with_reducible assumption
    | intro x
    | with_reducible apply State.readDetector_keeps
    | with_reducible apply Keeps.foldl
    | split
    )

theorem State.timeTrig_keeps : ∀ i again, Keeps P s0 s → Keeps P s0 (s.timeTrig i again) := by
  intro i again h
  unfold State.timeTrig
  split
  · refine Keeps.ite h ?_
    lift_lets
    intro sec d act time put
    have hp : ∀ n s, Keeps P s0 s → Keeps P s0 (put n s) := fun n s hs =>
      Keeps.ite (State.updCue_keeps _ hs) (State.updCue_keeps _ hs)
    clear_value put
    intro th t
    have ht : Keeps P s0 t := Keeps.ite (State.addHit_keeps _ h) (State.addNext_keeps _ h)
    clear_value t
    exact Keeps.ite (hp _ _ (State.addHit_keeps _ h)) (Keeps.ite (hp _ _ (State.event_keeps _ _ _ _ _ _ ht)) h)
  · exact h

theorem State.pinEdge_keeps : ∀ a1 a2 a3 a4 a5, Keeps P s0 s → Keeps P s0 (State.pinEdge s a1 a2 a3 a4 a5) := by
  intro a1 a2 a3 a4 a5 h
  unfold State.pinEdge
  repeat' (first
    | with_reducible assumption
    | with_reducible apply State.updCue_keeps
    | with_reducible apply State.hitTrig_keeps
    | with_reducible apply Keeps.ite
    )

theorem State.pinLevel_keeps : ∀ a1 a2, Keeps P s0 s → Keeps P s0 (State.pinLevel s a1 a2) := by
  intro a1 a2 h
  unfold State.pinLevel
  exact Keeps.ite h (State.relayNow_keeps (fun _ hs n => State.levelAct_keeps a1 a2 n hs) _ h)

theorem State.cueSample_keeps : ∀ a1, Keeps P s0 s → Keeps P s0 (State.cueSample s a1) := by
  intro a1 h
  unfold State.cueSample
  repeat' (first
    | with_reducible assumption
    | with_reducible apply State.updCue_keeps
    | with_reducible apply Keeps.ite
    )

theorem State.pinStates_keeps : Keeps P s0 s → Keeps P s0 (State.pinStates s) := by
  intro h
  unfold State.pinStates
  repeat' (first
    | with_reducible assumption
    | ((try lift_lets); intro x)
    | with_reducible apply State.updCue_keeps
    | with_reducible apply State.setPinState_keeps
    | with_reducible apply Keeps.ite
    | with_reducible apply Keeps.foldl
    )

theorem State.pinChange_keeps : ∀ a1, Keeps P s0 s → Keeps P s0 (State.pinChange s a1) := by
  intro a1 h
  unfold State.pinChange
  repeat' (first
    | with_reducible assumption
    | with_reducible apply State.updCue_keeps
    | with_reducible apply State.setFlag_keeps
    )

theorem State.statStrobe_keeps : ∀ a1, Keeps P s0 s → Keeps P s0 (State.statStrobe s a1) := by
  intro a1 h
  unfold State.statStrobe
  repeat' (first
    | with_reducible assumption
    | ((try lift_lets); intro x)
    | with_reducible apply State.updCue_keeps
    | with_reducible apply State.pinChange_keeps
    | with_reducible apply Keeps.foldl
    )

theorem State.cuesOut_keeps : Keeps P s0 s → Keeps P s0 (State.cuesOut s) := by
  intro h
  unfold State.cuesOut
  repeat' (first
    | with_reducible assumption
    | ((try lift_lets); intro x)
    | with_reducible apply State.updDom_keeps
    | with_reducible apply State.updCue_keeps
    | with_reducible apply State.domSend_keeps
    | with_reducible apply Keeps.foldl
    )

end Sys2Proof.Machine
end

