-- ==== Sys2Proof/Laws/KeepsCueCmds.lean ====
section
/-!
SUPPORT. What the operations of CueCmds keep.
-/

namespace Sys2Proof.Machine

variable {P : Counters → Prop} {s0 s : State}

theorem execCuePinEdge_keeps : ∀ a0, Completes s (execCuePinEdge a0 s) := by
  intro a0
  have h : Keeps Counters.any s s := .refl s
  unfold execCuePinEdge
  repeat' (first
    | with_reducible assumption
    | ((try lift_lets); intro x)
    | with_reducible apply Completes.of
    | with_reducible apply State.pinLevel_keeps
    | with_reducible apply State.pinEdge_keeps
    | with_reducible apply Keeps.foldl
    | split
    )

theorem execCuePinStale_keeps : ∀ a0, Completes s (execCuePinStale a0 s) := by
  intro a0
  have h : Keeps Counters.any s s := .refl s
  unfold execCuePinStale
  repeat' (first
    | with_reducible assumption
    | with_reducible apply Completes.of
    | with_reducible apply State.recognise_keeps
    )

theorem execTimeTrigger_keeps : ∀ a0, Completes s (execTimeTrigger a0 s) := by
  intro a0
  have h : Keeps Counters.any s s := .refl s
  unfold execTimeTrigger
  repeat' (first
    | with_reducible assumption
    | with_reducible apply Completes.of
    | with_reducible apply State.timeTrig_keeps
    | with_reducible apply Keeps.ite
    )

theorem execTimedCue_keeps : Completes s (execTimedCue s) := by
  have h : Keeps Counters.any s s := .refl s
  unfold execTimedCue
  repeat' (first
    | with_reducible assumption
    | ((try lift_lets); intro x)
    | with_reducible apply Completes.of
    | with_reducible apply State.updCue_keeps
    | with_reducible apply forAll_keeps
    | with_reducible apply State.addHit_keeps
    | with_reducible apply Keeps.ite
    | with_reducible apply Keeps.foldl
    )

theorem execCueMsg_keeps : ∀ a0 a1 a2 a3, Completes s (execCueMsg a0 a1 a2 a3 s) := by
  intro a0 a1 a2 a3
  have h : Keeps Counters.any s s := .refl s
  unfold execCueMsg
  repeat' (first
    | with_reducible assumption
    | with_reducible refine fun (x : State) (hx : Keeps Counters.any _ x) => ?_
    | with_reducible apply Completes.of
    | with_reducible apply State.onMsg_keeps
    | with_reducible apply State.updDom_keeps
    | with_reducible apply State.updCue_keeps
    | with_reducible apply State.recognise_keeps
    | split
    )

theorem execStatStuck_keeps : ∀ a0, Completes s (execStatStuck a0 s) := by
  intro a0
  have h : Keeps Counters.any s s := .refl s
  unfold execStatStuck
  repeat' (first
    | with_reducible assumption
    | with_reducible apply Completes.of
    | with_reducible apply State.updCue_keeps
    | with_reducible apply State.setFlag_keeps
    | with_reducible apply State.raise_keeps
    | with_reducible apply State.recognise_keeps
    | with_reducible apply Keeps.ite
    )

theorem execPulseEnd_keeps : ∀ a0, Completes s (execPulseEnd a0 s) := by
  intro a0
  have h : Keeps Counters.any s s := .refl s
  unfold execPulseEnd
  repeat' (first
    | with_reducible assumption
    | with_reducible apply Completes.of
    | with_reducible apply State.setFlag_keeps
    | with_reducible apply State.updCue_keeps
    | with_reducible apply Keeps.ite
    )

end Sys2Proof.Machine
end

