-- ==== Sys2Proof/Laws/KeepsDomCmds.lean ====
section
/-!
SUPPORT. What the operations of DomCmds keep.
-/

namespace Sys2Proof.Machine

variable {P : Counters → Prop} {s0 s : State}

theorem execEthFrame_keeps : ∀ a0 a1, Completes s (execEthFrame a0 a1 s) := fun _ _ => .of (State.ethHeard_keeps _ _ (.refl s))

theorem execJoinMsg_keeps : ∀ a0 a1 a2 a3 a4 a5 a6, Completes s (execJoinMsg a0 a1 a2 a3 a4 a5 a6 s) := by
  intro a0 a1 a2 a3 a4 a5 a6
  have h : Keeps Counters.any s s := .refl s
  unfold execJoinMsg
  repeat' (first
    | with_reducible assumption
    | with_reducible refine fun (x : State) (hx : Keeps Counters.any _ x) => ?_
    | with_reducible apply Completes.of
    | with_reducible apply State.onMsg_keeps
    | with_reducible apply State.updDom_keeps
    | with_reducible apply Keeps.ite
    )

theorem execAdmitMsg_keeps : ∀ a0 a1 a2, Completes s (execAdmitMsg a0 a1 a2 s) := by
  intro a0 a1 a2
  have h : Keeps Counters.any s s := .refl s
  unfold execAdmitMsg
  repeat' (first
    | with_reducible assumption
    | with_reducible refine fun (x : State) (hx : Keeps Counters.any _ x) => ?_
    | with_reducible apply Completes.of
    | with_reducible apply State.onMsg_keeps
    | with_reducible apply State.updDom_keeps
    | with_reducible apply Keeps.ite
    )

theorem execRefuseMsg_keeps : ∀ a0 a1, Completes s (execRefuseMsg a0 a1 s) := by
  intro a0 a1
  have h : Keeps Counters.any s s := .refl s
  unfold execRefuseMsg
  repeat' (first
    | with_reducible assumption
    | with_reducible refine fun (x : State) (hx : Keeps Counters.any _ x) => ?_
    | with_reducible apply Completes.of
    | with_reducible apply State.onMsg_keeps
    | with_reducible apply State.updDom_keeps
    | with_reducible apply State.event_keeps
    | with_reducible apply Keeps.ite
    )

theorem execLeaveMsg_keeps : ∀ a0, Completes s (execLeaveMsg a0 s) := by
  intro a0
  have h : Keeps Counters.any s s := .refl s
  unfold execLeaveMsg
  repeat' (first
    | with_reducible assumption
    | with_reducible refine fun (x : State) (hx : Keeps Counters.any _ x) => ?_
    | with_reducible apply Completes.of
    | with_reducible apply State.onMsg_keeps
    | with_reducible apply State.markAbsent_keeps
    | with_reducible apply Keeps.ite
    )

theorem execManagerMsg_keeps : ∀ a0 a1 a2 a3 a4, Completes s (execManagerMsg a0 a1 a2 a3 a4 s) := by
  intro a0 a1 a2 a3 a4
  have h : Keeps Counters.any s s := .refl s
  unfold execManagerMsg
  repeat' (first
    | with_reducible assumption
    | with_reducible refine fun (x : State) (hx : Keeps Counters.any _ x) => ?_
    | with_reducible apply Completes.of
    | with_reducible apply State.onMsg_keeps
    | with_reducible apply State.updDom_keeps
    | with_reducible apply Keeps.ite
    | fail_if_no_progress (with_reducible refine Keeps.lit ?_ rfl id (fun _ => trivial))
    )

theorem execHeartbeatMsg_keeps : ∀ a0 a1 a2 a3 a4, Completes s (execHeartbeatMsg a0 a1 a2 a3 a4 s) := by
  intro a0 a1 a2 a3 a4
  have h : Keeps Counters.any s s := .refl s
  unfold execHeartbeatMsg
  repeat' (first
    | with_reducible assumption
    | with_reducible refine fun (x : State) (hx : Keeps Counters.any _ x) => ?_
    | with_reducible apply Completes.of
    | with_reducible apply State.onMsg_keeps
    | with_reducible apply State.setRoster_keeps
    | with_reducible apply Keeps.ite
    )

theorem State.mirrorApply_keeps : ∀ a1, Keeps P s0 s → Keeps P s0 (State.mirrorApply s a1) := by
  intro a1 h
  unfold State.mirrorApply
  repeat' (first
    | with_reducible assumption
    | with_reducible apply State.setRoster_keeps
    | with_reducible apply State.updDom_keeps
    | fail_if_no_progress (with_reducible refine Keeps.lit ?_ rfl id id)
    | split
    )

theorem execMirrorMsg_keeps : ∀ a0 a1, Completes s (execMirrorMsg a0 a1 s) := by
  intro a0 a1
  have h : Keeps Counters.any s s := .refl s
  unfold execMirrorMsg
  repeat' (first
    | with_reducible assumption
    | intro x
    | with_reducible apply Completes.of
    | with_reducible apply State.onMsg_keeps
    | with_reducible apply State.mirrorApply_keeps
    | with_reducible apply Keeps.ite
    | with_reducible apply Keeps.foldl
    )

theorem execStreamsMsg_keeps : ∀ a0 a1 a2, Completes s (execStreamsMsg a0 a1 a2 s) := by
  intro a0 a1 a2
  have h : Keeps Counters.any s s := .refl s
  unfold execStreamsMsg
  repeat' (first
    | with_reducible assumption
    | with_reducible refine fun (x : State) (hx : Keeps Counters.any _ x) => ?_
    | with_reducible apply Completes.of
    | with_reducible apply State.onMsg_keeps
    | with_reducible apply State.streamsAt_keeps
    )

theorem execStreamEpoch_keeps : Completes s (execStreamEpoch s) := by
  have h : Keeps Counters.any s s := .refl s
  unfold execStreamEpoch
  repeat' (first
    | with_reducible assumption
    | with_reducible apply Completes.of
    | with_reducible apply State.streamEpoch_keeps
    )

theorem execTallyPull_keeps : ∀ a0 a1 a2 a3, Completes s (execTallyPull a0 a1 a2 a3 s) := by
  intro a0 a1 a2 a3
  have h : Keeps Counters.any s s := .refl s
  unfold execTallyPull
  repeat' (first
    | with_reducible assumption
    | with_reducible refine fun (x : State) (hx : Keeps Counters.any _ x) => ?_
    | with_reducible apply Completes.of
    | with_reducible apply State.onMsg_keeps
    | with_reducible apply State.domSend_keeps
    | with_reducible apply Keeps.ite
    )

theorem execTallySummary_keeps : ∀ a0 a1 a2 a3, Completes s (execTallySummary a0 a1 a2 a3 s) := by
  intro a0 a1 a2 a3
  have h : Keeps Counters.any s s := .refl s
  unfold execTallySummary
  repeat' (first
    | with_reducible assumption
    | with_reducible refine fun (x : State) (hx : Keeps Counters.any _ x) => ?_
    | with_reducible apply Completes.of
    | with_reducible apply State.onMsg_keeps
    )

theorem execParamMsg_keeps : ∀ a0 a1, Completes s (execParamMsg a0 a1 s) := by
  intro a0 a1
  have h : Keeps Counters.any s s := .refl s
  unfold execParamMsg
  repeat' (first
    | with_reducible assumption
    | intro x
    | with_reducible apply Completes.of
    | with_reducible apply State.onMsg_keeps
    | with_reducible apply State.rawWrite_keeps
    | with_reducible apply Keeps.ite
    | with_reducible apply Keeps.foldl
    )

theorem State.managerSend_keeps : Keeps P s0 s → Keeps P s0 (State.managerSend s) := by
  intro h
  unfold State.managerSend
  repeat' (first
    | with_reducible assumption
    | with_reducible apply State.updDom_keeps
    | with_reducible apply State.domSend_keeps
    )

theorem execManagerSend_keeps : Completes s (execManagerSend s) := by
  have h : Keeps Counters.any s s := .refl s
  unfold execManagerSend
  repeat' (first
    | with_reducible assumption
    | with_reducible apply Completes.of
    | with_reducible apply State.managerSend_keeps
    | with_reducible apply Keeps.ite
    )

theorem execManagerTakeover_keeps : Completes s (execManagerTakeover s) := by
  have h : Keeps Counters.any s s := .refl s
  unfold execManagerTakeover
  repeat' (first
    | with_reducible assumption
    | with_reducible apply Completes.of
    | with_reducible apply State.updDom_keeps
    | with_reducible apply State.managerSend_keeps
    | with_reducible apply State.event_keeps
    | with_reducible apply Keeps.ite
    | fail_if_no_progress (with_reducible refine Keeps.lit ?_ rfl id (fun _ => trivial))
    )

theorem execHeartbeatSend_keeps : Completes s (execHeartbeatSend s) := by
  have h : Keeps Counters.any s s := .refl s
  unfold execHeartbeatSend
  repeat' (first
    | with_reducible assumption
    | with_reducible apply Completes.of
    | with_reducible apply State.domSend_keeps
    | with_reducible apply Keeps.ite
    )

theorem execHeartbeatExpiry_keeps : ∀ a0, Completes s (execHeartbeatExpiry a0 s) := by
  intro a0
  have h : Keeps Counters.any s s := .refl s
  unfold execHeartbeatExpiry
  repeat' (first
    | with_reducible assumption
    | with_reducible apply Completes.of
    | with_reducible apply State.markAbsent_keeps
    | with_reducible apply Keeps.ite
    )

theorem execJoinRetry_keeps : Completes s (execJoinRetry s) := by
  have h : Keeps Counters.any s s := .refl s
  unfold execJoinRetry
  repeat' (first
    | with_reducible assumption
    | with_reducible apply Completes.of
    | with_reducible apply State.joinSend_keeps
    | fail_if_no_progress (with_reducible refine Keeps.lit ?_ rfl id (fun _ => trivial))
    | split
    )

end Sys2Proof.Machine
end

