-- ==== Sys2Proof/Laws/KeepsLibOps.lean ====
section
/-!
SUPPORT. What the operations of LibOps keep.
-/

namespace Sys2Proof.Machine

variable {P : Counters → Prop} {s0 s : State}

theorem State.readWords_keeps : ∀ a n, Keeps P s0 s → Keeps P s0 (s.readWords a n).2 := by
  intro a n h
  induction n generalizing s a with
  | zero => exact h
  | succ n ih => exact ih _ (State.readWord_keeps _ h)

theorem State.callExc_keeps : ∀ a1 a2 a3, Keeps P s0 s → Keeps P s0 (State.callExc s a1 a2 a3) := fun n _ _ h =>
  State.tileExc_keeps _ _ _ _ _ (State.setTile_keeps _ _ (fun c => ⟨(Keeps.tileOf h c n).smp, (Keeps.tileOf h c n).ctl⟩) h)

theorem State.runCall_keeps : ∀ n c, Keeps P s0 s → Keeps P s0 (s.runCall n c) := by
  intro n c h
  cases c with
  | cross c old new out =>
    exact State.wr32_keeps _ _ (State.readWord_keeps _ (State.readWord_keeps _ h))
  | node inst c ins outs =>
    unfold State.runCall
    dsimp only
    split
    · exact h
    · next r _ =>
      have h1 := State.readWords_keeps (tileBase n + ins) r.nIn h
      generalize s.readWords (tileBase n + ins) r.nIn = p at h1 ⊢
      obtain ⟨xs, t⟩ := p
      dsimp only at h1 ⊢
      refine Keeps.foldl (Keeps.foldl (State.setNodeSt_keeps _ _ ?_) fun s hs m => State.wr32_keeps _ _ hs) fun s hs y =>
        State.wr32_keeps _ _ hs
      split
      · exact State.clipRun_keeps _ _ h1
      · split
        · exact h1
        · exact h1

theorem State.tryCall_keeps : ∀ a1 a2, Keeps P s0 s → Keeps P s0 (State.tryCall s a1 a2) := by
  intro a1 a2 h
  unfold State.tryCall
  repeat' (first
    | with_reducible assumption
    | with_reducible apply State.callExc_keeps
    | with_reducible apply State.runCall_keeps
    | with_reducible apply Keeps.ite
    | split
    | fail_if_no_progress (with_reducible refine Keeps.lit ?_ rfl id id)
    | ((try lift_lets); intro x)
    | with_reducible apply forAll_keeps
    | with_reducible apply Keeps.foldl
    )

theorem State.runLib_keeps : ∀ a1 a2, Keeps P s0 s → Keeps P s0 (State.runLib s a1 a2) := by
  intro a1 a2 h
  unfold State.runLib
  repeat' (first
    | with_reducible assumption
    | with_reducible apply State.tryCall_keeps
    | exact fun c => ⟨(Keeps.tileOf (by assumption) c _).smp, (Keeps.tileOf (by assumption) c _).ctl⟩
    | ((try lift_lets); intro x)
    | with_reducible apply State.setTile_keeps
    | with_reducible apply State.runCall_keeps
    | with_reducible apply Keeps.ite
    | with_reducible apply Keeps.foldl
    | fail_if_no_progress (with_reducible refine Keeps.lit ?_ rfl id id)
    | with_reducible apply forAll_keeps
    | split
    )

theorem State.runLibs_keeps : ∀ a1 a2, Keeps P s0 s → Keeps P s0 (State.runLibs s a1 a2) := by
  intro a1 a2 h
  unfold State.runLibs
  repeat' (first
    | with_reducible assumption
    | ((try lift_lets); intro x)
    | with_reducible apply forAll_keeps
    | with_reducible apply State.runLib_keeps
    )

end Sys2Proof.Machine
end

