-- ==== Sys2Proof/Laws/KeepsGridOps.lean ====
section
/-!
SUPPORT. What the operations of GridOps keep.
-/

namespace Sys2Proof.Machine

variable {P : Counters → Prop} {s0 s : State}

theorem State.updGrid_keeps : ∀ f, Keeps P s0 s → (P s.grid.counters → P (f s.grid).counters) → Keeps P s0 (State.updGrid s f) :=
  fun _ h hf => Keeps.lit h rfl id hf

theorem State.measure_keeps : Keeps P s0 s → Keeps P s0 (State.measure s) := by
  intro h
  unfold State.measure
  repeat' (first
    | with_reducible assumption
    | with_reducible apply State.gridHold_keeps
    | with_reducible apply State.divFree_keeps
    | (with_reducible apply State.updGrid_keeps); on_goal 2 => first | exact id | exact fun _ => trivial
    | with_reducible apply State.event_keeps
    | with_reducible apply Keeps.ite
    | split
    )

theorem State.reanchor_keeps : ∀ a1, Keeps Counters.any s0 s → Keeps Counters.any s0 (State.reanchor s a1) := by
  intro a1 h
  unfold State.reanchor
  repeat' (first
    | with_reducible assumption
    | (with_reducible apply State.updGrid_keeps); on_goal 2 => first | exact id | exact fun _ => trivial
    | with_reducible apply State.event_keeps
    )

theorem State.gridReturn_keeps : Keeps Counters.any s0 s → Keeps Counters.any s0 (State.gridReturn s) := by
  intro h
  unfold State.gridReturn
  repeat' (first
    | with_reducible assumption
    | (with_reducible apply State.updGrid_keeps); on_goal 2 => first | exact id | exact fun _ => trivial
    | with_reducible apply State.reanchor_keeps
    | split
    )

theorem State.gridEnd_keeps : Keeps Counters.any s0 s → Keeps Counters.any s0 (State.gridEnd s) := by
  intro h
  unfold State.gridEnd
  repeat' (first
    | with_reducible assumption
    | with_reducible apply State.gridReturn_keeps
    | with_reducible apply State.gridHold_keeps
    | with_reducible apply Keeps.ite
    )

theorem State.gridStep_keeps : Keeps Counters.any s0 s → Keeps Counters.any s0 (State.gridStep s) := by
  intro h
  unfold State.gridStep
  repeat' (first
    | with_reducible assumption
    | ((try lift_lets); intro x)
    | (with_reducible apply State.updGrid_keeps); on_goal 2 => first | exact id | exact fun _ => trivial
    | split
    )

theorem State.afterReanchor_keeps : Keeps P s0 s → Keeps P s0 (State.afterReanchor s) := by
  intro h
  unfold State.afterReanchor
  repeat' (first
    | with_reducible assumption
    | ((try lift_lets); intro x)
    | with_reducible apply State.dealsAgain_keeps
    | (with_reducible apply State.updGrid_keeps); on_goal 2 => first | exact id | exact fun _ => trivial
    | with_reducible apply forAll_keeps
    | with_reducible apply State.timeTrig_keeps
    | with_reducible apply Keeps.ite
    )

theorem State.fnEnd_keeps : Keeps P s0 s → Keeps P s0 (State.fnEnd s) := by
  intro h
  unfold State.fnEnd
  repeat' (first
    | with_reducible assumption
    | (with_reducible apply State.updGrid_keeps); on_goal 2 => first | exact id | exact fun _ => trivial
    | split
    )

theorem State.regionsEnd_keeps : Keeps P s0 s → Keeps P s0 (State.regionsEnd s) := by
  intro h
  unfold State.regionsEnd
  repeat' (first
    | with_reducible assumption
    | ((try lift_lets); intro x)
    | with_reducible apply forAll_keeps
    | with_reducible apply State.regionWake_keeps
    | with_reducible apply Keeps.ite
    | fail_if_no_progress (with_reducible refine Keeps.lit ?_ rfl id id)
    )

theorem State.regionsWoken_keeps : Keeps P s0 s → Keeps P s0 (State.regionsWoken s) := by
  intro h
  unfold State.regionsWoken
  repeat' (first
    | with_reducible assumption
    | ((try lift_lets); intro x)
    | with_reducible apply forAll_keeps
    | with_reducible apply State.wakeTile_keeps
    | with_reducible apply State.setDom_keeps
    | with_reducible apply Keeps.ite
    | fail_if_no_progress (with_reducible refine Keeps.lit ?_ rfl id id)
    )

theorem State.libEnd_keeps : ∀ a1, Keeps P s0 s → Keeps P s0 (State.libEnd s a1) := by
  intro a1 h
  unfold State.libEnd
  repeat' (first
    | with_reducible assumption
    | exact fun c => ⟨(Keeps.tileOf (by assumption) c _).smp, (Keeps.tileOf (by assumption) c _).ctl⟩
    | with_reducible apply State.setTile_keeps
    | with_reducible apply Keeps.ite
    )

theorem State.passSamples_keeps : Keeps P s0 s → Keeps P s0 (State.passSamples s) := by
  intro h
  unfold State.passSamples
  repeat' (first
    | with_reducible assumption
    | ((try lift_lets); intro x)
    | with_reducible apply forAll_keeps
    | with_reducible apply State.monitor_keeps
    | with_reducible apply Keeps.ite
    )

theorem State.endPass_keeps : ∀ a1, Keeps Counters.any s0 s → Keeps Counters.any s0 (State.endPass s a1) := by
  intro a1 h
  unfold State.endPass
  repeat' (first
    | with_reducible assumption
    | ((try lift_lets); intro x)
    | with_reducible apply forAll_keeps
    | with_reducible apply State.exchangeEnd_keeps
    | with_reducible apply State.runLibs_keeps
    | with_reducible apply State.libEnd_keeps
    | with_reducible apply State.passSamples_keeps
    | with_reducible apply State.pdmPass_keeps
    | with_reducible apply State.regionsEnd_keeps
    | with_reducible apply State.runRules_keeps
    | with_reducible apply State.readDetectors_keeps
    | with_reducible apply State.arbitrate_keeps
    | with_reducible apply State.gridEnd_keeps
    | with_reducible apply Keeps.ite
    | fail_if_no_progress (with_reducible refine Keeps.lit ?_ rfl id (fun _ => trivial))
    )

theorem State.timeStrobe_keeps : Keeps Counters.any s0 s → Keeps Counters.any s0 (State.timeStrobe s) := by
  intro h
  unfold State.timeStrobe
  repeat' (first
    | with_reducible assumption
    | with_reducible apply State.ptpStrobe_keeps
    | with_reducible apply State.clkStrobe_keeps
    | with_reducible apply State.measure_keeps
    | with_reducible apply State.gridStep_keeps
    | with_reducible apply Keeps.ite
    )

theorem State.sendStrobe_keeps : ∀ a1 a2, Keeps P s0 s → Keeps P s0 (State.sendStrobe s a1 a2) := by
  intro a1 a2 h
  unfold State.sendStrobe
  repeat' (first
    | with_reducible assumption
    | with_reducible apply State.act_keeps
    | with_reducible apply State.restoresAsk_keeps
    | with_reducible apply State.outsDrive_keeps
    | ((try lift_lets); intro x)
    | with_reducible apply State.reportsDue_keeps
    | with_reducible apply State.cuesOut_keeps
    | with_reducible apply State.joinsDue_keeps
    | with_reducible apply State.txStrobe_keeps
    | with_reducible apply forAll_keeps
    | with_reducible apply State.raceSend_keeps
    | with_reducible apply State.twinStrobe_keeps
    | with_reducible apply Keeps.ite
    | fail_if_no_progress (with_reducible refine Keeps.lit ?_ rfl id id)
    | with_reducible apply Keeps.foldl
    | split
    )

theorem State.clusterStart_keeps : ∀ a1 a2, Keeps P s0 s → Keeps P s0 (State.clusterStart s a1 a2) := by
  intro a1 a2 h
  unfold State.clusterStart
  repeat' (first
    | with_reducible assumption
    | with_reducible apply State.setCluster_keeps
    | with_reducible apply Keeps.ite
    )

theorem State.tileStart_keeps : ∀ a1, Keeps P s0 s → Keeps P s0 (State.tileStart s a1) := by
  intro a1 h
  unfold State.tileStart
  repeat' (first
    | with_reducible assumption
    | exact fun c => ⟨(Keeps.tileOf (by assumption) c _).smp, (Keeps.tileOf (by assumption) c _).ctl⟩
    | with_reducible apply State.setTile_keeps
    | with_reducible apply State.startTile_keeps
    | with_reducible apply Keeps.ite
    )

theorem State.windowStart_keeps : Keeps P s0 s → Keeps P s0 (State.windowStart s) := by
  intro h
  unfold State.windowStart
  repeat' (first
    | with_reducible assumption
    | ((try lift_lets); intro x)
    | with_reducible apply State.setMon_keeps
    | with_reducible apply Keeps.ite
    | with_reducible apply Keeps.foldl
    )

theorem State.rampsStart_keeps : Keeps P s0 s → Keeps P s0 (State.rampsStart s) := by
  intro h
  unfold State.rampsStart
  repeat' (first
    | with_reducible assumption
    | ((try lift_lets); intro x)
    | with_reducible apply State.startRamp_keeps
    | with_reducible apply State.updCue_keeps
    | with_reducible apply Keeps.foldl
    )

theorem State.recognised_keeps : Keeps P s0 s → Keeps P s0 (State.recognised s) := by
  intro h
  unfold State.recognised
  repeat' (first
    | with_reducible assumption
    | with_reducible apply State.updScn_keeps
    | with_reducible apply State.updCue_keeps
    )

theorem State.pdmClocks_keeps : ∀ a1, Keeps P s0 s → Keeps P s0 (State.pdmClocks s a1) := by
  intro a1 h
  unfold State.pdmClocks
  repeat' (first
    | with_reducible assumption
    | with_reducible apply Keeps.ite
    | fail_if_no_progress (with_reducible refine Keeps.lit ?_ rfl id id)
    | ((try lift_lets); intro x)
    | with_reducible apply forAll_keeps
    | with_reducible apply Keeps.foldl
    | split
    )

theorem State.leaveNow_keeps : Keeps P s0 s → Keeps P s0 (State.leaveNow s) := by
  intro h
  unfold State.leaveNow
  repeat' (first
    | with_reducible assumption
    | with_reducible apply State.candStops_keeps
    | ((try lift_lets); intro x)
    | with_reducible apply State.decideYield_keeps
    | with_reducible apply State.leaveSend_keeps
    | with_reducible apply forAll_keeps
    | with_reducible apply State.portStop_keeps
    | with_reducible apply State.pdmStop_keeps
    | with_reducible apply Keeps.ite
    | fail_if_no_progress (with_reducible refine Keeps.lit ?_ rfl id id)
    | with_reducible apply Keeps.foldl
    | split
    )

theorem State.idleStrobe_keeps : ∀ a1, Keeps Counters.any s0 s → Keeps Counters.any s0 (State.idleStrobe s a1) := by
  intro a1 h
  unfold State.idleStrobe
  repeat' (first
    | with_reducible assumption
    | with_reducible apply State.actsDue_keeps
    | with_reducible apply State.windowStart_keeps
    | ((try lift_lets); intro x)
    | with_reducible apply State.pdmStopEnd_keeps
    | with_reducible apply State.timeStrobe_keeps
    | with_reducible apply State.gridEnd_keeps
    | with_reducible apply State.sendStrobe_keeps
    | with_reducible apply forAll_keeps
    | with_reducible apply State.portFadeEnd_keeps
    | fail_if_no_progress (with_reducible refine Keeps.lit ?_ rfl id (fun _ => trivial))
    | with_reducible apply Keeps.ite
    | with_reducible apply Keeps.foldl
    | split
    )

theorem State.passOver_keeps : ∀ a1, Keeps Counters.any s0 s → Keeps Counters.any s0 (State.passOver s a1) := by
  intro a1 h
  unfold State.passOver
  repeat' (first
    | with_reducible assumption
    | ((try lift_lets); intro x)
    | with_reducible apply State.detect_keeps
    | with_reducible apply State.endPass_keeps
    | with_reducible apply State.timeStrobe_keeps
    | with_reducible apply forAll_keeps
    | fail_if_no_progress (with_reducible refine Keeps.lit ?_ rfl id (fun _ => trivial))
    | with_reducible apply Keeps.ite
    | with_reducible apply Keeps.foldl
    | split
    )

theorem State.takeOverruns_keeps : Keeps P s0 s → Keeps P s0 (State.takeOverruns s) := by
  intro h
  unfold State.takeOverruns
  repeat' (first
    | with_reducible assumption
    | ((try lift_lets); intro x)
    | with_reducible apply State.overrun_keeps
    | with_reducible apply forAll_keeps
    )

theorem State.beginPass_keeps : ∀ a1 a2, Keeps P s0 s → Keeps P s0 (State.beginPass s a1 a2) := by
  intro a1 a2 h
  unfold State.beginPass
  repeat' (first
    | with_reducible assumption
    | with_reducible apply State.actsDue_keeps
    | with_reducible apply State.srcKeep_keeps
    | with_reducible apply State.syncOver_keeps
    | with_reducible apply State.takeOverruns_keeps
    | ((try lift_lets); intro x)
    | with_reducible apply forAll_keeps
    | with_reducible apply State.overrun_keeps
    | with_reducible apply State.clusterStart_keeps
    | with_reducible apply State.regionsWoken_keeps
    | with_reducible apply State.afterReanchor_keeps
    | with_reducible apply State.leaveNow_keeps
    | with_reducible apply State.recognised_keeps
    | with_reducible apply State.fnEnd_keeps
    | with_reducible apply State.handlersTurn_keeps
    | with_reducible apply State.libControl_keeps
    | with_reducible apply State.statStrobe_keeps
    | with_reducible apply State.pinStates_keeps
    | with_reducible apply State.cueSample_keeps
    | with_reducible apply State.rampsStart_keeps
    | with_reducible apply State.queueWrites_keeps
    | with_reducible apply State.rampWrites_keeps
    | with_reducible apply State.rawsDue_keeps
    | with_reducible apply State.stageDue_keeps
    | with_reducible apply State.powerDue_keeps
    | with_reducible apply State.lateEntries_keeps
    | with_reducible apply State.tileStart_keeps
    | with_reducible apply State.releaseNow_keeps
    | with_reducible apply State.pdmClocks_keeps
    | with_reducible apply State.pdmStopEnd_keeps
    | with_reducible apply State.micFadeEnd_keeps
    | with_reducible apply State.portFadeEnd_keeps
    | with_reducible apply State.srcStep_keeps
    | with_reducible apply State.rxStrobe_keeps
    | with_reducible apply State.sendStrobe_keeps
    | with_reducible apply State.windowStart_keeps
    | with_reducible apply Keeps.ite
    | fail_if_no_progress (with_reducible refine Keeps.lit ?_ rfl id id)
    | with_reducible apply Keeps.foldl
    | split
    )

theorem State.graphStart_keeps : Keeps P s0 s → Keeps P s0 (State.graphStart s) := by
  intro h
  unfold State.graphStart
  repeat' (first
    | with_reducible assumption
    | with_reducible apply State.srcPhase_keeps
    | (with_reducible apply State.updGrid_keeps); on_goal 2 => first | exact id | exact fun _ => trivial
    | ((try lift_lets); intro x)
    | with_reducible apply State.setMode_keeps
    | with_reducible apply forAll_keeps
    | with_reducible apply State.setCluster_keeps
    | with_reducible apply State.zeroRange_keeps
    | with_reducible apply State.nodeClear_keeps
    | with_reducible apply Keeps.ite
    | with_reducible apply Keeps.foldl
    | fail_if_no_progress (with_reducible refine Keeps.lit ?_ rfl id id)
    | split
    )

theorem State.twinFirst_keeps : Keeps P s0 s → Keeps P s0 (State.twinFirst s) := by
  intro h
  unfold State.twinFirst
  repeat' (first
    | with_reducible assumption
    | with_reducible apply State.updTwin_keeps
    | fail_if_no_progress (with_reducible refine Keeps.lit ?_ rfl id id)
    | ((try lift_lets); intro x)
    | with_reducible apply Keeps.ite
    | with_reducible apply forAll_keeps
    | with_reducible apply Keeps.foldl
    | split
    )

theorem State.strobe_keeps : ∀ a1, Keeps Counters.any s0 s → Keeps Counters.any s0 (State.strobe s a1) := by
  intro a1 h
  unfold State.strobe
  repeat' (first
    | with_reducible assumption
    | with_reducible apply State.actsDue_keeps
    | with_reducible apply State.gridEnd_keeps
    | with_reducible apply State.takeOverruns_keeps
    | with_reducible apply State.windowsStop_keeps
    | with_reducible apply State.passOver_keeps
    | ((try lift_lets); intro x; with_reducible refine Keeps.cut (P := Counters.any) (s0 := s0) x ?_ ?_ <;> [(unfold x; clear x); (intro hx; clear_value x)])
    | with_reducible apply State.timeStrobe_keeps
    | with_reducible apply State.twinFirst_keeps
    | with_reducible apply State.beginPass_keeps
    | with_reducible apply State.graphStart_keeps
    | (with_reducible apply State.updGrid_keeps); on_goal 2 => first | exact id | exact fun _ => trivial
    | with_reducible apply State.sendStrobe_keeps
    | with_reducible apply State.idleStrobe_keeps
    | with_reducible apply State.endPass_keeps
    | split
    | fail_if_no_progress (with_reducible refine Keeps.lit ?_ rfl id (fun _ => trivial))
    | with_reducible apply Keeps.ite
    | with_reducible apply forAll_keeps
    | with_reducible apply Keeps.foldl
    )

end Sys2Proof.Machine
end

