-- ==== Sys2Proof/Laws/KeepsGridCmds.lean ====
section
/-!
SUPPORT. What the operations of GridCmds keep.
-/

namespace Sys2Proof.Machine

variable {P : Counters → Prop} {s0 s : State}

theorem execStrobe_keeps : ∀ a0, Completes s (execStrobe a0 s) := by
  intro a0
  have h : Keeps Counters.any s s := .refl s
  unfold execStrobe
  repeat' (first
    | with_reducible assumption
    | with_reducible apply Completes.of
    | with_reducible apply State.strobe_keeps
    )

theorem execAnchoring_keeps : Completes s (execAnchoring s) := by
  have h : Keeps Counters.any s s := .refl s
  unfold execAnchoring
  repeat' (first
    | with_reducible assumption
    | with_reducible apply Completes.of
    | (with_reducible apply State.updGrid_keeps); on_goal 2 => first | exact id | exact fun _ => trivial
    | split
    )

theorem execAligned_keeps : Completes s (execAligned s) := by
  have h : Keeps Counters.any s s := .refl s
  unfold execAligned
  repeat' (first
    | with_reducible assumption
    | with_reducible apply Completes.of
    | (with_reducible apply State.updGrid_keeps); on_goal 2 => first | exact id | exact fun _ => trivial
    | with_reducible apply State.timeRec_keeps
    | with_reducible apply State.leaveSync_keeps
    | with_reducible apply State.dealsAgain_keeps
    | with_reducible apply State.joinSend_keeps
    | with_reducible apply Keeps.ite
    )

theorem execExchangeDescriptor_keeps : ∀ a0, Completes s (execExchangeDescriptor a0 s) := by
  intro a0
  have h : Keeps Counters.any s s := .refl s
  unfold execExchangeDescriptor
  repeat' (first
    | with_reducible assumption
    | ((try lift_lets); intro x; with_reducible refine Keeps.cut (P := Counters.any) (s0 := s) x ?_ ?_ <;> [(unfold x; clear x); (intro hx; clear_value x)])
    | ((try lift_lets); intro x)
    | with_reducible apply Completes.of
    | with_reducible apply State.runLibs_keeps
    | with_reducible apply State.setCluster_keeps
    | with_reducible apply State.detect_keeps
    | with_reducible apply State.runDesc_keeps
    | with_reducible apply State.raiseInj_keeps
    | with_reducible apply State.disarm_keeps
    | with_reducible apply State.wrBytes_keeps
    | split
    )

end Sys2Proof.Machine
end

