-- ==== Sys2Proof/Laws/KeepsSceneCmds.lean ====
section
/-!
SUPPORT. What the operations of SceneCmds keep.
-/

namespace Sys2Proof.Machine

variable {P : Counters → Prop} {s0 s : State}

theorem State.writeRecall_keeps : ∀ a1, Keeps P s0 s → Keeps P s0 (State.writeRecall s a1) := by
  intro a1 h
  unfold State.writeRecall
  repeat' (first
    | with_reducible assumption
    | with_reducible apply State.relayNow_keeps
    | ((try lift_lets); intro x)
    | with_reducible apply State.updScn_keeps
    | with_reducible apply State.relay_keeps
    | fail_if_no_progress (with_reducible refine Keeps.lit ?_ rfl id id)
    | with_reducible apply Keeps.ite
    | with_reducible apply forAll_keeps
    | with_reducible apply Keeps.foldl
    | split
    )

theorem execScnRecall_keeps : ∀ a0, Completes s (execScnRecall a0 s) := by
  intro a0
  have h : Keeps Counters.any s s := .refl s
  unfold execScnRecall
  repeat' (first
    | with_reducible assumption
    | with_reducible apply Completes.of
    | with_reducible apply State.writeRecall_keeps
    )

theorem execStartPass_keeps : Completes s (execStartPass s) := by
  have h : Keeps Counters.any s s := .refl s
  unfold execStartPass
  repeat' (first
    | with_reducible assumption
    | with_reducible apply Completes.of
    | with_reducible apply State.startRecall_keeps
    | split
    )

theorem execAudibleStart_keeps : Completes s (execAudibleStart s) := by
  have h : Keeps Counters.any s s := .refl s
  unfold execAudibleStart
  repeat' (first
    | with_reducible assumption
    | ((try lift_lets); intro x)
    | with_reducible apply Completes.of
    | with_reducible apply State.audible_keeps
    | with_reducible apply State.updScn_keeps
    | with_reducible apply Keeps.ite
    | with_reducible apply Keeps.foldl
    )

theorem execSwapPass_keeps : Completes s (execSwapPass s) := by
  have h : Keeps Counters.any s s := .refl s
  unfold execSwapPass
  repeat' (first
    | with_reducible assumption
    | with_reducible apply Completes.of
    | with_reducible apply State.swapRecall_keeps
    | split
    )

theorem execRecallComplete_keeps : Completes s (execRecallComplete s) := by
  have h : Keeps Counters.any s s := .refl s
  unfold execRecallComplete
  repeat' (first
    | with_reducible assumption
    | with_reducible apply Completes.of
    | with_reducible apply State.updScn_keeps
    )

theorem State.fetchBad_keeps : ∀ a1, Keeps P s0 s → Keeps P s0 (State.fetchBad s a1) := by
  intro a1 h
  unfold State.fetchBad
  repeat' (first
    | with_reducible assumption
    | ((try lift_lets); intro x)
    | with_reducible apply State.event_keeps
    | with_reducible apply State.updScn_keeps
    | with_reducible apply State.dealAck_keeps
    | with_reducible apply State.abandonRecall_keeps
    | with_reducible apply Keeps.foldl
    | split
    )

theorem State.stageRecord_keeps : ∀ a1 a2 a3, Keeps P s0 s → Keeps P s0 (State.stageRecord s a1 a2 a3) := by
  intro a1 a2 a3 h
  unfold State.stageRecord
  repeat' (first
    | with_reducible assumption
    | with_reducible apply State.stageWrite_keeps
    | with_reducible apply State.updScn_keeps
    | fail_if_no_progress (with_reducible refine Keeps.lit ?_ rfl id id)
    | split
    )

theorem State.fetchGood_keeps : ∀ a1, Keeps P s0 s → Keeps P s0 (State.fetchGood s a1) := by
  intro a1 h
  unfold State.fetchGood
  repeat' (first
    | with_reducible assumption
    | ((try lift_lets); intro x)
    | with_reducible apply State.dealAck_keeps
    | with_reducible apply State.dealLate_keeps
    | with_reducible apply State.updScn_keeps
    | with_reducible apply Keeps.foldl
    | with_reducible apply Keeps.ite
    | fail_if_no_progress (with_reducible refine Keeps.lit ?_ rfl id id)
    | split
    )

theorem State.fetchOver_keeps : ∀ a1, Keeps P s0 s → Keeps P s0 (State.fetchOver s a1) := by
  intro a1 h
  unfold State.fetchOver
  repeat' (first
    | with_reducible assumption
    | ((try lift_lets); intro x)
    | with_reducible apply State.flashNext_keeps
    | with_reducible apply State.updScn_keeps
    | with_reducible apply Keeps.ite
    | fail_if_no_progress (with_reducible refine Keeps.lit ?_ rfl id id)
    | split
    )

theorem execColdFetch_keeps : ∀ a0 a1, Completes s (execColdFetch a0 a1 s) := by
  intro a0 a1
  have h : Keeps Counters.any s s := .refl s
  unfold execColdFetch
  repeat' (first
    | with_reducible assumption
    | with_reducible apply State.stageRecord_keeps
    | with_reducible apply State.fetchOver_keeps
    | with_reducible apply State.fetchGood_keeps
    | with_reducible apply State.event_keeps
    | with_reducible apply Keeps.ite
    | ((try lift_lets); intro x)
    | with_reducible apply Completes.of
    | with_reducible apply State.flashNext_keeps
    | with_reducible apply State.updScn_keeps
    | with_reducible apply State.dealAck_keeps
    | with_reducible apply State.fetchBad_keeps
    | with_reducible apply Keeps.foldl
    | fail_if_no_progress (with_reducible refine Keeps.lit ?_ rfl id (fun _ => trivial))
    | split
    )

theorem execColdFetchLate_keeps : Completes s (execColdFetchLate s) := by
  have h : Keeps Counters.any s s := .refl s
  unfold execColdFetchLate
  repeat' (first
    | with_reducible assumption
    | ((try lift_lets); intro x)
    | with_reducible apply Completes.of
    | with_reducible apply State.updScn_keeps
    | with_reducible apply State.event_keeps
    | with_reducible apply State.count_keeps
    | with_reducible apply Keeps.foldl
    )

theorem execHotRecordRefetch_keeps : ∀ a0, Completes s (execHotRecordRefetch a0 s) := by
  intro a0
  have h : Keeps Counters.any s s := .refl s
  unfold execHotRecordRefetch
  repeat' (first
    | with_reducible assumption
    | ((try lift_lets); intro x; with_reducible refine Keeps.cut (P := Counters.any) (s0 := s) x ?_ ?_ <;> [(unfold x; clear x); (intro hx; clear_value x)])
    | with_reducible apply Completes.of
    | with_reducible apply State.event_keeps
    | with_reducible apply State.flashAsk_keeps
    | with_reducible apply State.updScn_keeps
    | with_reducible apply State.abandonRecall_keeps
    | with_reducible apply Keeps.ite
    | split
    )

theorem execDealMsg_keeps : ∀ a0 a1, Completes s (execDealMsg a0 a1 s) := by
  intro a0 a1
  have h : Keeps Counters.any s s := .refl s
  unfold execDealMsg
  repeat' (first
    | with_reducible assumption
    | with_reducible refine fun (x : State) (hx : Keeps Counters.any _ x) => ?_
    | with_reducible apply Completes.of
    | with_reducible apply State.onMsg_keeps
    | with_reducible apply State.takeDeal_keeps
    )

theorem execDealDue_keeps : Completes s (execDealDue s) := by
  have h : Keeps Counters.any s s := .refl s
  unfold execDealDue
  repeat' (first
    | with_reducible assumption
    | with_reducible apply Completes.of
    | with_reducible apply State.dealsDue_keeps
    )

theorem execDealAck_keeps : ∀ a0 a1 a2 a3 a4, Completes s (execDealAck a0 a1 a2 a3 a4 s) := by
  intro a0 a1 a2 a3 a4
  have h : Keeps Counters.any s s := .refl s
  unfold execDealAck
  repeat' (first
    | with_reducible assumption
    | with_reducible refine fun (x : State) (hx : Keeps Counters.any _ x) => ?_
    | with_reducible apply Completes.of
    | with_reducible apply State.onMsg_keeps
    | with_reducible apply State.dealAnswer_keeps
    | with_reducible apply Keeps.ite
    )

theorem execDealAckDeadline_keeps : Completes s (execDealAckDeadline s) := by
  have h : Keeps Counters.any s s := .refl s
  unfold execDealAckDeadline
  repeat' (first
    | with_reducible assumption
    | ((try lift_lets); intro x)
    | with_reducible apply Completes.of
    | with_reducible apply State.updScn_keeps
    | with_reducible apply State.dealBad_keeps
    | with_reducible apply Keeps.foldl
    )

theorem execDealCancel_keeps : ∀ m id, Completes s (execDealCancel m id s) := by
  intro m id
  unfold execDealCancel
  refine Completes.of (State.onMsg_keeps (fun s hs => ?_) _ _ (Keeps.refl s))
  dsimp only
  split
  · exact Keeps.ite (State.dealAck_keeps _ _ _ _ (State.updScn_keeps _ hs)) (State.dealAck_keeps _ _ _ _ hs)
  · exact State.dealAck_keeps _ _ _ _ hs
  · exact hs

end Sys2Proof.Machine
end

