-- ==== Sys2Proof/Laws/KeepsFaultCmds.lean ====
section
/-!
SUPPORT. What the operations of FaultCmds keep.
-/

namespace Sys2Proof.Machine

variable {P : Counters → Prop} {s0 s : State}

theorem State.writeInject_keeps : ∀ a1, Keeps P s0 s → Keeps P s0 (State.writeInject s a1) := by
  intro a1 h
  unfold State.writeInject
  repeat' (first
    | with_reducible assumption
    | with_reducible apply State.setReg_keeps
    | with_reducible apply State.setFlag_keeps
    | with_reducible apply Keeps.ite
    | fail_if_no_progress (with_reducible refine Keeps.lit ?_ rfl id id)
    )

theorem execInjectArm_keeps : ∀ a0, Completes s (execInjectArm a0 s) := by
  intro a0
  have h : Keeps Counters.any s s := .refl s
  unfold execInjectArm
  repeat' (first
    | with_reducible assumption
    | with_reducible apply Completes.of
    | with_reducible apply State.writeInject_keeps
    )

theorem State.clusterReset_keeps : ∀ a1 a2, Keeps P s0 s → Keeps P s0 (State.clusterReset s a1 a2) := by
  intro a1 a2 h
  unfold State.clusterReset
  repeat' (first
    | with_reducible assumption
    | exact fun c => ⟨(Keeps.tileOf (by assumption) c _).smp, (Keeps.tileOf (by assumption) c _).ctl⟩
    | ((try lift_lets); intro x; with_reducible refine Keeps.cut (P := P) (s0 := s0) x ?_ ?_ <;> [(unfold x; clear x); (intro hx; clear_value x)])
    | ((try lift_lets); intro x)
    | with_reducible apply State.setCluster_keeps
    | with_reducible apply forAll_keeps
    | with_reducible apply State.stopTile_keeps
    | with_reducible apply State.setTile_keeps
    | with_reducible apply Keeps.ite
    )

theorem State.netRestart_keeps : Keeps P s0 s → Keeps P s0 (State.netRestart s) := by
  intro h
  unfold State.netRestart
  repeat' (first
    | with_reducible assumption
    | with_reducible apply State.setTimeValid_keeps
    | with_reducible apply Keeps.ite
    | fail_if_no_progress (with_reducible refine Keeps.lit ?_ rfl id id)
    )

theorem State.masterFault_keeps : ∀ a1 a2, Keeps P s0 s → Keeps P s0 (State.masterFault s a1 a2) := by
  intro a1 a2 h
  unfold State.masterFault
  repeat' (first
    | with_reducible assumption
    | ((try lift_lets); intro x)
    | with_reducible apply State.clusterReset_keeps
    | with_reducible apply forAll_keeps
    | with_reducible apply State.relay_keeps
    | with_reducible apply State.slipAct_keeps
    | with_reducible apply Keeps.ite
    | fail_if_no_progress (with_reducible refine Keeps.lit ?_ rfl id id)
    )

theorem State.containedReaction_keeps : ∀ a1 a2, Keeps P s0 s → Keeps P s0 (State.containedReaction s a1 a2) := by
  intro a1 a2 h
  unfold State.containedReaction
  repeat' (first
    | with_reducible assumption
    | with_reducible apply State.clusterReset_keeps
    | with_reducible apply State.masterFault_keeps
    | with_reducible apply State.netRestart_keeps
    | fail_if_no_progress (with_reducible refine Keeps.lit ?_ rfl id id)
    | split
    )

theorem State.twinContained_keeps : Keeps P s0 s → Keeps P s0 (State.twinContained s) := by
  intro h
  unfold State.twinContained
  repeat' (first
    | with_reducible assumption
    | with_reducible apply State.decideYield_keeps
    | with_reducible apply State.rejoinStart_keeps
    | split
    )

theorem State.queueReport_keeps : ∀ a1, Keeps P s0 s → Keeps P s0 (State.queueReport s a1) := by
  intro a1 h
  unfold State.queueReport
  repeat' (first
    | with_reducible assumption
    | with_reducible apply State.count_keeps
    | fail_if_no_progress (with_reducible refine Keeps.lit ?_ rfl id id)
    | split
    )

theorem State.noteOwnFault_keeps : ∀ a1, Keeps P s0 s → Keeps P s0 (State.noteOwnFault s a1) := by
  intro a1 h
  unfold State.noteOwnFault
  repeat' (first
    | with_reducible assumption
    | with_reducible apply State.updTwin_keeps
    | with_reducible apply Keeps.ite
    )

theorem State.fatalReport_keeps : ∀ a1, Keeps Counters.any s0 s → Keeps Counters.any s0 (State.fatalReport s a1) := by
  intro a1 h
  unfold State.fatalReport
  repeat' (first
    | with_reducible assumption
    | with_reducible apply State.coreStop_keeps
    | with_reducible apply State.fatalReaction_keeps
    | with_reducible apply State.updTwin_keeps
    | with_reducible apply Keeps.ite
    | fail_if_no_progress (with_reducible refine Keeps.lit ?_ rfl id (fun _ => trivial))
    )

theorem State.collect_keeps : ∀ a1 a2, Keeps Counters.any s0 s → Keeps Counters.any s0 (State.collect s a1 a2) := by
  intro a1 a2 h
  unfold State.collect
  repeat' (first
    | with_reducible assumption
    | with_reducible apply State.noteOwnFault_keeps
    | with_reducible apply State.queueReport_keeps
    | with_reducible apply State.setFlag_keeps
    | with_reducible apply State.count_keeps
    | with_reducible apply State.irq_keeps
    | with_reducible apply State.twinContained_keeps
    | with_reducible apply State.containedReaction_keeps
    | with_reducible apply State.fatalReport_keeps
    | fail_if_no_progress (with_reducible refine Keeps.lit ?_ rfl id (fun _ => trivial))
    | split
    )

theorem execFaultReport_keeps : ∀ a0 a1, Completes s (execFaultReport a0 a1 s) := by
  intro a0 a1
  have h : Keeps Counters.any s s := .refl s
  unfold execFaultReport
  repeat' (first
    | with_reducible assumption
    | with_reducible apply Completes.of
    | with_reducible apply State.detect_keeps
    | with_reducible apply State.collect_keeps
    | fail_if_no_progress (with_reducible refine Keeps.lit ?_ rfl id (fun _ => trivial))
    | split
    )

theorem execQueueDrain_keeps : Completes s (execQueueDrain s) := by
  have h : Keeps Counters.any s s := .refl s
  unfold execQueueDrain
  repeat' (first
    | with_reducible assumption
    | with_reducible apply Completes.of
    | with_reducible apply State.record_keeps
    | fail_if_no_progress (with_reducible refine Keeps.lit ?_ rfl id (fun _ => trivial))
    | split
    )

theorem execWatchdog_keeps : Completes s (execWatchdog s) := by
  have h : Keeps Counters.any s s := .refl s
  unfold execWatchdog
  repeat' (first
    | with_reducible assumption
    | with_reducible apply Completes.of
    | with_reducible apply State.detect_keeps
    )

theorem stateOf_keeps {o : Host.Outcome State Fault Refusal} (h : Keeps Counters.any s0 s) (ho : Completes s o) : Keeps Counters.any s0 (stateOf s o) := by
  obtain ⟨t, rfl, ht⟩ := ho.next
  exact h.trans ht

theorem State.waitedMsg_keeps : ∀ m b, Keeps Counters.any s0 s → Keeps Counters.any s0 (s.waitedMsg m b) := by
  intro m b h
  unfold State.waitedMsg
  refine stateOf_keeps h ?_
  cases b
  all_goals first
    | with_reducible apply execJoinMsg_keeps
    | with_reducible apply execAdmitMsg_keeps
    | with_reducible apply execRefuseMsg_keeps
    | with_reducible apply execLeaveMsg_keeps
    | with_reducible apply execManagerMsg_keeps
    | with_reducible apply execHeartbeatMsg_keeps
    | with_reducible apply execMirrorMsg_keeps
    | with_reducible apply execDealMsg_keeps
    | with_reducible apply execDealAck_keeps
    | with_reducible apply execDealCancel_keeps
    | with_reducible apply execCueMsg_keeps
    | with_reducible apply execStreamsMsg_keeps
    | with_reducible apply execTallyPull_keeps
    | with_reducible apply execTallySummary_keeps
    | with_reducible apply execParamMsg_keeps
    | exact Completes.of (Keeps.refl s)
    | exact Completes.of (State.staleMsg_keeps _ _ (Keeps.refl s))

theorem execStewardRestart_keeps : Completes s (execStewardRestart s) := by
  have h : Keeps Counters.any s s := .refl s
  unfold execStewardRestart
  repeat' (first
    | with_reducible assumption
    | ((try lift_lets); intro x)
    | with_reducible apply Completes.of
    | with_reducible apply State.domSend_keeps
    | with_reducible apply State.waitedMsg_keeps
    | with_reducible apply Keeps.ite
    | with_reducible apply Keeps.foldl
    | fail_if_no_progress (with_reducible refine Keeps.lit ?_ rfl id (fun _ => trivial))
    )

theorem State.powerLost_keeps : ∀ r, Keeps Counters.any s0 s → Keeps Counters.any s0 (s.powerLost r) := by
  intro r h
  unfold State.powerLost
  refine h.rebuilt rfl rfl rfl fun c => ⟨rfl, rfl, ?_, rfl, rfl, rfl, rfl, rfl, rfl, fun _ => .empty, rfl⟩
  dsimp only
  split
  · exact mwf_filter c.3
  · rfl

theorem execSupplyMonitor_keeps : ∀ a0 a1, Completes s (execSupplyMonitor a0 a1 s) := by
  intro a0 a1
  have h : Keeps Counters.any s s := .refl s
  unfold execSupplyMonitor
  repeat' (first
    | with_reducible assumption
    | with_reducible apply Completes.of
    | with_reducible apply State.powerLost_keeps
    | with_reducible apply State.detect_keeps
    | with_reducible apply Keeps.ite
    )

end Sys2Proof.Machine
end

