-- ==== Sys2Proof/Laws/KeepsTwinCmds.lean ====
section
/-!
SUPPORT. What the operations of TwinCmds keep.
-/

namespace Sys2Proof.Machine

variable {P : Counters → Prop} {s0 s : State}

theorem State.startAlone_keeps : Keeps P s0 s → Keeps P s0 (State.startAlone s) := by
  intro h
  unfold State.startAlone
  repeat' (first
    | with_reducible assumption
    | with_reducible apply State.updTwin_keeps
    )

theorem execTwinStartWait_keeps : Completes s (execTwinStartWait s) := by
  have h : Keeps Counters.any s s := .refl s
  unfold execTwinStartWait
  repeat' (first
    | with_reducible assumption
    | with_reducible apply Completes.of
    | with_reducible apply State.startAlone_keeps
    | with_reducible apply Keeps.ite
    )

theorem execTwinStart_keeps : ∀ a0 a1, Completes s (execTwinStart a0 a1 s) := by
  intro a0 a1
  have h : Keeps Counters.any s s := .refl s
  unfold execTwinStart
  repeat' (first
    | with_reducible assumption
    | with_reducible apply Completes.of
    | with_reducible apply State.updTwin_keeps
    | with_reducible apply Keeps.ite
    )

theorem execPeerWait_keeps : ∀ a0, Completes s (execPeerWait a0 s) := by
  intro a0
  have h : Keeps Counters.any s s := .refl s
  unfold execPeerWait
  repeat' (first
    | with_reducible assumption
    | with_reducible apply Completes.of
    | with_reducible apply State.updTwin_keeps
    | with_reducible apply State.rejoinStart_keeps
    | with_reducible apply State.startAlone_keeps
    | with_reducible apply Keeps.ite
    )

theorem execTwinSkew_keeps : Completes s (execTwinSkew s) := by
  have h : Keeps Counters.any s s := .refl s
  unfold execTwinSkew
  repeat' (first
    | with_reducible assumption
    | with_reducible apply Completes.of
    | with_reducible apply State.detect_keeps
    | with_reducible apply State.updTwin_keeps
    | with_reducible apply Keeps.ite
    )

theorem execTwinPinStuck_keeps : ∀ a0, Completes s (execTwinPinStuck a0 s) := by
  intro a0
  have h : Keeps Counters.any s s := .refl s
  unfold execTwinPinStuck
  repeat' (first
    | with_reducible assumption
    | with_reducible apply Completes.of
    | with_reducible apply State.updTwin_keeps
    | with_reducible apply State.raise_keeps
    | with_reducible apply Keeps.ite
    )

theorem execDigestWindow_keeps : Completes s (execDigestWindow s) := by
  have h : Keeps Counters.any s s := .refl s
  unfold execDigestWindow
  repeat' (first
    | with_reducible assumption
    | with_reducible apply Completes.of
    | with_reducible apply State.disarm_keeps
    | with_reducible apply State.updTwin_keeps
    | with_reducible apply Keeps.ite
    )

theorem execDiagnosisEnd_keeps : ∀ a0, Completes s (execDiagnosisEnd a0 s) := by
  intro a0
  have h : Keeps Counters.any s s := .refl s
  unfold execDiagnosisEnd
  repeat' (first
    | with_reducible assumption
    | ((try lift_lets); intro x; with_reducible refine Keeps.cut (P := Counters.any) (s0 := s) x ?_ ?_ <;> [(unfold x; clear x); (intro hx; clear_value x)])
    | ((try lift_lets); intro x)
    | with_reducible apply Completes.of
    | with_reducible apply State.updTwin_keeps
    | with_reducible apply State.event_keeps
    | with_reducible apply State.count_keeps
    | with_reducible apply State.rejoinStart_keeps
    | split
    )

theorem execTwinCmdYield_keeps : Completes s (execTwinCmdYield s) := by
  have h : Keeps Counters.any s s := .refl s
  unfold execTwinCmdYield
  repeat' (first
    | with_reducible assumption
    | with_reducible apply Completes.of
    | with_reducible apply State.decideYield_keeps
    )

theorem execTwinCmdRejoin_keeps : Completes s (execTwinCmdRejoin s) := by
  have h : Keeps Counters.any s s := .refl s
  unfold execTwinCmdRejoin
  repeat' (first
    | with_reducible assumption
    | with_reducible apply Completes.of
    | with_reducible apply State.rejoinAsk_keeps
    | with_reducible apply Keeps.ite
    )

theorem execTwinTakeover_keeps : Completes s (execTwinTakeover s) := by
  have h : Keeps Counters.any s s := .refl s
  unfold execTwinTakeover
  repeat' (first
    | with_reducible assumption
    | with_reducible apply Completes.of
    | with_reducible apply State.event_keeps
    | with_reducible apply State.count_keeps
    | with_reducible apply State.updTwin_keeps
    | with_reducible apply Keeps.ite
    )

theorem execRejoinReq_keeps : Completes s (execRejoinReq s) := by
  have h : Keeps Counters.any s s := .refl s
  unfold execRejoinReq
  repeat' (first
    | with_reducible assumption
    | with_reducible apply Completes.of
    | with_reducible apply State.rejoinAnswer_keeps
    | with_reducible apply Keeps.ite
    )

theorem State.takeBlock_keeps : ∀ a1, Keeps P s0 s → Keeps P s0 (State.takeBlock s a1) := by
  intro a1 h
  unfold State.takeBlock
  repeat' (first
    | with_reducible assumption
    | with_reducible apply State.wakeTile_keeps
    | ((try lift_lets); intro x)
    | with_reducible apply forAll_keeps
    | with_reducible apply State.setCluster_keeps
    | with_reducible apply State.setDom_keeps
    | with_reducible apply Keeps.foldl
    | fail_if_no_progress (with_reducible refine Keeps.lit ?_ rfl id id)
    | split
    | with_reducible apply Keeps.ite
    )

theorem execCopyEnd_keeps : ∀ a0, Completes s (execCopyEnd a0 s) := by
  intro a0
  have h : Keeps Counters.any s s := .refl s
  unfold execCopyEnd
  repeat' (first
    | with_reducible assumption
    | with_reducible apply Completes.of
    | with_reducible apply State.updTwin_keeps
    | with_reducible apply State.takeBlock_keeps
    | with_reducible apply Keeps.ite
    )

theorem execRejoinLimit_keeps : Completes s (execRejoinLimit s) := by
  have h : Keeps Counters.any s s := .refl s
  unfold execRejoinLimit
  repeat' (first
    | with_reducible assumption
    | with_reducible apply Completes.of
    | with_reducible apply State.count_keeps
    | with_reducible apply State.updTwin_keeps
    | with_reducible apply State.event_keeps
    | with_reducible apply State.rejoinAsk_keeps
    | split
    )

end Sys2Proof.Machine
end

