-- ==== Sys2Proof/Laws/KeepsRegs.lean ====
section
/-!
SUPPORT. What the operations of Regs keep.
-/

namespace Sys2Proof.Machine

variable {P : Counters → Prop} {s0 s : State}

theorem State.readReg_keeps : ∀ m c a, Keeps P s0 s → Keeps P s0 (s.readReg m c a).2 := by
  intro m c a h
  unfold State.readReg
  split
  · exact h
  · split
    · exact State.readTimeNs_keeps _ h
    · split
      · exact State.readCapNs_keeps _ h
      · split
        · exact State.semRead_keeps _ _ h
        · split
          · exact h
          · have h1 := fun v => Keeps.ite h (State.setReg_keeps a v h) (c := RegDef.mask ‹RegDef› .rc = 0)
            exact Keeps.ite ((h1 _).latch mwf_mset) (h1 _)

end Sys2Proof.Machine
end

