-- ==== Sys2Proof/Laws/KeepsModeOps.lean ====
section
/-!
SUPPORT. What the operations of ModeOps keep.
-/

namespace Sys2Proof.Machine

variable {P : Counters → Prop} {s0 s : State}

theorem State.reqErr_keeps : Keeps P s0 s → Keeps P s0 (State.reqErr s) := by
  intro h
  unfold State.reqErr
  repeat' (first
    | with_reducible assumption
    | with_reducible apply State.setFlag_keeps
    )

theorem State.askLeave_keeps : ∀ a1, Keeps P s0 s → Keeps P s0 (State.askLeave s a1) := by
  intro a1 h
  unfold State.askLeave
  repeat' (first
    | with_reducible assumption
    | fail_if_no_progress (with_reducible refine Keeps.lit ?_ rfl id id)
    )

theorem State.askService_keeps : Keeps P s0 s → Keeps P s0 (State.askService s) := by
  intro h
  unfold State.askService
  repeat' (first
    | with_reducible assumption
    | with_reducible apply State.askLeave_keeps
    | with_reducible apply State.reqErr_keeps
    | with_reducible apply Keeps.ite
    )

theorem State.askDormant_keeps : Keeps P s0 s → Keeps P s0 (State.askDormant s) := by
  intro h
  unfold State.askDormant
  repeat' (first
    | with_reducible assumption
    | with_reducible apply State.askLeave_keeps
    | with_reducible apply State.reqErr_keeps
    | with_reducible apply Keeps.ite
    | fail_if_no_progress (with_reducible refine Keeps.lit ?_ rfl id id)
    )

theorem State.askRun_keeps : Keeps Counters.any s0 s → Keeps Counters.any s0 (State.askRun s) := by
  intro h
  unfold State.askRun
  repeat' (first
    | with_reducible assumption
    | with_reducible apply State.reboot_keeps
    | with_reducible apply State.reqErr_keeps
    | with_reducible apply Keeps.ite
    | fail_if_no_progress (with_reducible refine Keeps.lit ?_ rfl id (fun _ => trivial))
    )

theorem State.askMode_keeps : ∀ a1, Keeps Counters.any s0 s → Keeps Counters.any s0 (State.askMode s a1) := by
  intro a1 h
  unfold State.askMode
  repeat' (first
    | with_reducible assumption
    | with_reducible apply State.askService_keeps
    | with_reducible apply State.askDormant_keeps
    | with_reducible apply State.askRun_keeps
    | split
    )

theorem mget_mupdAll_tile {l : List Nat} {f : Nat → Tile → Tile} (hf : ∀ n t, t.Canonical → (f n t).Canonical) {m : SMap Tile}
    (hm : mwf {} m = true) (h : ∀ n, (mget {} m n).Canonical) : ∀ n, (mget {} (mupdAll {} m f l) n).Canonical := by
  induction l generalizing m with
  | nil => exact h
  | cons k l ih =>
    refine ih (mwf_mupd hm) fun n => ?_
    unfold mupd
    rw [mget_mset hm]
    split
    · exact hf _ _ (h k)
    · exact h n

theorem State.stopGraph_keeps : Keeps P s0 s → Keeps P s0 s.stopGraph := by
  intro h
  unfold State.stopGraph
  have h1 := State.updScn_keeps (fun x => { x with written := [], recognised := [], others := [], pending := none })
    (State.abandonRecall_keeps h)
  refine State.updGrid_keeps _ (forAll_keeps ?_ fun s hs i => ?_) id
  · refine h1.tiles mwf_mupdAll fun c => ?_
    refine mget_mupdAll_tile (fun _ t ht => ?_) (h1.canonical c).tiles (h1.canonical c).banks
    exact ⟨ht.smp, ht.ctl⟩
  · exact State.setRxs_keeps _ _ (State.setFlag_keeps _ _ _ (State.setFlag_keeps _ _ _ hs))

theorem State.enterService_keeps : Keeps P s0 s → Keeps P s0 (State.enterService s) := by
  intro h
  unfold State.enterService
  repeat' (first
    | with_reducible assumption
    | with_reducible apply State.countersRecord_keeps
    | with_reducible apply State.setMode_keeps
    | with_reducible apply State.stopGraph_keeps
    | fail_if_no_progress (with_reducible refine Keeps.lit ?_ rfl id id)
    | split
    )

theorem State.commitFlush_keeps : Keeps P s0 s → Keeps P s0 (State.commitFlush s) := by
  intro h
  unfold State.commitFlush
  repeat' (first
    | with_reducible assumption
    | with_reducible apply State.commitDone_keeps
    | fail_if_no_progress (with_reducible refine Keeps.lit ?_ rfl id id)
    | split
    )

theorem State.flushJournal_keeps : ∀ k, Keeps P s0 s → Keeps P s0 (State.flushJournal k s) := by
  intro k h
  induction k generalizing s with
  | zero => exact State.commitFlush_keeps h
  | succ k ih => exact ih (State.journalCommit_keeps (State.commitFlush_keeps h))

theorem State.enterDormant_keeps : Keeps Counters.any s0 s → Keeps Counters.any s0 (State.enterDormant s) := by
  intro h
  unfold State.enterDormant
  repeat' (first
    | with_reducible assumption
    | with_reducible apply State.coreStop_keeps
    | with_reducible apply State.requeueNewest_keeps
    | with_reducible apply State.countersRecord_keeps
    | with_reducible apply State.maintAbort_keeps
    | with_reducible apply State.flushJournal_keeps
    | with_reducible apply State.powerOffBut_keeps
    | fail_if_no_progress (with_reducible refine Keeps.lit ?_ rfl id (fun _ => trivial))
    )

theorem State.dormantOver_keeps : Keeps Counters.any s0 s → Keeps Counters.any s0 (State.dormantOver s) := by
  intro h
  unfold State.dormantOver
  repeat' (first
    | with_reducible assumption
    | with_reducible apply State.enterDormant_keeps
    | with_reducible apply State.reboot_keeps
    | with_reducible apply Keeps.ite
    )

theorem Fuses.burn_within (f : Fuses) (t k : Nat) : Fuses.Within f (f.burn t k) := by
  unfold Fuses.burn
  split
  · exact ⟨fun _ => Nat.succ_ne_zero 1, id, id, fun h => ⟨rfl, if_pos h⟩, fun _ _ h => h, fun _ h => h, rfl⟩
  · exact ⟨id, fun _ => Nat.succ_ne_zero 1, id, fun h => ⟨h, rfl⟩, fun _ _ h => h, fun _ h => h, rfl⟩
  · exact ⟨id, id, fun _ => Nat.succ_ne_zero 1, fun h => ⟨h, rfl⟩, fun _ _ h => h, fun _ h => h, rfl⟩

theorem Fuses.burn_hash (f : Fuses) (t k : Nat) : (f.burn t k).hash = f.hash := by
  unfold Fuses.burn; split <;> rfl

theorem State.burnFuses_keeps : ∀ t, Keeps P s0 s → Keeps P s0 (s.burnFuses t) := by
  intro t h
  exact Keeps.drawn (h.burn (n := { s.nvm with fuses := s.nvm.fuses.burn t (Config.wrapKey s.draws).toNat }) fun w =>
    ⟨by rw [Fuses.burn_hash]; exact w, Fuses.burn_within _ _ _⟩)

theorem State.transition_keeps : ∀ t, Keeps Counters.any s0 s → Keeps Counters.any s0 (s.transition t) := by
  intro t h
  unfold State.transition
  refine State.reboot_keeps _ ?_
  have h1 := State.flushJournal_keeps 65 (State.journal_keeps 10 [BitVec.ofNat 8 s.nvm.fuses.state, BitVec.ofNat 8 t, 0, 0]
    (State.startWipe_keeps false h))
  exact State.burnFuses_keeps _ h1

theorem State.writeLc_keeps : ∀ a1, Keeps Counters.any s0 s → Keeps Counters.any s0 (State.writeLc s a1) := by
  intro a1 h
  unfold State.writeLc
  repeat' (first
    | with_reducible assumption
    | with_reducible apply State.setFlag_keeps
    | with_reducible apply State.transition_keeps
    | with_reducible apply Keeps.ite
    | fail_if_no_progress (with_reducible refine Keeps.lit ?_ rfl id (fun _ => trivial))
    )

theorem State.paramGo_keeps : ∀ a1, Keeps P s0 s → Keeps P s0 (State.paramGo s a1).2 := by
  intro a1 h
  unfold State.paramGo
  repeat' (first
    | with_reducible assumption
    | ((try lift_lets); intro x)
    | with_reducible apply State.twinOut_keeps
    | with_reducible apply State.rawLater_keeps
    | with_reducible apply State.rawWrite_keeps
    | with_reducible refine Keeps.snd (by assumption) ?_
    | fail_if_no_progress (with_reducible refine Keeps.lit ?_ rfl id id)
    | split
    )

theorem State.writeMaint_keeps : ∀ a1, Keeps P s0 s → Keeps P s0 (State.writeMaint s a1).2 := by
  intro a1 h
  unfold State.writeMaint
  repeat' (first
    | with_reducible assumption
    | with_reducible apply State.maintRequest_keeps
    | with_reducible apply Keeps.iteSnd
    | fail_if_no_progress (with_reducible refine Keeps.lit ?_ rfl id id)
    )

theorem State.tileCleared_keeps : ∀ a1, Keeps P s0 s → Keeps P s0 (State.tileCleared s a1) := by
  intro a1 h
  unfold State.tileCleared
  repeat' (first
    | with_reducible assumption
    | with_reducible apply State.clearTile_keeps
    | with_reducible apply Keeps.ite
    )

theorem State.endMaint_keeps : Keeps Counters.any s0 s → Keeps Counters.any s0 (State.endMaint s) := by
  intro h
  unfold State.endMaint
  repeat' (first
    | with_reducible assumption
    | ((try lift_lets); intro x; with_reducible refine Keeps.cut (P := Counters.any) (s0 := s0) x ?_ ?_ <;> [(unfold x; clear x); (intro hx; clear_value x)])
    | with_reducible apply State.tileCleared_keeps
    | with_reducible apply State.maintOver_keeps
    | with_reducible apply State.reboot_keeps
    | split
    )

end Sys2Proof.Machine
end

