-- ==== Sys2Proof/Laws/KeepsBus.lean ====
section
/-!
SUPPORT. What the operations of Bus keep.
-/

namespace Sys2Proof.Machine

variable {P : Counters → Prop} {s0 s : State}

theorem State.storeReg_keeps : ∀ a1 a2, Keeps P s0 s → Keeps P s0 (State.storeReg s a1 a2) := by
  intro a1 a2 h
  unfold State.storeReg
  repeat' (first
    | with_reducible assumption
    | with_reducible apply State.setReg_keeps
    | split
    )

theorem State.srcRecheck_keeps : Keeps P s0 s → Keeps P s0 (State.srcRecheck s) := by
  intro h
  unfold State.srcRecheck
  repeat' (first
    | with_reducible assumption
    | with_reducible apply State.later_keeps
    | ((try lift_lets); intro x)
    | with_reducible apply forAll_keeps
    | with_reducible apply State.setSrc_keeps
    | with_reducible apply Keeps.ite
    | fail_if_no_progress (with_reducible refine Keeps.lit ?_ rfl id id)
    | with_reducible apply Keeps.foldl
    | split
    )

theorem State.writePort_keeps : ∀ a1 a2, Keeps P s0 s → Keeps P s0 (State.writePort s a1 a2) := by
  intro a1 a2 h
  unfold State.writePort
  repeat' (first
    | with_reducible assumption
    | with_reducible apply State.later_keeps
    | with_reducible apply State.setPort_keeps
    | ((try lift_lets); intro x)
    | with_reducible apply forAll_keeps
    | with_reducible apply State.srcRecheck_keeps
    | with_reducible apply State.writePortCtrl_keeps
    | with_reducible apply State.storeReg_keeps
    | with_reducible apply State.portStart_keeps
    | with_reducible apply State.setFlag_keeps
    | with_reducible apply Keeps.ite
    | fail_if_no_progress (with_reducible refine Keeps.lit ?_ rfl id id)
    | with_reducible apply Keeps.foldl
    | split
    )

theorem State.pdmSwitch_keeps : ∀ a1 a2, Keeps P s0 s → Keeps P s0 (State.pdmSwitch s a1 a2) := by
  intro a1 a2 h
  unfold State.pdmSwitch
  repeat' (first
    | with_reducible assumption
    | with_reducible apply State.writePdmCtrl_keeps
    | with_reducible apply State.writeMicEn_keeps
    | with_reducible apply State.writeTrim_keeps
    | with_reducible apply Keeps.ite
    )

theorem State.writePdm_keeps : ∀ a1 a2, Keeps P s0 s → Keeps P s0 (State.writePdm s a1 a2).2 := by
  intro a1 a2 h
  unfold State.writePdm
  repeat' (first
    | with_reducible assumption
    | with_reducible refine fun (x : State) (hx : Keeps P _ x) => ?_
    | with_reducible apply State.relayWrite_keeps
    | with_reducible apply State.pdmSwitch_keeps
    | with_reducible apply State.setFlag_keeps
    | with_reducible apply State.storeReg_keeps
    | with_reducible apply Keeps.ite
    | with_reducible apply Keeps.iteSnd
    )

theorem State.writeSrc_keeps : ∀ a1 a2, Keeps P s0 s → Keeps P s0 (State.writeSrc s a1 a2).2 := by
  intro a1 a2 h
  unfold State.writeSrc
  repeat' (first
    | with_reducible assumption
    | with_reducible refine fun (x : State) (hx : Keeps P _ x) => ?_
    | with_reducible apply State.relayWrite_keeps
    | with_reducible apply State.writeSrcCtrl_keeps
    | with_reducible apply State.setFlag_keeps
    | with_reducible apply State.srcRecheck_keeps
    | with_reducible apply State.storeReg_keeps
    | with_reducible apply Keeps.iteSnd
    | fail_if_no_progress (with_reducible refine Keeps.lit ?_ rfl id id)
    | ((try lift_lets); intro x)
    | with_reducible apply Keeps.ite
    | with_reducible apply forAll_keeps
    | with_reducible apply Keeps.foldl
    | split
    )

theorem State.writeClk_keeps : ∀ a1 a2, Keeps P s0 s → Keeps P s0 (State.writeClk s a1 a2) := by
  intro a1 a2 h
  unfold State.writeClk
  repeat' (first
    | with_reducible assumption
    | with_reducible apply State.later_keeps
    | with_reducible apply State.writeClkCtrl_keeps
    | with_reducible apply State.newList_keeps
    | with_reducible apply State.storeReg_keeps
    | with_reducible apply State.writeClkSync_keeps
    | with_reducible apply State.setReg_keeps
    | with_reducible apply State.regate_keeps
    | with_reducible apply Keeps.ite
    | fail_if_no_progress (with_reducible refine Keeps.lit ?_ rfl id id)
    | ((try lift_lets); intro x)
    | with_reducible apply forAll_keeps
    | with_reducible apply Keeps.foldl
    | split
    )

theorem State.writeStrm_keeps : ∀ a1 a2, Keeps P s0 s → Keeps P s0 (State.writeStrm s a1 a2) := by
  intro a1 a2 h
  unfold State.writeStrm
  repeat' (first
    | with_reducible assumption
    | with_reducible apply State.storeReg_keeps
    | with_reducible apply State.writeTx_keeps
    | with_reducible apply State.writeRx_keeps
    | with_reducible apply State.writeStrmField_keeps
    | with_reducible apply Keeps.ite
    )

theorem State.writeRace_keeps : ∀ a1 a2, Keeps P s0 s → Keeps P s0 (State.writeRace s a1 a2) := by
  intro a1 a2 h
  unfold State.writeRace
  repeat' (first
    | with_reducible assumption
    | with_reducible apply State.storeReg_keeps
    | with_reducible apply State.writeRaceCtrl_keeps
    | with_reducible apply State.writeRaceField_keeps
    | with_reducible apply Keeps.ite
    )

theorem State.writeFlt_keeps : ∀ a1 a2, Keeps P s0 s → Keeps P s0 (State.writeFlt s a1 a2).2 := by
  intro a1 a2 h
  unfold State.writeFlt
  repeat' (first
    | with_reducible assumption
    | with_reducible apply State.writeInject_keeps
    | with_reducible apply State.storeReg_keeps
    | with_reducible apply Keeps.iteSnd
    )

theorem State.writePwr_keeps : ∀ a1 a2, Keeps P s0 s → Keeps P s0 (State.writePwr s a1 a2).2 := by
  intro a1 a2 h
  unfold State.writePwr
  repeat' (first
    | with_reducible assumption
    | with_reducible apply State.writePwrQuiet_keeps
    | with_reducible apply State.storeReg_keeps
    | with_reducible apply Keeps.iteSnd
    )

theorem State.writeTwin_keeps : ∀ a1 a2, Keeps P s0 s → Keeps P s0 (State.writeTwin s a1 a2) := by
  intro a1 a2 h
  unfold State.writeTwin
  repeat' (first
    | with_reducible assumption
    | with_reducible apply State.decideYield_keeps
    | with_reducible apply State.rejoinAsk_keeps
    | with_reducible apply State.storeReg_keeps
    | with_reducible apply Keeps.ite
    )

theorem State.writeUpd_keeps : ∀ a1, Keeps P s0 s → Keeps P s0 (State.writeUpd s a1).2 := by
  intro a1 h
  unfold State.writeUpd
  repeat' (first
    | with_reducible assumption
    | with_reducible apply State.updOpen_keeps
    | with_reducible apply State.updProgram_keeps
    | with_reducible apply State.updErr_keeps
    | with_reducible apply State.setSess_keeps
    | with_reducible apply State.sessionAbort_keeps
    | split
    )

theorem State.writeKeycmd_keeps : ∀ a1, Keeps P s0 s → Keeps P s0 (State.writeKeycmd s a1) := by
  intro a1 h
  unfold State.writeKeycmd
  repeat' (first
    | with_reducible assumption
    | with_reducible apply State.setFlag_keeps
    | with_reducible apply State.keyCmd_keeps
    | with_reducible apply Keeps.ite
    )

theorem State.writeNvm_keeps : ∀ a1 a2, Keeps Counters.any s0 s → Keeps Counters.any s0 (State.writeNvm s a1 a2).2 := by
  intro a1 a2 h
  unfold State.writeNvm
  repeat' (first
    | with_reducible assumption
    | with_reducible apply State.writeUpd_keeps
    | with_reducible apply State.updErr_keeps
    | with_reducible apply State.storeReg_keeps
    | with_reducible apply State.writeLc_keeps
    | with_reducible apply State.writeLcKey_keeps
    | with_reducible apply State.writeKeycmd_keeps
    | with_reducible apply Keeps.ite
    | with_reducible apply Keeps.iteSnd
    | fail_if_no_progress (with_reducible refine Keeps.lit ?_ rfl id (fun _ => trivial))
    | ((try lift_lets); intro x)
    | with_reducible apply forAll_keeps
    | with_reducible apply Keeps.foldl
    | split
    )

theorem State.writeTly_keeps : ∀ a1 a2, Keeps P s0 s → Keeps P s0 (State.writeTly s a1 a2) := by
  intro a1 a2 h
  unfold State.writeTly
  repeat' (first
    | with_reducible assumption
    | with_reducible apply State.closeWindow_keeps
    | with_reducible apply State.writeCursor_keeps
    | with_reducible apply State.mark_keeps
    | with_reducible apply State.storeReg_keeps
    | with_reducible apply State.writeMonCfg_keeps
    | with_reducible apply State.monClose_keeps
    | with_reducible apply State.writeMonReg_keeps
    | with_reducible apply Keeps.ite
    | fail_if_no_progress (with_reducible refine Keeps.lit ?_ rfl id id)
    | ((try lift_lets); intro x)
    | with_reducible apply forAll_keeps
    | with_reducible apply Keeps.foldl
    | split
    )

theorem State.writeSys_keeps : ∀ a1 a2, Keeps Counters.any s0 s → Keeps Counters.any s0 (State.writeSys s a1 a2) := by
  intro a1 a2 h
  unfold State.writeSys
  repeat' (first
    | with_reducible assumption
    | with_reducible apply State.askMode_keeps
    | with_reducible apply State.storeReg_keeps
    | with_reducible apply Keeps.ite
    )

theorem State.writeSvc_keeps : ∀ a1 a2, Keeps P s0 s → Keeps P s0 (State.writeSvc s a1 a2).2 := by
  intro a1 a2 h
  unfold State.writeSvc
  repeat' (first
    | with_reducible assumption
    | with_reducible apply State.paramGo_keeps
    | with_reducible apply State.writeMaint_keeps
    | with_reducible apply State.storeReg_keeps
    | with_reducible apply Keeps.iteSnd
    )

theorem State.writeReg_keeps : ∀ a1 a2 a3, Keeps Counters.any s0 s → Keeps Counters.any s0 (State.writeReg s a1 a2 a3).2 := by
  intro a1 a2 a3 h
  unfold State.writeReg
  repeat' (first
    | with_reducible assumption
    | with_reducible apply State.writeSys_keeps
    | with_reducible apply State.writePwr_keeps
    | with_reducible apply State.writeClk_keeps
    | with_reducible apply State.writeFlt_keeps
    | with_reducible apply State.writeTly_keeps
    | with_reducible apply State.writeNvm_keeps
    | with_reducible apply State.writeSvc_keeps
    | with_reducible apply State.writePort_keeps
    | with_reducible apply State.writePdm_keeps
    | with_reducible apply State.writeSrc_keeps
    | with_reducible apply State.writeNetCtrl_keeps
    | with_reducible apply State.writeMdio_keeps
    | with_reducible apply State.storeReg_keeps
    | with_reducible apply State.writePtpCtrl_keeps
    | with_reducible apply State.writeTsetGo_keeps
    | with_reducible apply State.writeStrm_keeps
    | with_reducible apply State.writeRace_keeps
    | with_reducible apply State.semWrite_keeps
    | with_reducible apply State.writeRecall_keeps
    | with_reducible apply State.writeMarchCtrl_keeps
    | with_reducible apply State.writeTwin_keeps
    | split
    )

theorem State.memWrite_keeps : ∀ a1 a2 a3, Keeps P s0 s → Keeps P s0 (State.memWrite s a1 a2 a3) := by
  intro a1 a2 a3 h
  unfold State.memWrite
  repeat' (first
    | with_reducible assumption
    | with_reducible apply State.wr32_keeps
    | with_reducible apply State.readWord_keeps
    | fail_if_no_progress (with_reducible refine Keeps.lit ?_ rfl id id)
    | split
    )

theorem State.imemRead_keeps : ∀ a1 a2, Keeps P s0 s → Keeps P s0 (State.imemRead s a1 a2).2 := by
  intro a1 a2 h
  unfold State.imemRead
  repeat' (first
    | with_reducible assumption
    | with_reducible apply State.readWord_keeps
    | with_reducible apply Keeps.iteSnd
    )

theorem State.meterWritten_keeps : ∀ m a, Keeps P s0 s → Keeps P s0 (s.meterWritten m a) := by
  intro m a h
  unfold State.meterWritten
  exact Keeps.ite h (Keeps.foldl h fun s hs r => Keeps.ite (State.setNodeSt_keeps _ _ hs) hs)

theorem State.imemWrite_keeps : ∀ n o size v, Keeps P s0 s → Keeps P s0 (s.imemWrite n o size v) := by
  intro n o size v h
  unfold State.imemWrite
  have h1 : Keeps P s0 (if size = .word then ((0 : Word), s) else s.imemRead n o).2 := by
    split
    · exact h
    · exact State.imemRead_keeps _ _ h
  exact State.eccWrite_keeps _ (h1.imem memPut_wf)

theorem State.respond_keeps : ∀ a1 a2, Keeps P s0 s → Keeps P s0 (State.respond s a1 a2) := by
  intro a1 a2 h
  unfold State.respond
  repeat' (first
    | with_reducible assumption
    | fail_if_no_progress (with_reducible refine Keeps.lit ?_ rfl id id)
    )

theorem State.busError_keeps : Keeps P s0 s → Keeps P s0 (State.busError s) := by
  intro h
  unfold State.busError
  repeat' (first
    | with_reducible assumption
    | with_reducible apply State.respond_keeps
    )

theorem State.defaultTarget_keeps : ∀ a1 a2 a3, Keeps P s0 s → Keeps P s0 (State.defaultTarget s a1 a2 a3) := by
  intro a1 a2 a3 h
  unfold State.defaultTarget
  repeat' (first
    | with_reducible assumption
    | with_reducible apply State.count_keeps
    | with_reducible apply State.setFld_keeps
    | with_reducible apply State.busError_keeps
    | with_reducible apply State.setReg_keeps
    )

theorem Bank.Canonical.setLevel {b : Bank} (h : b.Canonical) (k : Nat) (v : Level) : (b.setLevel k v).Canonical := by
  unfold Bank.setLevel
  split
  · exact ⟨h.s, h.p, h.m, h.n, h.v, h.a⟩
  · exact ⟨h.s, h.p, h.m, h.n, h.v, h.a⟩

theorem Bank.Canonical.put {b : Bank} (h : b.Canonical) (o : Nat) (v : Word) : (b.put o v).Canonical := by
  unfold Bank.put
  dsimp only
  repeat' (first
    | with_reducible apply Bank.Canonical.ite
    | split)
  all_goals first
    | exact ⟨mwf_mset h.s, h.p, h.m, h.n, h.v, h.a⟩
    | exact ⟨h.s, mwf_mset h.p, h.m, h.n, h.v, h.a⟩
    | exact ⟨h.s, h.p, mwf_mset h.m, h.n, h.v, h.a⟩
    | exact ⟨h.s, h.p, h.m, mwf_mset h.n, h.v, h.a⟩
    | exact ⟨h.s, h.p, h.m, h.n, mwf_mset h.v, h.a⟩
    | exact ⟨h.s, h.p, h.m, h.n, h.v, mwf_mset h.a⟩
    | exact h.setLevel _ _
    | exact ⟨h.s, h.p, h.m, h.n, h.v, h.a⟩

theorem Tile.Canonical.put {t : Tile} (h : t.Canonical) (o : Nat) (v : Word) : (t.put o v).Canonical := by
  unfold Tile.put
  split
  · exact ⟨(h.smp.retireAll _).put _ _, h.ctl⟩
  · split
    · exact ⟨h.smp, (h.ctl.retireAll _).put _ _⟩
    · split
      · exact ⟨h.smp, h.ctl⟩
      · exact h

theorem State.busRead_keeps : ∀ a1 a2 a3 a4, Keeps P s0 s → Keeps P s0 (State.busRead s a1 a2 a3 a4) := by
  intro a1 a2 a3 a4 h
  unfold State.busRead
  repeat' (first
    | with_reducible assumption
    | with_reducible apply State.busError_keeps
    | with_reducible apply State.busHang_keeps
    | with_reducible apply State.respond_keeps
    | with_reducible apply State.readWord_keeps
    | with_reducible apply State.defaultTarget_keeps
    | with_reducible apply State.imemRead_keeps
    | with_reducible apply State.readReg_keeps
    | split
    )

theorem State.busWrite_keeps : ∀ a1 a2 a3 a4, Keeps Counters.any s0 s → Keeps Counters.any s0 (State.busWrite s a1 a2 a3 a4) := by
  intro a1 a2 a3 a4 h
  unfold State.busWrite
  repeat' (first
    | with_reducible assumption
    | exact fun c => (Keeps.tileOf (by assumption) c _).put _ _
    | with_reducible apply State.busError_keeps
    | with_reducible apply State.busHang_keeps
    | with_reducible apply State.respond_keeps
    | with_reducible apply State.memWrite_keeps
    | with_reducible apply State.meterWritten_keeps
    | with_reducible apply State.wr32_keeps
    | with_reducible apply State.defaultTarget_keeps
    | with_reducible apply State.imemWrite_keeps
    | with_reducible apply State.setTile_keeps
    | with_reducible apply State.writeReg_keeps
    | split
    )

theorem State.svcWords_keeps : ∀ q c i st acc left, Keeps Counters.any s0 s → Keeps Counters.any s0 (s.svcWords q c i st acc left).2.2.2 := by
  intro q c i st acc left h
  induction left generalizing s i st acc with
  | zero => exact h
  | succ n ih =>
    unfold State.svcWords
    lift_lets
    intro a t
    have ht : Keeps Counters.any s0 t := Keeps.ite (State.busWrite_keeps _ _ _ _ h) (State.busRead_keeps _ _ _ _ h)
    clear_value t
    split
    · exact ht
    · exact ht
    · exact ih _ _ _ ht
    · exact ih _ _ _ ht

theorem State.lastIf_keeps : ∀ a1, Keeps P s0 s → Keeps P s0 (State.lastIf s a1) := by
  intro a1 h
  unfold State.lastIf
  repeat' (first
    | with_reducible assumption
    | with_reducible apply State.setFlag_keeps
    )

theorem State.svcAnswer_keeps : ∀ a1 a2 a3, Keeps P s0 s → Keeps P s0 (State.svcAnswer s a1 a2 a3) := by
  intro a1 a2 a3 h
  unfold State.svcAnswer
  repeat' (first
    | with_reducible assumption
    | fail_if_no_progress (with_reducible refine Keeps.lit ?_ rfl id id)
    )

theorem State.svcRun_keeps : ∀ i2c other cmd crc q c, Keeps Counters.any s0 s → Keeps Counters.any s0 (s.svcRun i2c other cmd crc q c) := by
  intro i2c other cmd crc q c h
  unfold State.svcRun
  have h1 := State.lastIf_keeps i2c h
  refine Keeps.ite h (Keeps.ite (Keeps.ite h (State.svcAnswer_keeps _ _ _ h)) ?_)
  refine Keeps.ite (State.svcAnswer_keeps _ _ _ (State.count_keeps _ _ _ _ h1)) (Keeps.ite (State.svcAnswer_keeps _ _ _ h1)
    (Keeps.ite (State.svcAnswer_keeps _ _ _ h1) (Keeps.ite (State.svcAnswer_keeps _ _ _ h1) ?_)))
  exact State.svcAnswer_keeps _ _ _ (State.svcWords_keeps _ _ _ _ _ _ h1)

end Sys2Proof.Machine
end

