-- ==== Sys2Proof/Laws/KeepsBusCmds.lean ====
section
/-!
SUPPORT. What the operations of BusCmds keep.
-/

namespace Sys2Proof.Machine

variable {P : Counters → Prop} {s0 s : State}

theorem execRegisterWrite_keeps : ∀ a0 a1 a2 a3, Completes s (execRegisterWrite a0 a1 a2 a3 s) := by
  intro a0 a1 a2 a3
  have h : Keeps Counters.any s s := .refl s
  unfold execRegisterWrite
  repeat' (first
    | with_reducible assumption
    | with_reducible apply Completes.of
    | with_reducible apply State.busWrite_keeps
    )

theorem execReadClear_keeps : ∀ a0 a1 a2 a3, Completes s (execReadClear a0 a1 a2 a3 s) := by
  intro a0 a1 a2 a3
  have h : Keeps Counters.any s s := .refl s
  unfold execReadClear
  repeat' (first
    | with_reducible assumption
    | with_reducible apply Completes.of
    | with_reducible apply State.busRead_keeps
    )

theorem execLoRead_keeps : ∀ a0 a1, Completes s (execLoRead a0 a1 s) := by
  intro a0 a1
  have h : Keeps Counters.any s s := .refl s
  unfold execLoRead
  repeat' (first
    | with_reducible assumption
    | with_reducible apply Completes.of
    | with_reducible apply State.busRead_keeps
    | with_reducible apply Keeps.ite
    )

theorem execServiceRequest_keeps : Completes s (execServiceRequest s) := by
  have h : Keeps Counters.any s s := .refl s
  unfold execServiceRequest
  repeat' (first
    | with_reducible assumption
    | with_reducible apply Completes.of
    | with_reducible apply State.askMode_keeps
    | with_reducible apply Keeps.ite
    )

theorem execServiceEntry_keeps : Completes s (execServiceEntry s) := by
  have h : Keeps Counters.any s s := .refl s
  unfold execServiceEntry
  repeat' (first
    | with_reducible assumption
    | with_reducible apply Completes.of
    | with_reducible apply State.enterService_keeps
    )

theorem execDormantRequest_keeps : Completes s (execDormantRequest s) := by
  have h : Keeps Counters.any s s := .refl s
  unfold execDormantRequest
  repeat' (first
    | with_reducible assumption
    | with_reducible apply Completes.of
    | with_reducible apply State.askMode_keeps
    | with_reducible apply Keeps.ite
    )

theorem execDormantEntry_keeps : Completes s (execDormantEntry s) := by
  have h : Keeps Counters.any s s := .refl s
  unfold execDormantEntry
  repeat' (first
    | with_reducible assumption
    | with_reducible apply Completes.of
    | with_reducible apply State.dormantOver_keeps
    )

theorem execRunRequest_keeps : Completes s (execRunRequest s) := by
  have h : Keeps Counters.any s s := .refl s
  unfold execRunRequest
  repeat' (first
    | with_reducible assumption
    | with_reducible apply Completes.of
    | with_reducible apply State.askMode_keeps
    | with_reducible apply Keeps.ite
    )

theorem execLifeCycleTransition_keeps : ∀ a0, Completes s (execLifeCycleTransition a0 s) := by
  intro a0
  have h : Keeps Counters.any s s := .refl s
  unfold execLifeCycleTransition
  repeat' (first
    | with_reducible assumption
    | with_reducible apply Completes.of
    | with_reducible apply State.writeLc_keeps
    | with_reducible apply Keeps.ite
    )

theorem execSvcRead_keeps : ∀ a0 a1 a2 a3 a4 a5 a6, Completes s (execSvcRead a0 a1 a2 a3 a4 a5 a6 s) := by
  intro a0 a1 a2 a3 a4 a5 a6
  have h : Keeps Counters.any s s := .refl s
  unfold execSvcRead
  repeat' (first
    | with_reducible assumption
    | with_reducible apply Completes.of
    | with_reducible apply State.svcRun_keeps
    )

theorem execSvcWrite_keeps : ∀ a0 a1 a2 a3 a4 a5, Completes s (execSvcWrite a0 a1 a2 a3 a4 a5 s) := by
  intro a0 a1 a2 a3 a4 a5
  have h : Keeps Counters.any s s := .refl s
  unfold execSvcWrite
  repeat' (first
    | with_reducible assumption
    | with_reducible apply Completes.of
    | with_reducible apply State.svcRun_keeps
    )

theorem execSpiAbort_keeps : ∀ req k, Completes s (execSpiAbort req k s) := by
  intro req k
  have h := Keeps.refl (P := Counters.any) s
  unfold execSpiAbort
  refine Completes.of ?_
  split
  · exact h
  · refine Keeps.ite ?_ h
    exact State.setFlag_keeps _ _ _ (State.lastIf_keeps _ (State.svcWords_keeps _ _ _ _ _ _ h))

theorem execSvcParamGo_keeps : ∀ a0, Completes s (execSvcParamGo a0 s) := by
  intro a0
  have h : Keeps Counters.any s s := .refl s
  unfold execSvcParamGo
  repeat' (first
    | with_reducible assumption
    | with_reducible apply Completes.of
    | with_reducible apply State.paramGo_keeps
    | with_reducible apply Keeps.ite
    )

theorem execTileRestart_keeps : ∀ a0, Completes s (execTileRestart a0 s) := by
  intro a0
  have h : Keeps Counters.any s s := .refl s
  unfold execTileRestart
  repeat' (first
    | with_reducible assumption
    | with_reducible apply Completes.of
    | with_reducible apply State.maintRequest_keeps
    | with_reducible apply Keeps.ite
    )

theorem execMaintEnd_keeps : Completes s (execMaintEnd s) := by
  have h : Keeps Counters.any s s := .refl s
  unfold execMaintEnd
  repeat' (first
    | with_reducible assumption
    | with_reducible apply Completes.of
    | with_reducible apply State.endMaint_keeps
    )

end Sys2Proof.Machine
end

