-- ==== Sys2Proof/Laws/KeepsImageCmds.lean ====
section
/-!
SUPPORT. What the operations of ImageCmds keep.
-/

namespace Sys2Proof.Machine

variable {P : Counters → Prop} {s0 s : State}

theorem State.loadReg_keeps : ∀ a1, Keeps P s0 s → Keeps P s0 (State.loadReg s a1) := by
  intro a1 h
  unfold State.loadReg
  repeat' (first
    | with_reducible assumption
    | with_reducible apply State.writeClk_keeps
    | with_reducible apply State.writeCursor_keeps
    | with_reducible apply State.storeReg_keeps
    | split
    )

theorem State.shiftList_keeps : Keeps P s0 s → Keeps P s0 (State.shiftList s) := by
  intro h
  unfold State.shiftList
  repeat' (first
    | with_reducible assumption
    | with_reducible apply State.newList_keeps
    | with_reducible apply State.setReg_keeps
    )

theorem State.startBlocks_keeps : Keeps P s0 s → Keeps P s0 (State.startBlocks s) := by
  intro h
  unfold State.startBlocks
  repeat' (first
    | with_reducible assumption
    | with_reducible apply State.joinDomain_keeps
    | with_reducible apply State.later_keeps
    | with_reducible apply State.updPtp_keeps
    | ((try lift_lets); intro x)
    | with_reducible apply forAll_keeps
    | with_reducible apply State.portStart_keeps
    | with_reducible apply State.pdmStart_keeps
    | with_reducible apply State.srcRecheck_keeps
    | with_reducible apply State.rxEnable_keeps
    | with_reducible apply State.setLink_keeps
    | with_reducible apply State.writePtpCtrl_keeps
    | with_reducible apply State.setMon_keeps
    | with_reducible apply State.regate_keeps
    | with_reducible apply Keeps.ite
    | fail_if_no_progress (with_reducible refine Keeps.lit ?_ rfl id id)
    | with_reducible apply Keeps.foldl
    | split
    )

theorem State.loadTile_keeps : ∀ a1, Keeps P s0 s → Keeps P s0 (State.loadTile s a1) := by
  intro a1 h
  unfold State.loadTile
  repeat' (first
    | with_reducible assumption
    | with_reducible apply State.loadInit_keeps
    | with_reducible apply State.loadCode_keeps
    | with_reducible apply Keeps.ite
    )

theorem State.loadScene_keeps : ∀ a1, Keeps P s0 s → Keeps P s0 (State.loadScene s a1) := by
  intro a1 h
  unfold State.loadScene
  repeat' (first
    | with_reducible assumption
    | intro x
    | with_reducible apply State.setParam_keeps
    | with_reducible apply State.updScn_keeps
    | with_reducible apply Keeps.foldl
    | split
    )

theorem State.loadTrim_keeps : ∀ a1, Keeps P s0 s → Keeps P s0 (State.loadTrim s a1) := by
  intro a1 h
  unfold State.loadTrim
  repeat' (first
    | with_reducible assumption
    | ((try lift_lets); intro x)
    | with_reducible apply State.setParam_keeps
    | split
    )

theorem State.startTest_keeps : ∀ a1 a2 a3, Keeps P s0 s → Keeps P s0 (State.startTest s a1 a2 a3) := by
  intro a1 a2 a3 h
  unfold State.startTest
  repeat' (first
    | with_reducible assumption
    | with_reducible apply State.journal_keeps
    | with_reducible apply State.raise_keeps
    | with_reducible apply State.event_keeps
    | with_reducible apply Keeps.ite
    | fail_if_no_progress (with_reducible refine Keeps.lit ?_ rfl id id)
    )

theorem State.noteBoot_keeps : ∀ a1 a2 a3, Keeps P s0 s → Keeps P s0 (State.noteBoot s a1 a2 a3) := by
  intro a1 a2 a3 h
  unfold State.noteBoot
  repeat' (first
    | with_reducible assumption
    | with_reducible apply State.setReg_keeps
    | with_reducible apply State.slotRecord_keeps
    | with_reducible apply State.event_keeps
    | with_reducible apply Keeps.ite
    | fail_if_no_progress (with_reducible refine Keeps.lit ?_ rfl id id)
    )

theorem State.twinLoad_keeps : Keeps P s0 s → Keeps P s0 (State.twinLoad s) := by
  intro h
  unfold State.twinLoad
  repeat' (first
    | with_reducible assumption
    | ((try lift_lets); intro x)
    | with_reducible apply State.updTwin_keeps
    | with_reducible apply State.shiftList_keeps
    | split
    )

theorem State.loadRegs_keeps : ∀ a1, Keeps P s0 s → Keeps P s0 (State.loadRegs s a1) := by
  intro a1 h
  unfold State.loadRegs
  repeat' (first
    | with_reducible assumption
    | intro x
    | with_reducible apply State.powerUp_keeps
    | with_reducible apply State.loadReg_keeps
    | with_reducible apply Keeps.foldl
    | fail_if_no_progress (with_reducible refine Keeps.lit ?_ rfl id id)
    )

theorem State.applyImage_keeps : ∀ a1, Keeps P s0 s → Keeps P s0 (State.applyImage s a1) := by
  intro a1 h
  unfold State.applyImage
  repeat' (first
    | with_reducible assumption
    | intro x
    | with_reducible apply State.loadRegs_keeps
    | with_reducible apply State.stageWrite_keeps
    | with_reducible apply State.writeClk_keeps
    | with_reducible apply State.twinLoad_keeps
    | with_reducible apply State.loadTile_keeps
    | with_reducible apply State.setCluster_keeps
    | with_reducible apply State.updScn_keeps
    | with_reducible apply State.wrBytes_keeps
    | with_reducible apply State.loadScene_keeps
    | with_reducible apply State.loadTrim_keeps
    | with_reducible apply State.loadLearned_keeps
    | with_reducible apply State.nodeClear_keeps
    | with_reducible apply State.startBlocks_keeps
    | with_reducible apply Keeps.foldl
    | fail_if_no_progress (with_reducible refine Keeps.lit ?_ rfl id id)
    | split
    )

theorem State.asRead_keeps : ∀ a1 a2, Keeps P s0 s → Keeps P s0 (State.asRead s a1 a2) := by
  intro a1 a2 h
  unfold State.asRead
  repeat' (first
    | with_reducible assumption
    | fail_if_no_progress (with_reducible refine Keeps.lit ?_ rfl id id)
    )

theorem execImageApplied_keeps : ∀ a0 a1 a2 a3 a4, Completes s (execImageApplied a0 a1 a2 a3 a4 s) := by
  intro a0 a1 a2 a3 a4
  have h : Keeps Counters.any s s := .refl s
  unfold execImageApplied
  repeat' (first
    | with_reducible assumption
    | intro x
    | with_reducible apply Completes.of
    | with_reducible apply State.startTest_keeps
    | with_reducible apply State.formatJournal_keeps
    | with_reducible apply State.noteBoot_keeps
    | with_reducible apply State.applyImage_keeps
    | with_reducible apply Keeps.ite
    | with_reducible apply Keeps.foldl
    | fail_if_no_progress (with_reducible refine Keeps.lit ?_ rfl id (fun _ => trivial))
    | split
    )

theorem execBootFailure_keeps : Completes s (execBootFailure s) := by
  have h : Keeps Counters.any s s := .refl s
  unfold execBootFailure
  repeat' (first
    | with_reducible assumption
    | with_reducible apply Completes.of
    | with_reducible apply State.enterBootFail_keeps
    | with_reducible apply Keeps.ite
    )

end Sys2Proof.Machine
end

