-- ==== Sys2Proof/Laws/KeepsRaceCmds.lean ====
section
/-!
SUPPORT. What the operations of RaceCmds keep.
-/

namespace Sys2Proof.Machine

variable {P : Counters → Prop} {s0 s : State}

theorem execRaceLinkEnable_keeps : ∀ a0 a1, Completes s (execRaceLinkEnable a0 a1 s) := by
  intro a0 a1
  have h : Keeps Counters.any s s := .refl s
  unfold execRaceLinkEnable
  repeat' (first
    | with_reducible assumption
    | with_reducible apply Completes.of
    | with_reducible apply State.writeRaceCtrl_keeps
    | with_reducible apply Keeps.ite
    )

theorem execRaceLinkDisable_keeps : ∀ a0 a1, Completes s (execRaceLinkDisable a0 a1 s) := by
  intro a0 a1
  have h : Keeps Counters.any s s := .refl s
  unfold execRaceLinkDisable
  repeat' (first
    | with_reducible assumption
    | with_reducible apply Completes.of
    | with_reducible apply State.writeRaceCtrl_keeps
    | with_reducible apply Keeps.ite
    )

theorem State.twinHeard_keeps : ∀ a1, Keeps P s0 s → Keeps P s0 (State.twinHeard s a1) := by
  intro a1 h
  unfold State.twinHeard
  repeat' (first
    | with_reducible assumption
    | ((try lift_lets); intro x)
    | with_reducible apply State.twinSkew_keeps
    | with_reducible apply State.twinState_keeps
    | split
    )

theorem execRaceFrame_keeps : ∀ a0 a1, Completes s (execRaceFrame a0 a1 s) := by
  intro a0 a1
  have h : Keeps Counters.any s s := .refl s
  unfold execRaceFrame
  repeat' (first
    | with_reducible assumption
    | with_reducible apply State.raceStale_keeps
    | with_reducible apply Completes.of
    | with_reducible apply State.raceFrame_keeps
    | with_reducible apply State.twinHeard_keeps
    | split
    | fail_if_no_progress (with_reducible refine Keeps.lit ?_ rfl id (fun _ => trivial))
    | ((try lift_lets); intro x)
    | with_reducible apply Keeps.ite
    | with_reducible apply forAll_keeps
    | with_reducible apply Keeps.foldl
    )

theorem execRaceSync_keeps : ∀ a0, Completes s (execRaceSync a0 s) := by
  intro a0
  have h : Keeps Counters.any s s := .refl s
  unfold execRaceSync
  repeat' (first
    | with_reducible assumption
    | with_reducible apply Completes.of
    | with_reducible apply State.setLink_keeps
    | with_reducible apply State.updTwin_keeps
    | with_reducible apply State.rejoinStart_keeps
    | with_reducible apply Keeps.ite
    | fail_if_no_progress (with_reducible refine Keeps.lit ?_ rfl id (fun _ => trivial))
    | ((try lift_lets); intro x)
    | with_reducible apply forAll_keeps
    | with_reducible apply Keeps.foldl
    | split
    )

theorem execRaceSyncLoss_keeps : ∀ a0, Completes s (execRaceSyncLoss a0 s) := by
  intro a0
  have h : Keeps Counters.any s s := .refl s
  unfold execRaceSyncLoss
  repeat' (first
    | with_reducible assumption
    | with_reducible apply State.candStops_keeps
    | with_reducible apply Completes.of
    | with_reducible apply State.setLink_keeps
    | with_reducible apply State.setFlag_keeps
    | with_reducible apply State.dropParts_keeps
    | with_reducible apply State.event_keeps
    | with_reducible apply State.twinLinkLost_keeps
    | with_reducible apply Keeps.ite
    | fail_if_no_progress (with_reducible refine Keeps.lit ?_ rfl id (fun _ => trivial))
    | ((try lift_lets); intro x)
    | with_reducible apply forAll_keeps
    | with_reducible apply Keeps.foldl
    | split
    )

theorem execRaceCommit_keeps : Completes s (execRaceCommit s) := by
  have h : Keeps Counters.any s s := .refl s
  unfold execRaceCommit
  repeat' (first
    | with_reducible assumption
    | with_reducible apply Completes.of
    | with_reducible apply State.raceCommit_keeps
    | with_reducible apply State.revertDue_keeps
    | with_reducible apply State.twinCommit_keeps
    | with_reducible apply Keeps.ite
    )

theorem execChannelRamp_keeps : ∀ a0, Completes s (execChannelRamp a0 s) := by
  intro a0
  have h : Keeps Counters.any s s := .refl s
  unfold execChannelRamp
  repeat' (first
    | with_reducible assumption
    | with_reducible apply Completes.of
    | fail_if_no_progress (with_reducible refine Keeps.lit ?_ rfl id (fun _ => trivial))
    )

end Sys2Proof.Machine
end

