-- ==== Sys2Proof/Laws/State.lean ====
section
/-!
SUPPORT. One lemma per field of the state for each update: no later proof unfolds a record update.
-/

namespace Sys2Proof.Machine

variable (s : State)

@[simp] theorem State.setReg_pending (a : Nat) (v : Word) : (s.setReg a v).pending = s.pending := rfl
@[simp] theorem State.setReg_regs (a : Nat) (v : Word) : (s.setReg a v).regs = mset 0 s.regs a (v ^^^ resetOf a) := rfl
@[simp] theorem State.setReg_latch (a : Nat) (v : Word) : (s.setReg a v).latch = s.latch := rfl
@[simp] theorem State.setReg_mem (a : Nat) (v : Word) : (s.setReg a v).mem = s.mem := rfl
@[simp] theorem State.setReg_imem (a : Nat) (v : Word) : (s.setReg a v).imem = s.imem := rfl
@[simp] theorem State.setReg_rate96 (a : Nat) (v : Word) : (s.setReg a v).rate96 = s.rate96 := rfl
@[simp] theorem State.setReg_image (a : Nat) (v : Word) : (s.setReg a v).image = s.image := rfl
@[simp] theorem State.setReg_grid (a : Nat) (v : Word) : (s.setReg a v).grid = s.grid := rfl
@[simp] theorem State.setReg_clusters (a : Nat) (v : Word) : (s.setReg a v).clusters = s.clusters := rfl
@[simp] theorem State.setReg_tiles (a : Nat) (v : Word) : (s.setReg a v).tiles = s.tiles := rfl
@[simp] theorem State.setReg_nodes (a : Nat) (v : Word) : (s.setReg a v).nodes = s.nodes := rfl
@[simp] theorem State.setReg_scn (a : Nat) (v : Word) : (s.setReg a v).scn = s.scn := rfl
@[simp] theorem State.setReg_cue (a : Nat) (v : Word) : (s.setReg a v).cue = s.cue := rfl
@[simp] theorem State.setReg_ports (a : Nat) (v : Word) : (s.setReg a v).ports = s.ports := rfl
@[simp] theorem State.setReg_pdm (a : Nat) (v : Word) : (s.setReg a v).pdm = s.pdm := rfl
@[simp] theorem State.setReg_srcs (a : Nat) (v : Word) : (s.setReg a v).srcs = s.srcs := rfl
@[simp] theorem State.setReg_clk (a : Nat) (v : Word) : (s.setReg a v).clk = s.clk := rfl
@[simp] theorem State.setReg_net (a : Nat) (v : Word) : (s.setReg a v).net = s.net := rfl
@[simp] theorem State.setReg_race (a : Nat) (v : Word) : (s.setReg a v).race = s.race := rfl
@[simp] theorem State.setReg_dom (a : Nat) (v : Word) : (s.setReg a v).dom = s.dom := rfl
@[simp] theorem State.setReg_pwr (a : Nat) (v : Word) : (s.setReg a v).pwr = s.pwr := rfl
@[simp] theorem State.setReg_ms (a : Nat) (v : Word) : (s.setReg a v).ms = s.ms := rfl
@[simp] theorem State.setReg_flt (a : Nat) (v : Word) : (s.setReg a v).flt = s.flt := rfl
@[simp] theorem State.setReg_twin (a : Nat) (v : Word) : (s.setReg a v).twin = s.twin := rfl
@[simp] theorem State.setReg_nvm (a : Nat) (v : Word) : (s.setReg a v).nvm = s.nvm := rfl
@[simp] theorem State.setReg_tly (a : Nat) (v : Word) : (s.setReg a v).tly = s.tly := rfl
@[simp] theorem State.setReg_svc (a : Nat) (v : Word) : (s.setReg a v).svc = s.svc := rfl
@[simp] theorem State.setReg_rtc (a : Nat) (v : Word) : (s.setReg a v).rtc = s.rtc := rfl
@[simp] theorem State.setReg_draws (a : Nat) (v : Word) : (s.setReg a v).draws = s.draws := rfl

@[simp] theorem State.wrB_pending (a : Nat) (b : Byte) : (s.wrB a b).pending = s.pending := rfl
@[simp] theorem State.wrB_regs (a : Nat) (b : Byte) : (s.wrB a b).regs = s.regs := rfl
@[simp] theorem State.wrB_latch (a : Nat) (b : Byte) : (s.wrB a b).latch = s.latch := rfl
@[simp] theorem State.wrB_mem (a : Nat) (b : Byte) : (s.wrB a b).mem = mset 0 s.mem a b := rfl
@[simp] theorem State.wrB_imem (a : Nat) (b : Byte) : (s.wrB a b).imem = s.imem := rfl
@[simp] theorem State.wrB_rate96 (a : Nat) (b : Byte) : (s.wrB a b).rate96 = s.rate96 := rfl
@[simp] theorem State.wrB_image (a : Nat) (b : Byte) : (s.wrB a b).image = s.image := rfl
@[simp] theorem State.wrB_grid (a : Nat) (b : Byte) : (s.wrB a b).grid = s.grid := rfl
@[simp] theorem State.wrB_clusters (a : Nat) (b : Byte) : (s.wrB a b).clusters = s.clusters := rfl
@[simp] theorem State.wrB_tiles (a : Nat) (b : Byte) : (s.wrB a b).tiles = s.tiles := rfl
@[simp] theorem State.wrB_nodes (a : Nat) (b : Byte) : (s.wrB a b).nodes = s.nodes := rfl
@[simp] theorem State.wrB_scn (a : Nat) (b : Byte) : (s.wrB a b).scn = s.scn := rfl
@[simp] theorem State.wrB_cue (a : Nat) (b : Byte) : (s.wrB a b).cue = s.cue := rfl
@[simp] theorem State.wrB_ports (a : Nat) (b : Byte) : (s.wrB a b).ports = s.ports := rfl
@[simp] theorem State.wrB_pdm (a : Nat) (b : Byte) : (s.wrB a b).pdm = s.pdm := rfl
@[simp] theorem State.wrB_srcs (a : Nat) (b : Byte) : (s.wrB a b).srcs = s.srcs := rfl
@[simp] theorem State.wrB_clk (a : Nat) (b : Byte) : (s.wrB a b).clk = s.clk := rfl
@[simp] theorem State.wrB_net (a : Nat) (b : Byte) : (s.wrB a b).net = s.net := rfl
@[simp] theorem State.wrB_race (a : Nat) (b : Byte) : (s.wrB a b).race = s.race := rfl
@[simp] theorem State.wrB_dom (a : Nat) (b : Byte) : (s.wrB a b).dom = s.dom := rfl
@[simp] theorem State.wrB_pwr (a : Nat) (b : Byte) : (s.wrB a b).pwr = s.pwr := rfl
@[simp] theorem State.wrB_ms (a : Nat) (b : Byte) : (s.wrB a b).ms = s.ms := rfl
@[simp] theorem State.wrB_flt (a : Nat) (b : Byte) : (s.wrB a b).flt = s.flt := rfl
@[simp] theorem State.wrB_twin (a : Nat) (b : Byte) : (s.wrB a b).twin = s.twin := rfl
@[simp] theorem State.wrB_nvm (a : Nat) (b : Byte) : (s.wrB a b).nvm = s.nvm := rfl
@[simp] theorem State.wrB_tly (a : Nat) (b : Byte) : (s.wrB a b).tly = s.tly := rfl
@[simp] theorem State.wrB_svc (a : Nat) (b : Byte) : (s.wrB a b).svc = s.svc := rfl
@[simp] theorem State.wrB_rtc (a : Nat) (b : Byte) : (s.wrB a b).rtc = s.rtc := rfl
@[simp] theorem State.wrB_draws (a : Nat) (b : Byte) : (s.wrB a b).draws = s.draws := rfl

@[simp] theorem State.setDom_pending (d : Nat) (x : PState) : (s.setDom d x).pending = s.pending := rfl
@[simp] theorem State.setDom_regs (d : Nat) (x : PState) : (s.setDom d x).regs = s.regs := rfl
@[simp] theorem State.setDom_latch (d : Nat) (x : PState) : (s.setDom d x).latch = s.latch := rfl
@[simp] theorem State.setDom_mem (d : Nat) (x : PState) : (s.setDom d x).mem = s.mem := rfl
@[simp] theorem State.setDom_imem (d : Nat) (x : PState) : (s.setDom d x).imem = s.imem := rfl
@[simp] theorem State.setDom_rate96 (d : Nat) (x : PState) : (s.setDom d x).rate96 = s.rate96 := rfl
@[simp] theorem State.setDom_image (d : Nat) (x : PState) : (s.setDom d x).image = s.image := rfl
@[simp] theorem State.setDom_grid (d : Nat) (x : PState) : (s.setDom d x).grid = s.grid := rfl
@[simp] theorem State.setDom_clusters (d : Nat) (x : PState) : (s.setDom d x).clusters = s.clusters := rfl
@[simp] theorem State.setDom_tiles (d : Nat) (x : PState) : (s.setDom d x).tiles = s.tiles := rfl
@[simp] theorem State.setDom_nodes (d : Nat) (x : PState) : (s.setDom d x).nodes = s.nodes := rfl
@[simp] theorem State.setDom_scn (d : Nat) (x : PState) : (s.setDom d x).scn = s.scn := rfl
@[simp] theorem State.setDom_cue (d : Nat) (x : PState) : (s.setDom d x).cue = s.cue := rfl
@[simp] theorem State.setDom_ports (d : Nat) (x : PState) : (s.setDom d x).ports = s.ports := rfl
@[simp] theorem State.setDom_pdm (d : Nat) (x : PState) : (s.setDom d x).pdm = s.pdm := rfl
@[simp] theorem State.setDom_srcs (d : Nat) (x : PState) : (s.setDom d x).srcs = s.srcs := rfl
@[simp] theorem State.setDom_clk (d : Nat) (x : PState) : (s.setDom d x).clk = s.clk := rfl
@[simp] theorem State.setDom_net (d : Nat) (x : PState) : (s.setDom d x).net = s.net := rfl
@[simp] theorem State.setDom_race (d : Nat) (x : PState) : (s.setDom d x).race = s.race := rfl
@[simp] theorem State.setDom_dom (d : Nat) (x : PState) : (s.setDom d x).dom = s.dom := rfl
@[simp] theorem State.setDom_pwr (d : Nat) (x : PState) : (s.setDom d x).pwr = { s.pwr with dom := mset .off s.pwr.dom d x } := rfl
@[simp] theorem State.setDom_ms (d : Nat) (x : PState) : (s.setDom d x).ms = s.ms := rfl
@[simp] theorem State.setDom_flt (d : Nat) (x : PState) : (s.setDom d x).flt = s.flt := rfl
@[simp] theorem State.setDom_twin (d : Nat) (x : PState) : (s.setDom d x).twin = s.twin := rfl
@[simp] theorem State.setDom_nvm (d : Nat) (x : PState) : (s.setDom d x).nvm = s.nvm := rfl
@[simp] theorem State.setDom_tly (d : Nat) (x : PState) : (s.setDom d x).tly = s.tly := rfl
@[simp] theorem State.setDom_svc (d : Nat) (x : PState) : (s.setDom d x).svc = s.svc := rfl
@[simp] theorem State.setDom_rtc (d : Nat) (x : PState) : (s.setDom d x).rtc = s.rtc := rfl
@[simp] theorem State.setDom_draws (d : Nat) (x : PState) : (s.setDom d x).draws = s.draws := rfl

@[simp] theorem State.setTile_pending (n : Nat) (t : Tile) : (s.setTile n t).pending = s.pending := rfl
@[simp] theorem State.setTile_regs (n : Nat) (t : Tile) : (s.setTile n t).regs = s.regs := rfl
@[simp] theorem State.setTile_latch (n : Nat) (t : Tile) : (s.setTile n t).latch = s.latch := rfl
@[simp] theorem State.setTile_mem (n : Nat) (t : Tile) : (s.setTile n t).mem = s.mem := rfl
@[simp] theorem State.setTile_imem (n : Nat) (t : Tile) : (s.setTile n t).imem = s.imem := rfl
@[simp] theorem State.setTile_rate96 (n : Nat) (t : Tile) : (s.setTile n t).rate96 = s.rate96 := rfl
@[simp] theorem State.setTile_image (n : Nat) (t : Tile) : (s.setTile n t).image = s.image := rfl
@[simp] theorem State.setTile_grid (n : Nat) (t : Tile) : (s.setTile n t).grid = s.grid := rfl
@[simp] theorem State.setTile_clusters (n : Nat) (t : Tile) : (s.setTile n t).clusters = s.clusters := rfl
@[simp] theorem State.setTile_tiles (n : Nat) (t : Tile) : (s.setTile n t).tiles = mset {} s.tiles n t := rfl
@[simp] theorem State.setTile_nodes (n : Nat) (t : Tile) : (s.setTile n t).nodes = s.nodes := rfl
@[simp] theorem State.setTile_scn (n : Nat) (t : Tile) : (s.setTile n t).scn = s.scn := rfl
@[simp] theorem State.setTile_cue (n : Nat) (t : Tile) : (s.setTile n t).cue = s.cue := rfl
@[simp] theorem State.setTile_ports (n : Nat) (t : Tile) : (s.setTile n t).ports = s.ports := rfl
@[simp] theorem State.setTile_pdm (n : Nat) (t : Tile) : (s.setTile n t).pdm = s.pdm := rfl
@[simp] theorem State.setTile_srcs (n : Nat) (t : Tile) : (s.setTile n t).srcs = s.srcs := rfl
@[simp] theorem State.setTile_clk (n : Nat) (t : Tile) : (s.setTile n t).clk = s.clk := rfl
@[simp] theorem State.setTile_net (n : Nat) (t : Tile) : (s.setTile n t).net = s.net := rfl
@[simp] theorem State.setTile_race (n : Nat) (t : Tile) : (s.setTile n t).race = s.race := rfl
@[simp] theorem State.setTile_dom (n : Nat) (t : Tile) : (s.setTile n t).dom = s.dom := rfl
@[simp] theorem State.setTile_pwr (n : Nat) (t : Tile) : (s.setTile n t).pwr = s.pwr := rfl
@[simp] theorem State.setTile_ms (n : Nat) (t : Tile) : (s.setTile n t).ms = s.ms := rfl
@[simp] theorem State.setTile_flt (n : Nat) (t : Tile) : (s.setTile n t).flt = s.flt := rfl
@[simp] theorem State.setTile_twin (n : Nat) (t : Tile) : (s.setTile n t).twin = s.twin := rfl
@[simp] theorem State.setTile_nvm (n : Nat) (t : Tile) : (s.setTile n t).nvm = s.nvm := rfl
@[simp] theorem State.setTile_tly (n : Nat) (t : Tile) : (s.setTile n t).tly = s.tly := rfl
@[simp] theorem State.setTile_svc (n : Nat) (t : Tile) : (s.setTile n t).svc = s.svc := rfl
@[simp] theorem State.setTile_rtc (n : Nat) (t : Tile) : (s.setTile n t).rtc = s.rtc := rfl
@[simp] theorem State.setTile_draws (n : Nat) (t : Tile) : (s.setTile n t).draws = s.draws := rfl

@[simp] theorem State.setCluster_pending (c : Nat) (x : Cluster) : (s.setCluster c x).pending = s.pending := rfl
@[simp] theorem State.setCluster_regs (c : Nat) (x : Cluster) : (s.setCluster c x).regs = s.regs := rfl
@[simp] theorem State.setCluster_latch (c : Nat) (x : Cluster) : (s.setCluster c x).latch = s.latch := rfl
@[simp] theorem State.setCluster_mem (c : Nat) (x : Cluster) : (s.setCluster c x).mem = s.mem := rfl
@[simp] theorem State.setCluster_imem (c : Nat) (x : Cluster) : (s.setCluster c x).imem = s.imem := rfl
@[simp] theorem State.setCluster_rate96 (c : Nat) (x : Cluster) : (s.setCluster c x).rate96 = s.rate96 := rfl
@[simp] theorem State.setCluster_image (c : Nat) (x : Cluster) : (s.setCluster c x).image = s.image := rfl
@[simp] theorem State.setCluster_grid (c : Nat) (x : Cluster) : (s.setCluster c x).grid = s.grid := rfl
@[simp] theorem State.setCluster_clusters (c : Nat) (x : Cluster) : (s.setCluster c x).clusters = mset {} s.clusters c x := rfl
@[simp] theorem State.setCluster_tiles (c : Nat) (x : Cluster) : (s.setCluster c x).tiles = s.tiles := rfl
@[simp] theorem State.setCluster_nodes (c : Nat) (x : Cluster) : (s.setCluster c x).nodes = s.nodes := rfl
@[simp] theorem State.setCluster_scn (c : Nat) (x : Cluster) : (s.setCluster c x).scn = s.scn := rfl
@[simp] theorem State.setCluster_cue (c : Nat) (x : Cluster) : (s.setCluster c x).cue = s.cue := rfl
@[simp] theorem State.setCluster_ports (c : Nat) (x : Cluster) : (s.setCluster c x).ports = s.ports := rfl
@[simp] theorem State.setCluster_pdm (c : Nat) (x : Cluster) : (s.setCluster c x).pdm = s.pdm := rfl
@[simp] theorem State.setCluster_srcs (c : Nat) (x : Cluster) : (s.setCluster c x).srcs = s.srcs := rfl
@[simp] theorem State.setCluster_clk (c : Nat) (x : Cluster) : (s.setCluster c x).clk = s.clk := rfl
@[simp] theorem State.setCluster_net (c : Nat) (x : Cluster) : (s.setCluster c x).net = s.net := rfl
@[simp] theorem State.setCluster_race (c : Nat) (x : Cluster) : (s.setCluster c x).race = s.race := rfl
@[simp] theorem State.setCluster_dom (c : Nat) (x : Cluster) : (s.setCluster c x).dom = s.dom := rfl
@[simp] theorem State.setCluster_pwr (c : Nat) (x : Cluster) : (s.setCluster c x).pwr = s.pwr := rfl
@[simp] theorem State.setCluster_ms (c : Nat) (x : Cluster) : (s.setCluster c x).ms = s.ms := rfl
@[simp] theorem State.setCluster_flt (c : Nat) (x : Cluster) : (s.setCluster c x).flt = s.flt := rfl
@[simp] theorem State.setCluster_twin (c : Nat) (x : Cluster) : (s.setCluster c x).twin = s.twin := rfl
@[simp] theorem State.setCluster_nvm (c : Nat) (x : Cluster) : (s.setCluster c x).nvm = s.nvm := rfl
@[simp] theorem State.setCluster_tly (c : Nat) (x : Cluster) : (s.setCluster c x).tly = s.tly := rfl
@[simp] theorem State.setCluster_svc (c : Nat) (x : Cluster) : (s.setCluster c x).svc = s.svc := rfl
@[simp] theorem State.setCluster_rtc (c : Nat) (x : Cluster) : (s.setCluster c x).rtc = s.rtc := rfl
@[simp] theorem State.setCluster_draws (c : Nat) (x : Cluster) : (s.setCluster c x).draws = s.draws := rfl

@[simp] theorem State.setPort_pending (k : Nat) (x : Port) : (s.setPort k x).pending = s.pending := rfl
@[simp] theorem State.setPort_regs (k : Nat) (x : Port) : (s.setPort k x).regs = s.regs := rfl
@[simp] theorem State.setPort_latch (k : Nat) (x : Port) : (s.setPort k x).latch = s.latch := rfl
@[simp] theorem State.setPort_mem (k : Nat) (x : Port) : (s.setPort k x).mem = s.mem := rfl
@[simp] theorem State.setPort_imem (k : Nat) (x : Port) : (s.setPort k x).imem = s.imem := rfl
@[simp] theorem State.setPort_rate96 (k : Nat) (x : Port) : (s.setPort k x).rate96 = s.rate96 := rfl
@[simp] theorem State.setPort_image (k : Nat) (x : Port) : (s.setPort k x).image = s.image := rfl
@[simp] theorem State.setPort_grid (k : Nat) (x : Port) : (s.setPort k x).grid = s.grid := rfl
@[simp] theorem State.setPort_clusters (k : Nat) (x : Port) : (s.setPort k x).clusters = s.clusters := rfl
@[simp] theorem State.setPort_tiles (k : Nat) (x : Port) : (s.setPort k x).tiles = s.tiles := rfl
@[simp] theorem State.setPort_nodes (k : Nat) (x : Port) : (s.setPort k x).nodes = s.nodes := rfl
@[simp] theorem State.setPort_scn (k : Nat) (x : Port) : (s.setPort k x).scn = s.scn := rfl
@[simp] theorem State.setPort_cue (k : Nat) (x : Port) : (s.setPort k x).cue = s.cue := rfl
@[simp] theorem State.setPort_ports (k : Nat) (x : Port) : (s.setPort k x).ports = mset {} s.ports k x := rfl
@[simp] theorem State.setPort_pdm (k : Nat) (x : Port) : (s.setPort k x).pdm = s.pdm := rfl
@[simp] theorem State.setPort_srcs (k : Nat) (x : Port) : (s.setPort k x).srcs = s.srcs := rfl
@[simp] theorem State.setPort_clk (k : Nat) (x : Port) : (s.setPort k x).clk = s.clk := rfl
@[simp] theorem State.setPort_net (k : Nat) (x : Port) : (s.setPort k x).net = s.net := rfl
@[simp] theorem State.setPort_race (k : Nat) (x : Port) : (s.setPort k x).race = s.race := rfl
@[simp] theorem State.setPort_dom (k : Nat) (x : Port) : (s.setPort k x).dom = s.dom := rfl
@[simp] theorem State.setPort_pwr (k : Nat) (x : Port) : (s.setPort k x).pwr = s.pwr := rfl
@[simp] theorem State.setPort_ms (k : Nat) (x : Port) : (s.setPort k x).ms = s.ms := rfl
@[simp] theorem State.setPort_flt (k : Nat) (x : Port) : (s.setPort k x).flt = s.flt := rfl
@[simp] theorem State.setPort_twin (k : Nat) (x : Port) : (s.setPort k x).twin = s.twin := rfl
@[simp] theorem State.setPort_nvm (k : Nat) (x : Port) : (s.setPort k x).nvm = s.nvm := rfl
@[simp] theorem State.setPort_tly (k : Nat) (x : Port) : (s.setPort k x).tly = s.tly := rfl
@[simp] theorem State.setPort_svc (k : Nat) (x : Port) : (s.setPort k x).svc = s.svc := rfl
@[simp] theorem State.setPort_rtc (k : Nat) (x : Port) : (s.setPort k x).rtc = s.rtc := rfl
@[simp] theorem State.setPort_draws (k : Nat) (x : Port) : (s.setPort k x).draws = s.draws := rfl

@[simp] theorem State.setSrc_pending (c : Nat) (x : Converter) : (s.setSrc c x).pending = s.pending := rfl
@[simp] theorem State.setSrc_regs (c : Nat) (x : Converter) : (s.setSrc c x).regs = s.regs := rfl
@[simp] theorem State.setSrc_latch (c : Nat) (x : Converter) : (s.setSrc c x).latch = s.latch := rfl
@[simp] theorem State.setSrc_mem (c : Nat) (x : Converter) : (s.setSrc c x).mem = s.mem := rfl
@[simp] theorem State.setSrc_imem (c : Nat) (x : Converter) : (s.setSrc c x).imem = s.imem := rfl
@[simp] theorem State.setSrc_rate96 (c : Nat) (x : Converter) : (s.setSrc c x).rate96 = s.rate96 := rfl
@[simp] theorem State.setSrc_image (c : Nat) (x : Converter) : (s.setSrc c x).image = s.image := rfl
@[simp] theorem State.setSrc_grid (c : Nat) (x : Converter) : (s.setSrc c x).grid = s.grid := rfl
@[simp] theorem State.setSrc_clusters (c : Nat) (x : Converter) : (s.setSrc c x).clusters = s.clusters := rfl
@[simp] theorem State.setSrc_tiles (c : Nat) (x : Converter) : (s.setSrc c x).tiles = s.tiles := rfl
@[simp] theorem State.setSrc_nodes (c : Nat) (x : Converter) : (s.setSrc c x).nodes = s.nodes := rfl
@[simp] theorem State.setSrc_scn (c : Nat) (x : Converter) : (s.setSrc c x).scn = s.scn := rfl
@[simp] theorem State.setSrc_cue (c : Nat) (x : Converter) : (s.setSrc c x).cue = s.cue := rfl
@[simp] theorem State.setSrc_ports (c : Nat) (x : Converter) : (s.setSrc c x).ports = s.ports := rfl
@[simp] theorem State.setSrc_pdm (c : Nat) (x : Converter) : (s.setSrc c x).pdm = s.pdm := rfl
@[simp] theorem State.setSrc_srcs (c : Nat) (x : Converter) : (s.setSrc c x).srcs = mset {} s.srcs c x := rfl
@[simp] theorem State.setSrc_clk (c : Nat) (x : Converter) : (s.setSrc c x).clk = s.clk := rfl
@[simp] theorem State.setSrc_net (c : Nat) (x : Converter) : (s.setSrc c x).net = s.net := rfl
@[simp] theorem State.setSrc_race (c : Nat) (x : Converter) : (s.setSrc c x).race = s.race := rfl
@[simp] theorem State.setSrc_dom (c : Nat) (x : Converter) : (s.setSrc c x).dom = s.dom := rfl
@[simp] theorem State.setSrc_pwr (c : Nat) (x : Converter) : (s.setSrc c x).pwr = s.pwr := rfl
@[simp] theorem State.setSrc_ms (c : Nat) (x : Converter) : (s.setSrc c x).ms = s.ms := rfl
@[simp] theorem State.setSrc_flt (c : Nat) (x : Converter) : (s.setSrc c x).flt = s.flt := rfl
@[simp] theorem State.setSrc_twin (c : Nat) (x : Converter) : (s.setSrc c x).twin = s.twin := rfl
@[simp] theorem State.setSrc_nvm (c : Nat) (x : Converter) : (s.setSrc c x).nvm = s.nvm := rfl
@[simp] theorem State.setSrc_tly (c : Nat) (x : Converter) : (s.setSrc c x).tly = s.tly := rfl
@[simp] theorem State.setSrc_svc (c : Nat) (x : Converter) : (s.setSrc c x).svc = s.svc := rfl
@[simp] theorem State.setSrc_rtc (c : Nat) (x : Converter) : (s.setSrc c x).rtc = s.rtc := rfl
@[simp] theorem State.setSrc_draws (c : Nat) (x : Converter) : (s.setSrc c x).draws = s.draws := rfl

@[simp] theorem State.setNodeSt_pending (i : Nat) (x : NodeSt) : (s.setNodeSt i x).pending = s.pending := rfl
@[simp] theorem State.setNodeSt_regs (i : Nat) (x : NodeSt) : (s.setNodeSt i x).regs = s.regs := rfl
@[simp] theorem State.setNodeSt_latch (i : Nat) (x : NodeSt) : (s.setNodeSt i x).latch = s.latch := rfl
@[simp] theorem State.setNodeSt_mem (i : Nat) (x : NodeSt) : (s.setNodeSt i x).mem = s.mem := rfl
@[simp] theorem State.setNodeSt_imem (i : Nat) (x : NodeSt) : (s.setNodeSt i x).imem = s.imem := rfl
@[simp] theorem State.setNodeSt_rate96 (i : Nat) (x : NodeSt) : (s.setNodeSt i x).rate96 = s.rate96 := rfl
@[simp] theorem State.setNodeSt_image (i : Nat) (x : NodeSt) : (s.setNodeSt i x).image = s.image := rfl
@[simp] theorem State.setNodeSt_grid (i : Nat) (x : NodeSt) : (s.setNodeSt i x).grid = s.grid := rfl
@[simp] theorem State.setNodeSt_clusters (i : Nat) (x : NodeSt) : (s.setNodeSt i x).clusters = s.clusters := rfl
@[simp] theorem State.setNodeSt_tiles (i : Nat) (x : NodeSt) : (s.setNodeSt i x).tiles = s.tiles := rfl
@[simp] theorem State.setNodeSt_nodes (i : Nat) (x : NodeSt) : (s.setNodeSt i x).nodes = mset {} s.nodes i x := rfl
@[simp] theorem State.setNodeSt_scn (i : Nat) (x : NodeSt) : (s.setNodeSt i x).scn = s.scn := rfl
@[simp] theorem State.setNodeSt_cue (i : Nat) (x : NodeSt) : (s.setNodeSt i x).cue = s.cue := rfl
@[simp] theorem State.setNodeSt_ports (i : Nat) (x : NodeSt) : (s.setNodeSt i x).ports = s.ports := rfl
@[simp] theorem State.setNodeSt_pdm (i : Nat) (x : NodeSt) : (s.setNodeSt i x).pdm = s.pdm := rfl
@[simp] theorem State.setNodeSt_srcs (i : Nat) (x : NodeSt) : (s.setNodeSt i x).srcs = s.srcs := rfl
@[simp] theorem State.setNodeSt_clk (i : Nat) (x : NodeSt) : (s.setNodeSt i x).clk = s.clk := rfl
@[simp] theorem State.setNodeSt_net (i : Nat) (x : NodeSt) : (s.setNodeSt i x).net = s.net := rfl
@[simp] theorem State.setNodeSt_race (i : Nat) (x : NodeSt) : (s.setNodeSt i x).race = s.race := rfl
@[simp] theorem State.setNodeSt_dom (i : Nat) (x : NodeSt) : (s.setNodeSt i x).dom = s.dom := rfl
@[simp] theorem State.setNodeSt_pwr (i : Nat) (x : NodeSt) : (s.setNodeSt i x).pwr = s.pwr := rfl
@[simp] theorem State.setNodeSt_ms (i : Nat) (x : NodeSt) : (s.setNodeSt i x).ms = s.ms := rfl
@[simp] theorem State.setNodeSt_flt (i : Nat) (x : NodeSt) : (s.setNodeSt i x).flt = s.flt := rfl
@[simp] theorem State.setNodeSt_twin (i : Nat) (x : NodeSt) : (s.setNodeSt i x).twin = s.twin := rfl
@[simp] theorem State.setNodeSt_nvm (i : Nat) (x : NodeSt) : (s.setNodeSt i x).nvm = s.nvm := rfl
@[simp] theorem State.setNodeSt_tly (i : Nat) (x : NodeSt) : (s.setNodeSt i x).tly = s.tly := rfl
@[simp] theorem State.setNodeSt_svc (i : Nat) (x : NodeSt) : (s.setNodeSt i x).svc = s.svc := rfl
@[simp] theorem State.setNodeSt_rtc (i : Nat) (x : NodeSt) : (s.setNodeSt i x).rtc = s.rtc := rfl
@[simp] theorem State.setNodeSt_draws (i : Nat) (x : NodeSt) : (s.setNodeSt i x).draws = s.draws := rfl

@[simp] theorem State.setMic_pending (m : Nat) (x : Mic) : (s.setMic m x).pending = s.pending := rfl
@[simp] theorem State.setMic_regs (m : Nat) (x : Mic) : (s.setMic m x).regs = s.regs := rfl
@[simp] theorem State.setMic_latch (m : Nat) (x : Mic) : (s.setMic m x).latch = s.latch := rfl
@[simp] theorem State.setMic_mem (m : Nat) (x : Mic) : (s.setMic m x).mem = s.mem := rfl
@[simp] theorem State.setMic_imem (m : Nat) (x : Mic) : (s.setMic m x).imem = s.imem := rfl
@[simp] theorem State.setMic_rate96 (m : Nat) (x : Mic) : (s.setMic m x).rate96 = s.rate96 := rfl
@[simp] theorem State.setMic_image (m : Nat) (x : Mic) : (s.setMic m x).image = s.image := rfl
@[simp] theorem State.setMic_grid (m : Nat) (x : Mic) : (s.setMic m x).grid = s.grid := rfl
@[simp] theorem State.setMic_clusters (m : Nat) (x : Mic) : (s.setMic m x).clusters = s.clusters := rfl
@[simp] theorem State.setMic_tiles (m : Nat) (x : Mic) : (s.setMic m x).tiles = s.tiles := rfl
@[simp] theorem State.setMic_nodes (m : Nat) (x : Mic) : (s.setMic m x).nodes = s.nodes := rfl
@[simp] theorem State.setMic_scn (m : Nat) (x : Mic) : (s.setMic m x).scn = s.scn := rfl
@[simp] theorem State.setMic_cue (m : Nat) (x : Mic) : (s.setMic m x).cue = s.cue := rfl
@[simp] theorem State.setMic_ports (m : Nat) (x : Mic) : (s.setMic m x).ports = s.ports := rfl
@[simp] theorem State.setMic_pdm (m : Nat) (x : Mic) : (s.setMic m x).pdm = { s.pdm with mics := mset {} s.pdm.mics m x } := rfl
@[simp] theorem State.setMic_srcs (m : Nat) (x : Mic) : (s.setMic m x).srcs = s.srcs := rfl
@[simp] theorem State.setMic_clk (m : Nat) (x : Mic) : (s.setMic m x).clk = s.clk := rfl
@[simp] theorem State.setMic_net (m : Nat) (x : Mic) : (s.setMic m x).net = s.net := rfl
@[simp] theorem State.setMic_race (m : Nat) (x : Mic) : (s.setMic m x).race = s.race := rfl
@[simp] theorem State.setMic_dom (m : Nat) (x : Mic) : (s.setMic m x).dom = s.dom := rfl
@[simp] theorem State.setMic_pwr (m : Nat) (x : Mic) : (s.setMic m x).pwr = s.pwr := rfl
@[simp] theorem State.setMic_ms (m : Nat) (x : Mic) : (s.setMic m x).ms = s.ms := rfl
@[simp] theorem State.setMic_flt (m : Nat) (x : Mic) : (s.setMic m x).flt = s.flt := rfl
@[simp] theorem State.setMic_twin (m : Nat) (x : Mic) : (s.setMic m x).twin = s.twin := rfl
@[simp] theorem State.setMic_nvm (m : Nat) (x : Mic) : (s.setMic m x).nvm = s.nvm := rfl
@[simp] theorem State.setMic_tly (m : Nat) (x : Mic) : (s.setMic m x).tly = s.tly := rfl
@[simp] theorem State.setMic_svc (m : Nat) (x : Mic) : (s.setMic m x).svc = s.svc := rfl
@[simp] theorem State.setMic_rtc (m : Nat) (x : Mic) : (s.setMic m x).rtc = s.rtc := rfl
@[simp] theorem State.setMic_draws (m : Nat) (x : Mic) : (s.setMic m x).draws = s.draws := rfl

@[simp] theorem State.setMon_pending (m : Nat) (x : Mon) : (s.setMon m x).pending = s.pending := rfl
@[simp] theorem State.setMon_regs (m : Nat) (x : Mon) : (s.setMon m x).regs = s.regs := rfl
@[simp] theorem State.setMon_latch (m : Nat) (x : Mon) : (s.setMon m x).latch = s.latch := rfl
@[simp] theorem State.setMon_mem (m : Nat) (x : Mon) : (s.setMon m x).mem = s.mem := rfl
@[simp] theorem State.setMon_imem (m : Nat) (x : Mon) : (s.setMon m x).imem = s.imem := rfl
@[simp] theorem State.setMon_rate96 (m : Nat) (x : Mon) : (s.setMon m x).rate96 = s.rate96 := rfl
@[simp] theorem State.setMon_image (m : Nat) (x : Mon) : (s.setMon m x).image = s.image := rfl
@[simp] theorem State.setMon_grid (m : Nat) (x : Mon) : (s.setMon m x).grid = s.grid := rfl
@[simp] theorem State.setMon_clusters (m : Nat) (x : Mon) : (s.setMon m x).clusters = s.clusters := rfl
@[simp] theorem State.setMon_tiles (m : Nat) (x : Mon) : (s.setMon m x).tiles = s.tiles := rfl
@[simp] theorem State.setMon_nodes (m : Nat) (x : Mon) : (s.setMon m x).nodes = s.nodes := rfl
@[simp] theorem State.setMon_scn (m : Nat) (x : Mon) : (s.setMon m x).scn = s.scn := rfl
@[simp] theorem State.setMon_cue (m : Nat) (x : Mon) : (s.setMon m x).cue = s.cue := rfl
@[simp] theorem State.setMon_ports (m : Nat) (x : Mon) : (s.setMon m x).ports = s.ports := rfl
@[simp] theorem State.setMon_pdm (m : Nat) (x : Mon) : (s.setMon m x).pdm = s.pdm := rfl
@[simp] theorem State.setMon_srcs (m : Nat) (x : Mon) : (s.setMon m x).srcs = s.srcs := rfl
@[simp] theorem State.setMon_clk (m : Nat) (x : Mon) : (s.setMon m x).clk = s.clk := rfl
@[simp] theorem State.setMon_net (m : Nat) (x : Mon) : (s.setMon m x).net = s.net := rfl
@[simp] theorem State.setMon_race (m : Nat) (x : Mon) : (s.setMon m x).race = s.race := rfl
@[simp] theorem State.setMon_dom (m : Nat) (x : Mon) : (s.setMon m x).dom = s.dom := rfl
@[simp] theorem State.setMon_pwr (m : Nat) (x : Mon) : (s.setMon m x).pwr = s.pwr := rfl
@[simp] theorem State.setMon_ms (m : Nat) (x : Mon) : (s.setMon m x).ms = s.ms := rfl
@[simp] theorem State.setMon_flt (m : Nat) (x : Mon) : (s.setMon m x).flt = s.flt := rfl
@[simp] theorem State.setMon_twin (m : Nat) (x : Mon) : (s.setMon m x).twin = s.twin := rfl
@[simp] theorem State.setMon_nvm (m : Nat) (x : Mon) : (s.setMon m x).nvm = s.nvm := rfl
@[simp] theorem State.setMon_tly (m : Nat) (x : Mon) : (s.setMon m x).tly = { s.tly with mons := mset {} s.tly.mons m x } := rfl
@[simp] theorem State.setMon_svc (m : Nat) (x : Mon) : (s.setMon m x).svc = s.svc := rfl
@[simp] theorem State.setMon_rtc (m : Nat) (x : Mon) : (s.setMon m x).rtc = s.rtc := rfl
@[simp] theorem State.setMon_draws (m : Nat) (x : Mon) : (s.setMon m x).draws = s.draws := rfl

@[simp] theorem State.updGrid_pending (f : Grid → Grid) : (s.updGrid f).pending = s.pending := rfl
@[simp] theorem State.updGrid_regs (f : Grid → Grid) : (s.updGrid f).regs = s.regs := rfl
@[simp] theorem State.updGrid_latch (f : Grid → Grid) : (s.updGrid f).latch = s.latch := rfl
@[simp] theorem State.updGrid_mem (f : Grid → Grid) : (s.updGrid f).mem = s.mem := rfl
@[simp] theorem State.updGrid_imem (f : Grid → Grid) : (s.updGrid f).imem = s.imem := rfl
@[simp] theorem State.updGrid_rate96 (f : Grid → Grid) : (s.updGrid f).rate96 = s.rate96 := rfl
@[simp] theorem State.updGrid_image (f : Grid → Grid) : (s.updGrid f).image = s.image := rfl
@[simp] theorem State.updGrid_grid (f : Grid → Grid) : (s.updGrid f).grid = f s.grid := rfl
@[simp] theorem State.updGrid_clusters (f : Grid → Grid) : (s.updGrid f).clusters = s.clusters := rfl
@[simp] theorem State.updGrid_tiles (f : Grid → Grid) : (s.updGrid f).tiles = s.tiles := rfl
@[simp] theorem State.updGrid_nodes (f : Grid → Grid) : (s.updGrid f).nodes = s.nodes := rfl
@[simp] theorem State.updGrid_scn (f : Grid → Grid) : (s.updGrid f).scn = s.scn := rfl
@[simp] theorem State.updGrid_cue (f : Grid → Grid) : (s.updGrid f).cue = s.cue := rfl
@[simp] theorem State.updGrid_ports (f : Grid → Grid) : (s.updGrid f).ports = s.ports := rfl
@[simp] theorem State.updGrid_pdm (f : Grid → Grid) : (s.updGrid f).pdm = s.pdm := rfl
@[simp] theorem State.updGrid_srcs (f : Grid → Grid) : (s.updGrid f).srcs = s.srcs := rfl
@[simp] theorem State.updGrid_clk (f : Grid → Grid) : (s.updGrid f).clk = s.clk := rfl
@[simp] theorem State.updGrid_net (f : Grid → Grid) : (s.updGrid f).net = s.net := rfl
@[simp] theorem State.updGrid_race (f : Grid → Grid) : (s.updGrid f).race = s.race := rfl
@[simp] theorem State.updGrid_dom (f : Grid → Grid) : (s.updGrid f).dom = s.dom := rfl
@[simp] theorem State.updGrid_pwr (f : Grid → Grid) : (s.updGrid f).pwr = s.pwr := rfl
@[simp] theorem State.updGrid_ms (f : Grid → Grid) : (s.updGrid f).ms = s.ms := rfl
@[simp] theorem State.updGrid_flt (f : Grid → Grid) : (s.updGrid f).flt = s.flt := rfl
@[simp] theorem State.updGrid_twin (f : Grid → Grid) : (s.updGrid f).twin = s.twin := rfl
@[simp] theorem State.updGrid_nvm (f : Grid → Grid) : (s.updGrid f).nvm = s.nvm := rfl
@[simp] theorem State.updGrid_tly (f : Grid → Grid) : (s.updGrid f).tly = s.tly := rfl
@[simp] theorem State.updGrid_svc (f : Grid → Grid) : (s.updGrid f).svc = s.svc := rfl
@[simp] theorem State.updGrid_rtc (f : Grid → Grid) : (s.updGrid f).rtc = s.rtc := rfl
@[simp] theorem State.updGrid_draws (f : Grid → Grid) : (s.updGrid f).draws = s.draws := rfl

@[simp] theorem State.updScn_pending (f : Scenes → Scenes) : (s.updScn f).pending = s.pending := rfl
@[simp] theorem State.updScn_regs (f : Scenes → Scenes) : (s.updScn f).regs = s.regs := rfl
@[simp] theorem State.updScn_latch (f : Scenes → Scenes) : (s.updScn f).latch = s.latch := rfl
@[simp] theorem State.updScn_mem (f : Scenes → Scenes) : (s.updScn f).mem = s.mem := rfl
@[simp] theorem State.updScn_imem (f : Scenes → Scenes) : (s.updScn f).imem = s.imem := rfl
@[simp] theorem State.updScn_rate96 (f : Scenes → Scenes) : (s.updScn f).rate96 = s.rate96 := rfl
@[simp] theorem State.updScn_image (f : Scenes → Scenes) : (s.updScn f).image = s.image := rfl
@[simp] theorem State.updScn_grid (f : Scenes → Scenes) : (s.updScn f).grid = s.grid := rfl
@[simp] theorem State.updScn_clusters (f : Scenes → Scenes) : (s.updScn f).clusters = s.clusters := rfl
@[simp] theorem State.updScn_tiles (f : Scenes → Scenes) : (s.updScn f).tiles = s.tiles := rfl
@[simp] theorem State.updScn_nodes (f : Scenes → Scenes) : (s.updScn f).nodes = s.nodes := rfl
@[simp] theorem State.updScn_scn (f : Scenes → Scenes) : (s.updScn f).scn = f s.scn := rfl
@[simp] theorem State.updScn_cue (f : Scenes → Scenes) : (s.updScn f).cue = s.cue := rfl
@[simp] theorem State.updScn_ports (f : Scenes → Scenes) : (s.updScn f).ports = s.ports := rfl
@[simp] theorem State.updScn_pdm (f : Scenes → Scenes) : (s.updScn f).pdm = s.pdm := rfl
@[simp] theorem State.updScn_srcs (f : Scenes → Scenes) : (s.updScn f).srcs = s.srcs := rfl
@[simp] theorem State.updScn_clk (f : Scenes → Scenes) : (s.updScn f).clk = s.clk := rfl
@[simp] theorem State.updScn_net (f : Scenes → Scenes) : (s.updScn f).net = s.net := rfl
@[simp] theorem State.updScn_race (f : Scenes → Scenes) : (s.updScn f).race = s.race := rfl
@[simp] theorem State.updScn_dom (f : Scenes → Scenes) : (s.updScn f).dom = s.dom := rfl
@[simp] theorem State.updScn_pwr (f : Scenes → Scenes) : (s.updScn f).pwr = s.pwr := rfl
@[simp] theorem State.updScn_ms (f : Scenes → Scenes) : (s.updScn f).ms = s.ms := rfl
@[simp] theorem State.updScn_flt (f : Scenes → Scenes) : (s.updScn f).flt = s.flt := rfl
@[simp] theorem State.updScn_twin (f : Scenes → Scenes) : (s.updScn f).twin = s.twin := rfl
@[simp] theorem State.updScn_nvm (f : Scenes → Scenes) : (s.updScn f).nvm = s.nvm := rfl
@[simp] theorem State.updScn_tly (f : Scenes → Scenes) : (s.updScn f).tly = s.tly := rfl
@[simp] theorem State.updScn_svc (f : Scenes → Scenes) : (s.updScn f).svc = s.svc := rfl
@[simp] theorem State.updScn_rtc (f : Scenes → Scenes) : (s.updScn f).rtc = s.rtc := rfl
@[simp] theorem State.updScn_draws (f : Scenes → Scenes) : (s.updScn f).draws = s.draws := rfl

@[simp] theorem State.updCue_pending (f : Cues → Cues) : (s.updCue f).pending = s.pending := rfl
@[simp] theorem State.updCue_regs (f : Cues → Cues) : (s.updCue f).regs = s.regs := rfl
@[simp] theorem State.updCue_latch (f : Cues → Cues) : (s.updCue f).latch = s.latch := rfl
@[simp] theorem State.updCue_mem (f : Cues → Cues) : (s.updCue f).mem = s.mem := rfl
@[simp] theorem State.updCue_imem (f : Cues → Cues) : (s.updCue f).imem = s.imem := rfl
@[simp] theorem State.updCue_rate96 (f : Cues → Cues) : (s.updCue f).rate96 = s.rate96 := rfl
@[simp] theorem State.updCue_image (f : Cues → Cues) : (s.updCue f).image = s.image := rfl
@[simp] theorem State.updCue_grid (f : Cues → Cues) : (s.updCue f).grid = s.grid := rfl
@[simp] theorem State.updCue_clusters (f : Cues → Cues) : (s.updCue f).clusters = s.clusters := rfl
@[simp] theorem State.updCue_tiles (f : Cues → Cues) : (s.updCue f).tiles = s.tiles := rfl
@[simp] theorem State.updCue_nodes (f : Cues → Cues) : (s.updCue f).nodes = s.nodes := rfl
@[simp] theorem State.updCue_scn (f : Cues → Cues) : (s.updCue f).scn = s.scn := rfl
@[simp] theorem State.updCue_cue (f : Cues → Cues) : (s.updCue f).cue = f s.cue := rfl
@[simp] theorem State.updCue_ports (f : Cues → Cues) : (s.updCue f).ports = s.ports := rfl
@[simp] theorem State.updCue_pdm (f : Cues → Cues) : (s.updCue f).pdm = s.pdm := rfl
@[simp] theorem State.updCue_srcs (f : Cues → Cues) : (s.updCue f).srcs = s.srcs := rfl
@[simp] theorem State.updCue_clk (f : Cues → Cues) : (s.updCue f).clk = s.clk := rfl
@[simp] theorem State.updCue_net (f : Cues → Cues) : (s.updCue f).net = s.net := rfl
@[simp] theorem State.updCue_race (f : Cues → Cues) : (s.updCue f).race = s.race := rfl
@[simp] theorem State.updCue_dom (f : Cues → Cues) : (s.updCue f).dom = s.dom := rfl
@[simp] theorem State.updCue_pwr (f : Cues → Cues) : (s.updCue f).pwr = s.pwr := rfl
@[simp] theorem State.updCue_ms (f : Cues → Cues) : (s.updCue f).ms = s.ms := rfl
@[simp] theorem State.updCue_flt (f : Cues → Cues) : (s.updCue f).flt = s.flt := rfl
@[simp] theorem State.updCue_twin (f : Cues → Cues) : (s.updCue f).twin = s.twin := rfl
@[simp] theorem State.updCue_nvm (f : Cues → Cues) : (s.updCue f).nvm = s.nvm := rfl
@[simp] theorem State.updCue_tly (f : Cues → Cues) : (s.updCue f).tly = s.tly := rfl
@[simp] theorem State.updCue_svc (f : Cues → Cues) : (s.updCue f).svc = s.svc := rfl
@[simp] theorem State.updCue_rtc (f : Cues → Cues) : (s.updCue f).rtc = s.rtc := rfl
@[simp] theorem State.updCue_draws (f : Cues → Cues) : (s.updCue f).draws = s.draws := rfl

@[simp] theorem State.updDom_pending (f : Dom → Dom) : (s.updDom f).pending = s.pending := rfl
@[simp] theorem State.updDom_regs (f : Dom → Dom) : (s.updDom f).regs = s.regs := rfl
@[simp] theorem State.updDom_latch (f : Dom → Dom) : (s.updDom f).latch = s.latch := rfl
@[simp] theorem State.updDom_mem (f : Dom → Dom) : (s.updDom f).mem = s.mem := rfl
@[simp] theorem State.updDom_imem (f : Dom → Dom) : (s.updDom f).imem = s.imem := rfl
@[simp] theorem State.updDom_rate96 (f : Dom → Dom) : (s.updDom f).rate96 = s.rate96 := rfl
@[simp] theorem State.updDom_image (f : Dom → Dom) : (s.updDom f).image = s.image := rfl
@[simp] theorem State.updDom_grid (f : Dom → Dom) : (s.updDom f).grid = s.grid := rfl
@[simp] theorem State.updDom_clusters (f : Dom → Dom) : (s.updDom f).clusters = s.clusters := rfl
@[simp] theorem State.updDom_tiles (f : Dom → Dom) : (s.updDom f).tiles = s.tiles := rfl
@[simp] theorem State.updDom_nodes (f : Dom → Dom) : (s.updDom f).nodes = s.nodes := rfl
@[simp] theorem State.updDom_scn (f : Dom → Dom) : (s.updDom f).scn = s.scn := rfl
@[simp] theorem State.updDom_cue (f : Dom → Dom) : (s.updDom f).cue = s.cue := rfl
@[simp] theorem State.updDom_ports (f : Dom → Dom) : (s.updDom f).ports = s.ports := rfl
@[simp] theorem State.updDom_pdm (f : Dom → Dom) : (s.updDom f).pdm = s.pdm := rfl
@[simp] theorem State.updDom_srcs (f : Dom → Dom) : (s.updDom f).srcs = s.srcs := rfl
@[simp] theorem State.updDom_clk (f : Dom → Dom) : (s.updDom f).clk = s.clk := rfl
@[simp] theorem State.updDom_net (f : Dom → Dom) : (s.updDom f).net = s.net := rfl
@[simp] theorem State.updDom_race (f : Dom → Dom) : (s.updDom f).race = s.race := rfl
@[simp] theorem State.updDom_dom (f : Dom → Dom) : (s.updDom f).dom = f s.dom := rfl
@[simp] theorem State.updDom_pwr (f : Dom → Dom) : (s.updDom f).pwr = s.pwr := rfl
@[simp] theorem State.updDom_ms (f : Dom → Dom) : (s.updDom f).ms = s.ms := rfl
@[simp] theorem State.updDom_flt (f : Dom → Dom) : (s.updDom f).flt = s.flt := rfl
@[simp] theorem State.updDom_twin (f : Dom → Dom) : (s.updDom f).twin = s.twin := rfl
@[simp] theorem State.updDom_nvm (f : Dom → Dom) : (s.updDom f).nvm = s.nvm := rfl
@[simp] theorem State.updDom_tly (f : Dom → Dom) : (s.updDom f).tly = s.tly := rfl
@[simp] theorem State.updDom_svc (f : Dom → Dom) : (s.updDom f).svc = s.svc := rfl
@[simp] theorem State.updDom_rtc (f : Dom → Dom) : (s.updDom f).rtc = s.rtc := rfl
@[simp] theorem State.updDom_draws (f : Dom → Dom) : (s.updDom f).draws = s.draws := rfl

@[simp] theorem State.updTwin_pending (f : Twin → Twin) : (s.updTwin f).pending = s.pending := rfl
@[simp] theorem State.updTwin_regs (f : Twin → Twin) : (s.updTwin f).regs = s.regs := rfl
@[simp] theorem State.updTwin_latch (f : Twin → Twin) : (s.updTwin f).latch = s.latch := rfl
@[simp] theorem State.updTwin_mem (f : Twin → Twin) : (s.updTwin f).mem = s.mem := rfl
@[simp] theorem State.updTwin_imem (f : Twin → Twin) : (s.updTwin f).imem = s.imem := rfl
@[simp] theorem State.updTwin_rate96 (f : Twin → Twin) : (s.updTwin f).rate96 = s.rate96 := rfl
@[simp] theorem State.updTwin_image (f : Twin → Twin) : (s.updTwin f).image = s.image := rfl
@[simp] theorem State.updTwin_grid (f : Twin → Twin) : (s.updTwin f).grid = s.grid := rfl
@[simp] theorem State.updTwin_clusters (f : Twin → Twin) : (s.updTwin f).clusters = s.clusters := rfl
@[simp] theorem State.updTwin_tiles (f : Twin → Twin) : (s.updTwin f).tiles = s.tiles := rfl
@[simp] theorem State.updTwin_nodes (f : Twin → Twin) : (s.updTwin f).nodes = s.nodes := rfl
@[simp] theorem State.updTwin_scn (f : Twin → Twin) : (s.updTwin f).scn = s.scn := rfl
@[simp] theorem State.updTwin_cue (f : Twin → Twin) : (s.updTwin f).cue = s.cue := rfl
@[simp] theorem State.updTwin_ports (f : Twin → Twin) : (s.updTwin f).ports = s.ports := rfl
@[simp] theorem State.updTwin_pdm (f : Twin → Twin) : (s.updTwin f).pdm = s.pdm := rfl
@[simp] theorem State.updTwin_srcs (f : Twin → Twin) : (s.updTwin f).srcs = s.srcs := rfl
@[simp] theorem State.updTwin_clk (f : Twin → Twin) : (s.updTwin f).clk = s.clk := rfl
@[simp] theorem State.updTwin_net (f : Twin → Twin) : (s.updTwin f).net = s.net := rfl
@[simp] theorem State.updTwin_race (f : Twin → Twin) : (s.updTwin f).race = s.race := rfl
@[simp] theorem State.updTwin_dom (f : Twin → Twin) : (s.updTwin f).dom = s.dom := rfl
@[simp] theorem State.updTwin_pwr (f : Twin → Twin) : (s.updTwin f).pwr = s.pwr := rfl
@[simp] theorem State.updTwin_ms (f : Twin → Twin) : (s.updTwin f).ms = s.ms := rfl
@[simp] theorem State.updTwin_flt (f : Twin → Twin) : (s.updTwin f).flt = s.flt := rfl
@[simp] theorem State.updTwin_twin (f : Twin → Twin) : (s.updTwin f).twin = f s.twin := rfl
@[simp] theorem State.updTwin_nvm (f : Twin → Twin) : (s.updTwin f).nvm = s.nvm := rfl
@[simp] theorem State.updTwin_tly (f : Twin → Twin) : (s.updTwin f).tly = s.tly := rfl
@[simp] theorem State.updTwin_svc (f : Twin → Twin) : (s.updTwin f).svc = s.svc := rfl
@[simp] theorem State.updTwin_rtc (f : Twin → Twin) : (s.updTwin f).rtc = s.rtc := rfl
@[simp] theorem State.updTwin_draws (f : Twin → Twin) : (s.updTwin f).draws = s.draws := rfl

@[simp] theorem State.updPtp_pending (f : Ptp → Ptp) : (s.updPtp f).pending = s.pending := rfl
@[simp] theorem State.updPtp_regs (f : Ptp → Ptp) : (s.updPtp f).regs = s.regs := rfl
@[simp] theorem State.updPtp_latch (f : Ptp → Ptp) : (s.updPtp f).latch = s.latch := rfl
@[simp] theorem State.updPtp_mem (f : Ptp → Ptp) : (s.updPtp f).mem = s.mem := rfl
@[simp] theorem State.updPtp_imem (f : Ptp → Ptp) : (s.updPtp f).imem = s.imem := rfl
@[simp] theorem State.updPtp_rate96 (f : Ptp → Ptp) : (s.updPtp f).rate96 = s.rate96 := rfl
@[simp] theorem State.updPtp_image (f : Ptp → Ptp) : (s.updPtp f).image = s.image := rfl
@[simp] theorem State.updPtp_grid (f : Ptp → Ptp) : (s.updPtp f).grid = s.grid := rfl
@[simp] theorem State.updPtp_clusters (f : Ptp → Ptp) : (s.updPtp f).clusters = s.clusters := rfl
@[simp] theorem State.updPtp_tiles (f : Ptp → Ptp) : (s.updPtp f).tiles = s.tiles := rfl
@[simp] theorem State.updPtp_nodes (f : Ptp → Ptp) : (s.updPtp f).nodes = s.nodes := rfl
@[simp] theorem State.updPtp_scn (f : Ptp → Ptp) : (s.updPtp f).scn = s.scn := rfl
@[simp] theorem State.updPtp_cue (f : Ptp → Ptp) : (s.updPtp f).cue = s.cue := rfl
@[simp] theorem State.updPtp_ports (f : Ptp → Ptp) : (s.updPtp f).ports = s.ports := rfl
@[simp] theorem State.updPtp_pdm (f : Ptp → Ptp) : (s.updPtp f).pdm = s.pdm := rfl
@[simp] theorem State.updPtp_srcs (f : Ptp → Ptp) : (s.updPtp f).srcs = s.srcs := rfl
@[simp] theorem State.updPtp_clk (f : Ptp → Ptp) : (s.updPtp f).clk = s.clk := rfl
@[simp] theorem State.updPtp_net (f : Ptp → Ptp) : (s.updPtp f).net = { s.net with ptp := f s.net.ptp } := rfl
@[simp] theorem State.updPtp_race (f : Ptp → Ptp) : (s.updPtp f).race = s.race := rfl
@[simp] theorem State.updPtp_dom (f : Ptp → Ptp) : (s.updPtp f).dom = s.dom := rfl
@[simp] theorem State.updPtp_pwr (f : Ptp → Ptp) : (s.updPtp f).pwr = s.pwr := rfl
@[simp] theorem State.updPtp_ms (f : Ptp → Ptp) : (s.updPtp f).ms = s.ms := rfl
@[simp] theorem State.updPtp_flt (f : Ptp → Ptp) : (s.updPtp f).flt = s.flt := rfl
@[simp] theorem State.updPtp_twin (f : Ptp → Ptp) : (s.updPtp f).twin = s.twin := rfl
@[simp] theorem State.updPtp_nvm (f : Ptp → Ptp) : (s.updPtp f).nvm = s.nvm := rfl
@[simp] theorem State.updPtp_tly (f : Ptp → Ptp) : (s.updPtp f).tly = s.tly := rfl
@[simp] theorem State.updPtp_svc (f : Ptp → Ptp) : (s.updPtp f).svc = s.svc := rfl
@[simp] theorem State.updPtp_rtc (f : Ptp → Ptp) : (s.updPtp f).rtc = s.rtc := rfl
@[simp] theorem State.updPtp_draws (f : Ptp → Ptp) : (s.updPtp f).draws = s.draws := rfl

end Sys2Proof.Machine
end

