-- ==== Sys2Proof/Laws/Regs.lean ====
section
/-!
SUPPORT. Registers and their fields: a read after a write, other registers, other fields.
-/

namespace Sys2Proof.Machine

variable {s : State}

/-- A read of a register after a write: the value written, or what the other register held. -/
theorem State.reg_setReg (h : mwf 0 s.regs = true) (a b : Nat) (v : Word) :
    (s.setReg a v).reg b = if a = b then v else s.reg b := by
  unfold State.reg
  rw [State.setReg_regs, mget_mset h]
  split
  · next e => subst e; rw [BitVec.xor_assoc, BitVec.xor_self, BitVec.xor_zero]
  · rfl

theorem State.reg_setReg_self (h : mwf 0 s.regs = true) (a : Nat) (v : Word) : (s.setReg a v).reg a = v := by
  rw [State.reg_setReg h]; simp

theorem State.reg_setReg_ne (h : mwf 0 s.regs = true) {a b : Nat} (hn : a ≠ b) (v : Word) : (s.setReg a v).reg b = s.reg b := by
  rw [State.reg_setReg h]; simp [hn]

theorem State.setReg_canonical (h : mwf 0 s.regs = true) (a : Nat) (v : Word) : mwf 0 (s.setReg a v).regs = true := mwf_mset h

theorem fmask_getLsbD (hi lo i : Nat) (hl : lo ≤ hi) (hh : hi < 32) :
    (fmask hi lo).getLsbD i = decide (lo ≤ i ∧ i ≤ hi) := by
  unfold fmask
  rw [BitVec.getLsbD_ofNat]
  have e : 2 ^ (hi + 1) - 2 ^ lo = 2 ^ lo * (2 ^ (hi + 1 - lo) - 1) := by
    rw [Nat.mul_sub, ← Nat.pow_add, Nat.mul_one]; congr 2; omega
  rw [e, Nat.testBit_two_pow_mul, Nat.testBit_two_pow_sub_one]
  by_cases h1 : lo ≤ i <;> by_cases h2 : i ≤ hi <;> simp [h1, h2] <;> omega

theorem bits_testBit (v : Word) (hi lo i : Nat) : (bits v hi lo).testBit i = (decide (i < hi + 1 - lo) && v.getLsbD (lo + i)) := by
  unfold bits
  rw [Nat.testBit_mod_two_pow, Nat.testBit_div_two_pow, BitVec.getLsbD, Nat.add_comm lo i]

theorem putBits_getLsbD (v : Word) (hi lo x i : Nat) (hl : lo ≤ hi) (hh : hi < 32) (hi32 : i < 32) :
    (putBits v hi lo x).getLsbD i = if lo ≤ i ∧ i ≤ hi then x.testBit (i - lo) else v.getLsbD i := by
  unfold putBits
  rw [BitVec.getLsbD_or, BitVec.getLsbD_and, BitVec.getLsbD_and, BitVec.getLsbD_not, fmask_getLsbD _ _ _ hl hh,
    BitVec.getLsbD_ofNat, Nat.testBit_mul_two_pow]
  by_cases h : lo ≤ i ∧ i ≤ hi
  · simp [h, hi32]
  · simp [h, hi32]

/-- A field reads the value written to it. -/
theorem bits_putBits (v : Word) (hi lo x : Nat) (hl : lo ≤ hi) (hh : hi < 32) :
    bits (putBits v hi lo x) hi lo = x % 2 ^ (hi + 1 - lo) := by
  apply Nat.eq_of_testBit_eq
  intro i
  rw [bits_testBit, Nat.testBit_mod_two_pow]
  by_cases h : i < hi + 1 - lo
  · rw [putBits_getLsbD _ _ _ _ _ hl hh (by omega)]
    have : lo ≤ lo + i ∧ lo + i ≤ hi := by omega
    simp [this]
  · simp [h]

/-- A field keeps its value when a field beside it is written. -/
theorem bits_putBits_ne (v : Word) (hi lo x hi' lo' : Nat) (hl : lo ≤ hi) (hh : hi < 32) (hh' : hi' < 32)
    (hd : hi < lo' ∨ hi' < lo) : bits (putBits v hi lo x) hi' lo' = bits v hi' lo' := by
  apply Nat.eq_of_testBit_eq
  intro i
  rw [bits_testBit, bits_testBit]
  by_cases h : i < hi' + 1 - lo'
  · rw [putBits_getLsbD _ _ _ _ _ hl hh (by omega)]
    have : ¬(lo ≤ lo' + i ∧ lo' + i ≤ hi) := by omega
    simp [this]
  · simp [h]

theorem State.fld_setFld (h : mwf 0 s.regs = true) (a hi lo x : Nat) (hl : lo ≤ hi) (hh : hi < 32) :
    (s.setFld a hi lo x).fld a hi lo = x % 2 ^ (hi + 1 - lo) := by
  unfold State.fld State.setFld
  rw [State.reg_setReg_self h, bits_putBits _ _ _ _ hl hh]

theorem State.fld_setFld_ne (h : mwf 0 s.regs = true) (a hi lo x b hi' lo' : Nat) (hl : lo ≤ hi) (hh : hi < 32)
    (hh' : hi' < 32) (hd : a ≠ b ∨ hi < lo' ∨ hi' < lo) : (s.setFld a hi lo x).fld b hi' lo' = s.fld b hi' lo' := by
  unfold State.fld State.setFld
  rw [State.reg_setReg h]
  split
  · next e => subst e; exact bits_putBits_ne _ _ _ _ _ _ hl hh hh' (by rcases hd with h | h | h <;> omega)
  · rfl

theorem State.reg_setFld_ne (h : mwf 0 s.regs = true) (a hi lo x b : Nat) (hn : a ≠ b) :
    (s.setFld a hi lo x).reg b = s.reg b := by
  unfold State.setFld; exact State.reg_setReg_ne h hn _

theorem State.flag_setFlag (h : mwf 0 s.regs = true) (a n : Nat) (b : Bool) (hn : n < 32) :
    (s.setFlag a n b).flag a n = b := by
  unfold State.flag State.setFlag State.setFld
  rw [State.reg_setReg_self h, putBits_getLsbD _ _ _ _ _ (Nat.le_refl n) hn hn]
  cases b <;> simp

theorem State.flag_setFlag_ne (h : mwf 0 s.regs = true) (a n : Nat) (v : Bool) (b m : Nat) (hn : n < 32) (hm : m < 32)
    (hd : a ≠ b ∨ n ≠ m) : (s.setFlag a n v).flag b m = s.flag b m := by
  unfold State.flag State.setFlag State.setFld
  rw [State.reg_setReg h]
  split
  · next e =>
    subst e
    rw [putBits_getLsbD _ _ _ _ _ (Nat.le_refl n) hn hm]
    have : ¬(n ≤ m ∧ m ≤ n) := by rcases hd with h | h <;> omega
    simp [this]
  · rfl

end Sys2Proof.Machine
end

