-- ==== Sys2Proof/Laws/Tile.lean ====
section
/-!
SUPPORT. The one law of a bundle of one slot: issued by a poised tile, it takes the effect of its slot and the tile goes
on.
-/

namespace Sys2Proof.Machine

theorem mset_mset {α : Type} [DecidableEq α] {d : α} {m : SMap α} (h : mwf d m = true) (k : Nat) (a b : α) :
    mset d (mset d m k a) k b = mset d m k b := by
  apply mwf_ext (d := d) (lo := 0) (mwf_mset (mwf_mset h)) (mwf_mset h)
  intro j
  rw [mget_mset (mwf_mset h), mget_mset h, mget_mset h]
  split <;> rfl

theorem mset_self {α : Type} [DecidableEq α] {d : α} {m : SMap α} (h : mwf d m = true) (k : Nat) :
    mset d m k (mget d m k) = m := by
  apply mwf_ext (d := d) (lo := 0) (mwf_mset h) h
  intro j
  rw [mget_mset h]
  split
  · next e => subst e; rfl
  · rfl

variable {s : State} {n : Nat}

theorem State.tile_setTile (hc : mwf {} s.tiles = true) (n m : Nat) (t : Tile) :
    (s.setTile n t).tile m = if n = m then t else s.tile m := by
  unfold State.tile; rw [State.setTile_tiles, mget_mset hc]

theorem State.setTile_setTile (hc : mwf {} s.tiles = true) (n : Nat) (t u : Tile) :
    (s.setTile n t).setTile n u = s.setTile n u := by
  unfold State.setTile; simp only [mset_mset hc]

theorem State.membersOf_setTile (hc : mwf {} s.tiles = true) (n : Nat) (t : Tile) (h : t.ctx = (s.tile n).ctx) :
    (s.setTile n t).membersOf n = s.membersOf n := by
  unfold State.membersOf
  have : (s.setTile n t).tile n = t := by rw [State.tile_setTile hc]; simp
  rw [this, h]
  rfl

theorem flow_cases (t : Tile) : (t.ctx = false ∧ t.flow = t.sf ∧ t.bank = t.smp) ∨ (t.ctx = true ∧ t.flow = t.cf ∧ t.bank = t.ctl) := by
  unfold Tile.flow Tile.bank; cases t.ctx <;> simp

theorem Tile.setFlow_flow (t : Tile) (f : Flow) : (t.setFlow f).flow = f := by
  unfold Tile.setFlow Tile.flow; cases t.ctx <;> simp
theorem Tile.setFlow_bank (t : Tile) (f : Flow) : (t.setFlow f).bank = t.bank := by
  unfold Tile.setFlow Tile.bank; cases t.ctx <;> simp
theorem Tile.setBank_bank (t : Tile) (b : Bank) : (t.setBank b).bank = b := by
  unfold Tile.setBank Tile.bank; cases t.ctx <;> simp
theorem Tile.setBank_flow (t : Tile) (b : Bank) : (t.setBank b).flow = t.flow := by
  unfold Tile.setBank Tile.flow; cases t.ctx <;> simp
theorem Tile.setFlow_ctx (t : Tile) (f : Flow) : (t.setFlow f).ctx = t.ctx := by
  unfold Tile.setFlow; cases h : t.ctx <;> rfl
theorem Tile.setBank_ctx (t : Tile) (b : Bank) : (t.setBank b).ctx = t.ctx := by
  unfold Tile.setBank; cases h : t.ctx <;> rfl

theorem Tile.waitEnds_none {t : Tile} (h : t.flow.wait = none) : t.waitEnds = t := by
  unfold Tile.waitEnds
  rcases flow_cases t with ⟨c, f, _⟩ | ⟨c, f, _⟩
  · rw [f] at h; rw [c, h]
  · rw [c]

theorem applyWrite_loops (b : Bank) (w : RegWrite) : (applyWrite b w).loops = b.loops := by cases w <;> rfl

theorem retire_loops (b : Bank) (p : List Pend) (n : Nat) : (retire b p n).loops = b.loops := by
  have key : ∀ (l : List Pend) (b : Bank), (l.foldl (fun b e => applyWrite b e.w) b).loops = b.loops := by
    intro l
    induction l with
    | nil => intro b; rfl
    | cons e l ih => intro b; rw [List.foldl_cons, ih, applyWrite_loops]
  unfold retire
  simp only [key]

/-- A tile whose bundle opens with no wait in progress. -/
theorem Tile.openBundle_eq {t : Tile} (h : t.flow.wait = none) : t.openBundle =
    (t.setBank (retire t.bank t.flow.pend t.flow.issued)).setFlow { t.flow with pend := inFlight t.flow.pend t.flow.issued } := by
  unfold Tile.openBundle
  rw [Tile.waitEnds_none h]

/-- The tile with its bundle open and the slots `l` in it. -/
def Tile.holding (t : Tile) (l : List SlotEffect) : Tile := { t.openBundle with bufOpen := true, buf := l }

namespace State.Poised

theorem open_flow (h : s.Poised n) :
    (s.tile n).openBundle.flow = { (s.tile n).flow with pend := inFlight (s.tile n).flow.pend (s.tile n).flow.issued } := by
  rw [Tile.openBundle_eq h.noWait, Tile.setFlow_flow]

theorem open_ctx (h : s.Poised n) : (s.tile n).openBundle.ctx = (s.tile n).ctx := by
  rw [Tile.openBundle_eq h.noWait, Tile.setFlow_ctx, Tile.setBank_ctx]

theorem seen_loops (h : s.Poised n) : (s.seen n).loops = (s.tile n).bank.loops := by
  unfold State.seen
  rw [Tile.openBundle_eq h.noWait, Tile.setFlow_bank, Tile.setBank_bank, retire_loops]

theorem opens (hc : mwf {} s.tiles = true) (h : s.Poised n) :
    s.openBundle n = s.setTile n ((s.tile n).holding []) := by
  unfold State.openBundle Tile.holding
  rw [if_neg (by simp [h.closed]), h.alone]
  simp only [forAll, List.foldl_cons, List.foldl_nil]
  rw [State.setTile_setTile hc, State.tile_setTile hc, if_pos rfl]

end State.Poised


theorem Tile.holding_flow (t : Tile) (l : List SlotEffect) : (t.holding l).flow = t.openBundle.flow := rfl
theorem Tile.holding_bank (t : Tile) (l : List SlotEffect) : (t.holding l).bank = t.openBundle.bank := rfl
theorem Tile.holding_ctx (t : Tile) (l : List SlotEffect) : (t.holding l).ctx = t.openBundle.ctx := rfl

/-- What a slot of a poised tile sees. -/
def State.view1 (s : State) (n : Nat) : Issue := { s := s.setTile n ((s.tile n).holding []), n := n, members := [n] }

/-- The control effect of the slots of a bundle of at most one slot. -/
def ctlOf (l : List SlotEffect) : Ctl := (l.find? (fun e => e.kind == .c)).elim Ctl.none (·.ctl)

/-- Slots that the placement rules allow in a bundle: at most one here. -/
structure Plain (l : List SlotEffect) (pc : Nat) (ctx : Bool) (loops : List Level) : Prop where
  legal : l.findSome? (·.illegal) = none
  exc : l.findSome? (·.exc) = none
  dests : dupDest (l.flatMap (·.dests)) = false
  one : l = [] ∨ ∃ e, l = [e]
  noGang : ∀ k, ctlOf l ≠ .gang k
  cret : ctlOf l = .cret → ctx = true
  sample : ctlOf l = .yield ∨ (∃ c, ctlOf l = .waits c) → ctx = false
  branch : ∀ a b c d, ctlOf l = .branch a b c d → ∀ v ∈ loops, v.lend ≠ pc + 1 ∧ v.lend ≠ pc + 2
  rpt : ∀ c, ctlOf l = .rpt c → ∀ v ∈ loops, v.lend ≠ pc + 1
  loop : ∀ c k, ctlOf l = .loop c k → pc < k ∧ (c ≠ 0 → loops.length < 4 ∧ ∀ v, loops.getLast? = some v → k < v.lend)

theorem State.Poised.on (h : s.Poised n) : s.domOn n = true := by
  have := h.issues
  unfold State.mayIssue at this
  simp only [Bool.and_eq_true] at this
  exact this.1.1.1

theorem any_false {l : List Level} {k : Nat} (h : ∀ v ∈ l, v.lend ≠ k) : l.any (fun v => v.lend == k) = false := by
  rw [List.any_eq_false]; intro v hv; simp [h v hv]

theorem badPlace_plain {l : List SlotEffect} {f : Flow} {ctx : Bool} {loops : List Level}
    (hp : Plain l f.pc ctx loops) (hb : f.br = none) (hr : f.rpt = none) (he : ∀ v ∈ loops, v.lend ≠ f.pc) :
    badPlace f loops l ctx false false = false := by
  have h1 := hp.sample
  have h2 := hp.cret
  have h3 := hp.noGang
  have h4 := hp.branch
  have h5 := hp.rpt
  unfold badPlace
  simp only [hb, hr, any_false he, Bool.or_false, Option.isSome_none, Bool.false_or, Bool.and_false, Bool.false_and]
  unfold ctlOf at h1 h2 h3 h4 h5
  cases hf : l.find? (fun e => e.kind == .c) with
  | none => rfl
  | some e =>
    rw [hf] at h1 h2 h3 h4 h5
    simp only [Option.elim_some] at h1 h2 h3 h4 h5
    cases hctl : e.ctl with
    | branch a b c d =>
      have := h4 a b c d hctl
      simp only [hctl, any_false (fun v hv => (this v hv).1), any_false (fun v hv => (this v hv).2), Bool.or_false]
    | rpt c => simp only [hctl, any_false (h5 c hctl)]
    | gang k => exact absurd hctl (h3 k)
    | yield => simp [hctl, h1 (.inl hctl)]
    | waits c => simp [hctl, h1 (.inr ⟨c, hctl⟩)]
    | cret => simp [hctl, h2 hctl]
    | _ => simp only [hctl]

theorem badLoop_plain {l : List SlotEffect} {f : Flow} {ctx : Bool} {loops : List Level}
    (hp : Plain l f.pc ctx loops) : badLoop f loops (ctlOf l) = none := by
  have hl := hp.loop
  cases hctl : ctlOf l with
  | loop c k =>
    obtain ⟨h1, h2⟩ := hl c k hctl
    unfold badLoop
    simp only
    rw [if_neg (by omega)]
    split
    · rfl
    · next h =>
      obtain ⟨h3, h4⟩ := h2 h
      rw [if_neg (by omega)]
      cases hg : loops.getLast? with
      | none => rfl
      | some v => have := h4 v hg; simp only; rw [if_neg (by omega)]
  | _ => rfl

/-- Two words without an error mark are fetched without a report. -/
theorem fetchSeen_right (s : State) (a : Nat) (h0 : mget 0 s.ms.ecc a = 0) (h1 : mget 0 s.ms.ecc (a + 4) = 0) :
    forAll [a, a + 4] s (fun a s => if mget 0 s.ms.ecc a < 64 then (s.readWord a).2 else s) = s := by
  have key : ∀ b, mget 0 s.ms.ecc b = 0 → (s.readWord b).2 = s := fun b hb => by
    unfold State.readWord; simp [hb]
  simp [forAll, key, h0, h1]

/-- What is left of a bundle's issue once its slots are known. -/
theorem issue_plain (hc : mwf {} s.tiles = true) {t : TileNo} (h : s.Poised t.val) {l : List SlotEffect}
    (hp : Plain l (s.tile t.val).flow.pc (s.tile t.val).ctx (s.tile t.val).bank.loops) :
    (s.setTile t.val ((s.tile t.val).holding l)).issueBundle t.val
      = (s.setTile t.val ((s.tile t.val).holding l)).commitBundle t.val (s.tile t.val).bank.loops false := by
  have hof := h.open_flow
  have hoc := h.open_ctx
  have fpc : (s.tile t.val).openBundle.flow.pc = (s.tile t.val).flow.pc := by rw [hof]
  have fbr : (s.tile t.val).openBundle.flow.br = none := by rw [hof]; exact h.noBranch
  have fsk : (s.tile t.val).openBundle.flow.skip = none := by rw [hof]; exact h.noSkip
  have frp : (s.tile t.val).openBundle.flow.rpt = none := by rw [hof]; exact h.noRpt
  have fat : (s.tile t.val).openBundle.flow.atTarget = false := by rw [hof]; exact h.noTarget
  unfold State.issueBundle
  have ht2 : (s.setTile t.val ((s.tile t.val).holding l)).tile t.val = (s.tile t.val).holding l := by
    rw [State.tile_setTile hc]; simp
  have hm2 : (s.setTile t.val ((s.tile t.val).holding l)).membersOf t.val = [t.val] := by
    rw [State.membersOf_setTile hc]; exact h.alone; exact hoc
  rw [ht2]
  have hlo : ((s.tile t.val).holding l).bank.loops = (s.tile t.val).bank.loops := h.seen_loops
  have ha : (s.tile t.val).openBundle.flow.annulled = false := by
    unfold Flow.annulled; simp [fbr, fsk, frp]
  simp only [Tile.holding_flow, fat, hlo, ha, Bool.false_eq_true, if_false]
  have e0 : ((s.tile t.val).holding l).frontIsB = (s.tile t.val).frontIsB ∧ ((s.tile t.val).holding l).handler = (s.tile t.val).handler
      ∧ ((s.tile t.val).holding l).onBack = (s.tile t.val).onBack := by
    unfold Tile.holding
    rw [Tile.openBundle_eq h.noWait]
    unfold Tile.setFlow Tile.setBank
    rcases flow_cases (s.tile t.val) with ⟨c, f, b⟩ | ⟨c, f, b⟩ <;> simp [c]
  have hb : (s.setTile t.val ((s.tile t.val).holding l)).fetchBack t.val = s.fetchBack t.val := by
    unfold State.fetchBack
    rw [ht2]
    simp only [Tile.holding_ctx, hoc, e0.2.1, e0.2.2]
    rfl
  have hf : (s.setTile t.val ((s.tile t.val).holding l)).fetchAddr t.val (s.tile t.val).flow.pc
      = s.fetchAddr t.val (s.tile t.val).flow.pc := by
    unfold State.fetchAddr
    rw [ht2, hb, e0.1]
  have hg : (s.setTile t.val ((s.tile t.val).holding l)).fetchBundle t.val (s.tile t.val).flow.pc
      = s.fetchBundle t.val (s.tile t.val).flow.pc := by
    unfold State.fetchBundle
    rw [ht2, hb, e0.1]
    rfl
  have hs : (s.setTile t.val ((s.tile t.val).holding l)).fetchSeen t.val = s.setTile t.val ((s.tile t.val).holding l) := by
    unfold State.fetchSeen
    rw [ht2, Tile.holding_flow, fpc, hf]
    refine fetchSeen_right _ _ ?_ ?_
    · exact h.right0
    · exact h.right1
  have hx : (s.setTile t.val ((s.tile t.val).holding l)).bundleExc t.val (s.tile t.val).bank.loops false = none := by
    have hd : (s.setTile t.val ((s.tile t.val).holding l)).domOn t.val = true := h.on
    have hins := h.inside
    unfold State.bundleExc firstExc
    simp only [ht2, hm2, Tile.holding_flow, Tile.holding_ctx, hoc, fpc, hf, hg, h.legal]
    have hbuf : ((s.tile t.val).holding l).buf = l := rfl
    have hecc : (s.setTile t.val ((s.tile t.val).holding l)).ms = s.ms := rfl
    rw [hbuf, hecc]
    simp only [fsk]
    have hlen : (([t.val] : List Nat).length != 1) = false := rfl
    rw [← fpc] at hp
    have hpl := badPlace_plain hp fbr frp (by rw [fpc]; exact h.noEnd)
    have hlp := badLoop_plain hp
    unfold ctlOf at hlp
    have r0 := h.right0
    have r1 := h.right1
    have e1 := hp.legal
    have e2 := hp.exc
    have e3 := hp.dests
    rw [hlen, hlp, e1, e2, e3]
    simp only [List.find?_cons, hd]
    simp [hpl, r0, r1, Nat.not_lt.mpr hins]
  rw [hx, hs]

theorem slot_alone (hc : mwf {} s.tiles = true) {t : TileNo} (h : s.Poised t.val) (f : Issue → SlotEffect)
    (e : SlotEffect) (he : f (s.view1 t.val) = e)
    (hp : Plain [e] (s.tile t.val).flow.pc (s.tile t.val).ctx (s.tile t.val).bank.loops) :
    s.slot t true f = .next ((s.setTile t.val ((s.tile t.val).holding [e])).commitBundle t.val (s.tile t.val).bank.loops false) := by
  have hm : s.membersOf t.val = [t.val] := h.alone
  unfold State.slot
  rw [if_pos h.issues]
  rw [h.opens hc]
  have hv : Issue.mk (s.setTile t.val ((s.tile t.val).holding [])) t.val
      ((s.setTile t.val ((s.tile t.val).holding [])).membersOf t.val) = s.view1 t.val := by
    unfold State.view1
    rw [State.membersOf_setTile hc _ ((s.tile t.val).holding []) h.open_ctx, hm]
  dsimp only
  rw [hv, he]
  have ht : (s.setTile t.val ((s.tile t.val).holding [])).tile t.val
      = (s.tile t.val).holding [] := by rw [State.tile_setTile hc]; simp
  rw [ht, State.setTile_setTile hc]
  have e0 : ((s.tile t.val).holding []).addSlot e = (s.tile t.val).holding [e] := rfl
  rw [e0, if_pos rfl, issue_plain hc h hp]

theorem nop_alone (hc : mwf {} s.tiles = true) {t : TileNo} (h : s.Poised t.val) :
    s.noSlot t true = .next ((s.setTile t.val ((s.tile t.val).holding [])).commitBundle t.val (s.tile t.val).bank.loops false) := by
  unfold State.noSlot
  rw [if_pos h.issues]
  rw [h.opens hc]
  dsimp only
  rw [if_pos rfl]
  have := issue_plain hc h (l := []) ⟨rfl, rfl, rfl, .inl rfl, by simp [ctlOf], by simp [ctlOf], by simp [ctlOf], by simp [ctlOf], by simp [ctlOf], by simp [ctlOf]⟩
  rw [← this]

/-- The cycles that a bundle waits before its issue, and takes in all (R245, R255). -/
def Tile.pre (t : Tile) (l : List SlotEffect) : Nat := if (l.findSome? (·.fu)).isSome then t.fu.left else 0
/-- The cycles of a bundle. -/
def Tile.took (t : Tile) (l : List SlotEffect) : Nat := 1 + t.pre l + (l.map (·.stall)).foldl (· + ·) 0

/-- Tile `t` after a bundle has issued alone. -/
def Tile.after1 (t : Tile) (n : Nat) (l : List SlotEffect) : Tile :=
  (((t.holding l).setFlow { t.openBundle.flow with pend := t.openBundle.flow.pend ++ pendOf n t.flow.issued l, issued := t.flow.issued + 1 }).spend (t.took l)).issued
    (l.findSome? (·.fu)) t.bank.loops false (ctlOf l) false (t.scyc + t.pre l) (t.pre l) (t.took l)

theorem open_fu {t : Tile} (h : t.flow.wait = none) : t.openBundle.fu = t.fu ∧ t.openBundle.scyc = t.scyc ∧
    t.openBundle.ctlCyc = t.ctlCyc ∧ t.openBundle.afterCret = t.afterCret ∧ t.openBundle.run = t.run ∧ t.openBundle.ctx = t.ctx := by
  rw [Tile.openBundle_eq h]
  unfold Tile.setFlow Tile.setBank
  cases t.ctx <;> simp

theorem commit_one (hc : mwf {} s.tiles = true) {t : TileNo} (h : s.Poised t.val) (l : List SlotEffect)
    (hi : ctlOf l = .yield → s.injFor 0x0C 0 t.val = false) (hg : ∀ k, ctlOf l ≠ .gang k) (hcr : ctlOf l ≠ .cret) :
    (s.setTile t.val ((s.tile t.val).holding l)).commitBundle t.val (s.tile t.val).bank.loops false
      = (l.flatMap (·.stores)).foldl (fun (s : State) w => s.wrBytes w.1 w.2)
          ((l.flatMap (·.reads)).foldl (fun (s : State) a => (s.readWord a).2) (s.setTile t.val ((s.tile t.val).after1 t.val l))) := by
  have hm : (s.setTile t.val ((s.tile t.val).holding l)).membersOf t.val = [t.val] := by
    rw [State.membersOf_setTile hc _ ((s.tile t.val).holding l) h.open_ctx]; exact h.alone
  have ht : (s.setTile t.val ((s.tile t.val).holding l)).tile t.val = (s.tile t.val).holding l := by
    rw [State.tile_setTile hc]; simp
  have hinj : (ctlOf l == Ctl.yield && (s.setTile t.val ((s.tile t.val).holding l)).injFor 0x0C 0 t.val) = false := by
    by_cases hy : ctlOf l = .yield
    · rw [hy]; exact hi hy
    · rw [Bool.and_eq_false_iff]; left; simp [hy]
  obtain ⟨ofu, osc, occ, -, -, -⟩ := open_fu h.noWait
  have hfl := h.open_flow
  unfold State.commitBundle
  simp only [ht, hm]
  have hb : ((s.tile t.val).holding l).buf = l := rfl
  have hctl : (List.find? (fun x => x.kind == SlotKind.c) l).elim Ctl.none (fun x => x.ctl) = ctlOf l := rfl
  simp only [hb, Bool.false_eq_true, if_false, hctl, hinj]
  simp only [List.foldl_nil, List.foldl_cons, State.setTile_setTile hc, State.tile_setTile hc, if_true]
  have hkey : (((((s.tile t.val).holding l).setFlow { ((s.tile t.val).holding l).flow with
        pend := ((s.tile t.val).holding l).flow.pend ++ pendOf t.val ((s.tile t.val).holding l).flow.issued l,
        issued := ((s.tile t.val).holding l).flow.issued + 1 }).spend
        (1 + (if (l.findSome? (·.fu)).isSome then ((s.tile t.val).holding l).fu.left else 0) + (l.map (·.stall)).foldl (· + ·) 0)).issued
      (l.findSome? (·.fu)) (s.tile t.val).bank.loops false (ctlOf l) false
      (((s.tile t.val).holding l).scyc + (if (l.findSome? (·.fu)).isSome then ((s.tile t.val).holding l).fu.left else 0))
      (if (l.findSome? (·.fu)).isSome then ((s.tile t.val).holding l).fu.left else 0)
      (1 + (if (l.findSome? (·.fu)).isSome then ((s.tile t.val).holding l).fu.left else 0) + (l.map (·.stall)).foldl (· + ·) 0))
      = (s.tile t.val).after1 t.val l := by
    have e1 : ((s.tile t.val).holding l).fu = (s.tile t.val).fu := ofu
    have e2 : ((s.tile t.val).holding l).scyc = (s.tile t.val).scyc := osc
    have e3 : ((s.tile t.val).holding l).flow.issued = (s.tile t.val).flow.issued := by rw [Tile.holding_flow, hfl]
    unfold Tile.after1 Tile.took Tile.pre
    rw [e1, e2, e3]
    rfl
  rw [hkey]
  cases hctl2 : ctlOf l with
  | gang k => exact absurd hctl2 (hg k)
  | cret => exact absurd hctl2 hcr
  | _ => simp only [List.length_singleton, ne_eq, not_true_eq_false, if_false]

/-- A slot that transfers no control and writes no memory: it puts results in flight, may start the function unit and may
stall. -/
structure SlotEffect.Quick (e : SlotEffect) : Prop where
  stores : e.stores = []
  reads : e.reads = []
  ctl : e.ctl = .none
  legal : e.illegal = none
  exc : e.exc = none
  dests : dupDest e.dests = false

theorem ctlOf_none {e : SlotEffect} (h : e.ctl = .none) : ctlOf [e] = .none := by
  unfold ctlOf
  simp only [List.find?_cons, List.find?_nil]
  split <;> simp [h]

theorem SlotEffect.plain {e : SlotEffect} (h1 : e.ctl = .none) (h2 : e.illegal = none) (h3 : e.exc = none)
    (h4 : dupDest e.dests = false) (pc : Nat) (ctx : Bool) (ls : List Level) : Plain [e] pc ctx ls where
  legal := by simp [h2]
  exc := by simp [h3]
  dests := by simpa using h4
  one := .inr ⟨e, rfl⟩
  noGang := fun k => by simp [ctlOf_none h1]
  cret := fun k => by simp [ctlOf_none h1] at k
  sample := fun k => by simp [ctlOf_none h1] at k
  branch := fun a b c d k => by simp [ctlOf_none h1] at k
  rpt := fun c k => by simp [ctlOf_none h1] at k
  loop := fun c l k => by simp [ctlOf_none h1] at k

theorem SlotEffect.Quick.plain {e : SlotEffect} (h : e.Quick) (pc : Nat) (ctx : Bool) (ls : List Level) : Plain [e] pc ctx ls :=
  SlotEffect.plain h.ctl h.legal h.exc h.dests pc ctx ls

theorem Bank.setLoops_self (b : Bank) : b.setLoops b.loops = b := by
  obtain ⟨s, p, m, n, v, a, loops, old, mode, stat⟩ := b
  unfold Bank.setLoops
  have : List.drop loops.length loops.zipIdx = [] := by
    apply List.drop_eq_nil_of_le; simp
  simp [this]

/-- The writes of tile n among those of the slots, with their distances. -/
def ownOf (l : List SlotEffect) (n : Nat) : List (Nat × RegWrite) :=
  (l.flatMap (·.writes)).filterMap (fun w => if w.1 = n then some w.2 else none)

theorem pendOf_eq (n k : Nat) (l : List SlotEffect) :
    pendOf n k l = (ownOf l n).map (fun w => { due := k + w.1, w := w.2 }) := by
  unfold pendOf ownOf
  rw [List.map_filterMap]
  congr 1
  funext w
  split <;> rfl

theorem flying_after (n k : Nat) (l : List SlotEffect) :
    (pendOf n k l).map (fun x => (x.due + 1 - (k + 1), x.w)) = ownOf l n := by
  rw [pendOf_eq, List.map_map]
  conv_rhs => rw [← List.map_id (ownOf l n)]
  apply List.map_congr_left
  intro w _
  simp only [Function.comp_apply, id_eq]
  obtain ⟨a, b⟩ := w
  simp only [Prod.mk.injEq, and_true]
  omega

theorem nearer_flying (p : List Pend) (k : Nat) :
    (inFlight p k).map (fun x => (x.due + 1 - (k + 1), x.w)) = nearer (p.map (fun e => (e.due + 1 - k, e.w))) := by
  unfold inFlight nearer
  rw [List.filter_map, List.map_map]
  have : (fun e : Pend => !decide (e.due ≤ k)) = ((fun e : Nat × RegWrite => decide (1 < e.1)) ∘ fun e : Pend => (e.due + 1 - k, e.w)) := by
    funext e
    simp only [Function.comp_apply]
    rw [← decide_not]; congr 1; apply propext; omega
  rw [this]
  apply List.map_congr_left
  intro e _
  simp only [Function.comp_apply, Prod.mk.injEq, and_true]
  omega

theorem Tile.kept_open {t : Tile} (h : t.flow.wait = none) :
    t.openBundle = { t with smp := t.openBundle.smp, ctl := t.openBundle.ctl, sf := t.openBundle.sf, cf := t.openBundle.cf } := by
  rw [Tile.openBundle_eq h]
  unfold Tile.setFlow Tile.setBank
  rcases flow_cases t with ⟨c, -, -⟩ | ⟨c, -, -⟩ <;> simp [c]

/-- The issuing tile after a bundle that transfers no control. -/
theorem after1_eq {t : Tile} {n : Nat} {l : List SlotEffect} (hb : t.flow.br = none) (hs : t.flow.skip = none)
    (hr : t.flow.rpt = none) (hw : t.flow.wait = none) (ha : t.flow.atTarget = false)
    (he : ∀ v ∈ t.bank.loops, v.lend ≠ t.flow.pc) (hl : t.openBundle.bank.loops = t.bank.loops) (hctl : ctlOf l = .none) :
    t.after1 n l = { (((t.holding l).setFlow { t.flow with pc := t.flow.pc + 1, issued := t.flow.issued + 1, pend := inFlight t.flow.pend t.flow.issued ++ pendOf n t.flow.issued l }).spend (t.took l)) with fu := (t.after1 n l).fu, buf := [], bufOpen := false, afterCret := t.afterCret && t.ctx } := by
  have hof : t.openBundle.flow = { t.flow with pend := inFlight t.flow.pend t.flow.issued } := by
    rw [Tile.openBundle_eq hw, Tile.setFlow_flow]
  obtain ⟨-, -, -, oac, -, ocx⟩ := open_fu hw
  have hadv : ∀ f : Flow, f.br = none → f.skip = none → f.rpt = none → f.pc = t.flow.pc →
      f.advance t.bank.loops false = ({ f with pc := f.pc + 1 }, t.bank.loops) := by
    intro f h1 h2 h3 h4
    unfold Flow.advance
    rw [h1, h2, h3]
    cases hg : t.bank.loops.getLast? with
    | none => rfl
    | some v =>
      have := he v (List.mem_of_getLast? hg)
      simp only
      rw [if_neg (by rw [h4]; exact fun x => this x.1)]
  unfold Tile.after1
  rw [hof]
  generalize hX : ((t.holding l).setFlow { t.flow with pend := inFlight t.flow.pend t.flow.issued ++ pendOf n t.flow.issued l, issued := t.flow.issued + 1 }).spend (t.took l) = X
  have hXf : X.flow = { t.flow with pend := inFlight t.flow.pend t.flow.issued ++ pendOf n t.flow.issued l, issued := t.flow.issued + 1 } := by
    rw [← hX]
    have : ∀ (y : Tile) k, (y.spend k).flow = y.flow := fun y k => rfl
    rw [this, Tile.setFlow_flow]
  have hXb : X.bank.loops = t.bank.loops := by
    rw [← hX]
    have : ∀ (y : Tile) k, (y.spend k).bank = y.bank := fun y k => rfl
    rw [this, Tile.setFlow_bank, Tile.holding_bank, hl]
  have hXc : X.ctx = t.ctx ∧ X.afterCret = t.afterCret := by
    rw [← hX]
    have : ∀ (y : Tile) k, (y.spend k).ctx = y.ctx ∧ (y.spend k).afterCret = y.afterCret := fun y k => ⟨rfl, rfl⟩
    rw [(this _ _).1, (this _ _).2, Tile.setFlow_ctx, Tile.holding_ctx, ocx]
    refine ⟨rfl, ?_⟩
    have : ∀ (y : Tile) f, (y.setFlow f).afterCret = y.afterCret := fun y f => by unfold Tile.setFlow; split <;> rfl
    rw [this]; exact oac
  have hg : (((t.holding l).setFlow { t.flow with pc := t.flow.pc + 1, issued := t.flow.issued + 1, pend := inFlight t.flow.pend t.flow.issued ++ pendOf n t.flow.issued l }).spend (t.took l))
      = X.setFlow { X.flow with pc := t.flow.pc + 1 } := by
    rw [hXf, ← hX]
    unfold Tile.setFlow Tile.spend Tile.holding
    cases t.openBundle.ctx <;> rfl
  rw [hg]
  have hgo : ∀ Y : Tile, Y.flow = X.flow → Y.bank = X.bank → Y.ctx = X.ctx → Y.afterCret = X.afterCret → Y = { X with fu := Y.fu } →
      ∀ Z : Tile, Z = ({ ((Y.setFlow { (Y.flow) with pc := Y.flow.pc + 1, atTarget := false }).setBank Y.bank) with buf := [], bufOpen := false, afterCret := Y.afterCret && Y.ctx } : Tile) →
      Z = { X.setFlow { X.flow with pc := t.flow.pc + 1 } with fu := Z.fu, buf := [], bufOpen := false, afterCret := t.afterCret && t.ctx } := by
    intro Y y1 y2 y3 y4 y5 Z hZ
    have hpc : X.flow.pc = t.flow.pc := by rw [hXf]
    have hat : X.flow.atTarget = false := by rw [hXf]; exact ha
    rw [hZ]
    rw [y1, y2, y3, y4, hXc.1, hXc.2, hpc]
    have hfl : ({ X.flow with pc := t.flow.pc + 1, atTarget := false } : Flow) = { X.flow with pc := t.flow.pc + 1 } := by
      rw [← hat]
    rw [hfl, y5]
    unfold Tile.setFlow Tile.setBank Tile.bank
    cases X.ctx <;> simp
  unfold Tile.issued
  rw [hctl]
  cases hfu : l.findSome? (·.fu) with
  | none =>
    refine hgo X rfl rfl rfl rfl rfl _ ?_
    simp only [Flow.after]
    rw [hadv { X.flow with atTarget := false } (by rw [hXf]; exact hb) (by rw [hXf]; exact hs) (by rw [hXf]; exact hr) (by rw [hXf]), Bool.or_false]
    rw [← hXb, Bank.setLoops_self]
    have : ∀ f, (X.setFlow f).afterCret = X.afterCret := fun f => by unfold Tile.setFlow; split <;> rfl
    have h2 : ∀ (y : Tile) b, (y.setBank b).afterCret = y.afterCret ∧ (y.setBank b).ctx = y.ctx ∧ (y.setBank b).injYield = y.injYield := fun y b => by unfold Tile.setBank; split <;> simp
    have h3 : ∀ f, (X.setFlow f).injYield = X.injYield := fun f => by unfold Tile.setFlow; split <;> rfl
    rw [(h2 _ _).1, (h2 _ _).2.1, Tile.setFlow_ctx, this]
  | some x =>
    refine hgo { X with fu := { left := 8 - (t.took l - t.pre l), op := x.1, dest := x.2, cancel := false, ctx := X.ctx } } rfl rfl rfl rfl rfl _ ?_
    generalize hY : ({ X with fu := { left := 8 - (t.took l - t.pre l), op := x.1, dest := x.2, cancel := false, ctx := X.ctx } } : Tile) = Y
    have hYf : Y.flow = X.flow := by rw [← hY]; rfl
    have hYb : Y.bank = X.bank := by rw [← hY]; rfl
    simp only [Flow.after, hY]
    rw [hadv { Y.flow with atTarget := false } (by rw [hYf, hXf]; exact hb) (by rw [hYf, hXf]; exact hs) (by rw [hYf, hXf]; exact hr) (by rw [hYf, hXf]), Bool.or_false]
    rw [← hXb, ← hYb, Bank.setLoops_self]
    have : ∀ f, (Y.setFlow f).afterCret = Y.afterCret := fun f => by unfold Tile.setFlow; split <;> rfl
    have h2 : ∀ (y : Tile) b, (y.setBank b).afterCret = y.afterCret ∧ (y.setBank b).ctx = y.ctx ∧ (y.setBank b).injYield = y.injYield := fun y b => by unfold Tile.setBank; split <;> simp
    rw [(h2 _ _).1, (h2 _ _).2.1, Tile.setFlow_ctx, this]

theorem after1_went (hc : mwf {} s.tiles = true) {t : TileNo} (h : s.Poised t.val) {l : List SlotEffect} (he : ctlOf l = .none)
    {u : State} (hu : u.tiles = (s.setTile t.val ((s.tile t.val).after1 t.val l)).tiles) {k : Nat} (hk : (s.tile t.val).took l = k) :
    s.Went u t.val k (ownOf l t.val) := by
  have hut : ∀ m, u.tile m = if t.val = m then (s.tile t.val).after1 t.val l else s.tile m := by
    intro m
    have := State.tile_setTile (s := s) hc t.val m ((s.tile t.val).after1 t.val l)
    rw [← this]
    exact congrArg (fun x => mget {} x m) hu
  have hn := hut t.val
  rw [if_pos rfl] at hn
  have key := after1_eq (n := t.val) (l := l) h.noBranch h.noSkip h.noRpt h.noWait h.noTarget h.noEnd h.seen_loops he
  rw [hk] at key
  generalize hX : (s.tile t.val).after1 t.val l = X at *
  have hko := Tile.kept_open h.noWait
  have hoc := h.open_ctx
  have hsn : (s.tile t.val).openBundle.bank = s.seen t.val := rfl
  have hid : if (s.tile t.val).ctx then (s.tile t.val).openBundle.sf = (s.tile t.val).sf ∧ (s.tile t.val).openBundle.smp = (s.tile t.val).smp
      else (s.tile t.val).openBundle.cf = (s.tile t.val).cf ∧ (s.tile t.val).openBundle.ctl = (s.tile t.val).ctl := by
    rw [Tile.openBundle_eq h.noWait]
    unfold Tile.setFlow Tile.setBank
    cases (s.tile t.val).ctx <;> simp
  have hfl : X.flow = { (s.tile t.val).flow with pc := (s.tile t.val).flow.pc + 1, issued := (s.tile t.val).flow.issued + 1, pend := inFlight (s.tile t.val).flow.pend (s.tile t.val).flow.issued ++ pendOf t.val (s.tile t.val).flow.issued l } := by
    rw [key]
    generalize ({ (s.tile t.val).flow with pc := (s.tile t.val).flow.pc + 1, issued := (s.tile t.val).flow.issued + 1, pend := inFlight (s.tile t.val).flow.pend (s.tile t.val).flow.issued ++ pendOf t.val (s.tile t.val).flow.issued l } : Flow) = F
    exact Tile.setFlow_flow _ F
  have hbk : X.bank = s.seen t.val := by
    rw [key, ← hsn]
    generalize ({ (s.tile t.val).flow with pc := (s.tile t.val).flow.pc + 1, issued := (s.tile t.val).flow.issued + 1, pend := inFlight (s.tile t.val).flow.pend (s.tile t.val).flow.issued ++ pendOf t.val (s.tile t.val).flow.issued l } : Flow) = F
    exact Tile.setFlow_bank _ F
  have hrest : X = { s.tile t.val with smp := X.smp, ctl := X.ctl, sf := X.sf, cf := X.cf, fu := X.fu, buf := X.buf, bufOpen := X.bufOpen, scyc := X.scyc, ctlCyc := X.ctlCyc, afterCret := X.afterCret } := by
    rw [key]
    unfold Tile.setFlow Tile.holding
    rw [hko]
    split <;> rfl
  have hcyc : X.scyc = (s.tile t.val).scyc + (if (s.tile t.val).ctx then 0 else k) ∧ X.ctlCyc = (s.tile t.val).ctlCyc + (if (s.tile t.val).ctx then k else 0) := by
    rw [key]
    unfold Tile.setFlow Tile.holding
    rw [hko]
    cases (s.tile t.val).ctx <;> simp [Tile.spend]
  have hidle : if (s.tile t.val).ctx then X.sf = (s.tile t.val).sf ∧ X.smp = (s.tile t.val).smp
      else X.cf = (s.tile t.val).cf ∧ X.ctl = (s.tile t.val).ctl := by
    have hxc : ((s.tile t.val).holding l).ctx = (s.tile t.val).ctx := hoc
    rw [key]
    unfold Tile.setFlow
    rw [hxc]
    revert hid
    cases (s.tile t.val).ctx <;> exact fun x => x
  refine ⟨⟨fun m hm => ?_, ?_, ?_, ?_, ?_, ?_, ?_, ?_⟩, ?_, ?_, ?_⟩
  · rw [hut, if_neg (Ne.symm hm)]
  · rw [hn, hfl]
  · rw [hn]; exact hcyc.1
  · rw [hn]; exact hcyc.2
  · rw [hn]; revert hidle; cases (s.tile t.val).ctx <;> exact fun x => x.1
  · rw [hn]; revert hidle; cases (s.tile t.val).ctx <;> exact fun x => x.2
  · rw [hn, key]
  · rw [hn, hrest]
  · rw [hn, hbk]
  · unfold State.flying
    rw [hn, hfl]
    simp only [List.map_append, flying_after, nearer_flying]
  · rw [hn, hfl]

theorem State.Poised.view_bank (hc : s.Canonical) : (s.view1 n).bank = s.seen n := by
  unfold Issue.bank Issue.tile State.view1
  rw [State.tile_setTile hc.tiles]
  simp [Tile.holding_bank, State.seen]

theorem State.Poised.view_bankOf (hc : s.Canonical) : (s.view1 n).bankOf n = s.seen n := State.Poised.view_bank hc

theorem after1_unit (h : s.Poised n) {l : List SlotEffect} (hf : l.findSome? (·.fu) = none) (he : ctlOf l = .none) {k : Nat}
    (hk : (s.tile n).took l = k) : ((s.tile n).after1 n l).fu = { (s.tile n).fu with left := (s.tile n).fu.left - k } := by
  have e1 : ∀ (y : Tile) f, (y.setFlow f).fu = y.fu := fun y f => by unfold Tile.setFlow; split <;> rfl
  have e2 : ∀ (y : Tile) b, (y.setBank b).fu = y.fu := fun y b => by unfold Tile.setBank; split <;> rfl
  unfold Tile.after1 Tile.issued
  rw [he, hf, hk]
  simp only [e2, e1]
  unfold Tile.spend
  rw [e1]
  simp only [Tile.holding, (open_fu h.noWait).1]

theorem gives_of_list (hc : s.Canonical) {t : TileNo} (h : s.Poised t.val) (l : List SlotEffect) (c : Instr)
    (hx : exec c s = .next ((s.setTile t.val ((s.tile t.val).holding l)).commitBundle t.val (s.tile t.val).bank.loops false))
    (h1 : ctlOf l = .none) (h2 : l.flatMap (·.stores) = []) (h3 : l.flatMap (·.reads) = []) (h4 : l.findSome? (·.fu) = none)
    {k : Nat} (h5 : (s.tile t.val).took l = k) {ws : List (Nat × RegWrite)} (hw : ownOf l t.val = ws) : s.GivesIn c t.val k ws := by
  refine ⟨s.setTile t.val ((s.tile t.val).after1 t.val l), ?_, ?_⟩
  · rw [hx, commit_one hc.tiles h]
    · rw [h2, h3]; rfl
    · intro hy; rw [h1] at hy; cases hy
    · intro k hy; rw [h1] at hy; cases hy
    · intro hy; rw [h1] at hy; cases hy
  · refine ⟨?_, ?_, rfl⟩
    · rw [← hw]
      exact after1_went hc.tiles h h1 rfl h5
    · rw [State.tile_setTile hc.tiles, if_pos rfl, after1_unit h h4 h1 h5]

theorem gives_of_quick (hc : s.Canonical) {t : TileNo} (h : s.Poised t.val) (f : Issue → SlotEffect) (c : Instr)
    (hx : exec c s = s.slot t true f) (he : (f (s.view1 t.val)).Quick) (h4 : (f (s.view1 t.val)).fu = none)
    (h5 : (f (s.view1 t.val)).stall = 0) {ws : List (Nat × RegWrite)}
    (hw : ownOf [f (s.view1 t.val)] t.val = ws) : s.Gives c t.val ws := by
  refine gives_of_list hc h [f (s.view1 t.val)] c ?_ (ctlOf_none he.ctl) (by simp [he.stores]) (by simp [he.reads]) (by simp [h4]) ?_ hw
  · rw [hx, slot_alone hc.tiles h f _ rfl (he.plain _ _ _)]
  · unfold Tile.took Tile.pre
    simp [h4, h5]

theorem gives_nop (hc : s.Canonical) {t : TileNo} (h : s.Poised t.val) (c : Instr) (hx : exec c s = s.noSlot t true) :
    s.Gives c t.val [] :=
  gives_of_list hc h [] c (by rw [hx, nop_alone hc.tiles h]) rfl rfl rfl rfl (by unfold Tile.took Tile.pre; rfl) rfl

end Sys2Proof.Machine
end

