-- ==== Sys2Proof/WellFormed.lean ====
section
/-!
DEFINITION. The checks on a command's operands that their types do not make: numbers that come in message fields and
requests fit the fields the manual gives them.  `exec` has a meaning for every command, well formed or not.
-/

namespace Sys2Proof

/-- The header of a domain message: DOMAIN of 2 bytes, TIME_S of 6, TIME_MS to 999 (R502). -/
def MsgHdr.wf (h : MsgHdr) : Bool := decide (h.version < 256) && h.mac.length == 16 && decide (h.domain < 65536) && decide (h.sec < 2 ^ 48) && decide (h.ms ≤ 999)

/-- A time in a message: seconds of 6 bytes, nanoseconds to 999,999,999 (R198, R212). -/
def timeWf (sec ns : Nat) : Bool := decide (sec < 2 ^ 48) && decide (ns ≤ 999999999)

/-- A deal: SCENE to 1,023, PRIORITY to 7, XF_MS to 10,000, LAW of one bit (R198). -/
def DealMsg.wf (d : DealMsg) : Bool :=
  decide (d.scene ≤ 1023) && decide (d.prio ≤ 7) && timeWf d.sec d.ns
    && (match d.xf with | some (ms, law) => decide (ms ≤ 10000) && decide (law ≤ 1) | none => true)

/-- A stream table entry: device numbers below 2,048, 128 streams, ACTION 0 to 2 (R508). -/
def StreamEntry.wf (e : StreamEntry) : Bool :=
  decide (e.sender < 2048) && decide (e.tx < 128) && decide (e.action ≤ 2) && decide (e.rx < 128)
    && (match e.receiver with | some r => decide (r < 2048) | none => true)

/-- A port identity: 8 and 2 bytes (R450). -/
def PortId.wf (p : PortId) : Bool := decide (p.clock < 2 ^ 64) && decide (p.port < 65536)

/-- An Announce dataset: one byte for each priority and quality, a variance of 2 bytes, identities of 8 bytes (R451). -/
def AnnData.wf (d : AnnData) : Bool :=
  decide (d.prio1 < 256) && decide (d.cls < 256) && decide (d.acc < 256) && decide (d.var < 65536) && decide (d.prio2 < 256)
    && decide (d.gm < 2 ^ 64) && decide (d.steps < 65536) && d.sender.wf

/-- The fields of a PTP message: domain, sequence number, time (R450, R456). -/
def ptpWf (dom seq sec ns : Nat) : Bool := decide (dom < 256) && decide (seq < 65536) && timeWf sec ns

/-- A race frame: 4,096 characters a lane at 48 kHz or 2,048 at 96 kHz (R482). -/
def RaceIn.wf (f : RaceIn) : Bool := (f.lane0.length == 4096 || f.lane0.length == 2048) && f.lane1.length == f.lane0.length

/-- Bytes that a flash read delivers wrong lie in the flash of at most 2^32 bytes (R606). -/
def misreadsOk (l : List (Nat × Byte)) : Bool := l.all (fun e => decide (e.1 < 2 ^ 32))

/-- A command is well formed. -/
def Instr.wf : Instr → Bool
  | .eccWordRewrite a => decide (a.toNat % 4 = 0)
  -- INSTANCE of 2 bytes (R93), scene numbers to 1,023 (R175)
  | .learnedFloor inst => decide (inst < 65536)
  | .coldFetch scene errs => decide (scene ≤ 1023) && misreadsOk errs
  | .hotRecordRefetch scene => decide (scene ≤ 1023)
  -- domain messages (R198, R200, R201, R212, R505 to R508, R659)
  | .dealMsg h d => h.wf && d.wf
  | .dealAck h _ scene status _ => h.wf && decide (scene ≤ 1023) && decide (status ≤ 6)
  | .dealCancel h _ => h.wf
  | .cueMsg h n level time => h.wf && decide (n ≤ 4095) && decide (level ≤ 7)
      && (match time with | some (sec, ns) => timeWf sec ns | none => true)
  | .joinMsg h own _ _ _ build nTx => h.wf && decide (own < 2048) && decide (build < 2 ^ 64) && decide (nTx ≤ 128)
  | .admitMsg h ver _ => h.wf && decide (ver < 2 ^ 32)
  | .refuseMsg h reason => h.wf && decide (reason < 256)
  | .leaveMsg h => h.wf
  | .managerMsg h _ ver _ used => h.wf && decide (ver < 2 ^ 32) && decide (used < 65536)
  | .heartbeatMsg h mode grid twin _ => h.wf && decide (mode < 256) && decide (grid < 256) && decide (twin < 256)
  | .mirrorMsg h _ => h.wf
  | .streamsMsg h _ es => h.wf && es.all StreamEntry.wf && decide (es.length ≤ 127)
  | .tallyPull h _ minSev most => h.wf && decide (minSev ≤ 3) && decide (most ≤ 31)
  | .tallySummary h head drops records => h.wf && decide (head < 2 ^ 32) && decide (drops < 2 ^ 32) && decide (records.length ≤ 31)
      && records.all (fun r => r.length == 32)
  | .paramMsg h es => h.wf && decide (1 ≤ es.length) && decide (es.length ≤ 127)
      && es.all (fun e => decide (e.1 < 65536) && decide (e.2.1 < 65536))
  -- IMAGE messages (R623)
  | .imageOpen session bytes => decide (session < 65536) && decide (bytes < 2 ^ 32)
  | .imageData session offset data => decide (session < 65536) && decide (offset < 2 ^ 32) && decide (data.length ≤ 768)
  | .imageClose session errs digErrs => decide (session < 65536) && misreadsOk errs && misreadsOk digErrs
  | .imageAbort session => decide (session < 65536)
  | .imageApplied _ errsA errsB _ _ => misreadsOk errsA && misreadsOk errsB
  | .updClose errs digErrs => misreadsOk errs && misreadsOk digErrs
  -- PTP messages and frames (R446, R450 to R458)
  | .ptpSync _ dom _ _ seq sender _ sec ns _ => ptpWf dom seq sec ns && sender.id.wf
  | .followUp _ dom q sec ns _ => ptpWf dom q.seq sec ns && q.src.id.wf
  | .delayResp _ dom q sec ns _ => ptpWf dom q.seq sec ns && q.src.id.wf && q.req.wf
  | .delayReq _ dom _ _ q _ => ptpWf dom q.seq 0 0 && q.src.id.wf
  | .arpRequest _ a => decide (a.mac < 2 ^ 48)
  | .echoRequest _ a => decide (a.mac < 2 ^ 48)
  | .announceMsg _ dom d => decide (dom < 256) && d.wf
  | .streamPacket _ _ p => decide (p.udp < 65536) && decide (p.pt < 128) && decide (p.seq < 65536)
  | .raceFrame _ f => f.wf
  | .tdmFrame _ _ _ _ _ din => decide (din.length ≤ 1025)
  -- a Millpond address (R517)
  | .clipRestore addr => decide (0x10000000 ≤ addr) && decide (addr < 0x11800000)
  -- a 16-bit reading (R595)
  | .temperatureReading t => decide (-32768 ≤ t) && decide (t ≤ 32767)
  -- one bit vector for each microphone (R378)
  | .strobe x => decide (x.mics.length ≤ 16)
  -- service-port requests: N of one byte (R661)
  | .svcRead _ _ cmd _ _ n _ => decide (n < 256) && cmd != 0x02#8
  | .svcWrite _ _ cmd _ _ data => decide (data.length < 256) && cmd != 0x03#8
  | .spiAbort (some q) _ => decide (q.n < 256) && (!q.write || q.data.length == q.n)
  -- every other command takes any value of its operands' types
  | _ => true

end Sys2Proof
end

