-- ==== Sys2Proof/Tests/Slice0.lean ====
section
/-!
SUPPORT. Tests: ill-formed commands that the checks refuse, single commands on small states whose results the manual
states, and for the statements with hypotheses a state and operands that meet them.
-/

open Sys2Proof Sys2Proof.Machine

namespace Sys2Proof.Tests

/-! ## Well-formedness -/

def goodHdr : MsgHdr := { domain := 3, src := 5, dst := .all, seq := 1, sec := 1000, ms := 999, mac := List.replicate 16 0 }

theorem test_wf_hdr : goodHdr.wf = true ∧ MsgHdr.wf { goodHdr with ms := 1000 } = false ∧
    MsgHdr.wf { goodHdr with domain := 65536 } = false ∧ MsgHdr.wf { goodHdr with sec := 2 ^ 48 } = false := by decide

def goodDeal : DealMsg := { id := 7, scene := 1023, prio := 7, xf := some (10000, 1), sec := 5, ns := 999999999 }

theorem test_wf_deal : (Instr.dealMsg goodHdr goodDeal).wf = true ∧ (Instr.dealMsg goodHdr { goodDeal with scene := 1024 }).wf = false ∧
    (Instr.dealMsg goodHdr { goodDeal with prio := 8 }).wf = false ∧ (Instr.dealMsg goodHdr { goodDeal with xf := some (10001, 0) }).wf = false ∧
    (Instr.dealMsg goodHdr { goodDeal with xf := some (0, 2) }).wf = false ∧ (Instr.dealMsg goodHdr { goodDeal with ns := 1000000000 }).wf = false ∧
    (Instr.dealMsg goodHdr { goodDeal with sec := 2 ^ 48 }).wf = false := by decide

theorem test_wf_deal_answers : (Instr.dealAck goodHdr 1 1023 6 0).wf = true ∧ (Instr.dealAck goodHdr 1 1024 6 0).wf = false ∧
    (Instr.dealAck goodHdr 1 1023 7 0).wf = false ∧ (Instr.dealCancel goodHdr 1).wf = true ∧
    (Instr.dealCancel { goodHdr with ms := 1000 } 1).wf = false := by decide

theorem test_wf_cue : (Instr.cueMsg goodHdr 4095 7 (some (1, 0))).wf = true ∧ (Instr.cueMsg goodHdr 4096 7 none).wf = false ∧
    (Instr.cueMsg goodHdr 1 8 none).wf = false ∧ (Instr.cueMsg goodHdr 1 1 (some (1, 1000000000))).wf = false := by decide

theorem test_wf_domain : (Instr.joinMsg goodHdr 2047 false false false 1 128).wf = true ∧
    (Instr.joinMsg goodHdr 2048 false false false 1 128).wf = false ∧ (Instr.joinMsg goodHdr 1 false false false (2 ^ 64) 1).wf = false ∧
    (Instr.joinMsg goodHdr 1 false false false 1 129).wf = false ∧ (Instr.admitMsg goodHdr (2 ^ 32) 0).wf = false ∧
    (Instr.refuseMsg goodHdr 256).wf = false ∧ (Instr.leaveMsg { goodHdr with domain := 65536 }).wf = false ∧
    (Instr.managerMsg goodHdr 0 (2 ^ 32) 0 0).wf = false ∧ (Instr.managerMsg goodHdr 0 0 0 65536).wf = false ∧
    (Instr.heartbeatMsg goodHdr 256 0 0 0).wf = false ∧ (Instr.heartbeatMsg goodHdr 0 256 0 0).wf = false ∧
    (Instr.heartbeatMsg goodHdr 0 0 256 0).wf = false ∧ (Instr.mirrorMsg { goodHdr with ms := 1000 } []).wf = false := by decide

def goodEntry : StreamEntry := { sender := 2047, tx := 127, action := 2, receiver := some 2047, rx := 127 }

theorem test_wf_streams : (Instr.streamsMsg goodHdr 0 [goodEntry]).wf = true ∧
    (Instr.streamsMsg goodHdr 0 [{ goodEntry with sender := 2048 }]).wf = false ∧ (Instr.streamsMsg goodHdr 0 [{ goodEntry with tx := 128 }]).wf = false ∧
    (Instr.streamsMsg goodHdr 0 [{ goodEntry with action := 3 }]).wf = false ∧ (Instr.streamsMsg goodHdr 0 [{ goodEntry with rx := 128 }]).wf = false ∧
    (Instr.streamsMsg goodHdr 0 [{ goodEntry with receiver := some 2048 }]).wf = false ∧
    (Instr.streamsMsg goodHdr 0 (List.replicate 128 goodEntry)).wf = false := by decide +kernel

theorem test_wf_tally : (Instr.tallyPull goodHdr 0 3 31).wf = true ∧ (Instr.tallyPull goodHdr 0 4 31).wf = false ∧
    (Instr.tallyPull goodHdr 0 3 32).wf = false ∧ (Instr.tallySummary goodHdr 0 0 [List.replicate 32 0]).wf = true ∧
    (Instr.tallySummary goodHdr 0 0 [List.replicate 31 0]).wf = false ∧ (Instr.tallySummary goodHdr (2 ^ 32) 0 []).wf = false ∧
    (Instr.tallySummary goodHdr 0 (2 ^ 32) []).wf = false ∧ (Instr.tallySummary goodHdr 0 0 (List.replicate 32 [])).wf = false := by decide

theorem test_wf_params : (Instr.paramMsg goodHdr [(1, 2, 3)]).wf = true ∧ (Instr.paramMsg goodHdr []).wf = false ∧
    (Instr.paramMsg goodHdr [(65536, 2, 3)]).wf = false ∧ (Instr.paramMsg goodHdr [(1, 65536, 3)]).wf = false ∧
    (Instr.paramMsg goodHdr (List.replicate 128 (1, 2, 3))).wf = false := by decide +kernel

theorem test_wf_images : (Instr.imageOpen 65535 1).wf = true ∧ (Instr.imageOpen 65536 1).wf = false ∧ (Instr.imageOpen 1 (2 ^ 32)).wf = false ∧
    (Instr.imageData 1 0 []).wf = true ∧ (Instr.imageData 65536 0 []).wf = false ∧ (Instr.imageData 1 (2 ^ 32) []).wf = false ∧
    (Instr.imageClose 65536 [] []).wf = false ∧ (Instr.imageAbort 65536).wf = false := by decide

theorem test_wf_image_chunk : (Instr.imageData 1 0 (List.replicate 768 0)).wf = true ∧ (Instr.imageData 1 0 (List.replicate 769 0)).wf = false := by decide +kernel

def goodAnn : AnnData := { prio1 := 255, cls := 6, acc := 0x21, prio2 := 255, gm := 1, steps := 0, sender := { clock := 1 } }
def goodFrom : PtpFrom := { id := { clock := 5 } }

theorem test_wf_ptp : (Instr.announceMsg false 255 goodAnn).wf = true ∧ (Instr.announceMsg false 256 goodAnn).wf = false ∧
    (Instr.announceMsg false 0 { goodAnn with prio1 := 256 }).wf = false ∧ (Instr.announceMsg false 0 { goodAnn with gm := 2 ^ 64 }).wf = false ∧
    (Instr.announceMsg false 0 { goodAnn with steps := 65536 }).wf = false ∧ (Instr.announceMsg false 0 { goodAnn with var := 65536 }).wf = false ∧
    (Instr.announceMsg false 0 { goodAnn with sender := { clock := 1, port := 65536 } }).wf = false ∧
    (Instr.ptpSync false 0 0 0 65535 goodFrom false 1 1 0).wf = true ∧ (Instr.ptpSync false 0 0 0 65536 goodFrom false 1 1 0).wf = false ∧
    (Instr.ptpSync false 0 0 0 1 goodFrom false 1 1000000000 0).wf = false ∧ (Instr.ptpSync false 0 0 0 1 { id := { clock := 2 ^ 64 } } false 1 1 0).wf = false ∧
    (Instr.followUp false 256 { seq := 1, src := goodFrom } 1 1 0).wf = false ∧
    (Instr.delayResp false 0 { seq := 1, src := goodFrom, req := { clock := 7 } } (2 ^ 48) 1 0).wf = false ∧
    (Instr.delayResp false 0 { seq := 1, src := goodFrom, req := { clock := 7, port := 65536 } } 1 1 0).wf = false ∧
    (Instr.delayReq false 0 0 0 { seq := 65536, src := goodFrom } 0).wf = false ∧ (Instr.arpRequest false { target := 0, mac := 2 ^ 48, ip := 0 }).wf = false ∧
    (Instr.echoRequest false { target := 0, mac := 2 ^ 48, ip := 0, data := [] }).wf = false := by decide

theorem test_wf_frames : (Instr.streamPacket false 0 { dst := 0, udp := 65536, pt := 0, ssrc := 0, ts := 0, payload := [] }).wf = false ∧
    (Instr.streamPacket false 0 { dst := 0, udp := 0, pt := 128, ssrc := 0, ts := 0, payload := [] }).wf = false ∧
    (Instr.streamPacket false 0 { dst := 0, udp := 0, pt := 127, ssrc := 0, seq := 65536, ts := 0, payload := [] }).wf = false ∧
    (Instr.streamPacket false 0 { dst := 0, udp := 0, pt := 127, ssrc := 0, ts := 0, payload := [] }).wf = true := by decide
theorem test_wf_tdm : (Instr.tdmFrame 0 false 0 0 true (List.replicate 1026 true)).wf = false ∧
    (Instr.tdmFrame 0 false 0 0 true (List.replicate 1025 true)).wf = true := by decide +kernel

/-- The bytes of a frame at 96 kHz for pass 48,000,000, ALIGNED, from device 4, ANY, of empty slots; its CRC by R485 as zlib computes it. -/
def goodRaceBytes : List Byte :=
  [1, 1, 0x6C, 0x00, 0, 4, 0x80, 3, 1, 0, 0, 0, 0, 0, 0, 0] ++ [1, 0, 0, 0, 0x02, 0xDC, 0x6C, 0x00, 4, 0, 0, 4] ++ List.replicate 20 0
    ++ List.replicate 3168 0 ++ [20, 29, 126, 58]

/-- The characters of a frame at 96 kHz: four commas, the bytes, fill to 4,096 (R483). -/
def raceChars (bytes : List Byte) : List RaceChar := List.replicate 4 .comma ++ bytes.map .data ++ List.replicate (4092 - bytes.length) .fill

def raceOf (bytes : List Byte) : RaceIn :=
  { comma := 0, done := 900, lane0 := (encodeLane false (laneOf false (raceChars bytes))).1, lane1 := (encodeLane false (laneOf true (raceChars bytes))).1 }

def goodRace : RaceIn := raceOf goodRaceBytes

theorem test_wf_race : (Instr.raceFrame 0 { goodRace with lane0 := List.replicate 2048 0, lane1 := List.replicate 2048 0 }).wf = true ∧
    (Instr.raceFrame 0 { goodRace with lane0 := List.replicate 2048 0, lane1 := [] }).wf = false ∧
    (Instr.raceFrame 0 { goodRace with lane0 := [], lane1 := [] }).wf = false := by decide +kernel

/-- The codes of K28.5, D10.2, D21.5, D0.0, D17.7 and K28.0 for negative running disparity, D0.0, D11.7 and K28.5 for positive, from the
tables of IEEE 802.3 clause 36, bit a leftmost there and lowest here. -/
theorem test_codes : [RaceChar.comma, .data 0x4A#8, .data 0xB5#8, .data 0#8, .data 0xF1#8, .fill].map (fun c => (encode10 false c).1) =
      [0b0101111100, 0b1010101010, 0b0101010101, 0b0010111001, 0b1110110001, 0b0010111100] ∧
    [RaceChar.data 0#8, .data 0xEB#8, .comma].map (fun c => (encode10 true c).1) = [0b1101000110, 0b0001001011, 0b1010000011] := by decide

/-- What a lane sends is what the other end decodes. -/
theorem test_lanes : goodRace.bytes = goodRaceBytes ∧ goodRace.commas = true ∧ goodRace.codeOk = true := by decide +kernel

theorem test_wf_misc : (Instr.eccWordRewrite 0x20000004#32).wf = true ∧ (Instr.eccWordRewrite 0x20000006#32).wf = false ∧
    (Instr.learnedFloor 65536).wf = false ∧ (Instr.coldFetch 1024 []).wf = false ∧ (Instr.coldFetch 7 [(2 ^ 32, 0)]).wf = false ∧ (Instr.updClose [(2 ^ 32, 0)] []).wf = false ∧
    (Instr.imageApplied {} [] [(2 ^ 32, 0)] 0 []).wf = false ∧ (Instr.hotRecordRefetch 1024).wf = false ∧
    (Instr.clipRestore 0x10000000).wf = true ∧ (Instr.clipRestore 0x11800000).wf = false ∧ (Instr.clipRestore 0xFFFFFFF).wf = false ∧
    (Instr.temperatureReading (-32768)).wf = true ∧ (Instr.temperatureReading (-32769)).wf = false ∧ (Instr.temperatureReading 32768).wf = false ∧
    (Instr.strobe { mics := List.replicate 17 0 }).wf = false ∧ (Instr.strobe {}).wf = true := by decide

theorem test_wf_service_port : (Instr.svcRead false false 3 0 0 255 0).wf = true ∧ (Instr.svcRead false false 3 0 0 256 0).wf = false ∧ (Instr.svcRead false false 2 0 0 255 0).wf = false ∧ (Instr.svcWrite false false 3 0 0 []).wf = false ∧
    (Instr.spiAbort (some { write := true, addr := 0, n := 1, data := [] }) 0).wf = false ∧
    (Instr.spiAbort (some { write := true, addr := 0, n := 1, data := [5] }) 0).wf = true ∧
    (Instr.spiAbort (some { write := false, addr := 0, n := 256 }) 0).wf = false := by decide

theorem test_wf_service_write : (Instr.svcWrite false false 2 0 0 (List.replicate 256 0)).wf = false := by decide +kernel

/-- No row of the opcode table gives bits. -/
theorem test_no_table_words : ∀ n w, decodeTableWord n w = none := fun _ _ => rfl

/-! ## Canonical states by evaluation -/

def bankOk (b : Bank) : Bool := mwf 0 b.s && mwf 0 b.p && mwf 0 b.m && mwf 0 b.n && mwf 0 b.v && mwf 0 b.a

def canonB (s : State) : Bool :=
  mwf 0 s.regs && mwf 0 s.latch && mwf 0 s.mem && mwf 0 s.imem && mwf {} s.tiles && mwf {} s.clusters && mwf {} s.nodes
    && mwf {} s.ports && mwf {} s.srcs && mwf 0 s.ms.ecc && s.tiles.all (fun e => bankOk e.2.smp && bankOk e.2.ctl)

theorem bank_of {b : Bank} (h : bankOk b = true) : b.Canonical := by
  simp only [bankOk, Bool.and_eq_true] at h
  exact ⟨h.1.1.1.1.1, h.1.1.1.1.2, h.1.1.1.2, h.1.1.2, h.1.2, h.2⟩

theorem mget_all {p : Tile → Prop} {m : SMap Tile} (h0 : p {}) (h : ∀ e ∈ m, p e.2) (n : Nat) : p (mget {} m n) := by
  induction m with
  | nil => exact h0
  | cons e m ih =>
    unfold mget
    split
    · exact h e (by simp)
    · split
      · exact h0
      · exact ih (fun x hx => h x (by simp [hx]))

theorem canonical_of {s : State} (h : canonB s = true) : s.Canonical := by
  simp only [canonB, Bool.and_eq_true] at h
  obtain ⟨⟨⟨⟨⟨⟨⟨⟨⟨⟨h1, h2⟩, h3⟩, h4⟩, h5⟩, h6⟩, h7⟩, h8⟩, h9⟩, h10⟩, h11⟩ := h
  refine ⟨h1, h2, h3, h4, h5, h6, h7, h8, h9, fun n => ?_, h10⟩
  refine mget_all (p := Tile.Canonical) ⟨bank_of rfl, bank_of rfl⟩ (fun e he => ?_) n
  have := List.all_eq_true.mp h11 e he
  simp only [Bool.and_eq_true] at this
  exact ⟨bank_of this.1, bank_of this.2⟩

/-! ## The tile -/

/-- Tile 3 is about to issue a bundle alone; s2 and s3, p2, n2, m2 and v1 hold values. -/
def tileState : State :=
  let b : Bank := [RegWrite.s 2 0x7FFFFFFF#32, .s 3 1#32, .s 4 0xFFFFFFFE#32, .s 5 0x40000000#32, .p 2 0x110#17, .m 2 5#17, .v 1 0 7#32,
    .v 1 1 0x80000000#32].foldl (fun (b : Bank) w => applyWrite b w) {}
  (State.reset.setDom 3 .on).setTile 3 { run := .running, smp := b, yielded := false }

/-- The same tile in its control context. -/
def ctlState : State := tileState.setTile 3 { tileState.tile 3 with ctx := true }

theorem tileState_canonical : tileState.Canonical := canonical_of (by decide)
theorem tileState_poised : tileState.Poised 3 :=
  ⟨by decide, by decide, by decide, by decide, by decide, by decide, by decide, by decide, by decide, by decide, by decide, by decide, by decide⟩
theorem ctlState_canonical : ctlState.Canonical := canonical_of (by decide)
theorem ctlState_poised : ctlState.Poised 3 :=
  ⟨by decide, by decide, by decide, by decide, by decide, by decide, by decide, by decide, by decide, by decide, by decide, by decide, by decide⟩

/-- The hypotheses of ScalarArithmetic, ScalarLogicAndShifts, ImmediatesAndConstants, MovesAndModes, LaneOperations,
Accumulation, Conversion, Pointers and FunctionUnitOps. -/
theorem test_witness_tile : ∃ (s : State) (t : TileNo), s.Canonical ∧ s.Poised t ∧ (s.seen t).getS 2 = 0x7FFFFFFF#32 ∧ (s.seen t).getS 3 = 1#32 :=
  ⟨tileState, 3, tileState_canonical, tileState_poised, by decide⟩

/-- The hypotheses of each load and of the dual load in Loads, and of each store in StoreResults: p2 is 0x110. -/
theorem test_witness_loads_stores : ∃ (s : State) (t : TileNo), s.Canonical ∧ s.Poised t ∧
    (let at_ (off : Nat) : Nat := (((s.seen t).getP 2).toNat + off) % 2 ^ 17
     at_ (4 * 15) % 4 = 0 ∧ s.Sound t (at_ (4 * 15)) 4 ∧ at_ (16 * 31) % 16 = 0 ∧ s.Sound t (at_ (16 * 31)) 16 ∧ at_ (4 * 31) % 4 = 0 ∧
     s.Sound t (at_ (4 * 31)) 4 ∧ s.Sound t (at_ 15) 4 ∧ s.Sound t (at_ 15) 3 ∧ at_ 0 % 16 = 0 ∧ s.Sound t (at_ 0) 16 ∧
     (Post.size ≠ .none → SReg.s 1 ≠ .p 2) ∧ s.Sound t ((s.seen t).getP 3).toNat 16 ∧ ((s.seen t).getP 3).toNat % 16 = 0) :=
  ⟨tileState, 3, tileState_canonical, tileState_poised, by unfold State.Sound; decide⟩

/-- The hypotheses of BranchesAndConditions, LoopsAndRepeats (a loop that ends at bundle 9, 1,024 repeats) and
WaitsAndYield (WAITS of a cycle that has come, of one that has not; YIELD). -/
theorem test_witness_flow : ∃ (s : State) (t : TileNo), s.Canonical ∧ s.Poised t ∧ (s.tile t).ctx = false ∧ s.injFor 0x0C 0 t = false ∧
    (let pc := (s.tile t).flow.pc
     (∀ v ∈ (s.seen t).loops, v.lend ≠ pc + 1 ∧ v.lend ≠ pc + 2) ∧ pc < (9#11).toNat ∧ (s.seen t).loops.length < 4 ∧
     (∀ v, (s.seen t).loops.getLast? = some v → (9#11).toNat < v.lend) ∧ (1024#11).toNat ≤ 1024 ∧
     (1#13).toNat ≤ (s.tile t).scyc + 1 ∧ (s.tile t).scyc + 1 < (2#13).toNat) :=
  ⟨tileState, 3, tileState_canonical, tileState_poised, by decide, by decide, by decide, by decide, by decide,
    fun v h => absurd (h.symm.trans (show (tileState.seen 3).loops.getLast? = none by decide)) (by simp), by decide⟩

/-- The hypotheses of the CRET clause of WaitsAndYield. -/
theorem test_witness_cret : ∃ (s : State) (t : TileNo), s.Canonical ∧ s.Poised t ∧ (s.tile t).ctx = true ∧
    (∀ r, s.node (s.tile t).handler = some r → r.type ≠ 0x14) :=
  ⟨ctlState, 3, ctlState_canonical, ctlState_poised, by decide, 
    fun r h => absurd (h.symm.trans (show ctlState.node (ctlState.tile 3).handler = none by decide)) (by simp)⟩

def flowState (f : Flow) : State := tileState.setTile 3 { tileState.tile 3 with sf := f }
def inSlot (k : Nat) : Flow := { pc := 5, br := some { at_ := 4 - k, slot := k, taken := true, target := 40, annulled := false } }
def inLoop (n : Nat) : State :=
  tileState.setTile 3 { tileState.tile 3 with sf := { pc := 6 }, smp := { loops := [{ lcount := BitVec.ofNat 32 n, lstart := 2, lend := 6 }] } }

/-- The hypotheses of FlowAdvance in a branch's delay slots, a skipped body, a repeat and at the end of a loop body. -/
theorem test_witness_advance : ∀ s ∈ [flowState (inSlot 0), flowState (inSlot 1), flowState { pc := 5, skip := some { left := 1, next := 9 } },
    flowState { pc := 5, rpt := some { done := 3, count := 7 } }, flowState { pc := 5, rpt := some { done := 6, count := 7 } }, inLoop 2, inLoop 1],
    canonB s = true ∧ s.mayIssue 3 = true ∧ s.membersOf 3 = [3] ∧ (s.tile 3).bufOpen = false ∧ (s.tile 3).flow.wait = none ∧
    (s.tile 3).flow.atTarget = false ∧ (s.tile 3).flow.pc ≤ 2047 ∧ mget 0 s.ms.ecc (s.fetchAddr 3 (s.tile 3).flow.pc) = 0 ∧
    mget 0 s.ms.ecc (s.fetchAddr 3 (s.tile 3).flow.pc + 4) = 0 ∧ bundleDetail (s.fetchBundle 3 (s.tile 3).flow.pc) = none := by decide

/-- In those states a NOP moves to the next bundle, to the target, past the body, stays, goes on, back, and on. -/
theorem test_advance : [flowState (inSlot 0), flowState (inSlot 1), flowState { pc := 5, skip := some { left := 1, next := 9 } },
    flowState { pc := 5, rpt := some { done := 3, count := 7 } }, flowState { pc := 5, rpt := some { done := 6, count := 7 } }, inLoop 2, inLoop 1].map
    (fun s => match exec (.nop 3 true) s with | .next u => some (u.tile 3).flow.pc | _ => none) =
    [some 6, some 40, some 9, some 5, some 6, some 2, some 7] := by decide

/-- The hypotheses of GangRendezvous, one arriving first and one arriving last. -/
def gangState (arrived : List Nat) : State :=
  let c : Cluster := { gangs := [{ start := 10, length := 4, leadBundle := 20, dataAddr := 0, dataBytes := 0 }], arrived := arrived.map (fun n => (n, 0)) }
  ({ tileState with clusters := [(0, c)] } : State)

theorem test_witness_gang : ∀ s ∈ [gangState [], gangState [0, 1, 2, 4, 5, 6, 7]],
    canonB s = true ∧ (s.tile 3).ctx = false ∧ s.gangRec 0 0 = some { start := 10, length := 4, leadBundle := 20, dataAddr := 0, dataBytes := 0 } ∧
    s.mayIssue 3 = true ∧ s.membersOf 3 = [3] ∧ (s.tile 3).bufOpen = false ∧ (s.tile 3).flow = {} ∧ (s.tile 3).bank.loops = [] ∧
    mget 0 s.ms.ecc (s.fetchAddr 3 0) = 0 ∧ mget 0 s.ms.ecc (s.fetchAddr 3 0 + 4) = 0 ∧
    bundleDetail (s.fetchBundle 3 0) = none := by decide

theorem test_witness_gang_arrival : (∃ m, m < 8 ∧ 8 * 0 + m ≠ 3 ∧ (8 * 0 + m, 0) ∉ ((gangState []).cluster 0).arrived) ∧
    (∀ m, m < 8 → 8 * 0 + m ≠ 3 → (8 * 0 + m, 0) ∈ ((gangState [0, 1, 2, 4, 5, 6, 7]).cluster 0).arrived) := ⟨⟨0, by decide⟩, by decide⟩

/-- The hypotheses of TileException: a vector load at 0x118 is misaligned. -/
theorem test_witness_exception : ∃ (s : State) (t : TileNo) (ptr : Fin 8) (off : Fin 32), s.Canonical ∧ s.Poised t ∧ (s.tile t).injYield = false ∧
    ((((s.seen t).getP ptr).toNat + 16 * off) % 2 ^ 17) % 16 ≠ 0 ∧ Post.size ≠ .none :=
  ⟨tileState.setTile 3 { tileState.tile 3 with smp := { p := [(2, 0x118#17)] } }, 3, 2, 0, canonical_of (by decide),
    ⟨by decide, by decide, by decide, by decide, by decide, by decide, by decide, by decide, by decide, by decide, by decide, by decide, by decide⟩, by decide⟩

/-! ## Single instructions, with results worked out from the manual's chapter on the tile instructions -/

/-- The results in flight after one command from `tileState`. -/
def flies (c : Instr) : Option (List (Nat × RegWrite)) := match exec c tileState with | .next u => some (u.flying 3) | _ => none

/-- 0x7FFFFFFF + 1 is 0x80000000: N and V, no carry. -/
theorem test_add : flies (.add 3 true 5 2 3 true) = some [(1, .s 5 0x80000000#32), (1, .flags (flagsNZCV 0x80000000#32 false true))] := by decide
/-- 1 − 0x7FFFFFFF borrows. -/
theorem test_sub : flies (.sub 3 true 5 3 2 true) = some [(1, .s 5 0x80000002#32), (1, .flags (flagsNZCV 0x80000002#32 false false))] := by decide
/-- −2 · 1 has high word −1. -/
theorem test_mulh : flies (.mulh 3 true 5 4 3 false) = some [(1, .s 5 0xFFFFFFFF#32)] := by decide
theorem test_addsat : flies (.addsat 3 true 5 2 3 false) = some [(1, .s 5 0x7FFFFFFF#32)] := by decide
/-- A signed and an unsigned minimum of −2 and 1. -/
theorem test_min : flies (.min 3 true 5 4 3 false) = some [(1, .s 5 0xFFFFFFFE#32)] := by decide
theorem test_minu : flies (.minu 3 true 5 4 3 false) = some [(1, .s 5 1#32)] := by decide
/-- −2 has thirty redundant sign bits. -/
theorem test_cls : flies (.cls 3 true 5 4 false) = some [(1, .s 5 30#32)] := by decide
theorem test_clz : flies (.clz 3 true 5 3 false) = some [(1, .s 5 31#32)] := by decide
theorem test_asr : flies (.asri 3 true 5 4 1) = some [(1, .s 5 0xFFFFFFFF#32)] := by decide
theorem test_shr : flies (.shri 3 true 5 4 1) = some [(1, .s 5 0x7FFFFFFF#32)] := by decide
theorem test_addi_signed : flies (.addi 3 true 5 3 0xFF#8) = some [(1, .s 5 0#32)] := by decide
theorem test_ldi_signed : flies (.ldi 3 true 5 0x8000#16) = some [(1, .s 5 0xFFFF8000#32)] := by decide
theorem test_ldih : flies (.ldih 3 true 2 0x1234#16) = some [(1, .s 2 0x1234FFFF#32)] := by decide
/-- An offset register reads sign-extended. -/
theorem test_movx_m : flies (.movx 3 true (.reg (.s 5)) (.reg (.m 2))) = some [(1, .s 5 5#32)] := by decide
theorem test_setmode : flies (.setmodeImm 3 true true false) = some [(2, .mode 2#2)] := by decide
/-- 0x80000000 doubled saturates to itself and reports its lane. -/
theorem test_vshls : flies (.vshls 3 true 4 1 1) = some (laneResults 1 4 (fun l => if l = 0 then 14#32 else if l = 1 then 0x80000000#32 else 0#32) ++
    [(1, .sticky 0x200#32)]) := by decide
theorem test_vabs : flies (.vabs 3 true 4 1) = some (laneResults 1 4 (fun l => if l = 0 then 7#32 else if l = 1 then 0x7FFFFFFF#32 else 0#32) ++
    [(1, .sticky 0x200#32)]) := by decide
theorem test_vperm : flies (.vperm 3 true 4 1 0x01#8) = some (laneResults 1 4 (fun l => if l = 0 then 0x80000000#32 else 7#32)) := by decide
theorem test_mul_integer : flies (.mul 3 true .integer 0 1 1) = some (accResults 0 (fun l => if l = 0 then 49 else if l = 1 then 2 ^ 62 else 0)) := by decide
theorem test_mul_sample : flies (.mul 3 true .sample 1 1 1) = some (accResults 1 (fun l => if l = 0 then 98 else if l = 1 then 2 ^ 63 else 0)) := by decide
theorem test_lea : flies (.lea 3 true 4 2 0x3F0#10) = some [(1, .p 4 0x100#17)] := by decide
/-- A reciprocal of 1.0, the example of the manual's rule on the function unit. -/
theorem test_rcp : flies (.rcp 3 true 5 5) = some [(8, .s 5 0x40000000#32)] := by decide
theorem test_div_small : flies (.div 3 true 6 3 5) = some [(8, .s 6 2#32)] := by decide
/-- A vector load at 0x110 of memory that holds nothing, with the pointer moved by 16. -/
theorem test_ldv : flies (.ldv 3 true 4 2 .size 0) = some (laneResults 2 4 (fun _ => 0#32) ++ [(1, .p 2 0x120#17)]) := by decide
theorem test_ldl_by_m : flies (.ldl 3 true 4 1 2 .byM true 3) = some [(2, .v 4 1 0#32), (1, .p 2 0x115#17)] := by decide

/-- A packed store writes bits 31 to 8 of the lane, least significant first. -/
theorem test_stl_packed : (match exec (.stl 3 true 1 1 2 .none true 2) tileState with
    | .next u => [u.rdB 0x200C0112, u.rdB 0x200C0113, u.rdB 0x200C0114, u.rdB 0x200C0115] | _ => []) = [0#8, 0#8, 0x80#8, 0#8] := by decide
theorem test_sts : (match exec (.sts 3 true (.s 4) 2 .none false 1) tileState with
    | .next u => [u.rdB 0x200C0113, u.rdB 0x200C0114, u.rdB 0x200C0117, u.rdB 0x200C0118] | _ => []) = [0#8, 0xFE#8, 0xFF#8, 0#8] := by decide
/-- A branch issues its delay slots: the next bundle is the next one. -/
theorem test_branch : (match exec (.b 3 true .al false 40#11) tileState with
    | .next u => some ((u.tile 3).flow.pc, (u.tile 3).flow.br.map (fun b => (b.target, b.taken))) | _ => none) = some (1, some (40, true)) := by decide
theorem test_loop_of_zero : (match exec (.loopi 3 true 0 9#11) tileState with
    | .next u => some ((u.tile 3).flow.skip.map (fun k => k.next), (u.tile 3).bank.loops) | _ => none) = some (some 10, []) := by decide
/-- A misaligned vector load is cause 3. -/
theorem test_exception : (match exec (.ldv 3 true 1 2 .none 0) (tileState.setTile 3 { tileState.tile 3 with smp := { p := [(2, 0x118#17)] } }) with
    | .next u => some (u.xfld 3 0x800 3 0, u.xfld 3 0x800 31 31, u.xfld 3 0x80C 16 0, (u.tile 3).run, (u.tile 3).muted) | _ => none) =
    some (3, 1, 0x118, .halted, true) := by decide

/-! ## Encodings -/

/-- The dual load of the example of R295 is 0x8_0C44. -/
theorem test_decode_ldd : decodeM 3 true 0x80C44 = .ok (.ldd 3 true 0 3 .none 2 .none true) := by decide +kernel
/-- The three bundles of the kernel in chapter 07 (A kernel in full). -/
theorem test_decode_kernel : decodeBundle 3 0x0000008096830000 = .ok [.ldd 3 false 0 2 .size 3 .size false, .clr 3 true 0] ∧
    decodeBundle 3 0xA000808096800000 = .ok [.rpt 3 false (.imm 128), .ldd 3 true 0 2 .size 3 .size false] ∧
    decodeBundle 3 0x0000008096811008 = .ok [.ldd 3 false 0 2 .size 3 .size false, .mac 3 true .coef 0 0 1] := by decide +kernel
/-- A C slot each of SYS, ALU, ALUI, LDI, B, LOOP, LOOPI, FU and MOVX, written out from R274 to R285. -/
theorem test_decode_c : [0x050123, 0x117283, 0x221405, 0x33FFFE, 0x598014, 0x801808, 0x9A0014, 0xB23404, 0xC12070].map (decodeC 3 true) =
    [.ok (.waits 3 true 0x123), .ok (.or 3 true 1 7 2 true), .ok (.shli 3 true 2 1 5), .ok (.ldi 3 true 3 0xFFFE), .ok (.b 3 true .ls true 20),
     .ok (.loop 3 true 3 8), .ok (.loopi 3 true 0x140 20), .ok (.div 3 true 2 3 4), .ok (.movx 3 true (.reg (.s 1)) (.lane 2 0))] := by decide +kernel
/-- An M and an L slot of each kind, written out from R290 to R306. -/
theorem test_decode_ml : [0x14CA3, 0x37324, 0x92830, 0xA2FFF, 0xB0080].map (decodeM 3 true) =
    [.ok (.lds 3 true (.p 3) 1 .size false 3), .ok (.ldv 3 true 7 6 .size 4), .ok (.sta 3 true 0 (.word 10) 0 .size (.one 0)), .ok (.lea 3 true 1 3 0x3FF),
     .ok (.stepPtr 3 true 1)] ∧
    [0x19298, 0x2FA40, 0x34500, 0x4312E, 0x534C7, 0x6121B].map (decodeL 3 true) =
    [.ok (.mac 3 true .square 0 5 3), .ok (.cvt 3 true 15 1 (.word 9)), .ok (.adda 3 true 0 5), .error 1, .ok (.vshls 3 true 3 4 7),
     .ok (.vperm 3 true 1 2 0x1B)] := by decide +kernel
/-- Undefined majors and codes and reserved bits (DETAIL 0), fields out of range (DETAIL 1), one pointer twice (DETAIL 2). -/
theorem test_decode_illegal : [0xD00000, 0x070000, 0x100017, 0x100020, 0xA00401, 0xC00011, 0xC00091].map (decodeC 3 true) =
      [.error 0, .error 0, .error 0, .error 0, .error 1, .error 0, .error 0] ∧
    [0xC0000, 0x14CE3, 0x84948].map (decodeM 3 true) = [.error 0, .error 0, .error 2] ∧ decodeL 3 true 0x24480 = .error 0 ∧
    bundleDetail 0xD000000000000000 = some 0 ∧ bundleDetail 0 = none := by decide +kernel
/-- The hypotheses of BundleEncodings: a command with a word, and a bundle of three slots. -/
theorem test_witness_encodings : Instr.slotOf (.mac 3 true .coef 0 0 1) = some (3, true) ∧ Instr.illegalForm (.mac 3 true .coef 0 0 1) = false ∧
    encodeL (.mac 3 true .coef 0 0 1) = some 0x11008 ∧ decodeC 3 (0x80968 == 0 && 0x11008 == 0) 0xA00080 = .ok (.rpt 3 false (.imm 128)) ∧
    decodeM 3 (0x11008 == 0) 0x80968 = .ok (.ldd 3 false 0 2 .size 3 .size false) ∧ decodeL 3 true 0x11008 = .ok (.mac 3 true .coef 0 0 1) := by decide +kernel
/-- An illegal bundle stored where tile 3 fetches raises cause 1 (the hypotheses of TileException for stored words). -/
theorem test_stored_illegal : let m : SMap Byte := [(98311, 0xD0#8)]
    tileState.Canonical ∧ mwf 0 m = true ∧ bundleDetail (({ tileState with imem := m } : State).fetchBundle 3 (tileState.tile 3).flow.pc) = some 0 ∧
    (match exec (.nop 3 true) { tileState with imem := m } with
      | .next u => some ((u.tile 3).run, u.xfld 3 0x800 3 0, u.xfld 3 0x800 7 4) | _ => none) = some (.halted, 1, 0) :=
  ⟨tileState_canonical, by decide +kernel⟩

/-! ## Statements about the rest of the block: states that meet their hypotheses -/

/-- An engine in RUN at 48 kHz with its domains on, at tick 1,000 and 1,000 seconds of PTP time. -/
def runState : State :=
  { State.reset with
    pwr := { mode := .run, dom := [(3, .on), (4, .on), (64, .on), (72, .on), (76, .on), (77, .on), (78, .on), (79, .on)] }
    grid := { p := 48000000#48, tick := 1000, state := .aligned, ran := true, fnOn := true }
    net := { timeValid := true } }

def servState : State := { runState with pwr := { runState.pwr with mode := .service } }

/-- Both Ethernet interfaces chosen, their links up. -/
def netUp (s : State) : State := (s.setReg aNetCtrl 0x15#32).setReg aNetStat 0x0404#32

theorem runState_canonical : runState.Canonical := canonical_of (by decide)
theorem servState_canonical : servState.Canonical := canonical_of (by decide)

def halted : State := runState.setTile 3 { run := .halted, muted := true }
def badWord : State :=
  { runState with ms := { runState.ms with tileBad := [0x200C0010] }
                  nvm := { runState.nvm with op := some { kind := .read, prio := 1, use := .tileWord 0x200C0010, addr := 0 } } }

/-- TileRestart. -/
theorem test_witness_restart : halted.Canonical ∧ (halted.tile 3).run = .halted ∧ (∀ m ∈ halted.restartsWith 3, (halted.tile m).restartIn = 0 ∧ halted.eccHeld m = false) ∧
    halted.graphRuns = true ∧ halted.domOn 3 = true := ⟨canonical_of (by decide), by decide⟩
theorem test_witness_word_rewrite : badWord.Canonical ∧ (0x200C0010#32).toNat ∈ badWord.ms.tileBad ∧ 0x20000000 ≤ (0x200C0010#32).toNat ∧
    (0x200C0010#32).toNat % 4 = 0 ∧ (0x200C0010#32).toNat % 0x40000 < 0x20000 ∧ badWord.flt.armed = none ∧
    badWord.reading (rewriteOf (0x200C0010#32).toNat) = true := ⟨canonical_of (by decide), by decide⟩

def handlerNode : NodeRec := { inst := 9, type := 1, cluster := 0, tile := some 3, nIn := 0, nOut := 0, ctrlCost := 100, ctrlEntry := 30 }
def switching (ctlCyc : Nat) : State :=
  { runState.setTile 3 { run := .running, yielded := false, ctlCyc := ctlCyc, runs := [{ inst := 9, due := 0 }] } with scn := { nodes := [handlerNode] } }

/-- ControlSwitch: a run that fits, and one that does not. -/
theorem test_witness_switch : ∀ c ∈ [0, 2040], let s := switching c
    s.domOn 3 = true ∧ s.isLib 3 = false ∧ (s.tile 3).ctx = false ∧ (s.tile 3).bufOpen = false ∧ (s.tile 3).run = .running ∧
    (s.tile 3).sf.br = none ∧ (s.tile 3).sf.skip = none ∧ (s.tile 3).sf.rpt = none ∧ (s.tile 3).sf.wait = none ∧ (s.cluster (3 / 8)).gang = none ∧
    (s.cluster (3 / 8)).arrived = [] ∧ (s.tile 3).afterCret = false ∧ s.tly.mons = [] ∧ (s.tile 3).runs = [{ inst := 9, due := 0 }] ∧
    s.node 9 = some handlerNode ∧ canonB s = true ∧ (s.cluster (3 / 8)).gangs.length ≤ (s.cluster (3 / 8)).gangsDone := by decide

/-- A cluster with a ganged section still to come. -/
theorem test_witness_switch_held : (((switching 0).setCluster 0 { gangs := [{ start := 10, length := 4, leadBundle := 20, dataAddr := 0, dataBytes := 0 }] }).cluster 0).gangsDone <
    (((switching 0).setCluster 0 { gangs := [{ start := 10, length := 4, leadBundle := 20, dataAddr := 0, dataBytes := 0 }] }).cluster 0).gangs.length := by decide

/-- The run enters at the node's control entry; one of 102 cycles after 2,040 does not fit 2,048. -/
theorem test_switch : [0, 2040].map (fun c => match exec (.controlSwitch 3 0) (switching c) with
    | .next u => some ((u.tile 3).ctx, (u.tile 3).cf.pc, (u.tile 3).deferred) | _ => none) = [some (true, 30, 0), some (false, 0, 1)] := by decide

/-- StepsKeepCanonical and FusesStayBurned. -/
theorem test_witness_step : State.reset.Canonical ∧ mwf none State.reset.nvm.fuses.hash = true ∧ step State.reset = .next State.reset :=
  ⟨canonical_of (by decide), by decide, rfl⟩

/-! ### The register interface -/

theorem serves_sys {s : State} {m : Master} {a : Nat} (h1 : s.noAccess m = false) (h2 : s.svc.stewDown = false)
    (h3 : regionOf a = .periph none) : s.Serves m a := ⟨h1, h2, none, h3, rfl⟩

/-- PeripheralAccesses: 0x40000004 is SYS_MODE; 0x40001000 has no register. -/
theorem test_witness_periph : runState.Serves .svc 0x40000004 ∧ runState.Serves .svc 0x40001000 ∧ regAt 0x40001000 = none ∧
    (AccSize.half ≠ .word) ∧ 0x40000004 % AccSize.word.bytes = 0 :=
  ⟨serves_sys (by decide) (by decide) (by decide), serves_sys (by decide) (by decide) (by decide), by decide, by decide, by decide⟩

/-- PeripheralAccesses: SCN_COUNTS has fields that a read clears. -/
theorem test_witness_read_clear : runState.Canonical ∧ (runState.Serves .svc 0x4071000C ∧ (regAt 0x4071000C).isSome = true ∧ isLo 0x4071000C = false ∧ isLatched 0x4071000C = false ∧
    0x4071000C ≠ aPtpTimeNs) := ⟨runState_canonical, serves_sys (by decide) (by decide) (by decide), by decide⟩
theorem test_read_clear : (match exec (.readClear .svc 0x4071000C#32 .word 0) (runState.setReg 0x4071000C 0x00050007#32) with
    | .next u => some (u.svc.rdata, u.reg 0x4071000C) | _ => none) = some (0x00050007#32, 0#32) := by decide

/-- RegisterWriteByFieldType. -/
theorem test_witness_regWrite : ∃ (a : Word) (r : RegDef), runState.Canonical ∧ runState.Serves .stew a.toNat ∧ regAt a.toNat = some r ∧
    a.toNat / 65536 ∈ [0x4000, 0x4060, 0x4070] ∧ a.toNat ≠ aSysMode :=
  ⟨BitVec.ofNat 32 aDomStat, _, runState_canonical, ⟨by decide, by decide, _, rfl, by decide⟩, rfl, by decide, by decide⟩

/-- LatchedHalves: SYS_PASS_LO. -/
theorem test_witness_latched : ∃ lo : Word, runState.Canonical ∧ runState.Serves .svc lo.toNat ∧ isLo lo.toNat = true ∧
    runState.Serves .svc (lo.toNat + 4) ∧ isLo (lo.toNat + 4) = false :=
  ⟨BitVec.ofNat 32 aSysPassLo, runState_canonical, ⟨by decide, by decide, _, rfl, by decide⟩, by decide, ⟨by decide, by decide, _, rfl, by decide⟩, by decide⟩

/-- MemoryAccesses: Millpond, the last word of tile 3's data memory, the secure region of an engine that is not wiped. -/
theorem test_witness_memory : runState.Canonical ∧ runState.noAccess .stew = false ∧ runState.svc.stewDown = false ∧ runState.ms.ecc = [] ∧
    runState.ms.clipBad = [] ∧ runState.flt.armed = none ∧ (inMpd 0x10000000 = true ∧ runState.domOn (72 + quadOf 0x10000000) = true) ∧
    (regionOf 0x200DFFFC = .tile 3 0x1FFFC ∧ 0x1FFFC < 0x20000 ∧ runState.domOn 3 = true ∧ runState.domOn (64 + 3 / 8) = true) ∧
    0x200DFFFC % AccSize.word.bytes = 0 ∧ 0x200DFFFE % AccSize.word.bytes ≠ 0 ∧ regionOf 0x1803FFFC = .secure ∧ runState.secDead = false :=
  ⟨runState_canonical, by decide⟩

/-- HangsAndDefaultTarget: an unmapped address, and the tile-window offsets from 0x31000 up. -/
theorem test_witness_hang : runState.Canonical ∧ runState.noAccess .svc = false ∧ runState.svc.stewDown = false ∧
    regionOf (0x30000000#32).toNat = .unmapped ∧ regionOf (0x200F1000#32).toNat = .tile 3 0x31000 := ⟨runState_canonical, by decide⟩

def answer (c : Instr) (s : State) : Option (Resp × Word) := match exec c s with | .next u => some (u.svc.resp, u.svc.rdata) | _ => none

theorem test_half_write_refused : answer (.registerWrite .svc 0x40000004#32 .half 5#32) runState = some (.error, 0) := by decide
theorem test_write_hangs : answer (.registerWrite .svc 0x30000000#32 .word 5#32) runState = some (.hang, 0) := by decide
theorem test_read_hangs : answer (.readClear .svc 0x30000000#32 .word 0) runState = some (.hang, 0) := by decide
/-- Reading back two bytes of a stored word, least significant byte lowest. -/
theorem test_memory_bytes : (match exec (.registerWrite .svc 0x10000010#32 .word 0x11223344#32) runState with
    | .next u => answer (.readClear .svc 0x10000012#32 .half 0) u | _ => none) = some (.ok, 0x1122#32) := by decide
theorem test_pass_latch : (match exec (.loRead .svc (BitVec.ofNat 32 aSysPassLo)) { runState with grid := { runState.grid with p := 0x123400000007#48 } } with
    | .next u => some (u.svc.rdata, (match exec (.readClear .svc (BitVec.ofNat 32 (aSysPassLo + 4)) .word 0) u with | .next w => w.svc.rdata | _ => 0))
    | _ => none) = some (7#32, 0x1234#32) := by decide

/-! ### The pass grid and the exchange -/

/-- Strobe: an engine in DORMANT, and a running grid with and without a pending K. -/
theorem test_witness_strobe : ({ runState with pwr := { runState.pwr with mode := .dormant } } : State).pwr.mode = .dormant ∧
    ∀ g ∈ [runState.grid, { runState.grid with pendingK := some 7 }], g.ran = true ∧ g.state ≠ .hold ∧ g.fnFade = none ∧ g.pendingRe = false ∧ g.acts = [] := by decide

def freeState : State := { runState with grid := { runState.grid with state := .free }, clk := { sel := some 3, st := .locked } }
def slewState (on : Bool) : State :=
  { runState with grid := { runState.grid with state := .slew, alignRun := 1024, fnOn := on }, dom := { st := 2 }, pwr := { runState.pwr with mode := if on then .run else .sync } }

/-- AnchoringAndAligned. -/
theorem test_witness_anchor : freeState.grid.state = .free ∧ freeState.grid.pendingK = none ∧ freeState.clk.sel = some 3 ∧ freeState.net.timeValid = true := by decide
theorem test_witness_aligned : (slewState true).grid.state = .slew ∧ 1024 ≤ (slewState true).grid.alignRun ∧ (slewState true).grid.fnOn = true ∧
    (slewState true).grid.fnFade = none ∧ (slewState false).grid.state = .slew ∧ 1024 ≤ (slewState false).grid.alignRun ∧
    (slewState false).grid.fnOn = false ∧ (slewState false).scn.deals = [] ∧ (slewState false).dom.st ≠ 0 ∧
    (slewState false).pwr.mode = .sync ∧ (slewState false).twin.on = false := by decide

def plainDesc (n : Nat) (zero : Bool) : XDesc := { mark := 0, kind := 0, zeroSrc := zero, src := 0x200C0000, dst := 0x20100FFC, count := n }
def descState (n : Nat) (zero : Bool) : State := ({ runState with clusters := [(0, { descs := [plainDesc n zero] })] } : State).wrB 0x200C0000 9

/-- ExchangeDescriptor: a descriptor of no element, of one word, and one that writes a zero. -/
theorem test_witness_descriptor : ∀ s ∈ [descState 0 false, descState 1 false, descState 1 true],
    canonB s = true ∧ s.graphRuns = true ∧ (s.cluster 0).fabricReset = false ∧ s.domOn 64 = true ∧ s.scn.running = none ∧ s.scn.progs = [] ∧ s.scn.backs = [] ∧
    s.flt.armed = none ∧ s.ms.ecc = [] ∧ s.ms.clipBad = [] ∧ ((s.cluster 0).descs.drop (s.cluster 0).next).length = 1 ∧
    s.xchgReach 0 0x200C0000 = true ∧ s.xchgReach 0 0x20100FFC = true ∧ inMpd 0x20100FFC = false ∧ s.domOn (tileOfAddr 0x20100FFC) = true ∧
    s.domOn (tileOfAddr 0x200C0000) = true ∧ (s.tile (tileOfAddr 0x200C0000)).muted = false ∧ (s.tile (tileOfAddr 0x200C0000)).rampK = 0 := by decide
theorem test_descriptor : [descState 0 false, descState 1 false, descState 1 true].map (fun s => match exec (.exchangeDescriptor 0) s with
    | .next u => some (u.rdB 0x20100FFC, (u.cluster 0).next) | _ => none) = [some (0, 1), some (9, 1), some (0, 1)] := by decide

def zoneNode : NodeRec := { inst := 4, type := 0x0C, cluster := 0, tile := some 3, nIn := 1, nOut := 1 }
def floorState : State := { runState with scn := { nodes := [zoneNode] }, image := some { build := 77 }, nodes := [(4, { w := [(0, 5), (5, -3), (6, 2700000)] })] }

/-- LearnedFloor. -/
theorem test_witness_floor : floorState.Canonical ∧ floorState.node 4 = some zoneNode ∧ floorState.image = some { build := 77 } ∧ zoneNode.type = 0x0C ∧
    zoneNode.custom = false ∧ floorState.nvm.queue.length < 64 ∧ mwf 0 (floorState.nodeSt 4).w = true ∧
    (3600 * floorState.fs / 64 : Nat) ≤ mget 0 (floorState.nodeSt 4).w 6 := ⟨canonical_of (by decide), by decide⟩
theorem test_floor : (match exec (.learnedFloor 4) floorState with
    | .next u => some (u.rd32 (tileBase 3), mget 0 (u.nodeSt 4).w 5) | _ => none) = some (0xFFFFFFFD#32, 5) := by decide

/-! ### Scenes, deals, cues -/

def part : TilePart := { cluster := 0, tile := 3, entry := 50, xfEntry := 60 }
def delta : DeltaSet := { from_ := 1, tiles := [part] }
def scene7 : SceneRec := { scene := 7, topo := some 2, deltas := [delta] }
def settings : DomainSettings := { role := 1, device := 5, domain := 3, manager := 9, standby := 10 }
def recall7 : Recall := { req := { scene := 7, priority := 0, rank := 0 }, n := 990, s0 := 1000, s := 1000, e := 1048, topo := some 1, last := 1048 }
def sceneState : State :=
  { netUp runState with image := some { scenes := [scene7, { scene := 8 }], domain := some settings }, scn := { frontTopo := 1 }, nvm := { runState.nvm with slot0 := some 99 } }
def recallState (r : Recall) (tick : Nat) : State :=
  { sceneState with grid := { sceneState.grid with tick := tick }, scn := { sceneState.scn with running := some r } }
def soonState : State := recallState { recall7 with staged := true } 1000
def doneState : State := recallState { recall7 with staged := true, started := true } 1048
def audioState : State := { sceneState with scn := { others := [{ recall7 with topo := none }] } }

/-- Recalls: a staged recall at its start pass, a started one at its end, and a scene that becomes audible. -/
theorem test_witness_recalls : soonState.Canonical ∧ soonState.sceneRec 7 = some scene7 ∧ scene7.entries = [] ∧ scene7.full = false ∧ scene7.scope = [] ∧
    soonState.scn.running = some { recall7 with staged := true } ∧ soonState.deltaRun { recall7 with staged := true } = some delta ∧
    delta.tiles = [part] ∧ delta.added = [] ∧ delta.removed = [] ∧ delta.xchg = [] ∧ (soonState.tile (8 * part.cluster + part.tile)).run ≠ .halted ∧
    recall7.s0 ≤ soonState.grid.tick ∧ recall7.e ≠ recall7.s0 := ⟨canonical_of (by decide), by decide⟩
theorem test_witness_swap : doneState.Canonical ∧ doneState.scn.running = some { recall7 with staged := true, started := true } ∧
    doneState.deltaRun { recall7 with staged := true, started := true } = some delta ∧ doneState.sceneRec 7 = some scene7 ∧
    recall7.e ≤ doneState.grid.tick ∧ part.powerDown = false ∧ recall7.xfLen = 0 ∧ doneState.scn.others = [] ∧ (doneState.tile 3).run ≠ .halted := ⟨canonical_of (by decide), by decide⟩
theorem test_witness_audible : audioState.Canonical ∧ audioState.scn.running = none ∧ audioState.scn.others = [{ recall7 with topo := none }] ∧
    recall7.audible = false ∧ recall7.fetching = false ∧ recall7.late = false ∧ ({ recall7 with topo := none } : Recall).topo = none ∧ recall7.s ≤ audioState.grid.tick ∧ audioState.sceneRec 7 = some scene7 :=
  ⟨canonical_of (by decide), by decide⟩
theorem test_start_pass : (match exec .startPass soonState with | .next u => some ((u.tile 3).onBack, (u.tile 3).sf.pc) | _ => none) = some (true, 60) := by decide

def readOp : FlashOp := { kind := .read, prio := 1, use := .coldScene 7, addr := 0 }
def coldImage (d : List Byte) : Image := { scenes := [{ scene7 with hot := false, digest := d }], domain := some settings }
def fetchState (d : List Byte) : State := { recallState { recall7 with fetching := true, s0 := 1002 } 1000 with
  image := some (coldImage d), nvm := { sceneState.nvm with op := some readOp } }
def hotImage : Image := { scenes := [{ scene7 with hot := true, bytes := [0, 0, 0, 0] }] }
/-- A word of the staging area, at the start of area 2 of the default partition (R103), cannot be corrected. -/
def hotState : State := { sceneState with image := some hotImage, nvm := { sceneState.nvm with op := some readOp }, ms := { ecc := [(0x11400000, 64)] } }

/-- SceneRecords: a record whose digest is right, and one whose digest is not. -/
theorem test_witness_cold_fetch : (∀ d ∈ [sha256 [], []], let s := fetchState d
      s.nvm.op = some readOp ∧ readOp.use = .coldScene 7 ∧ s.nvm.waiting = [] ∧ s.nvm.suspended = none ∧
      s.scn.deals = [] ∧ s.image = some (coldImage d) ∧ s.isHot 7 = false ∧ s.freeSlot = some 0 ∧
      s.scn.running = some { recall7 with fetching := true, s0 := 1002 } ∧ s.scn.others = [] ∧ recall7.late = false ∧ 1002 ≤ s.grid.tick + 2) ∧
    sha256 (((fetchState (sha256 [])).nvm.misread readOp.addr []).fbs readOp.addr ((fetchState (sha256 [])).recordAt 7).2.1) = ((fetchState (sha256 [])).recordAt 7).2.2 ∧
    sha256 (((fetchState []).nvm.misread readOp.addr []).fbs readOp.addr ((fetchState []).recordAt 7).2.1) ≠ ((fetchState []).recordAt 7).2.2 := by decide +kernel
theorem test_witness_hot_refetch : hotState.isHot 7 = true ∧ hotState.stageBad 7 = true ∧ hotState.scn.running = none ∧ hotState.nvm.op = some readOp ∧
    readOp.kind ≠ .erase := by decide

def heardState (l : List (BitVec 32)) : State := { sceneState with dom := { windows := [(10, some { h := 20#32, seen := l })] } }
/-- A header with the MAC of a message under the test key. -/
def sealed (h : MsgHdr) (b : MsgBody) : MsgHdr := { h with mac := sceneState.msgMac h b }
def hdr (q : BitVec 32) : MsgHdr := sealed { goodHdr with seq := q } .leave

/-- The bytes and the MAC of a LEAVE message under the key 99, as HMAC-SHA-256 of the standard library of Python gives it. -/
theorem test_mac : msgBytes goodHdr .leave = [1, 4, 0, 0, 0, 3, 0, 5, 0, 0, 0, 0, 0, 0, 0, 1, 0, 0, 0, 0, 3, 0xE8, 3, 0xE7] ∧
    ((hmac (leBytes 32 99) (msgBytes goodHdr .leave)).take 16) = [70, 126, 150, 125, 54, 73, 82, 86, 146, 34, 54, 114, 158, 218, 35, 89] := by decide +kernel

/-- MessageAcceptance: interfaces that bring a message and that bring none; an engine without settings or key, a wrong MAC, a repetition,
a new number. -/
theorem test_witness_message_in : (runState.msgIn goodHdr .leave = none) ∧ (sceneState.portUp 0 = true ∧ sceneState.msgIn goodHdr .leave = some (sceneState.setRxBuf 0 [])) ∧
    ({ goodHdr with held := true } : MsgHdr).held = true ∧
    (let h : MsgHdr := { goodHdr with link := some 1 }
     let m := msgBytes h .leave ++ h.mac
     (sceneState.msgIn h .leave = none) ∧ m ∈ ((sceneState.setLink 1 { inbox := [m] }).link 1).inbox) ∧
    (let t : State := { sceneState with svc := { stewDown := true } }
     t.svc.stewDown = true ∧ (t.msgIn goodHdr .leave).isSome = true) := by decide +kernel
theorem test_witness_accept : runState.domSet = none ∧ ({ sceneState with nvm := runState.nvm } : State).keyIn false = false ∧
    (heardState [20#32]).domSet = some settings ∧ (heardState [20#32]).keyIn false = true ∧ (heardState [20#32]).graphRuns = true ∧
    (heardState [20#32]).macOk goodHdr .leave = false ∧ (heardState [20#32]).macOk (hdr 1) .leave = true ∧ (hdr 1).domain = settings.domain ∧
    (heardState [20#32]).timeNear (hdr 1) = true ∧ (hdr 1).version = 1 ∧ msgLen .leave ≤ 1024 ∧
    mget none (heardState [20#32]).dom.windows (2 * goodHdr.src.toNat + if goodHdr.own then 1 else 0) = some { h := 20#32, seen := [20#32] } ∧
    ((20#32 - 20#32).toInt ≤ 0 ∧ -1023 ≤ (20#32 - 20#32).toInt ∧ 20#32 ∈ [20#32]) ∧ ¬((21#32 - 20#32).toInt ≤ 0) ∧ 19#32 ∉ [20#32] ∧
    (seqTake (some { h := 20#32, seen := [20#32] }) 21#32).1 = .fresh := by decide +kernel

/-- Number 20 has come; 19 and 21 have not. -/
theorem test_accept : [19#32, 20#32, 21#32].map (fun q => ((heardState [20#32]).domAccept (hdr q) .leave).1) = [true, false, true] := by decide +kernel

/-- The conditions of a message that the engine acts on, by evaluation; it came over Ethernet. -/
def actsB (s : State) (h : MsgHdr) (b : MsgBody) : Bool :=
  h.link == none && s.portUp (if h.port1 then 1 else 0) && !s.svc.stewDown && s.keyIn h.key1 && s.graphRuns && s.macOk h b && s.timeNear h
    && (match s.domSet with | some d => h.domain == d.domain | none => false) && h.version == 1 && decide (msgLen b ≤ 1024)
    && decide ((seqTake (mget none s.dom.windows (2 * h.src.toNat + if h.own then 1 else 0)) h.seq).1 = .fresh) && s.dstMine h.dst

theorem acts {s : State} {h : MsgHdr} {b : MsgBody} (e : actsB s h b = true) : Stated.actedOn s h b := by
  simp only [actsB, Bool.and_eq_true, Bool.not_eq_true', beq_iff_eq, decide_eq_true_eq] at e
  obtain ⟨⟨⟨⟨⟨⟨⟨⟨⟨⟨⟨h1, h2⟩, h3⟩, h4⟩, h5⟩, h6⟩, h7⟩, h8⟩, h9⟩, h10⟩, h11⟩, h12⟩ := e
  refine ⟨.inr (.inl ⟨h1, h2⟩), h3, h4, h5, h6, h7, ?_, h9, h10, h11, h12⟩
  cases hd : s.domSet with
  | none => simp [hd] at h8
  | some d => rw [hd] at h8; exact ⟨d, rfl, by simpa using h8⟩

theorem both {s : State} {h : MsgHdr} {b : MsgBody} {p : Prop} (e : actsB s h b = true ∧ p) : Stated.actedOn s h b ∧ p := ⟨acts e.1, e.2⟩

/-- A message that a race link has brought. -/
theorem test_witness_link_message : let h := { hdr 1 with link := some 1 }
    let s := { sceneState with net := {}, race := { links := [(1, { inbox := [msgBytes h .leave ++ h.mac] })] } }
    Stated.actedOn s h .leave :=
  ⟨.inr (.inr ⟨1, by decide +kernel, by decide +kernel⟩), by decide, by decide +kernel, by decide, by decide +kernel, by decide +kernel,
    ⟨settings, by decide +kernel, by decide +kernel⟩, by decide +kernel, by decide, by decide +kernel, by decide +kernel⟩

def hotDeal : DealMsg := { id := 7, scene := 8, prio := 3, sec := 1001, ns := 0 }
def dealt (s : State) (d : DealMsg) : State := Stated.heard s (sealed goodHdr (.deal d)) (.deal d)
def quietState : State := { sceneState with grid := { sceneState.grid with fnOn := false } }
def someDeal (n : Nat) (s due : Option PassIx) : Deal := { id := n, scene := 8, priority := 3, xf := none, time := { sec := 1001, ns := 0 }, s := s, due := due, staged := true }
def fullState : State := { sceneState with scn := { sceneState.scn with deals := List.replicate 16 (someDeal 1 none none) } }
def seenState : State := { sceneState with scn := { sceneState.scn with recentDeals := [(7, 8, 48000100#48)] } }

/-- Deals: each answer to a deal: for another device, seen before, of no scene, of no delta set, too many, held, of a scene with topology
work. -/
theorem test_witness_deals :
    (let d := { hotDeal with device := some 6 }
     Stated.actedOn sceneState (sealed goodHdr (.deal d)) (.deal d) ∧ (dealt sceneState d).dealMine d = false) ∧
    (Stated.actedOn seenState (sealed goodHdr (.deal hotDeal)) (.deal hotDeal) ∧ (dealt seenState hotDeal).scn.recentDeals.any (fun x => x.1 == hotDeal.id.toNat) = true) ∧
    (let d := { hotDeal with scene := 9 }
     Stated.actedOn sceneState (sealed goodHdr (.deal d)) (.deal d) ∧ (dealt sceneState d).dealMine d = true ∧ (dealt sceneState d).scn.recentDeals = [] ∧
       (dealt sceneState d).sceneRec 9 = none) ∧
    (let d := { hotDeal with scene := 7 }
     let s : State := { sceneState with scn := {} }
     Stated.actedOn s (sealed goodHdr (.deal d)) (.deal d) ∧ (dealt s d).dealMine d = true ∧ (dealt s d).scn.recentDeals = [] ∧ (dealt s d).sceneRec 7 = some scene7 ∧
       (dealt s d).topoWork scene7 = true ∧ (dealt s d).deltaOf scene7 = none) ∧
    (Stated.actedOn fullState (sealed goodHdr (.deal hotDeal)) (.deal hotDeal) ∧ (dealt fullState hotDeal).sceneRec 8 = some { scene := 8 } ∧
      (dealt fullState hotDeal).topoWork { scene := 8 } = false ∧ 16 ≤ (dealt fullState hotDeal).scn.deals.length) ∧
    (Stated.actedOn quietState (sealed goodHdr (.deal hotDeal)) (.deal hotDeal) ∧ (dealt quietState hotDeal).dealMine hotDeal = true ∧
      (dealt quietState hotDeal).sceneRec 8 = some { scene := 8 } ∧ (dealt quietState hotDeal).topoWork { scene := 8 } = false ∧
      (dealt quietState hotDeal).scn.deals.length < 16 ∧ (dealt quietState hotDeal).scn.recentDeals = []) ∧
    (let d := { hotDeal with scene := 7 }
     Stated.actedOn sceneState (sealed goodHdr (.deal d)) (.deal d) ∧ (dealt sceneState d).dealMine d = true ∧ (dealt sceneState d).scn.recentDeals = [] ∧
       (dealt sceneState d).sceneRec 7 = some scene7 ∧ (dealt sceneState d).topoWork scene7 = true ∧ (dealt sceneState d).deltaOf scene7 = some delta ∧
       (dealt sceneState d).scn.deals.length < 16) := by
  refine ⟨both ?_, both ?_, both ?_, both ?_, both ?_, both ?_, both ?_⟩ <;> decide +kernel

def deal8 (p : PassIx) : Deal := someDeal 7 (some (p + 4)) (some p)
def dealtState (p : PassIx) : State := { sceneState with scn := { sceneState.scn with deals := [deal8 p] } }
def issue (sec : Nat) (targets ready : List Nat) : IssuedDeal := { id := 7, time := { sec := sec, ns := 0 }, targets := targets, ready := ready }
def issuingState : State := { sceneState with dom := { st := 4 }, scn := { issued := [issue 1001 [5] []] } }
def lateState : State := { sceneState with scn := { issued := [issue 1000 [5] []] } }
def cancelled (s : State) : State := Stated.heard s (sealed goodHdr (.dealCancel 7)) (.dealCancel 7)

/-- Deals: a cancel in time, one too late, one of a deal that has gone and one of an unknown deal. -/
theorem test_witness_deal_cancel : (Stated.actedOn (dealtState 48000100#48) (sealed goodHdr (.dealCancel 7)) (.dealCancel 7) ∧
      (cancelled (dealtState 48000100#48)).scn.deals.find? (fun x => x.id == (7#32).toNat) = some (deal8 48000100#48) ∧
      (deal8 48000100#48).s.isSome = true ∧ (deal8 48000100#48).due = some 48000100#48 ∧ passDiff (cancelled (dealtState 48000100#48)).grid.p 48000100#48 < 0) ∧
    (Stated.actedOn (dealtState 48000000#48) (sealed goodHdr (.dealCancel 7)) (.dealCancel 7) ∧
      (cancelled (dealtState 48000000#48)).scn.deals.find? (fun x => x.id == (7#32).toNat) = some (deal8 48000000#48) ∧
      0 ≤ passDiff (cancelled (dealtState 48000000#48)).grid.p 48000000#48) ∧
    (Stated.actedOn seenState (sealed goodHdr (.dealCancel 7)) (.dealCancel 7) ∧ (cancelled seenState).scn.deals = [] ∧
      (cancelled seenState).scn.recentDeals.find? (fun x => x.1 == (7#32).toNat) = some (7, 8, 48000100#48)) ∧
    (Stated.actedOn sceneState (sealed goodHdr (.dealCancel 7)) (.dealCancel 7) ∧ (cancelled sceneState).scn.deals = [] ∧ (cancelled sceneState).scn.recentDeals = []) := by
  refine ⟨both ?_, both ?_, both ?_, both ?_⟩ <;> decide +kernel

def answered (s : State) : State := Stated.heard s (sealed goodHdr (.dealAck 7 8 0 0)) (.dealAck 7 8 0 0)
theorem test_witness_deal_answer : (Stated.actedOn issuingState (sealed goodHdr (.dealAck 7 8 0 0)) (.dealAck 7 8 0 0) ∧ (answered issuingState).manages = true ∧
      (answered issuingState).scn.issued.find? (fun x => x.id == (7#32).toNat) = some (issue 1001 [5] []) ∧ ((answered issuingState).rosterE 5).twin = false) ∧
    (Stated.actedOn sceneState (sealed goodHdr (.dealAck 7 8 0 0)) (.dealAck 7 8 0 0) ∧ (answered sceneState).manages = false) := by
  refine ⟨both ?_, both ?_⟩ <;> decide +kernel
/-- The manager takes the device off the list of those to answer and notes it ready. -/
theorem test_deal_ready : (match exec (.dealAck (sealed goodHdr (.dealAck 7 8 0 0)) 7 8 0 0) issuingState with | .next u => u.scn.issued | _ => []) = [issue 1001 [] [5]] := by
  decide +kernel
theorem test_witness_deal_due : (dealtState 48000000#48).scn.deals = [deal8 48000000#48] ∧ (dealtState 48000000#48).timed = true ∧
    (dealtState 48000000#48).svc.stewDown = false ∧ (deal8 48000000#48).staged = true ∧
    (deal8 48000000#48).due = some (dealtState 48000000#48).grid.p ∧ (deal8 48000000#48).s = some ((dealtState 48000000#48).grid.p + 4) := by decide
theorem test_witness_deal_deadline : lateState.scn.issued = [issue 1000 [5] []] ∧
    0 ≤ passDiff lateState.grid.p (lateState.passOf { sec := 1000, ns := 0 } - BitVec.ofNat 48 (lateState.fs / 100)) := by decide

def trig (k : TrigKind) : Trigger := { kind := k, level := 1, rule := 0 }
def trigImage (k : TrigKind) : Image := { triggers := [trig k], domain := some settings }
def cueState (k : TrigKind) (c : Cues) : State := { sceneState with image := some (trigImage k), cue := c }
def edgeCues : Cues := { raw := 4, state := 4, sampled := true, held := [(2, 6)], edge := [(0, 1)] }

/-- Cues: a rising edge of pin 2 with a debounce count of 5, a stale pin, a domain cue, a stuck status pin, a time and a pulse. -/
theorem test_witness_cues : (cueState (.pinEdge 2 0 5) edgeCues).image = some (trigImage (.pinEdge 2 0 5)) ∧ (trigImage (.pinEdge 2 0 5)).triggers = [trig (.pinEdge 2 0 5)] ∧
    edgeCues.sampled = true ∧ edgeCues.stateDue = [] ∧ 5 + 1 ≤ mget 0 edgeCues.held 2 ∧ edgeCues.state.getLsbD 2 = edgeCues.raw.getLsbD 2 ∧
    mget 0 edgeCues.edge 0 = (if edgeCues.raw.getLsbD 2 then 1 else 2) ∧ (trig (.pinStale 2 5)).kind = .pinStale 2 5 ∧
    mget 0 ({ statBad := [(1, 8)] } : Cues).statBad 1 = 8 ∧ (cueState (.time 1000 0) {}).timed = true ∧
    (cueState (.time 1000 0) {}).grid.p = BitVec.ofNat 48 (1000 * (cueState (.time 1000 0) {}).fs) ∧
    0 < passDiff (BitVec.ofNat 48 (1001 * (cueState (.time 1001 0) {}).fs)) (cueState (.time 1001 0) {}).grid.p := by decide
theorem test_witness_domain_cue : (Stated.actedOn (cueState (.domainCue 12) {}) (sealed goodHdr (.cue 12 1 none)) (.cue 12 1 none) ∧
      (cueState (.domainCue 12) {}).image = some (trigImage (.domainCue 12)) ∧ (trig (.domainCue 12)).kind = .domainCue 12) ∧
    (Stated.actedOn (cueState (.domainCue 12) {}) (sealed goodHdr (.cue 12 1 (some (1001, 5)))) (.cue 12 1 (some (1001, 5))) ∧ (trigImage (.domainCue 12)).triggers = [trig (.domainCue 12)]) := by
  refine ⟨both ?_, both ?_⟩ <;> decide +kernel
theorem test_witness_timed_cue : let s := cueState (.domainCue 12) { timedCues := [(12, 1, { sec := 1000, ns := 0 })] }
    s.timed = true ∧ s.cue.hits = [] ∧ s.grid.p = s.passOf { sec := 1000, ns := 0 } := by decide
theorem test_witness_pulse : ∀ n ∈ [0, 3], ({ pulses := [{ pin := 1, left := n }] } : Cues).pulses = [{ pin := 1, left := n }] := by decide
theorem test_edge_once : (match exec (.cuePinEdge 2) (cueState (.pinEdge 2 0 5) edgeCues) with
    | .next u => some (u.cue.hits.length, (match exec (.cuePinEdge 2) u with | .next w => w.cue.hits.length | _ => 9)) | _ => none) = some (1, 1) := by decide

/-! ### Serial ports, converters, microphones -/

/-- Port 1 with a control word, a port state, and a frame of 8 slots of 16 bits. -/
def portState (ctrl : Word) (p : Port) : State :=
  ((runState.setReg (aPortCtrl 1) ctrl).setFld (aPortFrame 1) 5 0 8).setPort 1 p

def twinSt (st : TwinSt) : State := { runState with twin := { on := true, st := st } }

/-- PortDecisions: who decides, and a port switched on, off, and refused. -/
theorem test_witness_decisions : runState.twin.on = false ∧ ((twinSt .active).twin.on = true ∧ (twinSt .active).twin.st = .active ∧ (twinSt .active).twin.out = []) ∧
    ((twinSt .shadow).twin.on = true ∧ (twinSt .shadow).twin.st ≠ .active) := by decide
def portOn (v : Word) : State := (portState 0 {}).setReg (aPortCtrl 1) (v &&& 0x00000F1D#32)
theorem test_witness_port_on : (1#32).getLsbD 0 = true ∧ (5#32).getLsbD 0 = true ∧ (portState 0 {}).flag (aPortCtrl 1) 0 = false ∧
    ((portState 0 {}).port 1).st = .off ∧ (portOn 1#32).pSlots 1 ≠ 0 ∧ (portOn 5#32).pSlots 1 ≠ 0 ∧ (portOn 5#32).pMaster 1 = true ∧
    (portOn 5#32).pMember 1 = false ∧ (portOn 1#32).domOn 76 = true ∧ (portOn 5#32).domOn 76 = true := by decide
set_option maxRecDepth 4000 in
theorem test_witness_slave_config : (portOn 1#32).portCfgErr 1 = false := by decide
set_option maxRecDepth 4000 in
theorem test_witness_master_config : (portOn 5#32).portCfgErr 1 = false := by decide
theorem test_witness_port_off : let s := portState 1#32 { st := .run }
    (0#32).getLsbD 0 = false ∧ s.flag (aPortCtrl 1) 0 = true ∧ (((0#32 &&& 0x00000F1D#32) ^^^ s.reg (aPortCtrl 1)) &&& ~~~(0x00000C01#32)) = 0 ∧
    1 % 4 ≠ 0 ∧ (s.port 1).st = .run ∧ (((4#32 &&& 0x00000F1D#32) ^^^ s.reg (aPortCtrl 1)) &&& ~~~(0x00000C01#32)) ≠ 0 ∧ (4#32).getLsbD 0 = false := by decide
/-- The write is recognised in the next pass; then a slave is in SEARCH and a master in RUNIN. -/
theorem test_port_on : [1#32, 5#32].map (fun v => match exec (.portEnable 1 v) (portState 0 {}) with
    | .next u => some ((u.port 1).st, u.grid.acts == [(1001, Act.portOn 1)], ((u.act (.portOn 1)).port 1).st) | _ => none) =
    [some (.off, true, .search), some (.off, true, .runin)] := by decide

/-- Ports: the states of a port. -/
theorem test_witness_port_states : runState.twin.on = false ∧ canonB (portState 1#32 { st := .search, found := 8 }) = true ∧ (let s := portState 1#32 { st := .search, found := 8 }
      8 ≤ (s.port 1).found ∧ (s.port 1).st = .search ∧ s.pMember 1 = false) ∧
    (portState 1#32 { st := .runin }).twin.on = false ∧ ((portState 1#32 { st := .runin }).port 1).st = .runin ∧
    ((portState 1#32 { st := .ramp }).port 1).st = .ramp ∧ (let s := portState 1#32 { st := .stopping, stopAt := 1000 }
     (s.port 1).restart = false ∧ (s.port 1).stopAt ≤ s.grid.tick ∧ canonB s = true ∧ s.pMaster 1 = false ∧ (portState 5#32 { st := .stopping }).pMaster 1 = true) ∧
    ((portState 1#32 { st := .stopping, stopAt := 1001 }).port 1).stopAt > runState.grid.tick ∧
    (let s := portState 1#32 { st := .run }
     (s.port 1).st = .run ∧ s.pMaster 1 = false ∧ (s.cand 9).valid = false ∧ (s.port 1).cls = 0 ∧
     (s.port 1).refIn + (if s.pAsync 1 then 131072 else 4 * s.cyc) ≤ (s.grid.tick + 1) * s.cyc ∧ (∀ c, c < 8 → s.srcPort c ≠ 1)) ∧
    (let s := portState 1#32 { st := .hold, healthy := 64 }
     64 ≤ (s.port 1).healthy ∧ (s.port 1).lost = false ∧ (s.port 1).st = .hold) ∧
    (let s := portState 5#32 { st := .run, bad := 8 }
     s.pMaster 1 = true ∧ 8 ≤ (s.port 1).bad ∧ (s.port 1).st = .run) := by decide

/-- Ports: frames that arrive, a frame sent in its window and one outside it, a rate measurement, a released pair. -/
theorem test_witness_frames : (let s := portState 1#32 { st := .search }
      canonB s = true ∧ s.lenOf 1 128 = s.pB 1 ∧ s.pAsync 1 = false ∧ s.domOn 76 = true ∧ (s.port 1).st = .search) ∧
    (let s := portState 0x101#32 { st := .run }
     s.pAsync 1 = true ∧ (s.port 1).st ≠ .off ∧ ∀ c, c < 8 → s.srcPort c ≠ 1) ∧
    (let s := portState 1#32 { st := .run, nextOut := some 1000 }
     s.pAsync 1 = false ∧ s.domOn 76 = true ∧ s.pMember 1 = false ∧ (s.port 1).st = .run ∧ (s.port 1).nextOut = some 1000 ∧ s.lenOf 1 128 = s.pB 1 ∧
     s.refOf 1 true 7 = 7 ∧ s.fld (aPortCtrl 1) 11 10 = 0 ∧ s.pOffset 1 + s.pDlen 1 ≤ s.pSw 1 ∧
     (∀ d ∈ [-((3 * s.cyc / 4 : Nat) : Int), ((3 * s.cyc / 4 : Nat) : Int) - 1], -(3 * s.cyc / 4 : Nat) ≤ (s.grid.tick - 1000) * s.cyc + d ∧
       (s.grid.tick - 1000) * s.cyc + d < (3 * s.cyc / 4 : Nat)) ∧
     (3 * s.cyc / 4 : Nat) ≤ ((s.grid.tick - 1000) * s.cyc + (3 * s.cyc / 4 : Nat) : Int) ∧ s.reg (aPortHopRx 1) = 0) ∧
    (let s := portState 1#32 { st := .run, na := [(2, { act := true, span := 5, since := 5 })] }
     0 < 10240 ∧ (s.port 1).st ≠ .off ∧ s.pAsync 1 = false ∧ (mget {} (s.port 1).na 2).act = true ∧ (mget {} (s.port 1).na 2).span ≤ (mget {} (s.port 1).na 2).since) := by
  decide
/-- R344: slot 0 of one slot of 16 bits sends 0x8000 as a 1 and fifteen 0s. -/
theorem test_dout : (match exec (.tdmFrame 1 true 7 16 true [])
      ((((portState 1#32 { st := .run, nextOut := some 1000, env := { ramp := some 0 } }).setFld (aPortFrame 1) 5 0 1).setReg (aPortTxmask 1) 1#32).setReg (aPortHopTx 1) 0x80000#32 |>.wr32 0x80000 0x80000000#32) with
    | .next u => (u.port 1).dout | _ => []) = some true :: List.replicate 15 (some false) := by decide
theorem test_port_lock : (match exec (.portLock 1 77) (portState 1#32 { st := .search, found := 8 }) with
    | .next u => some ((u.port 1).st, (u.port 1).lockPhase) | _ => none) = some (.runin, 77) := by decide

/-- Converter 2 of port 1, with a control word and a state. -/
def srcState (ctrl : Word) (x : Converter) : State := (runState.setReg (aSrcCtrl 2) ctrl).setSrc 2 x
def micState (ctrl en : Word) (on : Bool) (x : Mic) : State :=
  { (runState.setReg aPdmCtrl ctrl).setReg aPdmMicEn en with pdm := { en := on, clkFrom := 5, mics := mset {} [] 9 x } }

/-- ConvertersAndMicrophones. -/
theorem test_witness_converters : canonB (srcState 0 {}) = true ∧ ((srcState 0 {}).src 2).st = .off ∧ (srcState 0 {}).flag (aSrcCtrl 2) 0 = false ∧
    (∀ st ∈ [SrcSt.locked, .wait], let s := srcState 0x101#32 { st := st }
      canonB s = true ∧ s.flag (aSrcCtrl 2) 0 = true ∧ (((0x100#32 &&& 0x00F1FF01#32) ^^^ s.reg (aSrcCtrl 2)) &&& 0xFFFFFFFE#32) = 0 ∧ (s.src 2).st = st ∧
      (s.src 2).st ≠ .off ∧ (((0x200#32 &&& 0x00F1FF01#32) ^^^ s.reg (aSrcCtrl 2)) &&& 0xFFFFFFFE#32) ≠ 0) ∧
    (srcState 0x101#32 {}).srcChans 2 = 0 ∧ ((srcState 0x101#32 { st := .acquire, good := 1024 }).src 2).st = .acquire ∧
    ((srcState 0x101#32 { st := .acquire, good := 1024 }).src 2).fades 1000 = false := by decide

theorem only {x : Mic} {ctrl en : Word} {on : Bool} (hx : x ≠ {}) : ∀ j, j ≠ 9 → (micState ctrl en on x).mic j = {} := by
  intro j hj
  have h : (micState ctrl en on x).mic j = mget {} (mset {} [] 9 x) j := rfl
  rw [h, mget_mset_ne (by simp) (Ne.symm hj)]
  rfl

theorem test_witness_mic_on : let s := micState 0 0x200#32 false {}
    canonB s = true ∧ mwf {} s.pdm.mics = true ∧ s.flag aPdmCtrl 0 = false ∧ s.pdm.stopAt = none ∧ s.domOn 76 = true ∧ s.reg aPdmMicEn = 1#32 <<< 9 ∧
    (s.setReg aPdmCtrl (0x21#32 &&& 0x0000FFFF#32)).pdmCfgErr = false ∧ (s.setReg aPdmCtrl (0x21#32 &&& 0x0000FFFF#32)).flag aPdmCtrl (4 + micClk 9) = true := by decide
theorem test_witness_mic_off : (∀ j, j ≠ 9 → (micState 0x31#32 0x200#32 true { st := .run }).mic j = {}) ∧
    (let s := micState 0x31#32 0x200#32 true { st := .run }
     s.flag aPdmCtrl 0 = true ∧ s.pdm.en = true ∧ (0x30#32).getLsbD 0 = false ∧ ((0x30#32 &&& 0x0000FFFF#32) ^^^ s.reg aPdmCtrl) &&& ~~~(0x000000C1#32) = 0 ∧
     (s.mic 9).st ≠ .off ∧ s.flag aPdmMicEn 9 = true ∧ s.reg aPdmMicEn = 0#32 ||| (1#32 <<< 9) ∧ 0#32 &&& ((1#32 <<< 9) ||| 0xFFFF0000#32) = 0 ∧
     9 / 4 = 2 ∧ s.flag aPdmCtrl (4 + micClk 9) = true ∧ s.pdmCfgErr = false ∧ s.pdm.stopAt = none) :=
  ⟨only (by decide), by decide⟩
theorem test_witness_mic_starts : let s := micState 0x31#32 0x200#32 false {}
    s.flag aPdmMicEn 9 = true ∧ s.flag aPdmCtrl (4 + micClk 9) = true ∧ s.pdmCfgErr = false ∧ s.domOn 76 = true ∧ s.pdm.en = false ∧
    s.reg aPdmMicEn = 1#32 <<< 9 ∧ (micState 0x21#32 0x200#32 false {}).pdmCfgErr = false ∧ (micState 0x31#32 0xFF00#32 false {}).domOn 76 = true := by decide
theorem test_witness_mic_enable : let s := micState 0x31#32 0 true {}
    s.flag aPdmMicEn 9 = false ∧ 0x200#32 = (s.reg aPdmMicEn &&& 0x0000FFFF#32) ||| (1#32 <<< 9) ∧ s.pdm.en = true ∧ s.flag aPdmCtrl (4 + micClk 9) = true ∧ s.pdmCfgErr = false := by decide
theorem test_witness_mic_states : ((micState 1 1 true { st := .settle }).mic 9).st = .settle ∧
    (let c := (micState 1 1 true { st := .run, run := 1024 }).mic 9
     c.st = .run ∧ c.stuck = false ∧ c.stopping = false ∧ 1024 ≤ c.run ∧ (micState 1 1 true { st := .run, run := 1024 }).grid.acts = []) ∧
    (let c := (micState 1 1 true { st := .fade, stuck := true, healthy := 64 }).mic 9
     c.stuck = true ∧ c.clkHeld = false ∧ 64 ≤ c.healthy) := by decide
def clkState (x : Mic) : State := { micState 0x31#32 0x200#32 true x with pdm := { (micState 0x31#32 0x200#32 true x).pdm with clkBad := [(1, 8)], clkGood := [(1, 8)], clkStuck := if x.clkHeld then 2 else 0 } }
theorem test_witness_mic_clock : (let s := clkState { st := .run }
      8 ≤ mget 0 s.pdm.clkBad 1 ∧ s.pdm.clkStuck.getLsbD 1 = false ∧ micClk 9 = 1 ∧ (s.mic 9).st = .run ∧ (s.mic 9).stopping = false) ∧
    (let s := clkState { st := .fade, clkHeld := true }
     8 ≤ mget 0 s.pdm.clkGood 1 ∧ s.pdm.clkStuck.getLsbD 1 = true ∧ (s.mic 9).clkHeld = true ∧ s.pdm.stopAt = none ∧ s.pdm.en = true ∧ s.flag aPdmMicEn 9 = true ∧ s.flag aPdmCtrl (4 + micClk 9) = true ∧
     s.pdmCfgErr = false ∧ s.grid.tick ≠ s.pdm.clkFrom) ∧ (∀ j, j ≠ 9 → (clkState { st := .run }).mic j = {}) ∧
    (∀ j, j ≠ 9 → (clkState { st := .fade, clkHeld := true }).mic j = {}) :=
  ⟨by decide, by decide, only (ctrl := 0) (en := 0) (on := true) (x := { st := .run }) (by decide),
    only (ctrl := 0) (en := 0) (on := true) (x := { st := .fade, clkHeld := true }) (by decide)⟩

/-! ### Clocks -/

def clockState (c : Clk) : State :=
  ((({ runState with clk := c } : State).setReg aClkCtrl 0).setReg aClkRefPrio0 0x1F1F0504#32).setReg aClkLock 0x10#32
def cand4 (x : Cand) (c : Clk) : State := (clockState { c with cands := [(4, x)] }).setLink 0 { st := 2 }

/-- ClockTree: a block of 256 passes is good; references found, kept, lost; the wait to restore; the list. -/
theorem test_witness_refs : (∀ s ∈ [cand4 { since := 1 } {}, cand4 { blocks := 1 } { sel := some 3 }, cand4 { valid := true } { sel := some 4 }],
      canonB s = true ∧ s.twin.on = false ∧ (s.link (4 - 4)).st = 2 ∧ ((256 * s.refD 4 : Int) - 256 * s.refD 4).natAbs * 1000000 ≤ 20 * (256 * s.refD 4) ∧
      ¬(((0 : Int) - 256 * s.refD 4).natAbs * 1000000 ≤ 20 * (256 * s.refD 4)) ∧ s.refAuto = false) ∧
    ((cand4 { since := 1 } {}).cand 4).valid = false ∧ ((cand4 { since := 1 } {}).cand 4).blocks = 0 ∧ 1 ≤ ((cand4 { blocks := 1 } { sel := some 3 }).cand 4).blocks ∧
    (cand4 { valid := true } { sel := some 4 }).clk.sel = some 4 ∧ ((cand4 { valid := true } { sel := some 4 }).cand 4).valid = true := by decide
theorem test_witness_wtr : let s := (cand4 { valid := true } { sel := some 5, entry := 1, st := .locked, listed := true }).setReg aClkCtrl 0x01000001#32
    s.clk.sel.isSome = true ∧ s.refList[0]? = some 4 ∧ s.refList ≠ [] ∧ s.refAuto = true ∧ s.bestRef = some (0, 4) ∧
    (s.setReg aClkRefPrio0 (0x0000001F#32 &&& 0x1F1F1F1F#32)).refList = [] ∧ s.clk.sel ≠ some 0 ∧ (clockState { sel := some 0 }).clk.sel = some 0 := by decide
theorem test_witness_lock : (let s := clockState { sel := some 4, st := .acquire }
      s.clk.st = .acquire ∧ (16 : Int).natAbs ≤ s.lockWin ∧ s.periodsMay s.lockCount s.clk.good = true) ∧
    (let s := clockState { sel := some 4, st := .locked }
     s.clk.st = .locked ∧ s.clk.sel ≠ some 0 ∧ s.lockWin < (17 : Int).natAbs ∧ s.periodsMay 4 s.clk.bad = true) := by decide
theorem test_witness_outputs : (let s := clockState { st := .locked, second := some 48000 }
      s.clk.st = .locked ∧ s.clk.second = some 48000 ∧ s.fld aClkCtrl 17 16 = 0) ∧ (clockState { st := .holdover }).clk.st = .holdover ∧
    (0x80000000#32).getLsbD 31 = true ∧ true ≠ (clockState {}).flag aClkSync 27 ∧ (∀ k, k < 4 → (clockState {}).fld (aClkFrmo k) 25 24 ≠ 1) ∧
    (clockState {}).clk.armed = false ∧
    (let s := (clockState { armed := true }).setReg aClkSync 0x01000000#32
     s.clk.armed = true ∧ s.flag aClkSync 24 = true ∧ s.clk.syncAt = none ∧ s.clk.syncFrom ≤ s.grid.tick ∧ s.inDomain = false ∧ s.graphRuns = true ∧
     (s.graphRuns = false ∨ (BitVec.ofNat 48 (passOfTime s.fs 0 0) - s.grid.p).toInt < 0) ∧ max s.clk.syncFrom s.grid.alignedAt < s.grid.tick) ∧
    (let s := clockState { armed := true, syncAt := some (990, 7, false) }
     canonB s = true ∧ s.clk.armed = true ∧ s.flag aClkSync 24 = false ∧ s.clk.syncAt = some (990, 7, false) ∧ 990 + 7 / s.cyc ≤ s.grid.tick ∧ s.grid.tick < 1001 + 7 / s.cyc ∧ mwf {} s.clk.outs = true) ∧ runState.flt.armed = none := by decide
/-- 24,481 is 481 over the count of the monitor's window: fatal report 0x07; 24,480 is not. -/
theorem test_ref_monitor : [24480, 24481].map (fun n => match exec (.refMonitor n) runState with | .next u => some (u.flt.raised.map (fun r => (r.src, r.cls))) | _ => none) =
    [some [], some [(7, 2)]] := by decide
theorem test_lock_loss : [16, 17].map (fun e => match exec (.lockLoss e) (clockState { sel := some 4, st := .locked }) with | .next u => some u.clk.st | _ => none) =
    [some .locked, some .acquire] := by decide

/-! ### Ethernet, time, streams -/

/-- The Ethernet end is on, in the mode that NET_CTRL gives, with both interfaces chosen and their links up. -/
def netState (ctrl : Word) : State := (runState.setReg aNetCtrl (ctrl ||| 0x14#32)).setReg aNetStat 0x0404#32

def frame : EthFrame := { len := 100, fcsOk := true, known := true, src := 3, unicast := true, mine := true }
def nodes (l : List NodeEntry) : State := { netState 0x301#32 with net := { nodes := l } }

/-- EthernetFrames: in each mode, a port that is down, frames for others, new and repeated ones. -/
theorem test_witness_ethernet : (let s := netState 1#32
      canonB s = true ∧ s.portUp 0 = true ∧ s.portUp 1 = false ∧ s.flt.safe = false ∧ s.flt.armed = none ∧ s.netMode ≤ 1 ∧ frame.len ≤ 1522 ∧ frame.fcsOk = true ∧
      ({ frame with fcsOk := false } : EthFrame).fcsOk = false ∧ (0x80000000#32).getLsbD 31 = true) ∧
    (∀ c ∈ [(0x101#32, 1), (0x201#32, 2), (0x301#32, 3), (0x401#32, 4)], (netState c.1).netMode = c.2 ∧ (netState c.1).portUp 0 = true ∧ (netState c.1).portUp 1 = true) ∧
    (let f := { frame with mine := false, unicast := false }
     (netState 0x201#32).ownFrame f = false ∧ f.ptpEvent = false ∧ f.mine = false) ∧
    (let f := { frame with red := some 5#16 }
     f.red = some 5#16 ∧ f.supervision = false ∧ f.mine = true ∧ f.known = true ∧ (nodes []).net.nodes = [] ∧ (nodes []).netMode = 3) ∧
    (let e : NodeEntry := { src := 3, h := 6, seqs := [6, 5], fwd := [], last := 900 }
     (nodes [e]).net.nodes = [e] ∧ e.src = frame.src ∧ 5#16 ∈ e.seqs ∧ (e.h - 5#16).toNat < 1024) ∧
    (let f := { frame with src := (netState 0x401#32).macOf 0, red := some 5#16 }
     (netState 0x401#32).ownFrame f = true) ∧
    ((netState 0).setReg aNetMdio 0x80000000#32).flag aNetMdio 31 = true := by decide
/-- A number still listed but no longer within the window is no repetition; one within it is. -/
theorem test_window : [5#16, 4#16].map (fun q => match exec (.ethFrame false { frame with red := some q })
      (nodes [{ src := 3, h := 1028, seqs := [1028, 5, 4], fwd := [], last := 900 }]) with
    | .next u => some (u.fld aNetDup 31 16) | _ => none) = [some 1, some 0] := by decide

def ptpState (x : Ptp) : State := { (netState 1#32).setFlag aPtpCtrl 15 false with net := { timeValid := true, ptp := x } }
/-- With a role: 1 follows another clock, 2 may be the grandmaster. -/
def roleState (role : Nat) (x : Ptp) : State := (ptpState x).setFld aPtpCtrl 1 0 role
def ann (gm : Nat) : AnnData := { goodAnn with gm := gm }

def peer : PtpFrom := { id := { clock := 1 } }
def syncRec (t1 : Option Int) : SyncRec := { seq := 4, src := peer.id, t1 := t1, t2 := 100, c1 := 0 }
def reqRec (b : Int) : ReqRec := { seq := 4, t3 := ((1000 : Int) * 1000000000 + 7) * 2 ^ 16, basis := some b, waits := none }

/-- PtpClock: messages received by the receiving port. -/
theorem test_witness_ptp_sync : (let s := roleState 1 { st := 8, gm := some (ann 7) }
      canonB s = true ∧ s.flag aPtpCtrl 15 = false ∧ s.tly.mons = [] ∧ s.portUp 0 = true ∧ s.net.ptp.port = 0 ∧ s.ptpRole ≠ 0 ∧ peer.eth = s.flag aPtpCtrl 8 ∧
      s.net.ptp.st = 8 ∧ s.net.ptp.gm.map (fun g => g.sender) = some peer.id ∧ s.net.ptp.d = none ∧ s.net.ptp.req = none) ∧
    (let s := roleState 1 { st := 8, gm := some (ann 7), d := some 5 }
     s.net.ptp.d = some 5 ∧ s.clk.sel ≠ some 3) ∧
    (let s := roleState 1 { st := 9, sync := some (syncRec none) }
     s.net.ptp.sync = some (syncRec none) ∧ (syncRec none).src = peer.id ∧ s.net.ptp.d = none ∧ s.net.ptp.req = none) := by decide
theorem test_witness_ptp_delay : (∀ dd ∈ [(-5 : Int), 0, 5], let t : Int := ((1000 : Int) * 1000000000 + 7) * 2 ^ 16
      let s := roleState 1 { st := 9, gm := some (ann 7), req := some (reqRec (2 * dd)) }
      let q : PtpReply := { seq := 4, src := peer, req := s.portId 0 }
      s.net.ptp.req = some (reqRec (2 * dd)) ∧ q.req = s.portId 0 ∧ s.net.ptp.gm.map (fun g => g.sender) = some q.src.id ∧
      2 * dd + (t - (reqRec (2 * dd)).t3 - 0) = 2 * dd ∧ s.net.ptp.samples = [] ∧ s.net.ptp.d = none) ∧
    (let s := roleState 2 { st := 6 }
     s.portUp 0 = true ∧ s.ptpRole ≠ 0 ∧ s.flt.safe = false ∧ s.flt.armed = none ∧ s.net.ptp.st = 6 ∧ s.net.ptp.port = 0) := by decide
theorem test_witness_announce : (roleState 0 {}).ptpRole = 0 ∧ (roleState 1 {}).ptpRole = 1 ∧ (ann 7).eth = (roleState 1 {}).flag aPtpCtrl 8 ∧ (ann 7).gm ≠ (roleState 1 {}).clkId ∧
    (roleState 1 {}).net.ptp.foreigns = [] ∧
    (let g : Foreign := { data := ann 7, port := 0, last := 998, prev := none }
     let s := roleState 1 { st := 4, foreigns := [g] }
     s.net.ptp.foreigns = [g] ∧ g.port = 0 ∧ s.net.ptp.port = 0 ∧ g.data.sender = (ann 7).sender ∧ s.grid.tick ≤ g.last + 4 * s.annPasses ∧
     s.net.ptp.gm = none ∧ s.net.ptp.st = 4) := by decide
/-- A Delay_Resp of another master, and one for another port, are not taken. -/
theorem test_delay_resp_source : [(1, 1), (2, 1), (1, 2)].map (fun c => let s := roleState 1 { st := 9, gm := some (ann 7), req := some (reqRec 10) }
      match exec (.delayResp false 0 { seq := 4, src := { id := { clock := c.1 } }, req := { clock := s.clkId, port := c.2 } } 1000 7 0) s with
      | .next u => some u.net.ptp.d | _ => none) = [some (some 5), some none, some none] := by decide

def late (role : Nat) (x : Ptp) (ctrl : Word) : State :=
  { (roleState role x).setReg aNetCtrl (ctrl ||| 0x14#32) with grid := { runState.grid with tick := 10000000 } }
/-- PtpClock: its own events. -/
theorem test_witness_ptp_events : (let s := ptpState { st := 8, ok := 16 }
      16 ≤ s.net.ptp.ok ∧ s.net.ptp.st = 8) ∧
    (let s := late 1 { st := 9 } 1#32
     s.net.ptp.st = 9 ∧ s.net.ptp.lastSync + 4 * s.syncPasses ≤ s.grid.tick ∧ s.ptpRole ≠ 0 ∧ s.net.ptp.st ≠ 6 ∧
     mget 0 s.net.ptp.lastAnn s.net.ptp.port + s.annTimeout ≤ s.grid.tick + 1 ∧ s.netMode ≤ 2) ∧
    (let s := late 1 { st := 9, gm := some (ann 7), annGm := [(1, 7)], lastAnn := [(1, 9999999)] } 0x301#32
     s.netMode = 3 ∧ ¬(mget 0 s.net.ptp.lastAnn (1 - s.net.ptp.port) + s.annTimeout ≤ s.grid.tick + 1) ∧
     s.net.ptp.gm.map (fun g => g.gm) = some (mget 0 s.net.ptp.annGm (1 - s.net.ptp.port))) := by decide
theorem test_witness_ptp_sends : (let s := late 2 { st := 6 } 1#32
      s.netMode ≤ 2 ∧ s.portUp 0 = true ∧ s.net.ptp.port = 0 ∧ s.flt.safe = false ∧ s.flt.armed = none ∧
      s.net.ptp.sentSync = 0 ∧ s.syncPasses ≤ s.grid.tick ∧ s.net.ptp.sentAnn = 0 ∧ s.annPasses ≤ s.grid.tick ∧ s.ptpRole = 2) ∧
    (let s := late 2 { st := 6 } 0x301#32
     s.netMode = 3 ∧ s.portUp 0 = true ∧ s.portUp 1 = true) ∧
    (let s := late 1 { st := 9, sync := some (syncRec (some 50)) } 1#32
     s.net.ptp.sync = some (syncRec (some 50)) ∧ (syncRec (some 50)).t1 = some 50 ∧ s.net.ptp.sentReq = 0 ∧ s.reqPasses ≤ s.grid.tick) ∧
    (let s := runState.setReg (aPtpCap 2) 1#32
     s.flag (aPtpCap 2) 0 = true ∧ s.flag (aPtpCap 2) 1 = false ∧ s.flag (aPtpCap 2) 2 = false ∧ ((runState.setReg (aPtpCap 2) 5#32).flag (aPtpCap 2) 2 = true)) := by decide
/-- The IPv4 header of a UDP datagram of 115 bytes from 192.168.0.1 to 192.168.0.199, whose checksum in the usual worked example is
0xB861; the fields of a Sync, sequenceId 0x1234, where IEEE 1588 has them. -/
theorem test_frames : (ipv4 { tos := 0, ident := 0, df := true } 64 17 0xC0A80001#32 0xC0A800C7#32 (List.replicate 95 0)).take 20 =
      [0x45, 0, 0, 0x73, 0, 0, 0x40, 0, 0x40, 0x11, 0xB8, 0x61, 0xC0, 0xA8, 0, 1, 0xC0, 0xA8, 0, 0xC7] ∧
    (let m := ptpMessage { type := 0, control := 0, log := 0xFD } 0 { clock := 5, port := 2 } 0x1234 (List.replicate 10 0)
     m.length = 44 ∧ m.take 4 = [0, 0x12, 0, 44] ∧ (m.drop 20).take 14 = [0, 0, 0, 0, 0, 0, 0, 5, 0, 2, 0x12, 0x34, 0, 0xFD]) := by decide +kernel

/-- Stream 3 receives 2 channels of 2 bytes with 10 passes of delay; its ring lies in Millpond. -/
def rxState (x : RxStream) : State :=
  { ((netState 1#32).setReg (aStrmRx 3) 0x8002000A#32).setReg (aStrmRxRing 3) 0x10000100#32 with net := { rx := [(3, x)] } }
def packet (ts : Word) (n : Nat) : RtpPacket :=
  { dst := (rxState {}).reg (aStrmRxGroup 3), udp := 0, pt := 0, ssrc := 0, ts := ts, payload := List.replicate n 1 }

/-- StreamReception: packets of the stream that are due, late, early, and of a wrong length. -/
theorem test_witness_streams : (let s := rxState { ch := { st := .idle, good := 64 } }
      let w := s.reg (aStrmRx 3)
      canonB s = true ∧ s.tly.mons = [] ∧ s.portUp 0 = true ∧ s.grid.fnOn = true ∧ s.rxMatch 3 0 (packet 0 4) = true ∧ (∀ i, i < 128 → i ≠ 3 → s.rxMatch i 0 (packet 0 4) = false) ∧
      bits w 22 16 = 2 ∧ w.getLsbD 27 = false ∧ bits w 13 0 = 10 ∧ (packet 0 4).payload.length = 2 * 2 ∧ (packet 0 5).payload.length % (2 * 2) ≠ 0 ∧
      (let d (ts : Word) : Int := s.grid.tick + (ts - s.reg (aStrmRxRtpOffset 3) - BitVec.ofNat 32 s.p32).toInt + 10
       d 47999990#32 ≤ s.grid.tick ∧ s.grid.tick < d 47999991#32 ∧ d 48000000#32 ≤ s.grid.tick + 10 ∧ s.grid.tick + 10 < d 48000001#32) ∧
      64 ≤ (s.rxs 3).ch.good ∧ (s.rxs 3).ch.st = .idle) ∧ runState.portUp 0 = false := by decide

/-! ### Race links and the domain -/

def linkState (ctrl : Word) (l : RaceLink) : State :=
  { runState.setReg (aRaceCtrl 1) ctrl with race := { links := [(1, l)] } }

/-- Link 1 at 96 kHz. -/
def fastLink (l : RaceLink) : State := { linkState 1#32 l with rate96 := true }

/-- The lanes as they come, without PINV and LSWAP. -/
theorem wired {s : State} {k : Nat} {f : RaceIn} (h : ((s.reg (aRaceCtrl k)).getLsbD 9, (s.reg (aRaceCtrl k)).getLsbD 10, (s.reg (aRaceCtrl k)).getLsbD 11) = (false, false, false)) :
    s.raceWired k f = f := by
  simp only [Prod.mk.injEq] at h
  simp only [State.raceWired, h.1, h.2.1, h.2.2, Bool.false_eq_true, if_false]
theorem goodRace_wired : (linkState 1#32 {}).raceWired 1 goodRace = goodRace ∧ (fastLink {}).raceWired 1 goodRace = goodRace :=
  ⟨wired (by decide), wired (by decide)⟩

/-- RaceLinks. -/
theorem test_witness_links : (let s := linkState 0 { good := 1 }
      canonB s = true ∧ s.twin.on = false ∧ (s.link 1).st = 0 ∧ s.flag (aRaceCtrl 1) 0 = false) ∧
    (let s := linkState 1#32 { st := 1, on := true, good := 4 }
     (s.link 1).st = 1 ∧ s.flag (aRaceCtrl 1) 0 = true ∧ (((0#32 &&& 0x00FF0E01#32) ^^^ s.reg (aRaceCtrl 1)) &&& 0xFFFFFFFE#32) = 0 ∧
     (((0x200#32 &&& 0x00FF0E01#32) ^^^ s.reg (aRaceCtrl 1)) &&& 0xFFFFFFFE#32) ≠ 0 ∧ s.domOn 78 = true ∧ 4 ≤ (s.link 1).good ∧
     ({ goodRace with spaced := false } : RaceIn).commas = false ∧ (s.link 1).inbox = [] ∧ s.pwr.mode ≠ .boot) ∧
    (let s := fastLink { st := 2, on := true, missing := 2 }
     (s.link 1).st = 2 ∧ s.domOn 78 = true ∧ (s.link 1).part = [] ∧ (s.link 1).inbox = [] ∧ 2 ≤ (s.link 1).missing ∧ s.tly.mons = [] ∧
     s.race.committed ≠ s.grid.tick + 1) := by decide
set_option maxRecDepth 4000 in
theorem test_witness_frame : let s := fastLink { st := 2, on := true }
    goodRace.commas = true ∧ goodRace.codeOk = true ∧ goodRace.crcOk s.rate96 = true ∧ goodRace.crcOk false = false ∧ goodRace.version = 1 ∧ goodRace.mapId = s.reg (aRaceMap 1) ∧
    goodRace.mapId ≠ (s.setReg (aRaceMap 1) 9#32).reg (aRaceMap 1) ∧ goodRace.msgs s.rate96 = [] ∧
    s.racePass goodRace = some 1000 ∧ goodRace.any = true ∧ goodRace.src = 4#11 ∧ goodRace.pass = 48000000#48 ∧ goodRace.done ≤ 960 + s.cyc * (1000 + 1 - s.grid.tick) ∧
    960 + s.cyc * (1000 + 1 - s.grid.tick) < ({ goodRace with done := 12000 } : RaceIn).done := by
  intro s
  refine ⟨test_lanes.2.1, test_lanes.2.2, ?_⟩
  simp only [RaceIn.crcOk, RaceIn.version, RaceIn.mapId, RaceIn.msgs, State.racePass, RaceIn.passLo, RaceIn.any, RaceIn.src, RaceIn.pass, test_lanes.1]
  decide +kernel
theorem test_race_sync : (match exec (.raceSync 1) (linkState 1#32 { st := 1, on := true, good := 4 }) with | .next u => some (u.link 1).st | _ => none) = some 2 := by decide

def managing : State := { sceneState with dom := { st := 4, roster := [(5, { present := true, heard := 900 })] } }
def nodeState : State := { sceneState with scn := { sceneState.scn with nodes := [{ zoneNode with paramWords := 3 }] } }
def hears (s : State) (b : MsgBody) : Bool := actsB s (sealed goodHdr b) b
def after (s : State) (b : MsgBody) : State := Stated.heard s (sealed goodHdr b) b
theorem hear {s : State} {b : MsgBody} (e : hears s b = true) : Stated.actedOn s (sealed goodHdr b) b := acts e

/-- DomainManagement: messages that an engine acts on. -/
theorem test_witness_messages : Stated.actedOn sceneState (sealed goodHdr (.join 6 false false false 1 1)) (.join 6 false false false 1 1) ∧
    (∀ b ∈ [MsgBody.join 6 false false false 1 1, .admission 2 0, .refuse 1, .manager 1 1 0 1, .mirror [.device 2047 true false], .streams 0 [goodEntry],
      .tallySummary 0 0 [], .tallyPull 0 0 5], hears sceneState b = true) ∧
    (∀ b ∈ [MsgBody.leave, .heartbeat 0 0 0 0], hears managing b = true) ∧ hears nodeState (.param [(4, 2, 5)]) = true := by
  refine ⟨hear ?_, ?_, ?_, ?_⟩ <;> decide +kernel
theorem test_witness_leave : let s1 := after managing .leave
    s1.manages = true ∧ (s1.rosterE goodHdr.src.toNat).present = true ∧ (s1.rosterE goodHdr.src.toNat).twin = false ∧ mwf {} s1.dom.roster = true ∧
    (after sceneState .leave).manages = false := by decide +kernel
theorem test_witness_param : let s1 := after nodeState (.param [(4, 2, 5)])
    s1.node 4 = some { zoneNode with paramWords := 3 } ∧ 2 < 3 ∧ (s1.cluster 0).queue.length < 1024 := by decide +kernel
theorem test_witness_worker : let s1 := after sceneState (.manager 1 1 0 1)
    s1.role < 2 ∧ s1.manages = false ∧ s1.dom.mgrSeen = false := by decide +kernel

/-- An engine that may send: settings with a role, the network on. -/
def sender (role st : Nat) (sec : Nat) : State :=
  { netState 0x101#32 with
    image := some { domain := some { settings with role := role } }
    nvm := { runState.nvm with slot0 := some 99 }
    grid := { runState.grid with p := BitVec.ofNat 48 (48000 * sec), tick := 1000000 }
    dom := { st := st, roster := [(7, { present := true, heard := 900000 })] } }
/-- DomainManagement: what it sends of its own. -/
theorem test_witness_sending : (∀ s ∈ [sender 3 4 1000, sender 2 2 1000, sender 1 0 1000], s.twin.on = false ∧ s.domSet.isSome = true ∧ s.keyIn false = true ∧ s.svc.stewDown = false ∧
      s.portUp 0 = true ∧ s.portUp 1 = true ∧ s.flt.safe = false ∧ s.flt.armed = none ∧ s.grid.fnOn = true ∧ s.grid.p.toNat % (s.fs / 10) = 0) ∧
    (sender 3 4 1000).manages = true ∧ (let s := sender 2 2 1000
      s.manages = false ∧ s.dom.lastMgr + 4 * (s.fs / 10) ≤ s.grid.tick) ∧
    (sender 1 0 1000).dom.st = 0 ∧ (sender 1 0 1000).dom.refusedAt = none ∧ (sender 1 0 1000).dom.joinAt = none ∧
    (let s := { sender 1 2 1000 with grid := { runState.grid with p := BitVec.ofNat 48 (48000 * 1000 + 5 * 48000 / 2048) } }
     s.dom.st = 2 ∧ s.grid.p.toNat % s.fs = s.ownNo * s.fs / 2048) ∧
    (let s := sender 3 4 1000
     (s.rosterE 7).present = true ∧ (s.rosterE 7).twin = false ∧ mwf {} s.dom.roster = true ∧ s.grid.tick < (s.rosterE 7).heard + 3 * s.fs) ∧
    (let s := { sender 3 4 1000 with grid := { runState.grid with tick := 1044000 } }
     (s.rosterE 7).heard + 3 * s.fs ≤ s.grid.tick) := by decide

/-! ### Memories, maintenance, faults -/

def marching (fails : List Nat) (row : Nat) : State := { servState with ms := { march := some { memid := 5, destructive := false, row := row, fails := fails } } }
def eccState : State := { runState.setFlag aMpdScrub 0 true with ms := { ecc := [(0x20000010, 7)] } }

/-- MemoriesAndMaintenance: memory 0 is the first data bank of tile 0. -/
def scrubState : State := { eccState with pwr := { eccState.pwr with dom := (0, .on) :: eccState.pwr.dom } }
theorem test_witness_scrub : canonB scrubState = true ∧ scrubState.ms.march = none ∧ scrubState.flag aMpdScrub 0 = true ∧
    (let id := memIdOf 0x20000010
     let r := mget 0 scrubState.ms.scrubRow id
     memIdOk id = true ∧ scrubState.memOn id = true ∧ r < memRows id + 1 ∧ 0x20000010 ∈ rowWords id r ∧ mget 0 scrubState.ms.ecc 0x20000010 = 7 ∧
     ∀ w ∈ rowWords id r, w ≠ 0x20000010 → mget 0 scrubState.ms.ecc w = 0) := by decide
theorem test_witness_wipe : (∀ t : Bool, let s := { runState with ms := { wiping := true, wipeTamper := t } }
      s.ms.wiping = true ∧ s.ms.wipeTamper = t ∧ s.pwr.mode ≠ .boot) ∧ runState.ms.wiping = false ∧ runState.ms.tamperLow = false ∧
    ({ runState with ms := { tamperLow := true } } : State).ms.tamperLow = true ∧
    (let s := { runState with ms := { clipBad := [0x10000104] }, nvm := { runState.nvm with op := some { kind := .read, prio := 1, use := .restore 0x10000104, addr := 0 } } }
     0x10000104 ∈ s.ms.clipBad ∧ 0x10000104 / 16 = 0x10000108 / 16 ∧ s.reading (restoreOf 0x10000108) = true) := by decide
theorem test_witness_march : (let s := marching [] 0
      s.ms.march = some { memid := 5, destructive := false, row := 0, fails := [] } ∧ 0 < memRows 5 + 2) ∧
    (let s := marching [3] (memRows 5 + 2)
     s.ms.march = some { memid := 5, destructive := false, row := memRows 5 + 2, fails := [3] } ∧ mwf {} s.ms.repair = true ∧ mget {} s.ms.repair 5 = {} ∧ 3 < memRows 5) ∧
    (marching [memRows 5] (memRows 5 + 2)).ms.march = some { memid := 5, destructive := false, row := memRows 5 + 2, fails := [memRows 5] } := by decide
theorem test_witness_requests : (servState.pwr.mode = .service ∧ servState.flt.lock = false ∧ servState.svc.running = none) ∧ (0x80050001#32).getLsbD 31 = true ∧
    memIdOk (bits 0x80050001#32 25 16) = true ∧ bits 0x80050001#32 25 16 < 0x300 ∧ (0x80050001#32).getLsbD 0 = true ∧ 0x300 ≤ bits 0x83000000#32 25 16 ∧
    servState.domOn 79 = true ∧ servState.svc.stewDown = false ∧ runState.pwr.mode = .run ∧
    (let s := { servState with svc := { running := some { kind := 2, arg := 5 }, ended := some 1 } }
     s.svc.running = some { kind := 2, arg := 5 } ∧ s.svc.ended = some 1 ∧ s.svc.compactPend = false ∧ s.svc.queued = none ∧ s.pwr.runReq = false) ∧
    (∀ k ∈ [1, 2, 3, 5], let s := { servState with svc := { running := some { kind := k, arg := 0 }, startAt := some 1000 } }
     s.svc.running = some { kind := k, arg := 0 } ∧ s.svc.startAt = some 1000 ∧ 1000 ≤ s.grid.tick) ∧ (0 < 0x3FF ∧ memIdOk 0 = true ∧ scrubState.memOn 0 = true) ∧ runState.pwr.mode ≠ .quiet ∧
    ({ runState with pwr := { runState.pwr with mode := .quiet } } : State).pwr.mode = .quiet ∧
    ({ servState with svc := { running := some { kind := 1, arg := 0 }, startAt := some 1001 } } : State).grid.tick < 1001 ∧
    runState.domOn (64 + 9 / 8) = false ∧ (runState.domOn (64 + 5 / 8) = true ∧ runState.domSt 5 = .off) ∧
    (let s := runState.setDom 72 .retention
     s.domSt 72 = .retention) ∧
    (let s := (runState.setDom 64 .on).setDom 5 .retention
     s.domOn (64 + 5 / 8) = true ∧ s.domSt 5 = .retention) := by decide

def reports (r : Report) : State := { runState with flt := { raised := [r] } }
def report (src cls : Nat) : Report := { src := src, unit := 2, cls := cls, detail := 5, pass := 9 }
/-- FaultsAndSluice. -/
theorem test_witness_reports : (∀ r ∈ [report 1 0, report 0x0C 1, report 0x0B 1, report 0x0A 2], let s := reports r
      s.flt.raised = [r] ∧ s.flt.queue = [] ∧ s.twin.on = false ∧ canonB s = true ∧ s.flt.lock = false ∧ mwf .off s.pwr.dom = true) ∧
    runState.flt.raised = [] ∧ runState.flt.armed = none ∧ runState.flt.queue = [] ∧
    (let s := { runState with flt := { queue := [(report 1 0, 3)] } }
     s.flt.queue = [(report 1 0, 3)] ∧ s.svc.stewDown = false ∧ s.domOn 79 = true) ∧
    (0x85000000#32).getLsbD 31 = true ∧ bits 0x80500000#32 19 16 = 0 ∧ bits 0x80500000#32 27 20 ∈ [0x05, 0x06, 0x09, 0x12] ∧
    bits 0x80700000#32 27 20 = 0x07 ∧ runState.pwr.mode ≠ .service ∧ runState.svc.waitMsgs = [] ∧ runState.svc.waitSends = [] := by decide
theorem test_fatal : (match exec (.faultReport none false) (reports (report 0x0A 2)) with
    | .next u => some (u.flt.lock, u.flt.safe, u.pwr.mode, u.domSt 64, u.domSt 76, u.flt.slDead) | _ => none) =
    some (true, true, .sluice, .off, .on, true) := by decide

def sluiceState (dead : Bool) : State := { runState.setFld aFltSluiceIn 1 0 2 with flt := { safe := true, slDead := dead, slBuf := [3, 4] } }
theorem test_witness_sluice : (let s := sluiceState false
      s.flt.safe = true ∧ s.flt.slDead = false ∧ s.fld aFltSluiceIn 1 0 = 2 ∧ s.domOn 78 = true ∧ mwf 0 s.flt.slOut = true ∧ s.pMaster 3 = false ∧ 3 ∉ s.flt.slEnded) ∧
    (sluiceState true).flt.slDead = true ∧ runState.flt.safe = false := by decide

/-! ### Twins, modes, power -/

def tw (f : Twin → Twin) : State := { runState with twin := f { on := true } }
/-- TwinPairs. -/
theorem test_witness_twins : (let s := tw (fun x => { x with st := .start })
      s.twin.on = true ∧ s.twin.st = .start ∧ s.twin.selB = false ∧ s.twin.wait = 0 ∧ s.twin.startP = none) ∧
    (let s := tw (fun x => { x with st := .start, selB := true })
     s.twin.st = .start ∧ s.twin.selB = true ∧ s.twin.wait = 0 ∧ s.twin.startP = none) ∧
    (let s := tw (fun x => { x with st := .shadow, lostAt := some 995 })
     s.twin.st = .shadow ∧ s.twin.notReady = false ∧ s.twin.taking = none ∧ s.twin.lostAt = some 995 ∧ 995 + 4 < s.grid.tick ∧ s.flt.armed = none ∧
     s.graphRuns = true ∧ s.grid.tick < 2 ^ 32) ∧ (tw (fun x => { x with st := .shadow })).twin.lostAt = none ∧
    (∀ l ∈ [[], [100]], let s := { tw (fun x => { x with st := .active, diagFrom := some 90, ownFaults := l }) with grid := { runState.grid with tick := 1114 } }
      s.twin.diagFrom = some 90 ∧ 90 + 1024 ≤ s.grid.tick ∧ s.twin.st = .active ∧ s.twin.yielding = none ∧ ((∃ f ∈ s.twin.ownFaults, 90 ≤ f + 144) ↔ l = [100])) ∧
    (tw (fun x => { x with st := .diag, diagFrom := some 90 })).grid.tick < 90 + 1024 ∧
    (let s := tw (fun x => { x with st := .active })
     s.twin.st = .active ∧ s.scn.running = none ∧ s.twin.yielding = none) ∧
    (let s := tw (fun x => { x with st := .copy, rejoinFrom := some 900 })
     s.twin.st = .copy ∧ s.twin.rejoinFrom.isSome = true ∧ s.twin.returns ≠ 2) := by decide

/-- OperatingModes. -/
theorem test_witness_modes : runState.Canonical ∧ runState.flt.lock = false ∧ ({ runState with flt := { lock := true } } : State).flt.lock = true ∧
    (State.reset.pwr.mode = .boot ∧ State.reset.image = none ∧ State.reset.bootSlot = none ∧ (State.reset.asRead [] []).bootSlot = none) ∧ runState.pwr.mode ≠ .boot ∧
    (runState.domOn 79 = true ∧ runState.svc.stewDown = false ∧ runState.graphRuns = true) ∧ State.reset.domOn 79 = true ∧
    (servState.pwr.mode = .service ∧ servState.svc.running = none) ∧
    (let s := { runState with pwr := { runState.pwr with leaving := some 960 } }
     s.pwr.leaving = some 960 ∧ 960 + 33 ≤ s.grid.tick) ∧ runState.grid.tick < 990 + 33 ∧
    (let s := { servState with pwr := { servState.pwr with toDormant := true } }
     s.pwr.toDormant = true ∧ s.pwr.wakeHeld = false) ∧
    (let s := { runState.setReg aPwrWake 0x00010001#32 with pwr := { runState.pwr with mode := .dormant } }
     s.flag aPwrWake 0 = true ∧ s.flag aPwrWake 1 = false ∧ s.pwr.mode = .dormant ∧ s.flag aPwrTherm 17 = false ∧ s.fld aPwrWake 31 16 ≠ 0) :=
  ⟨runState_canonical, by decide⟩
/-- A container of an image without nodes: register initialisation, sample programs, node instances, clock and port setup, signed
by OpenSSL with a key made for this test. -/
def signedImage : List Byte := beBytes 64 0x4b57494d0100040000044d4b500200004d0000000000000000000000d00100000000000000000000000000000000000000000000000000000000000000000000 ++
  beBytes 64 0x01000000000100000400000000000000df3f619804a92fdb4057192dc43dd748ea778adc52bc498ce80524c014b811190200000010010000a000000000000000 ++
  beBytes 64 0x759b5fa8e6f7e5f52bddc68da0b2c3825321750092162d37a8e263cce47a2ce503000000b001000010000000000000004cbbd8ca5215b8d161aec181a74b694f ++
  beBytes 64 0x4e24b001d5b081dc0030ed797a8973e008000000c00100000400000000000000df3f619804a92fdb4057192dc43dd748ea778adc52bc498ce80524c014b81119 ++
  beBytes 64 0x00000000000000000000000000000000010000000000000000000000a00000000000000000000000000000000000000000000000000000000000000000000000 ++
  beBytes 64 0x00000000000000000000000000000000000000000000000000000000000000000000000000000000000000000000000000000000000000000000000000000000 ++
  beBytes 64 0x00000000000000000000000000000000000000000000000000000000000000000000000000000000000000000000000001000000000000000000000000000000 ++
  beBytes 64 0x000000000000000000000000000000007ff79ab4b12fab6b6fac5957e2ace2ec4471a4ef4d81223f05bb6b27b21d7edab36c2f9aee727bc583aec320c15be96b ++
  beBytes 64 0x2b28146222a7d423f3960fba0e3afaf2bdcdd6f3b26060658dbc8a08d8e07e21ae89f0e0cead8399e8d6ed598060d8a7a758930d9882d5c5a103854bdf11bed6 ++
  beBytes 16 0xdf9913200dedcb2933e073814745f2ec
def bootFuses : Fuses := { pair1 := 2, hash := [(0, some 37827331511893367170683717374787822272766337164169261503156412180809514750024)] }
def bootFlash : List (Nat × Byte) := (signedImage.zipIdx.filter (fun e => e.1 != 0xFF)).map (fun e => (({ size := 25 } : Nvm).slotBase false + e.2, e.1))
def bootState : State :=
  let s := { State.reset with pwr := { State.reset.pwr with bootStage := 9 }, nvm := { size := 25, fuses := bootFuses, flash := bootFlash } }
  s.fillSecure
/-- An exchange descriptor written out by R86: MARK 0x0180, output, DST_RING and PACK3, 8 elements, a ring of 64 frames of 6 bytes at
phase -2, steps of 4 and 3. -/
def descBytes : List Byte := [0x80, 1, 2, 0x0A, 0, 0x10, 0, 0x20, 4, 3, 0x70, 0x11, 8, 0, 0, 0, 0, 0, 64, 0, 0, 0, 6, 0, 0, 0, 0xFE, 0xFF, 4, 3, 0, 0]
theorem test_read_desc : readDesc false descBytes = some
      { mark := 384, kind := 2, dstRing := true, pack3 := true, src := 0x20001000, dst := 0x11700304, count := 8, dstLen := 64, dstFrame := 6,
        dstPhase := -2, srcElem := 4, dstElem := 3 } ∧
    readDesc false (descBytes.set 2 3) = none ∧ readDesc false (descBytes.set 3 0x2A) = none ∧ readDesc true (descBytes.set 1 0x14) = none ∧
    readDesc false (descBytes.set 18 0) = none ∧ readDesc false (descBytes.set 29 0) = none := by decide +kernel
/-- Trigger and rule entries written out by R204 and R208: pin 5 falling at level 3 for rule 258, a time trigger; a recall of scene 513
by DEAL with the law 1, a ramp, an illegal chain. -/
theorem test_read_cues : readTrigger [1, 3, 2, 1, 5, 0, 1, 0, 0x10, 0x27, 0, 0, 0, 0, 0, 0] = some { kind := .pinEdge 5 1 10000, level := 3, rule := 258 } ∧
    readTrigger [8, 0, 0, 0, 1, 0, 0, 0, 5, 0, 0, 0, 60, 0, 0, 0] = some { kind := .time 0x100000005 60, level := 0, rule := 0 } ∧
    readTrigger [10, 0, 0, 0, 0, 0, 0, 0, 0, 0, 0, 0, 0, 0, 0, 0] = none ∧
    readRule [1, 0, 0, 0, 1, 2, 5, 0, 0xE8, 3, 0, 0, 0, 0, 0xFF, 0xFF] =
      some { action := .recall 513 true false 1 1000, relay := false, relayCue := 0, chain := none } ∧
    readRule [2, 1, 7, 0, 9, 0, 2, 0, 0xC0, 0xFF, 0xFF, 0xFF, 0xF4, 1, 4, 0] =
      some { action := .ramp 9 2 0xFFFFFFC0#32 500, relay := true, relayCue := 7, chain := some 4 } ∧
    readRule [0, 0, 0, 0, 0, 0, 0, 0, 0, 0, 0, 0, 0, 0, 0, 2] = none := by decide +kernel
/-- OperatingModes, SignedImages: slot A holds a valid image, slot B none. -/
theorem test_witness_boot : bootState.pwr.mode = .boot ∧ bootState.image = none ∧ bootState.pwr.bootStage = 9 ∧ (bootState.asRead [] []).bootSlot = some false ∧
    bootState.slotRow true = 1 ∧ (((bootState.asRead [] []).bootImage { }).map (fun im => im.march)) = some false ∧ canonB bootState = true := by decide +kernel
theorem test_boot_failure : (match exec .bootFailure State.reset with | .next u => some (u.pwr.mode, u.flt.safe) | _ => none) = some (.sluice, true) := by decide

/-- PowerManagement: readings of 43.9, 46.0 and 52.0 degrees. -/
theorem test_witness_power : runState.Canonical ∧ runState.flt.armed = none ∧ runState.tly.mons = [] ∧ runState.twin.on = false ∧ runState.flag aPwrTherm 16 = false ∧
    runState.flag aPwrTherm 17 = false ∧ runState.image = none ∧ runState.pwr.mode ≠ .dormant ∧ mwf .off runState.pwr.dom = true ∧
    (let s := { runState.setFlag aPwrTherm 17 true with pwr := { runState.pwr with mode := .sluice, cool := 3, thermal := true } }
     s.flag aPwrTherm 16 = false ∧ s.flag aPwrTherm 17 = true ∧ s.pwr.mode = .sluice ∧ s.flt.lock = false ∧ s.pwr.thermal = true ∧ 3 ≤ s.pwr.cool) ∧
    runState.flag aPwrPfail 0 = false ∧ (runState.setFlag aPwrPfail 0 true).flag aPwrPfail 0 = true ∧ runState.nvm.op = none ∧ runState.nvm.waiting = [] ∧
    runState.nvm.suspended = none ∧ runState.newest = none ∧ ({ runState with pwr := { runState.pwr with mode := .quiet } } : State).pwr.mode = .quiet :=
  ⟨runState_canonical, by decide⟩
/-- PowerManagement: tile 3 alone is region 2, which gates after 100 quiet passes; then QUIET may come. -/
def regionState (quiet : Nat) (gated : List Nat) : State :=
  { (runState.setReg (aPwrGate 2) 100#32).setReg aPwrQuiet 1#32 with
    scn := { progs := [(3, { region := some 2 })] }
    pwr := { runState.pwr with quiet := [(2, quiet)], gated := gated, quietRun := 1 } }
theorem test_witness_regions : (∀ q ∈ [99, 100], let s := regionState q []
      s.gateHold 2 = 100 ∧ 2 ∉ s.pwr.gated ∧ 2 ∉ s.pwr.loud ∧ s.graphRuns = true ∧ s.regionTiles 2 = [3] ∧ mget 0 s.pwr.quiet 2 = q) ∧
    (regionState 100 [2]).quietNow = true ∧ max 1 ((regionState 100 [2]).fld aPwrQuiet 31 16) ≤ (regionState 100 [2]).pwr.quietRun := by decide
theorem test_thermal : (match exec (.temperatureReading 520) runState with | .next u => some (u.flag aPwrTherm 17, u.pwr.mode, u.flt.lock) | _ => none) =
    some (true, .sluice, false) := by decide

/-- OperatingModes: the clauses on balls. -/
theorem test_witness_balls : State.reset.pwr.mode = .boot ∧ runState.pwr.mode = .run ∧ servState.pwr.mode = .service ∧ State.reset.pSlots 0 = 0 ∧
    runState.domOn 79 = true ∧ (let s := { runState with pwr := { runState.pwr with mode := .sluice }, image := some {} }; s.pwr.mode = .sluice ∧ s.image.isSome = true) ∧
    (let s := { runState with pwr := { runState.pwr with mode := .dormant } }; s.ball .faultN = .high ∧ s.ball .svcIrqN = .z) := by decide
/-- MCLKO at DIV 40 and 3.3 V does not start on a bank of class 1.8, and does on one of class 3.3 (R676). -/
theorem test_mclk_class : let s := State.reset.setReg (aClkMclk 0) (0x01002028#32)
    s.outCfgErr 0 = true ∧ ({ s with pwr := { s.pwr with bankCls := 4 } } : State).outCfgErr 0 = false := by decide

/-! ### The flash, images, keys -/

/-- RFC 3394, section 4.6: the wrap of a key of 256 bits under a key of 256 bits, and back (R638). -/
theorem test_key_wrap : let kek := 0x000102030405060708090A0B0C0D0E0F101112131415161718191A1B1C1D1E1F
    let key := 0x00112233445566778899AABBCCDDEEFF000102030405060708090A0B0C0D0E0F
    let x := 0x28C9F404C4B810F4CBCCB35CFB87F8263F5786E2D80ED326CBC7F0E71A99F43BFB988B9B7A02DD21
    aesWrap kek key = x ∧ aesUnwrap kek x = some key := by decide +kernel
/-- A copy of the key store reads back from its bytes; erased flash holds none (R638). -/
theorem test_key_copy : (let c : KeyCopy := { gen := 7, valid0 := true, valid1 := false, wrap0 := List.replicate 40 3, wrap1 := List.replicate 40 4 }
      readCopy (KeyCopy.bytes c) = some c ∧ (KeyCopy.bytes c).length = 96) ∧ ({ flash := [] } : Nvm).newerCopy = none := by decide +kernel

def opState (k : FlashKind) (u : FlashFor) : State :=
  { servState with nvm := { size := 25, op := some { kind := k, prio := 2, use := u, addr := 65536, data := [1, 2] }, sess := { st := .erasing, bytes := 256 } } }
/-- FlashAndJournal. -/
theorem test_witness_flash : (∀ o ∈ [(FlashKind.program, FlashFor.commit), (.erase, .keyErase 1), (.erase, .keyStore 1), (.erase, .slotErase 0), (.erase, .spareErase 0), (.read, .verify)],
      let s := opState o.1 o.2
      s.nvm.waiting = [] ∧ s.nvm.suspended = none ∧ mwf 0xFF s.nvm.flash = true ∧ s.nvm.op.map (fun x => (x.kind, x.use)) = some o ∧ s.nvm.sess.st = .erasing) ∧
    (let s := { servState with nvm := { size := 25, queue := [{ type := 8, data := List.replicate 24 1 }] } }
     s.nvm.op = none ∧ s.nvm.queue ≠ [] ∧ s.nvm.committing = [] ∧ s.nvm.compacting = false ∧ s.nvm.size ≠ 0 ∧ s.nvm.failed = false ∧ s.flt.lock = false ∧
     s.nvm.used < s.nvm.chainPages ∧ s.flag aPwrPfail 0 = false ∧ s.pwr.thermal = false ∧ s.nvm.seq < 2 ^ 32 ∧ s.nvm.queue.length < 64) ∧
    (let s := { servState with svc := { running := some { kind := 3, arg := 0 } }, nvm := { size := 25, compacting := true, spareErased := true } }
     s.svc.running = some { kind := 3, arg := 0 } ∧ s.nvm.compacting = true ∧ s.nvm.spareErased = true ∧ s.nvm.format = false ∧ s.nvm.failed = false ∧
     s.nvm.work = none) ∧
    (let w : Compaction := { chain := 1, gen := 2, rest := [{ type := 1, data := List.replicate 12 0 }], seq := 7 }
     let s := opState .program .compact
     let s := { s with nvm := { s.nvm with work := some w } }
     s.nvm.work = some w ∧ s.pwr.thermal = false ∧ s.nvm.failed = false ∧ s.nvm.failRun < 2 ∧ w.next.2.2 = [] ∧
     { w with rest := List.replicate 30 { type := 7, data := List.replicate 32 1 } }.next.2.2 ≠ []) ∧
    (let s := opState .erase (.spareErase 0)
     let s := { s with nvm := { s.nvm with format := true } }
     s.nvm.format = true ∧ ({ s.nvm with flash := flashErase s.nvm.flash 65536 65536 } : Nvm).writtenPages 0 = [] ∧ (opState .erase (.spareErase 0)).nvm.format = false) ∧ (servState.svc.running = none ∧ servState.pwr.mode = .service) := by decide

/-- An empty journal is formatted: one page in chain 0 holds CHANGEOVER of GEN 1 (R631, R632). -/
theorem test_format : (match execPageProgramDone true { servState with nvm := { size := 25, format := true } }.formatJournal with
    | .next t => some (t.nvm.used, t.nvm.recs.map (·.type), t.nvm.activeChain)
    | _ => none) = some (1, [1, 0], some (0, 1)) := by decide +kernel

def sessState (x : Session) (bytes off : Word) : State :=
  { (servState.setReg aNvmUpdBytes bytes).setReg aNvmUpdOffset off with nvm := { size := 25, sess := x } }
/-- ImageUpdates. -/
theorem test_witness_images : (let s := sessState {} 1000#32 0
      canonB s = true ∧ s.svc.running = none ∧ s.flt.lock = false ∧ s.maintMode 4 = true ∧ s.pwr.mode ≠ .quiet ∧ s.nvm.sess.busy = false ∧ s.nvm.want = none ∧
      0 < (s.reg aNvmUpdBytes).toNat ∧ (s.reg aNvmUpdBytes).toNat ≤ s.nvm.slotBytes) ∧
    (let s := sessState {} 0xFFFFFFFF#32 0
     s.nvm.slotBytes < (s.reg aNvmUpdBytes).toNat) ∧
    (let s := sessState { st := .open_, bytes := 1000 } 0 256#32
     s.nvm.sess.st = .open_ ∧ s.nvm.sess.domain = false ∧ s.maintMode 4 = true ∧ (s.reg aNvmUpdOffset).toNat % 256 = 0 ∧ (s.reg aNvmUpdOffset).toNat < s.nvm.sess.bytes ∧
     (s.reg aNvmUpdOffset).toNat / 256 ∉ s.nvm.sess.pages ∧ s.nvm.sess.busy = true) ∧
    (let s := sessState { st := .open_, domain := true, id := 4, bytes := 1000 } 0 0
     s.nvm.sess.st = .open_ ∧ s.nvm.sess.domain = true ∧ s.nvm.sess.id = 4 ∧ 768 % 768 = 0 ∧ 768 < s.nvm.sess.bytes ∧ 232 = min 768 (s.nvm.sess.bytes - 768) ∧
     768 / 256 ∉ s.nvm.sess.pages) ∧ (State.reset.maintMode 4 = false) ∧
    (let s := { sessState {} 0 0 with svc := { running := some { kind := 4, arg := 0 }, startAt := some 1000 } }
     let t : State := { s with nvm := { s.nvm with want := some { bytes := 1000 } } }
     t.svc.running = some { kind := 4, arg := 0 } ∧ t.svc.startAt = some 1000 ∧ 1000 ≤ t.grid.tick ∧ t.nvm.want = some { bytes := 1000 } ∧ t.nvm.queue.length < 64) ∧
    (∀ w ∈ [({ bytes := 9 } : Session), { bytes := 9, domain := true, id := 4 }], let s := { sessState {} 0 0 with nvm := { size := 25, want := some w } }
     s.nvm.want = some w) ∧
    (let s := sessState { st := .verifying, bytes := 256 } 0 0
     let t : State := { s with nvm := { s.nvm with op := some { kind := .program, prio := 2, use := .page 0, addr := 0 } } }
     t.nvm.sess.st = .verifying ∧ t.nvm.sess.domain = false ∧ t.nvm.op.any (fun o => o.use == .page 0) = true ∧ s.nvm.op = none ∧ s.nvm.waiting = [] ∧ s.nvm.suspended = none ∧ s.pwr.thermal = false ∧ s.nvm.size ≠ 0) := by decide

def fuseState (f : Fuses) (n : Option Nat) : State := { servState with nvm := { fuses := f, lcOpen := n } }
/-- LifeCycleAndKeys: the window is open; a transition that is allowed, one that is not; slots with and without a hash. -/
theorem test_witness_keys : (let s := fuseState { pair1 := 1, hash := [(0, some 5), (1, some 6)] } (some 990)
      canonB s = true ∧ s.pwr.mode = .service ∧ s.nvm.fuses.state = 1 ∧ bits 0x00020000#32 17 16 = 2 ∧ s.grid.tick ≤ 990 + s.fs ∧ s.domOn 79 = true ∧ s.svc.stewDown = false ∧
      s.nvm.fuses.burned 2 = false ∧ 0 ∉ s.nvm.fuses.revoked ∧ (∃ k, k < 4 ∧ k ≠ 0 ∧ s.nvm.fuses.burned k = true ∧ k ∉ s.nvm.fuses.revoked)) ∧
    (let s := fuseState {} none
     s.nvm.fuses.state = 0 ∧ s.nvm.lcOpen = none ∧ s.nvm.fuses.burned 0 = false) := by decide
theorem test_burn : (match exec (.burnHash 2) ({ fuseState {} none with nvm := { keybuf := [(0, 5)] } } : State) with
    | .next u => some (u.nvm.fuses.burned 2, u.nvm.fuses.burned 1, u.nvm.keybuf) | _ => none) = some (true, false, []) := by decide

/-! ### The recorder, the monitors, the service port -/

def trec (q sev : Nat) : TRec := { seq := q, kind := 3, sev := sev, source := 9, body := [] }
def recState (l : List Nat) : State := { runState with tly := { store := l.map (fun k => (k, some (trec k 2))), head := l.getLast?, seq := l.length } }
/-- RecorderAndCursor: a recorder whose newest record has the source of the mark. -/
theorem test_witness_recorder : (let s := recState [0, 1]
      mwf none s.tly.store = true ∧ (∀ e ∈ s.tly.store, e.1 < 2048) ∧ s.tly.head = some 1 ∧ mget none s.tly.store 1 = some (trec 1 2) ∧ (trec 1 2).kind = 3 ∧
      (trec 1 2).source = bits 0x00020009#32 15 0 ∧ bits 0x00020009#32 17 16 ≤ (trec 1 2).sev ∧ mget none s.tly.store 2 = none ∧
      (∀ j, j < 2 → (mget none s.tly.store j).isSome = true) ∧ (trec 1 2).source ≠ bits 0x00020008#32 15 0 ∧ s.tly.ready = true) := by decide
theorem full_get (r : TRec) : ∀ n a j, a ≤ j → j < a + n → mget none ((List.range' a n).map (fun k => (k, some r))) j = some r := by
  intro n
  induction n with
  | zero => intro a j h1 h2; omega
  | succ n ih =>
    intro a j h1 h2
    simp only [List.range'_succ, List.map_cons, mget]
    split
    · rfl
    · rw [if_neg (by omega)]
      exact ih (a + 1) j (by omega) (by omega)
theorem full_wf (r : TRec) : ∀ n a lo, lo ≤ a → mwfFrom none lo ((List.range' a n).map (fun k => (k, some r))) = true := by
  intro n
  induction n with
  | zero => intro a lo h; rfl
  | succ n ih => intro a lo h; simp [List.range'_succ, mwfFrom, h, ih (a + 1) (a + 1) (Nat.le_refl _)]
/-- RecorderAndCursor: a full recorder, whose records are all as severe as the mark. -/
theorem test_witness_full_recorder : ∃ s : State, mwf none s.tly.store = true ∧ (∀ e ∈ s.tly.store, e.1 < 2048) ∧
    (∀ j, j < 2048 → (mget none s.tly.store j).isSome = true) ∧ s.newest = none ∧ mget none s.tly.store 2047 = some (trec 1 2) ∧ bits 0x00020009#32 17 16 ≤ (trec 1 2).sev :=
  ⟨{ runState with tly := { store := (List.range' 0 2048).map (fun k => (k, some (trec 1 2))) } }, full_wf _ _ _ _ (Nat.le_refl _),
    by intro e he; simp only [List.mem_map, List.mem_range'_1] at he; obtain ⟨k, hk, rfl⟩ := he; exact hk.2,
    fun j hj => by rw [full_get _ _ _ _ (Nat.zero_le _) (by omega)]; rfl, rfl, full_get _ _ _ _ (by omega) (by omega), by decide⟩
theorem test_coalesce : (match exec (.tlyMark 0x00020009#32) (recState [0, 1]) with | .next u => (mget none u.tly.store 1).map (fun r => r.rep) | _ => none) = some 1 := by decide

def monState (cfg : Word) (x : Mon) : State := ({ runState with tly := { mons := [(6, x)] } } : State).setReg (aTlyMonCfg 6) cfg
/-- MonitorWindows. -/
theorem test_witness_monitors : (let s := monState 0 { ix := 1 }
      (0x80000000#32).getLsbD 31 = true ∧ s.flag (aTlyMonCfg 6) 31 = false ∧ (s.mon 6).run = false ∧ (s.mon 6).due = none) ∧
    (let s := monState 0x80000005#32 { run := true, on := true, left := 0 }
     s.flag (aTlyMonCfg 6) 31 = true ∧ ((5#32 &&& 0xBFBF1FFF#32) ||| 0x80000000#32 = s.reg (aTlyMonCfg 6)) ∧
     (((6#32 &&& 0xBFBF1FFF#32) ^^^ s.reg (aTlyMonCfg 6)) &&& 0x7FFFFFFF#32) ≠ 0 ∧ (s.mon 6).run = true ∧ (s.mon 6).on = true) ∧
    (let x : Mon := { run := true, on := true, stop := [(1000, true), (1001, false)] }
     let s := (monState 0x80000005#32 x).setReg (aTlyMonWin 6) 48#32
     s.tly.mons = [(6, x)] ∧ x.run = true ∧ (∃ e ∈ x.stop, e.1 ≤ s.grid.tick) ∧ s.fld (aTlyMonWin 6) 31 0 ≠ 0 ∧ x.left = 0) ∧
    (∀ h ∈ [({} : MonVals), { min := 1, max := 2, count := 3 }], let s := monState 0 { due := some 9, held := h }
      (s.mon 6).due = some 9) ∧ runState.inDomain = false := by decide

/-- ServicePort: the SPI end is enabled. -/
def spiState : State := runState.setFlag aSvcCfg 8 true
theorem test_witness_service_port : spiState.domOn 79 = true ∧ spiState.flag aSvcCfg 8 = true ∧ (0x40000000#32).toNat % 4 = 0 ∧
    (0x40000002#32).toNat % 4 ≠ 0 ∧ (spiState.setFlag aSvcCfg 9 true).flag aSvcCfg 9 = true ∧ (spiState.setFlag aSvcCfg 9 false).flag aSvcCfg 9 = false := by decide
theorem test_witness_port_read : ∃ u, exec (.readClear .svc 0x10000000#32 .word 0) (spiState.setFlag aSvcStat 1 false) = .next u ∧ u.svc.resp = .ok ∧
    ∃ u2, exec (.readClear .svc (0x10000000#32 + 4#32) .word 0) u = .next u2 := ⟨_, rfl, by decide, _, rfl⟩
theorem test_witness_port_write : ∃ u, exec (.registerWrite .svc 0x10000000#32 .word 5#32) (spiState.setFlag aSvcStat 1 false) = .next u ∧ u.svc.resp = .ok ∧
    ∃ u2, exec (.registerWrite .svc (0x10000000#32 + 4#32) .word 6#32) u = .next u2 ∧ u2.svc.resp = .ok := ⟨_, rfl, by decide, _, rfl, by decide⟩
theorem test_witness_param_go : (let s := nodeState
      s.domOn 79 = true ∧ s.svc.stewDown = false ∧ s.decides = true ∧ s.twin.on = false) ∧ runState.node 4 = none ∧
    (twinSt .shadow).decides = false ∧ (nodeState.setFld aSvcParamId 28 16 4).node ((nodeState.setFld aSvcParamId 28 16 4).fld aSvcParamId 28 16) = some { zoneNode with paramWords := 3 } ∧
    (nodeState.setFld aSvcParamId 28 16 4).fld aSvcParamId 15 0 < 3 := by decide

end Sys2Proof.Tests
end

section
/-!
PROOFS. Steps keep the canonical form of the state's maps.
-/

namespace Sys2Proof.Machine

/-- Every command completes and keeps what every effect keeps: one law for each arm of `exec`. -/
theorem exec_completes (c : Instr) (s : State) : Completes s (exec c s) := by
  cases c with
  | registerWrite => exact execRegisterWrite_keeps ..
  | readClear => exact execReadClear_keeps ..
  | loRead => exact execLoRead_keeps ..
  | strobe => exact execStrobe_keeps ..
  | anchoring => exact execAnchoring_keeps
  | aligned => exact execAligned_keeps
  | exchangeDescriptor => exact execExchangeDescriptor_keeps ..
  | controlSwitch => exact execControlSwitch_keeps ..
  | restart => exact execRestart_keeps ..
  | eccWordRewrite => exact execEccWordRewrite_keeps ..
  | nop => exact execNop_keeps ..
  | yield => exact execYield_keeps ..
  | cret => exact execCret_keeps ..
  | setmodeImm => exact execSetmodeImm_keeps ..
  | setmodeS => exact execSetmodeS_keeps ..
  | waits => exact execWaits_keeps ..
  | gang => exact execGang_keeps ..
  | add => exact execAdd_keeps ..
  | sub => exact execSub_keeps ..
  | and => exact execAnd_keeps ..
  | or => exact execOr_keeps ..
  | xor => exact execXor_keeps ..
  | andn => exact execAndn_keeps ..
  | shl => exact execShl_keeps ..
  | shr => exact execShr_keeps ..
  | asr => exact execAsr_keeps ..
  | min => exact execMin_keeps ..
  | max => exact execMax_keeps ..
  | minu => exact execMinu_keeps ..
  | maxu => exact execMaxu_keeps ..
  | mull => exact execMull_keeps ..
  | mulh => exact execMulh_keeps ..
  | abs => exact execAbs_keeps ..
  | neg => exact execNeg_keeps ..
  | cls => exact execCls_keeps ..
  | clz => exact execClz_keeps ..
  | cmp => exact execCmp_keeps ..
  | tst => exact execTst_keeps ..
  | addsat => exact execAddsat_keeps ..
  | subsat => exact execSubsat_keeps ..
  | addi => exact execAddi_keeps ..
  | andi => exact execAndi_keeps ..
  | ori => exact execOri_keeps ..
  | xori => exact execXori_keeps ..
  | shli => exact execShli_keeps ..
  | shri => exact execShri_keeps ..
  | asri => exact execAsri_keeps ..
  | cmpi => exact execCmpi_keeps ..
  | mini => exact execMini_keeps ..
  | maxi => exact execMaxi_keeps ..
  | ldi => exact execLdi_keeps ..
  | ldih => exact execLdih_keeps ..
  | movx => exact execMovx_keeps ..
  | b => exact execB_keeps ..
  | bal => exact execBal_keeps ..
  | br => exact execBr_keeps ..
  | loop => exact execLoop_keeps ..
  | loopi => exact execLoopi_keeps ..
  | rpt => exact execRpt_keeps ..
  | rcp => exact execRcp_keeps ..
  | rsq => exact execRsq_keeps ..
  | log2 => exact execLog2_keeps ..
  | exp2 => exact execExp2_keeps ..
  | div => exact execDiv_keeps ..
  | lds => exact execLds_keeps ..
  | sts => exact execSts_keeps ..
  | ldv => exact execLdv_keeps ..
  | stv => exact execStv_keeps ..
  | ldb => exact execLdb_keeps ..
  | ldl => exact execLdl_keeps ..
  | stl => exact execStl_keeps ..
  | ldd => exact execLdd_keeps ..
  | sta => exact execSta_keeps ..
  | lea => exact execLea_keeps ..
  | stepPtr => exact execStepPtr_keeps ..
  | mul => exact execMul_keeps ..
  | mac => exact execMac_keeps ..
  | msu => exact execMsu_keeps ..
  | cvt => exact execCvt_keeps ..
  | clr => exact execClr_keeps ..
  | lda => exact execLda_keeps ..
  | adda => exact execAdda_keeps ..
  | suba => exact execSuba_keeps ..
  | suma => exact execSuma_keeps ..
  | vadd => exact execVadd_keeps ..
  | vsub => exact execVsub_keeps ..
  | vadds => exact execVadds_keeps ..
  | vsubs => exact execVsubs_keeps ..
  | vmin => exact execVmin_keeps ..
  | vmax => exact execVmax_keeps ..
  | vabs => exact execVabs_keeps ..
  | vneg => exact execVneg_keeps ..
  | vand => exact execVand_keeps ..
  | vor => exact execVor_keeps ..
  | vxor => exact execVxor_keeps ..
  | vandn => exact execVandn_keeps ..
  | vcmpgt => exact execVcmpgt_keeps ..
  | vcmpeq => exact execVcmpeq_keeps ..
  | vmov => exact execVmov_keeps ..
  | vshl => exact execVshl_keeps ..
  | vshr => exact execVshr_keeps ..
  | vasr => exact execVasr_keeps ..
  | vshls => exact execVshls_keeps ..
  | vperm => exact execVperm_keeps ..
  | learnedFloor => exact execLearnedFloor_keeps ..
  | scnRecall => exact execScnRecall_keeps ..
  | startPass => exact execStartPass_keeps
  | audibleStart => exact execAudibleStart_keeps
  | swapPass => exact execSwapPass_keeps
  | recallComplete => exact execRecallComplete_keeps
  | coldFetch => exact execColdFetch_keeps ..
  | coldFetchLate => exact execColdFetchLate_keeps
  | hotRecordRefetch => exact execHotRecordRefetch_keeps ..
  | dealMsg => exact execDealMsg_keeps ..
  | dealDue => exact execDealDue_keeps
  | dealAck => exact execDealAck_keeps ..
  | dealAckDeadline => exact execDealAckDeadline_keeps
  | dealCancel => exact execDealCancel_keeps ..
  | cuePinEdge => exact execCuePinEdge_keeps ..
  | cuePinStale => exact execCuePinStale_keeps ..
  | timeTrigger => exact execTimeTrigger_keeps ..
  | timedCue => exact execTimedCue_keeps
  | cueMsg => exact execCueMsg_keeps ..
  | statStuck => exact execStatStuck_keeps ..
  | pulseEnd => exact execPulseEnd_keeps ..
  | portEnable => exact execPortEnable_keeps ..
  | portDisable => exact execPortDisable_keeps ..
  | portLock => exact execPortLock_keeps ..
  | runinEnd => exact execRuninEnd_keeps ..
  | portRampEnd => exact execPortRampEnd_keeps ..
  | portStop => exact execPortStop_keeps ..
  | tdmFrame => exact execTdmFrame_keeps ..
  | frameLoss => exact execFrameLoss_keeps ..
  | portStuck => exact execPortStuck_keeps ..
  | portRecovery => exact execPortRecovery_keeps ..
  | rateMeasurement => exact execRateMeasurement_keeps ..
  | nonAudioRelease => exact execNonAudioRelease_keeps ..
  | pdmEnable => exact execPdmEnable_keeps ..
  | pdmDisable => exact execPdmDisable_keeps ..
  | micEnable => exact execMicEnable_keeps ..
  | micDisable => exact execMicDisable_keeps ..
  | trimWrite => exact execTrimWrite_keeps ..
  | settleEnd => exact execSettleEnd_keeps ..
  | pdmDataStuck => exact execPdmDataStuck_keeps ..
  | pdmDataRecovery => exact execPdmDataRecovery_keeps ..
  | pdmClkStuck => exact execPdmClkStuck_keeps ..
  | pdmClkRecovery => exact execPdmClkRecovery_keeps ..
  | srcEnable => exact execSrcEnable_keeps ..
  | srcDisable => exact execSrcDisable_keeps ..
  | converterLocked => exact execConverterLocked_keeps ..
  | refBlockEnd => exact execRefBlockEnd_keeps ..
  | refEdgeLoss => exact execRefEdgeLoss_keeps ..
  | wtrExpiry => exact execWtrExpiry_keeps ..
  | refPrioWrite => exact execRefPrioWrite_keeps ..
  | clockLock => exact execClockLock_keeps ..
  | lockLoss => exact execLockLoss_keeps ..
  | holdoverAverage => exact execHoldoverAverage_keeps
  | holdoverLimit => exact execHoldoverLimit_keeps
  | clkCtrlWrite => exact execClkCtrlWrite_keeps ..
  | syncArm => exact execSyncArm_keeps ..
  | dividerSync => exact execDividerSync_keeps
  | syncInEdge => exact execSyncInEdge_keeps ..
  | refMonitor => exact execRefMonitor_keeps ..
  | coreLockLoss => exact execCoreLockLoss_keeps
  | coreFrequency => exact execCoreFrequency_keeps ..
  | netLockLoss => exact execNetLockLoss_keeps
  | linkStatus => exact execLinkStatus_keeps ..
  | ethFrame => exact execEthFrame_keeps ..
  | mdioGo => exact execMdioGo_keeps ..
  | mdioDone => exact execMdioDone_keeps ..
  | ptpSync => exact execPtpSync_keeps ..
  | followUp => exact execFollowUp_keeps ..
  | delayResp => exact execDelayResp_keeps ..
  | delayReq => exact execDelayReq_keeps ..
  | announceMsg => exact execAnnounceMsg_keeps ..
  | ptpTimeValid => exact execPtpTimeValid_keeps
  | syncTimeout => exact execSyncTimeout_keeps
  | announceTimeout => exact execAnnounceTimeout_keeps
  | syncSend => exact execSyncSend_keeps ..
  | announceSend => exact execAnnounceSend_keeps
  | delayReqSend => exact execDelayReqSend_keeps ..
  | tsetGo => exact execTsetGo_keeps ..
  | timeNsRead => exact execTimeNsRead_keeps ..
  | captureEdge => exact execCaptureEdge_keeps ..
  | capNsRead => exact execCapNsRead_keeps ..
  | igmpQuery => exact execIgmpQuery_keeps ..
  | arpRequest => exact execArpRequest_keeps ..
  | echoRequest => exact execEchoRequest_keeps ..
  | streamPacket => exact execStreamPacket_keeps ..
  | streamRamp => exact execStreamRamp_keeps ..
  | supervisionFrame => exact execSupervisionFrame_keeps
  | nodeEntryExpiry => exact execNodeEntryExpiry_keeps ..
  | raceLinkEnable => exact execRaceLinkEnable_keeps ..
  | raceFrame => exact execRaceFrame_keeps ..
  | raceSync => exact execRaceSync_keeps ..
  | raceSyncLoss => exact execRaceSyncLoss_keeps ..
  | raceCommit => exact execRaceCommit_keeps
  | channelRamp => exact execChannelRamp_keeps ..
  | joinMsg => exact execJoinMsg_keeps ..
  | admitMsg => exact execAdmitMsg_keeps ..
  | refuseMsg => exact execRefuseMsg_keeps ..
  | leaveMsg => exact execLeaveMsg_keeps ..
  | managerMsg => exact execManagerMsg_keeps ..
  | heartbeatMsg => exact execHeartbeatMsg_keeps ..
  | mirrorMsg => exact execMirrorMsg_keeps ..
  | streamsMsg => exact execStreamsMsg_keeps ..
  | streamEpoch => exact execStreamEpoch_keeps
  | tallyPull => exact execTallyPull_keeps ..
  | tallySummary => exact execTallySummary_keeps ..
  | paramMsg => exact execParamMsg_keeps ..
  | imageOpen => exact execImageOpen_keeps ..
  | imageData => exact execImageData_keeps ..
  | imageClose => exact execImageClose_keeps ..
  | imageAbort => exact execImageAbort_keeps ..
  | managerSend => exact execManagerSend_keeps
  | managerTakeover => exact execManagerTakeover_keeps
  | heartbeatSend => exact execHeartbeatSend_keeps
  | heartbeatExpiry => exact execHeartbeatExpiry_keeps ..
  | joinRetry => exact execJoinRetry_keeps
  | scrubRow => exact execScrubRow_keeps ..
  | eccRewrite => exact execEccRewrite_keeps
  | clipRestore => exact execClipRestore_keeps ..
  | tamperLow => exact execTamperLow_keeps
  | wipeDone => exact execWipeDone_keeps ..
  | marchGo => exact execMarchGo_keeps ..
  | marchRow => exact execMarchRow_keeps ..
  | marchEnd => exact execMarchEnd_keeps
  | semaphoreRead => exact execSemaphoreRead_keeps ..
  | semRelease => exact execSemRelease_keeps ..
  | busHang => exact execBusHang_keeps ..
  | domainPowerUp => exact execDomainPowerUp_keeps ..
  | faultReport => exact execFaultReport_keeps ..
  | queueDrain => exact execQueueDrain_keeps
  | injectArm => exact execInjectArm_keeps ..
  | watchdog => exact execWatchdog_keeps
  | stewardRestart => exact execStewardRestart_keeps
  | supplyMonitor => exact execSupplyMonitor_keeps ..
  | sluiceFrameEnd => exact execSluiceFrameEnd_keeps ..
  | twinStartWait => exact execTwinStartWait_keeps
  | twinStart => exact execTwinStart_keeps ..
  | peerWait => exact execPeerWait_keeps ..
  | twinSkew => exact execTwinSkew_keeps
  | twinPinStuck => exact execTwinPinStuck_keeps ..
  | digestWindow => exact execDigestWindow_keeps
  | diagnosisEnd => exact execDiagnosisEnd_keeps ..
  | twinCmdYield => exact execTwinCmdYield_keeps
  | twinCmdRejoin => exact execTwinCmdRejoin_keeps
  | twinTakeover => exact execTwinTakeover_keeps
  | rejoinReq => exact execRejoinReq_keeps
  | copyEnd => exact execCopyEnd_keeps ..
  | rejoinLimit => exact execRejoinLimit_keeps
  | powerOnReset => exact execPowerOnReset_keeps ..
  | resetN => exact execResetN_keeps
  | imageApplied => exact execImageApplied_keeps ..
  | bootFailure => exact execBootFailure_keeps
  | serviceRequest => exact execServiceRequest_keeps
  | serviceEntry => exact execServiceEntry_keeps
  | dormantRequest => exact execDormantRequest_keeps
  | dormantEntry => exact execDormantEntry_keeps
  | runRequest => exact execRunRequest_keeps
  | wakeBall => exact execWakeBall_keeps ..
  | rtcAlarm => exact execRtcAlarm_keeps
  | temperatureReading => exact execTemperatureReading_keeps ..
  | pfailLow => exact execPfailLow_keeps
  | pfailRelease => exact execPfailRelease_keeps
  | regionGated => exact execRegionGated_keeps ..
  | quietEntry => exact execQuietEntry_keeps
  | pwrQuietWrite => exact execPwrQuietWrite_keeps ..
  | pageProgramDone => exact execPageProgramDone_keeps ..
  | eraseDone => exact execEraseDone_keeps ..
  | flashReadDone => exact execFlashReadDone_keeps
  | flashTimeout => exact execFlashTimeout_keeps
  | journalCommit => exact execJournalCommit_keeps
  | compaction => exact execCompaction_keeps
  | countersRecord => exact execCountersRecord_keeps
  | updOpen => exact execUpdOpen_keeps
  | updProgram => exact execUpdProgram_keeps
  | updClose => exact execUpdClose_keeps ..
  | updAbort => exact execUpdAbort_keeps
  | lcKey => exact execLcKey_keeps ..
  | lifeCycleTransition => exact execLifeCycleTransition_keeps ..
  | burnHash => exact execBurnHash_keeps ..
  | revokeKey => exact execRevokeKey_keeps ..
  | setDomainKey => exact execSetDomainKey_keeps ..
  | clearDomainKey => exact execClearDomainKey_keeps ..
  | monitorEnable => exact execMonitorEnable_keeps ..
  | monitorDisable => exact execMonitorDisable_keeps ..
  | monitorClose => exact execMonitorClose_keeps ..
  | windowEnd => exact execWindowEnd_keeps ..
  | windowRecords => exact execWindowRecords_keeps ..
  | timeRecord => exact execTimeRecord_keeps
  | cursorSet => exact execCursorSet_keeps ..
  | cursorSearch => exact execCursorSearch_keeps ..
  | cursorReady => exact execCursorReady_keeps
  | tlyMark => exact execTlyMark_keeps ..
  | svcRead => exact execSvcRead_keeps ..
  | svcWrite => exact execSvcWrite_keeps ..
  | spiAbort => exact execSpiAbort_keeps ..
  | svcParamGo => exact execSvcParamGo_keeps ..
  | scrubSweep => exact execScrubSweep_keeps ..
  | tileRestart => exact execTileRestart_keeps ..
  | maintEnd => exact execMaintEnd_keeps
  | sluiceFrame => exact execSluiceFrame_keeps ..
  | raceLinkDisable => exact execRaceLinkDisable_keeps ..
  | tamperRelease => exact execTamperRelease_keeps

theorem State.Canonical.withPending {s : State} (h : s.Canonical) (q : List Instr) : ({ s with pending := q } : State).Canonical :=
  ⟨h.regs, h.latch, h.mem, h.imem, h.tiles, h.clusters, h.nodes, h.ports, h.srcs, h.banks, h.ecc⟩

/-- What a step to `u` is: the block idles, or the front command's effect, which keeps what every effect keeps. -/
theorem step_cases {s u : State} (h : step s = .next u) :
    (s.pending = [] ∧ u = s) ∨
      ∃ c rest, s.pending = c :: rest ∧ Keeps Counters.any { s with pending := rest } u := by
  unfold step at h
  split at h
  · next hp =>
    cases h
    exact .inl ⟨hp, rfl⟩
  · next c rest hp =>
    obtain ⟨t, ht, hk⟩ := (exec_completes c { s with pending := rest }).next
    rw [ht] at h
    cases h
    exact .inr ⟨c, rest, hp, hk⟩

/-- Settles O23: every effect keeps the canonical form, and taking a command off the queue does not touch the maps. -/
theorem stepsKeepCanonical : Obligations.StepsKeepCanonical := by
  unfold Obligations.StepsKeepCanonical
  intro s u hc h
  rcases step_cases h with ⟨-, rfl⟩ | ⟨c, rest, -, hk⟩
  · exact hc
  · exact hk.canonical (hc.withPending rest)

end Sys2Proof.Machine
end

section
/-!
PROOFS. The register interface: fields of a register, peripheral windows, reads and writes with their effects (R10 to R15).
-/

namespace Sys2Proof.Machine

/-! ## Fields of a register -/

/-- A field covers bit `k`. -/
def Fld.covers (k : Nat) (f : Fld) : Bool := decide (f.lo ≤ k) && decide (k ≤ f.hi)

/-- The field of a register that bit `k` belongs to. -/
def RegDef.fieldAt (r : RegDef) (k : Nat) : Option Fld := r.flds.find? (Fld.covers k)

/-- What the manual's register tables keep: word addresses, and fields inside the word that do not overlap. -/
structure RegDef.Wf (r : RegDef) : Prop where
  base : r.base % 4 = 0
  stride : r.stride % 4 = 0
  inWord : ∀ f ∈ r.flds, f.lo ≤ f.hi ∧ f.hi < 32
  disjoint : r.flds.Pairwise (fun f g => g.hi < f.lo)

theorem windowRegs_wf (w : Nat) : ∀ r ∈ windowRegs w, r.base % 4 = 0 ∧ r.stride % 4 = 0 ∧
    (∀ f ∈ r.flds, f.lo ≤ f.hi ∧ f.hi < 32) ∧ r.flds.Pairwise (fun f g => g.hi < f.lo) := by
  unfold windowRegs
  split
  all_goals decide

theorem regAt_wf {a : Nat} {r : RegDef} (h : regAt a = some r) : r.Wf := by
  obtain ⟨hb, hs, hw, hd⟩ := windowRegs_wf _ r (List.mem_of_find?_eq_some h)
  exact ⟨hb, hs, hw, hd⟩

theorem regAt_at {a : Nat} {r : RegDef} (h : regAt a = some r) : r.at_ a = true :=
  List.find?_some (p := fun r : RegDef => r.at_ a) h

/-- Registers lie at multiples of 4 (R10). -/
theorem regAt_aligned {a : Nat} {r : RegDef} (h : regAt a = some r) : a % 4 = 0 := by
  have hw := regAt_wf h
  have hat := regAt_at h
  have hb := hw.base
  unfold RegDef.at_ at hat
  split at hat
  · rw [beq_iff_eq] at hat
    rwa [hat]
  · simp only [Bool.and_eq_true, decide_eq_true_eq] at hat
    obtain ⟨⟨hle, hmod⟩, -⟩ := hat
    have h4 : 4 ∣ a - r.base := (Nat.dvd_of_mod_eq_zero hw.stride).trans (Nat.dvd_of_mod_eq_zero hmod)
    omega

theorem foldl_fmask_getLsbD (t : FTy) (k : Nat) (l : List Fld) (x : Word) (hw : ∀ f ∈ l, f.lo ≤ f.hi ∧ f.hi < 32) :
    (l.foldl (fun x f => if f.ty = t then x ||| fmask f.hi f.lo else x) x).getLsbD k =
      (x.getLsbD k || l.any (fun f => decide (f.ty = t) && f.covers k)) := by
  induction l generalizing x with
  | nil => simp
  | cons f l ih =>
    obtain ⟨hf, hl⟩ := List.forall_mem_cons.mp hw
    rw [List.foldl_cons, ih _ hl, List.any_cons]
    by_cases ht : f.ty = t
    · simp [ht, fmask_getLsbD _ _ _ hf.1 hf.2, Fld.covers, Bool.or_assoc]
    · simp [ht]

theorem any_covers_eq_find (t : FTy) (k : Nat) (l : List Fld) (hd : l.Pairwise (fun f g => g.hi < f.lo))
    (hw : ∀ f ∈ l, f.lo ≤ f.hi) :
    l.any (fun f => decide (f.ty = t) && f.covers k) = (l.find? (Fld.covers k)).any (fun f => decide (f.ty = t)) := by
  induction l with
  | nil => rfl
  | cons f l ih =>
    obtain ⟨hf, hl⟩ := List.pairwise_cons.mp hd
    obtain ⟨-, hwl⟩ := List.forall_mem_cons.mp hw
    rw [List.any_cons]
    by_cases hc : f.covers k = true
    · have hrest : l.any (fun g => decide (g.ty = t) && g.covers k) = false := by
        rw [List.any_eq_false]
        intro g hg
        have := hf g hg
        simp only [Fld.covers, Bool.and_eq_true, decide_eq_true_eq] at hc ⊢
        omega
      simp [hc, hrest]
    · simp [hc, ih hl hwl]

/-- Bit `k` of the mask of a field type: the field it belongs to has that type. -/
theorem RegDef.mask_getLsbD {r : RegDef} (h : r.Wf) (t : FTy) (k : Nat) :
    (r.mask t).getLsbD k = (r.fieldAt k).any (fun f => decide (f.ty = t)) := by
  unfold RegDef.mask
  rw [foldl_fmask_getLsbD t k _ _ h.inWord, any_covers_eq_find t k _ h.disjoint fun f hf => (h.inWord f hf).1]
  simp [RegDef.fieldAt]

theorem RegDef.lt_of_fieldAt {r : RegDef} (h : r.Wf) {k : Nat} {f : Fld} (hf : r.fieldAt k = some f) : k < 32 := by
  have hm := (h.inWord f (List.mem_of_find?_eq_some hf)).2
  have hc := List.find?_some hf
  simp only [Fld.covers, Bool.and_eq_true, decide_eq_true_eq] at hc
  omega

/-- The stored value of a register after its RC fields are cleared, bit by bit (R14). -/
theorem getLsbD_clearRc {r : RegDef} (h : r.Wf) (v : Word) (k : Nat) :
    (v &&& ~~~r.mask .rc).getLsbD k = match r.fieldAt k with
      | some f => (match f.ty with
        | .rc => false
        | _ => v.getLsbD k)
      | none => v.getLsbD k := by
  rw [BitVec.getLsbD_and, BitVec.getLsbD_not, RegDef.mask_getLsbD h]
  cases hf : r.fieldAt k with
  | none =>
    by_cases hk : k < 32
    · simp [hk]
    · simp [BitVec.getLsbD_of_ge v k (by omega)]
  | some f =>
    have hk := RegDef.lt_of_fieldAt h hf
    cases hty : f.ty <;> simp [hk, hty]

/-- The stored value of a register after a write, bit by bit (R14). -/
theorem getLsbD_store {r : RegDef} (h : r.Wf) (old v : Word) (k : Nat) :
    ((old &&& ~~~r.mask .rw &&& ~~~(r.mask .w1c &&& v)) ||| (v &&& r.mask .rw) ||| (v &&& r.mask .w1s)).getLsbD k =
      match r.fieldAt k with
      | some f => (match f.ty with
        | .rw => v.getLsbD k
        | .w1c => old.getLsbD k && !v.getLsbD k
        | .w1s => old.getLsbD k || v.getLsbD k
        | _ => old.getLsbD k)
      | none => old.getLsbD k := by
  simp only [BitVec.getLsbD_or, BitVec.getLsbD_and, BitVec.getLsbD_not, RegDef.mask_getLsbD h]
  cases hf : r.fieldAt k with
  | none =>
    by_cases hk : k < 32
    · simp [hk]
    · simp [BitVec.getLsbD_of_ge old k (by omega)]
  | some f =>
    have hk := RegDef.lt_of_fieldAt h hf
    cases hty : f.ty <;> simp [hk, hty]

/-! ## Accesses of a served peripheral address -/

theorem State.Serves.busRead {s : State} {m : Master} {a : Nat} {size : AccSize} (h : s.Serves m a)
    (ha : a % size.bytes = 0) (c : Nat) :
    s.busRead m c a size = (s.readReg m c (a / 4 * 4)).2.respond .ok (pick (s.readReg m c (a / 4 * 4)).1 a size) := by
  obtain ⟨hm, hs, d, hr, hd⟩ := h
  simp [State.busRead, hm, hs, hr, hd, misaligned, ha]

/-- A whole word picks itself. -/
theorem pick_word (v : Word) {a : Nat} (ha : a % 4 = 0) : pick v a .word = v := by
  simp [pick, ha, AccSize.bytes, Nat.mod_eq_of_lt v.isLt]

/-- A full read at a register address answers the register (R10). -/
theorem State.Serves.busRead_word {s : State} {m : Master} {a : Nat} (h : s.Serves m a) (ha : a % 4 = 0) (c : Nat) :
    s.busRead m c a .word = (s.readReg m c a).2.respond .ok (s.readReg m c a).1 := by
  rw [h.busRead (size := .word) ha, Nat.div_mul_cancel (Nat.dvd_of_mod_eq_zero ha), pick_word _ ha]

theorem State.Serves.busWrite {s : State} {m : Master} {a : Nat} {r : RegDef} (h : s.Serves m a)
    (hr : regAt a = some r) (v : Word) :
    s.busWrite m a .word v = (s.writeReg m a v).2.respond (s.writeReg m a v).1 0 := by
  obtain ⟨hm, hs, d, hd, ho⟩ := h
  simp [State.busWrite, hm, hs, hd, ho, misaligned, AccSize.bytes, regAt_aligned hr, hr]

theorem State.Serves.busWrite_none {s : State} {m : Master} {a : Nat} (h : s.Serves m a)
    (ha : a % 4 = 0) (hr : regAt a = none) (v : Word) : s.busWrite m a .word v = s.respond .ok 0 := by
  obtain ⟨hm, hs, d, hd, ho⟩ := h
  simp [State.busWrite, hm, hs, hd, ho, misaligned, AccSize.bytes, ha, hr]

/-- A short write of a peripheral register is an error (R10). -/
theorem State.Serves.busWrite_short {s : State} {m : Master} {a : Nat} {size : AccSize} (h : s.Serves m a)
    (hz : size ≠ .word) (v : Word) : s.busWrite m a size v = s.respond .error 0 := by
  obtain ⟨hm, hs, d, hd, ho⟩ := h
  simp [State.busWrite, hm, hs, hd, ho, hz, State.busError]

/-- In the blocks without a switch of their own, a write that is no mode request only stores. -/
theorem State.writeReg_plain {m : Master} {a : Nat} (s : State) (hw : a / 65536 ∈ [0x4000, 0x4060, 0x4070]) (ha : a ≠ aSysMode)
    (v : Word) : s.writeReg m a v = (.ok, s.storeReg a v) := by
  simp only [List.mem_cons, List.not_mem_nil, or_false] at hw
  rcases hw with h | h | h <;> simp [State.writeReg, State.writeSys, h, ha]

theorem State.storeReg_eq {s : State} {a : Nat} {r : RegDef} (hr : regAt a = some r) (v : Word) :
    s.storeReg a v =
      s.setReg a ((s.reg a &&& ~~~r.mask .rw &&& ~~~(r.mask .w1c &&& v)) ||| (v &&& r.mask .rw) ||| (v &&& r.mask .w1s)) := by
  simp [State.storeReg, hr]

/-- Settles O27: a plain write stores one word, whose bits follow the types of their fields. -/
theorem registerWriteByFieldType : Obligations.RegisterWriteByFieldType := by
  unfold Obligations.RegisterWriteByFieldType
  intro s m addr v r hc hs hr hw ha
  refine ⟨_, rfl, ?_⟩
  rw [hs.busWrite hr, State.writeReg_plain s hw ha, State.storeReg_eq hr]
  refine ⟨rfl, fun k => ?_, fun b hb => State.reg_setReg_ne hc.regs (Ne.symm hb) _, rfl⟩
  exact (congrArg (·.getLsbD k) (State.reg_setReg_self hc.regs _ _)).trans (getLsbD_store (regAt_wf hr) _ v k)

/-! ## Peripheral windows -/

/-- The peripheral windows begin at 64 Ki times 0x4000. -/
theorem windowDom_none_of_lt {a : Nat} (h : a / 65536 < 0x4000) : windowDom a = none := by
  unfold windowDom
  split <;> grind

/-- The whole word at an address lies in the same window. -/
theorem windowDom_word (a : Nat) : windowDom (a / 4 * 4) = windowDom a := by
  have h1 : a / 4 * 4 / 65536 = a / 65536 := by omega
  have h2 : a / 4 * 4 % 65536 / 0x1000 = a % 65536 / 0x1000 := by omega
  have h3 : (a / 4 * 4 % 65536 < 0x8000) = (a % 65536 < 0x8000) := propext (by omega)
  simp only [windowDom, h1, h2, h3]

theorem regionOf_eq_periph {a : Nat} {d : Option Nat} : regionOf a = .periph d ↔ windowDom a = some d := by
  by_cases hlow : a / 65536 < 0x4000
  · rw [windowDom_none_of_lt hlow]
    simp only [regionOf, windowDom_none_of_lt hlow, reduceCtorEq, iff_false]
    repeat' split
    all_goals simp
  · have h1 : ¬a < 0x10000 := by omega
    have h2 : inMpd a = false := by simp [inMpd]; omega
    have h3 : ¬(0x18000000 ≤ a ∧ a < 0x18040000) := by omega
    have h4 : ¬(0x20000000 ≤ a ∧ a < 0x21000000) := by omega
    simp only [regionOf, h1, h2, h3, h4, if_false, Bool.false_eq_true]
    cases windowDom a <;> simp

theorem State.Serves.word {s : State} {m : Master} {a : Nat} (h : s.Serves m a) : s.Serves m (a / 4 * 4) := by
  obtain ⟨hm, hs, d, hd, ho⟩ := h
  rw [regionOf_eq_periph, ← windowDom_word, ← regionOf_eq_periph] at hd
  exact ⟨hm, hs, d, hd, ho⟩

/-! ## Reads of a register -/

theorem State.readReg_none {s : State} {a : Nat} (hr : regAt a = none) (m : Master) (c : Nat) : s.readReg m c a = (0, s) := by
  simp [State.readReg, hr]

theorem pick_zero (a : Nat) (size : AccSize) : pick 0 a size = 0 := by
  simp [pick]

/-- A read at the address is neither of a time, the clock's or a captured one, nor of a semaphore, whose reads have rules of
their own (R461, R539). -/
abbrev PlainRead (a : Nat) : Prop :=
  a ≠ aPtpTimeNs ∧ (a < 0x40210084 ∨ 0x402100C0 ≤ a) ∧ (a < 0x40500100 ∨ 0x40500180 ≤ a)

theorem State.readReg_of_plain {s : State} {a : Nat} {r : RegDef} (hr : regAt a = some r) (hp : PlainRead a) (m : Master) (c : Nat) :
    s.readReg m c a = if isLatched a then (mget 0 s.latch a, s) else
      let t := if r.mask .rc = 0 then s else s.setReg a (s.reg a &&& ~~~r.mask .rc)
      (s.view a, if isLo a then { t with latch := mset 0 t.latch (a + 4) (t.view (a + 4)) } else t) := by
  obtain ⟨hns, hcap, hsem⟩ := hp
  have hcap' : ¬(0x40210084 ≤ a ∧ a < 0x402100C0 ∧ a % 16 = 4) := by omega
  have hsem' : ¬(0x40500100 ≤ a ∧ a < 0x40500180) := by omega
  simp only [State.readReg, hr, hns, hcap', hsem', if_false]

/-- A latched register answers what is latched, and nothing else happens (R15). -/
theorem State.readReg_latched {s : State} {a : Nat} {r : RegDef} (hr : regAt a = some r) (hp : PlainRead a)
    (hl : isLatched a = true) (m : Master) (c : Nat) : s.readReg m c a = (mget 0 s.latch a, s) := by
  rw [State.readReg_of_plain hr hp, if_pos hl]

/-- The state after the RC fields `rc` of the register at `a` are cleared. -/
def State.clearRc (s : State) (a : Nat) (rc : Word) : State := if rc = 0 then s else s.setReg a (s.reg a &&& ~~~rc)

theorem State.reg_clearRc {s : State} (h : mwf 0 s.regs = true) (a : Nat) (rc : Word) (b : Nat) :
    (s.clearRc a rc).reg b = if a = b then s.reg a &&& ~~~rc else s.reg b := by
  unfold State.clearRc
  split
  · next h0 =>
    subst h0
    split
    · next e =>
      subst e
      exact BitVec.and_allOnes.symm
    · rfl
  · exact State.reg_setReg h a b _

/-- A read that clears RC fields and answers touches the register file and the answer only. -/
theorem State.respond_clearRc_frame (s : State) (a : Nat) (rc : Word) (r : Resp) (v : Word) :
    ({ (s.clearRc a rc).respond r v with regs := s.regs, svc := s.svc } : State) = s := by
  unfold State.clearRc
  split <;> rfl

/-- A register of no latched pair reads as it is shown, and the read clears its RC fields (R14). -/
theorem State.readReg_unlatched {s : State} {a : Nat} {r : RegDef} (hr : regAt a = some r) (hp : PlainRead a)
    (hl : isLatched a = false) (hlo : isLo a = false) (m : Master) (c : Nat) :
    s.readReg m c a = (s.view a, s.clearRc a (r.mask .rc)) := by
  simp [State.readReg_of_plain hr hp, hl, hlo, State.clearRc]

/-- A _LO register without RC fields reads as it is shown and latches its _HI part (R15). -/
theorem State.readReg_lo {s : State} {a : Nat} {r : RegDef} (hr : regAt a = some r) (hp : PlainRead a)
    (hl : isLatched a = false) (hlo : isLo a = true) (hrc : r.mask .rc = 0) (m : Master) (c : Nat) :
    s.readReg m c a = (s.view a, { s with latch := mset 0 s.latch (a + 4) (s.view (a + 4)) }) := by
  simp [State.readReg_of_plain hr hp, hl, hlo, hrc]

/-- Settles O26: the register table lies on words; a short write never reaches a register, and a short read is the full
read of its word with some bytes picked. -/
theorem peripheralAccesses : Obligations.PeripheralAccesses := by
  unfold Obligations.PeripheralAccesses
  refine ⟨fun a r => regAt_aligned, ?_⟩
  rintro s m addr v size cycle a rfl hs ha
  simp only [exec_registerWrite, exec_readClear, execRegisterWrite, execReadClear]
  refine ⟨fun hz => ⟨_, rfl, hs.busWrite_short hz v⟩, ?_, fun hr => ?_, ?_, ?_⟩
  · rintro hr rfl
    exact ⟨_, rfl, hs.busWrite_none ha hr v⟩
  · refine ⟨_, rfl, ?_⟩
    rw [State.Answered, hs.busRead ha, State.readReg_none hr, pick_zero]
  · have hw : (BitVec.ofNat 32 (addr.toNat / 4 * 4)).toNat = addr.toNat / 4 * 4 := by
      rw [BitVec.toNat_ofNat]; omega
    rw [hw, hs.busRead ha, hs.word.busRead_word (by omega)]
    exact ⟨_, _, rfl, rfl, rfl, rfl⟩
  · rintro r hc rfl hr hlo hl h1 h2 h3
    refine ⟨_, rfl, ?_⟩
    rw [hs.busRead_word ha, State.readReg_unlatched hr ⟨h1, h2, h3⟩ hl hlo]
    refine ⟨rfl, rfl, fun k => ?_, fun b hb => ?_, ?_⟩
    · exact (congrArg (·.getLsbD k) ((State.reg_clearRc hc.regs _ _ _).trans (if_pos rfl))).trans (getLsbD_clearRc (regAt_wf hr) _ k)
    · exact (State.reg_clearRc hc.regs _ _ b).trans (if_neg (Ne.symm hb))
    · exact State.respond_clearRc_frame s _ _ _ _

/-! ## Latched halves -/

/-- The addresses of the _LO registers of R15: single ones, those of the converters, those of the monitors. -/
def loAddrs : List Nat :=
  [aSysPassLo, aClkSyncTsLo, aPtpGmidLo, aPtpClkidLo, aPtpTsetSLo, aTwinDigestLo, aTwinPeerLo, aNetMacLo 0, aNetMacLo 1] ++
    (List.range 8).map (fun c => 0x40120004 + 0x40 * c) ++ (List.range 64).map (fun m => 0x40041030 + 0x80 * m)

theorem mem_loAddrs_of_isLo {a : Nat} (h : isLo a = true) : a ∈ loAddrs := by
  simp only [isLo, Bool.or_eq_true, Bool.and_eq_true, beq_iff_eq, decide_eq_true_eq] at h
  simp only [loAddrs, List.mem_append, List.mem_cons, List.not_mem_nil, or_false, List.mem_map, List.mem_range]
  rcases h with (h | ⟨⟨hw, hlt⟩, hoff⟩) | ⟨⟨hle, hlt⟩, hoff⟩
  · exact .inl (.inl (by simpa only [or_assoc] using h))
  · exact .inl (.inr ⟨(a - 0x40120004) / 0x40, by omega, by omega⟩)
  · exact .inr ⟨(a - 0x40041030) / 0x80, by omega, by omega⟩

/-- What the tables say of a _LO register: it and its _HI register are there, no read of either has another effect, and it
is itself no _HI register. -/
theorem loAddrs_spec : ∀ a ∈ loAddrs, a % 4 = 0 ∧ a + 4 < 2 ^ 32 ∧ PlainRead a ∧ PlainRead (a + 4) ∧ isLatched a = false ∧
    (regAt a).any (fun r => decide (r.mask .rc = 0)) = true ∧ (regAt (a + 4)).isSome = true := by
  decide

/-- The register after a _LO register is latched. -/
theorem isLatched_hi {a : Nat} (h : isLo a = true) : isLatched (a + 4) = true := by
  simp [isLatched, h]

/-- A served _HI read answers what is latched (R15). -/
theorem State.Serves.busRead_hi {s : State} {m : Master} {a : Nat} (hs : s.Serves m (a + 4)) (h : isLo a = true) (c : Nat) :
    s.busRead m c (a + 4) .word = s.respond .ok (mget 0 s.latch (a + 4)) := by
  obtain ⟨h4, -, -, hp, -, -, hhi⟩ := loAddrs_spec a (mem_loAddrs_of_isLo h)
  obtain ⟨r, hr⟩ := Option.isSome_iff_exists.mp hhi
  have h4' : (a + 4) % 4 = 0 := by omega
  rw [hs.busRead_word h4', State.readReg_latched hr hp (isLatched_hi h)]

/-- A served _LO read answers the register and latches its _HI part (R15). -/
theorem State.Serves.busRead_lo {s : State} {m : Master} {a : Nat} (hs : s.Serves m a) (h : isLo a = true) (c : Nat) :
    s.busRead m c a .word =
      ({ s with latch := mset 0 s.latch (a + 4) (s.view (a + 4)) } : State).respond .ok (s.view a) := by
  obtain ⟨h4, -, hp, -, hl, hlo, -⟩ := loAddrs_spec a (mem_loAddrs_of_isLo h)
  obtain ⟨r, hr, hrc⟩ := (Option.any_eq_true _ _).mp hlo
  rw [hs.busRead_word h4, State.readReg_lo hr hp hl h (of_decide_eq_true hrc)]

/-- Whether an address is served does not hang on what is latched or was answered. -/
theorem State.Serves.respond_latch {s : State} {m : Master} {a : Nat} (h : s.Serves m a) (l : SMap Word) (r : Resp) (v : Word) :
    (({ s with latch := l } : State).respond r v).Serves m a :=
  ⟨h.master, h.steward, h.window⟩

/-- Settles O28: the _LO read puts the _HI part in the latch, and a _HI read looks nowhere else. -/
theorem latchedHalves : Obligations.LatchedHalves := by
  unfold Obligations.LatchedHalves
  intro s m lo hc hs hlo hs' _
  obtain ⟨-, hbound, -⟩ := loAddrs_spec _ (mem_loAddrs_of_isLo hlo)
  have hhi : (lo + 4#32).toNat = lo.toNat + 4 := by
    rw [BitVec.toNat_add]; exact Nat.mod_eq_of_lt hbound
  simp only [exec_readClear, exec_loRead, execReadClear, execLoRead, hlo, if_true, hhi]
  refine ⟨⟨_, rfl, ?_⟩, _, rfl, ?_⟩
  · rw [hs'.busRead_hi hlo]
    exact ⟨rfl, rfl, rfl⟩
  · rw [hs.busRead_lo hlo]
    refine ⟨rfl, rfl, mget_mset_self hc.latch, fun b hb => mget_mset_ne hc.latch (Ne.symm hb), rfl, _, rfl, ?_⟩
    rw [(hs'.respond_latch _ _ _).busRead_hi hlo]
    exact ⟨rfl, mget_mset_self hc.latch, rfl⟩

end Sys2Proof.Machine
end

section
/-!
PROOFS. The pass grid: the anchoring of the grid, and its change to ALIGNED (R38, R40).
-/

namespace Sys2Proof.Machine

/-! ## The recorder -/

/-- `u` is `s` but for what a record changes: registers, the recorder and the journal's queue. -/
def State.RecordsTo (s u : State) : Prop := ∃ regs tly nvm, u = { s with regs := regs, tly := tly, nvm := nvm }

theorem State.RecordsTo.refl (s : State) : s.RecordsTo s := ⟨_, _, _, rfl⟩

theorem State.RecordsTo.trans {s t u : State} (h : s.RecordsTo t) (g : t.RecordsTo u) : s.RecordsTo u := by
  obtain ⟨_, _, _, rfl⟩ := h
  obtain ⟨_, _, _, rfl⟩ := g
  exact ⟨_, _, _, rfl⟩

theorem State.RecordsTo.ite {s t u : State} {c : Prop} [Decidable c] (h : s.RecordsTo t) (g : s.RecordsTo u) :
    s.RecordsTo (if c then t else u) := by
  split <;> assumption

theorem State.recordsTo_count (s : State) (a hi lo k : Nat) : s.RecordsTo (s.count a hi lo k) := ⟨_, _, _, rfl⟩

theorem State.recordsTo_tlyIrq (s : State) (sev : Nat) : s.RecordsTo (s.tlyIrq sev) := .ite ⟨_, _, _, rfl⟩ (.refl s)

theorem State.recordsTo_journal (s : State) (type : Nat) (data : List Byte) : s.RecordsTo (s.journal type data) :=
  .ite ⟨_, _, _, rfl⟩ (s.recordsTo_count _ _ _ _)

theorem State.recordsTo_requeueNewest (s : State) : s.RecordsTo s.requeueNewest := by
  unfold State.requeueNewest
  split
  · exact .ite (s.recordsTo_journal _ _) (.refl s)
  · exact .refl s

theorem State.recordsTo_placeAt (s : State) (slot : Nat) (r : TRec) : s.RecordsTo (s.placeAt slot r) :=
  have store (t : State) (x : Tally) : t.RecordsTo { t with tly := x } := ⟨_, _, _, rfl⟩
  ((s.recordsTo_requeueNewest.trans (store _ _)).trans
    (.ite (State.recordsTo_journal _ _ _) (.refl _))).trans (State.recordsTo_tlyIrq _ _)

/-- A record touches the registers, the recorder and the journal's queue only (R652 to R654, R664). -/
theorem State.recordsTo_record (s : State) (kind sev : Nat) (inj : Bool) (source : Nat) (body : List Byte) :
    s.RecordsTo (s.record kind sev inj source body) := by
  have store (x : Tally) : s.RecordsTo { s with tly := x } := ⟨_, _, _, rfl⟩
  unfold State.record
  refine .ite ?_ ?_
  · split
    · exact (store _).trans (State.recordsTo_tlyIrq _ _)
    · exact .refl s
  · split
    · exact s.recordsTo_placeAt _ _
    · split
      · exact s.recordsTo_placeAt _ _
      · exact s.recordsTo_count _ _ _ _

theorem State.recordsTo_timeRec (s : State) (isLocal : Bool) (sec ns : Nat) : s.RecordsTo (s.timeRec isLocal sec ns) :=
  s.recordsTo_record _ _ _ _ _

/-! ## Anchoring -/

/-- The quotient of R38 is `x / p` rounded to the nearest integer, half a pass upwards. -/
theorem nearest_ediv (x : Int) {p : Int} (hp : 0 < p) :
    (2 * ((2 * x + p) / (2 * p)) - 1) * p ≤ 2 * x ∧ 2 * x < (2 * ((2 * x + p) / (2 * p)) + 1) * p := by
  have hdiv := Int.mul_ediv_add_emod (2 * x + p) (2 * p)
  have hlo := Int.emod_nonneg (2 * x + p) (b := 2 * p) (by omega)
  have hhi := Int.emod_lt_of_pos (2 * x + p) (b := 2 * p) (by omega)
  constructor <;> linarith

theorem State.passUnits_pos (s : State) : 0 < (s.cyc : Int) * cycleUnit := by
  unfold State.cyc
  split <;> decide

/-- With the clock of PTP selected and its time valid, K comes from the PTP time of this strobe (R38). -/
theorem State.anchorK_of_ptp {s : State} (hsel : s.clk.sel = some 3) (hv : s.net.timeValid = true) :
    s.anchorK = some (BitVec.ofInt 48 ((2 * s.strobeTime + s.cyc * cycleUnit) / (2 * (s.cyc * cycleUnit))) -
      BitVec.ofNat 48 s.grid.tick) := by
  simp [State.anchorK, State.raceRef, hsel, hv]

/-- A FREE grid takes K for the next strobe (R38). -/
theorem execAnchoring_of_free {s : State} {k : PassIx} (hk : s.anchorK = some k) (hfree : s.grid.state = .free)
    (hnone : s.grid.pendingK = none) : execAnchoring s = .next (s.updGrid fun g => { g with pendingK := some k }) := by
  simp [execAnchoring, hk, hfree, hnone]

/-! ## The change to ALIGNED -/

/-- The grid that becomes ALIGNED: no slew, and the functions of R36 run (R40). -/
def Grid.alignedNow (g : Grid) : Grid :=
  { g with state := .aligned, slewPpm := 0, fnOn := true, alignedAt := g.tick, fnFade := none }

theorem State.dealsAgain_of_nil {s : State} (h : s.scn.deals = []) (act : PassIx) : s.dealsAgain act = s := by
  simp [State.dealsAgain, h]

/-- An engine that is no twin goes from SYNC to RUN (R578). -/
theorem State.leaveSync_of_single {s : State} (hm : s.pwr.mode = .sync) (ht : s.twin.on = false) :
    s.leaveSync = ({ s with pwr := { s.pwr with mode := .run } } : State).irq 2 := by
  simp [State.leaveSync, State.setMode, hm, ht]

/-- What the first change to ALIGNED does beside the grid and the TIME record: the deals keep their times, the engine leaves
SYNC and joins its domain (R42, R63, R510, R578). -/
def State.alignedFirst (s : State) : State :=
  let t := (s.dealsAgain (s.grid.p + 1)).leaveSync
  if t.dom.st = 0 ∧ !(t.role == 3 && !t.dom.mgrSeen) then t.joinSend else t

/-- An engine without deals that is no twin and has joined its domain only goes to RUN. -/
theorem State.alignedFirst_of_joined {s : State} (hdeals : s.scn.deals = []) (hdom : s.dom.st ≠ 0) (hm : s.pwr.mode = .sync)
    (ht : s.twin.on = false) : s.alignedFirst = ({ s with pwr := { s.pwr with mode := .run } } : State).irq 2 := by
  rw [State.alignedFirst, State.dealsAgain_of_nil hdeals, State.leaveSync_of_single hm ht]
  exact if_neg fun h => hdom h.1

/-- The same seen from before the TIME record: the grid is as it was, the mode is RUN, no memory and no tile changes. -/
theorem State.RecordsTo.alignedFirst_frame {s t : State} (h : s.RecordsTo t) (hdeals : s.scn.deals = []) (hdom : s.dom.st ≠ 0)
    (hm : s.pwr.mode = .sync) (ht : s.twin.on = false) :
    t.alignedFirst.grid = s.grid ∧ t.alignedFirst.pwr = { s.pwr with mode := .run } ∧ t.alignedFirst.mem = s.mem ∧
      t.alignedFirst.tiles = s.tiles := by
  have hrun : t.alignedFirst = ({ t with pwr := { t.pwr with mode := .run } } : State).irq 2 := by
    obtain ⟨regs, tly, nvm, rfl⟩ := h
    exact State.alignedFirst_of_joined hdeals hdom hm ht
  obtain ⟨regs, tly, nvm, rfl⟩ := h
  rw [hrun]
  exact ⟨rfl, rfl, rfl, rfl⟩

/-- While the functions of R36 run already, only the grid changes. -/
theorem execAligned_of_on {s : State} (hs : s.grid.state = .slew) (hr : 1024 ≤ s.grid.alignRun) (hon : s.grid.fnOn = true)
    (hfade : s.grid.fnFade = none) : execAligned s = .next { s with grid := s.grid.alignedNow } := by
  simp [execAligned, hs, hr, hon, hfade, State.updGrid, Grid.alignedNow]

/-- While they do not run, the change is the first after an anchoring: a TIME record is written. -/
theorem execAligned_of_off {s : State} (hs : s.grid.state = .slew) (hr : 1024 ≤ s.grid.alignRun) (hoff : s.grid.fnOn = false) :
    execAligned s = .next (let a : State := { s with grid := s.grid.alignedNow }
      (a.timeRec false a.passTime.1 a.passTime.2).alignedFirst) := by
  simp only [execAligned, hs, hr, hoff, and_self, if_true, Bool.not_false, Bool.true_or]
  rfl

/-- Settles O32: K is the quotient of R38, and an ALIGNED grid without deals changes no memory and no tile. -/
theorem anchoringAndAligned : Obligations.AnchoringAndAligned := by
  unfold Obligations.AnchoringAndAligned
  intro s
  refine ⟨fun hfree hnone hsel hv => ?_, fun hs hr => ⟨fun hon hfade => ?_, fun hoff hdeals hdom hm ht => ?_⟩⟩
  · obtain ⟨hlo, hhi⟩ := nearest_ediv s.strobeTime s.passUnits_pos
    exact ⟨_, hlo, hhi, execAnchoring_of_free (State.anchorK_of_ptp hsel hv) hfree hnone⟩
  · exact execAligned_of_on hs hr hon hfade
  · exact ⟨_, execAligned_of_off hs hr hoff, (State.recordsTo_timeRec _ _ _ _).alignedFirst_frame hdeals hdom hm ht⟩

end Sys2Proof.Machine
end

section
/-!
PROOFS. Cues: messages that are acted on, the triggers of pins, times and messages, and output pulses (R204 to R209).
-/

namespace Sys2Proof.Machine

open Stated (actedOn heard)

/-! ## Messages that are acted on -/

/-- `u` is `s` but for what sending and receiving change: registers, the interfaces, the race links, an armed injection. -/
def State.LinksTo (s u : State) : Prop := ∃ regs net race flt, u = { s with regs := regs, net := net, race := race, flt := flt }

theorem State.LinksTo.refl (s : State) : s.LinksTo s := ⟨_, _, _, _, rfl⟩

theorem State.LinksTo.trans {s t u : State} (h : s.LinksTo t) (g : t.LinksTo u) : s.LinksTo u := by
  obtain ⟨_, _, _, _, rfl⟩ := h
  obtain ⟨_, _, _, _, rfl⟩ := g
  exact ⟨_, _, _, _, rfl⟩

theorem State.LinksTo.ite {s t u : State} {c : Prop} [Decidable c] (h : s.LinksTo t) (g : s.LinksTo u) :
    s.LinksTo (if c then t else u) := by
  split <;> assumption

theorem State.LinksTo.forAll {α : Type} {f : α → State → State} (hf : ∀ k t, State.LinksTo t (f k t)) (l : List α) (s : State) :
    s.LinksTo (forAll l s f) := by
  induction l generalizing s with
  | nil => exact .refl s
  | cons k l ih => exact (hf k s).trans (ih (f k s))

theorem State.linksTo_raceQueue (s : State) (k : Nat) (m : DomMsg) : s.LinksTo (s.raceQueue k m) :=
  .ite (.refl s) (.ite ⟨_, _, _, _, rfl⟩ ⟨_, _, _, _, rfl⟩)

theorem State.linksTo_netSend (s : State) (m : NetMsg) (port : Nat) : s.LinksTo (s.netSend m port) := by
  have out (t : State) (x : Net) : t.LinksTo { t with net := x } := ⟨_, _, _, _, rfl⟩
  exact .ite (.refl s) ((State.LinksTo.ite ⟨_, _, _, _, rfl⟩ (.refl s)).trans (out _ _))

theorem State.linksTo_domOut (s : State) (m : DomMsg) (udp : Bool) (except_ : Option Nat) : s.LinksTo (s.domOut m udp except_) :=
  (State.LinksTo.ite (s.linksTo_netSend _ _) (.refl s)).trans
    (.forAll (fun k t => .ite (.refl t) (t.linksTo_raceQueue k m)) _ _)

theorem State.linksTo_passOn (s : State) (h : MsgHdr) (b : MsgBody) : s.LinksTo (s.passOn h b) := by
  unfold State.passOn
  dsimp only
  cases h.link with
  | some k => exact s.linksTo_domOut _ _ _
  | none => exact .ite (.forAll (fun k t => t.linksTo_raceQueue k _) _ _) (.refl s)

/-- Taking a message from its interface touches the interfaces and the links only. -/
theorem State.linksTo_msgIn {s t : State} {h : MsgHdr} {b : MsgBody} (ht : s.msgIn h b = some t) : s.LinksTo t := by
  unfold State.msgIn at ht
  split at ht
  · cases ht
    exact .refl s
  · cases hl : h.link with
    | none =>
      rw [hl] at ht
      obtain ⟨-, he⟩ := Option.ite_none_right_eq_some.mp ht
      cases he
      exact ⟨_, _, _, _, rfl⟩
    | some k =>
      rw [hl] at ht
      obtain ⟨-, he⟩ := Option.ite_none_right_eq_some.mp ht
      cases he
      exact ⟨_, _, _, _, rfl⟩

/-- The conditions under which the engine acts on a message that its interface has brought (R503, R504). -/
structure State.Accepts (s : State) (h : MsgHdr) (b : MsgBody) : Prop where
  key : s.keyIn h.key1 = true
  runs : s.graphRuns = true
  mac : s.macOk h b = true
  near : s.timeNear h = true
  domain : ∃ d, s.domSet = some d ∧ h.domain = d.domain
  version : h.version = 1
  length : msgLen b ≤ 1024
  fresh : (seqTake (mget none s.dom.windows (winKey h.src.toNat h.own)) h.seq).1 = .fresh
  dst : s.dstMine h.dst = true

theorem State.Accepts.linksTo {s t : State} {h : MsgHdr} {b : MsgBody} (ha : s.Accepts h b) (ht : s.LinksTo t) : t.Accepts h b := by
  obtain ⟨_, _, _, _, rfl⟩ := ht
  exact ⟨ha.key, ha.runs, ha.mac, ha.near, ha.domain, ha.version, ha.length, ha.fresh, ha.dst⟩

/-- An accepted message takes its place in its source's window and is passed on (R504, R506). -/
theorem State.Accepts.domAccept {s : State} {h : MsgHdr} {b : MsgBody} (ha : s.Accepts h b) :
    ∃ w, s.domAccept h b = (true, (s.winPut (winKey h.src.toNat h.own) w).passOn h b) := by
  obtain ⟨d, hd, hdom⟩ := ha.domain
  obtain ⟨w, hw⟩ : ∃ w, seqTake (mget none s.dom.windows (winKey h.src.toNat h.own)) h.seq = (.fresh, w) := ⟨_, Prod.ext ha.fresh rfl⟩
  have hdst : ((s.winPut (winKey h.src.toNat h.own) w).passOn h b).dstMine h.dst = true := by
    obtain ⟨_, _, _, _, he⟩ := (s.winPut (winKey h.src.toNat h.own) w).linksTo_passOn h b
    rw [he]
    exact ha.dst
  refine ⟨w, ?_⟩
  simp [State.domAccept, hd, ha.key, ha.runs, ha.mac, hdom, ha.near, ha.version, Nat.not_lt.mpr ha.length, hw, hdst]

/-- A message that the engine acts on comes through an interface, while the steward runs. -/
theorem State.msgIn_of_actedOn {s : State} {h : MsgHdr} {b : MsgBody} (ha : actedOn s h b) :
    ∃ t, s.msgIn h b = some t ∧ t.svc.stewDown = false ∧ t.Accepts h b := by
  obtain ⟨hin, hst, hkey, hruns, hmac, hnear, hdom, hver, hlen, hfresh, hdst⟩ := ha
  have hacc : s.Accepts h b := ⟨hkey, hruns, hmac, hnear, hdom, hver, hlen, hfresh, hdst⟩
  obtain ⟨t, ht⟩ : ∃ t, s.msgIn h b = some t := by
    by_cases hh : h.held = true
    · exact ⟨s, by simp [State.msgIn, hh]⟩
    · rcases hin with hheld | ⟨hl, hp⟩ | ⟨k, hl, hb⟩
      · exact absurd hheld hh
      · exact ⟨_, by simp only [State.msgIn, hh, hl, hp]; rfl⟩
      · exact ⟨_, by simp only [State.msgIn, hh, hl, State.raceTake, List.contains_iff_mem.mpr hb]; rfl⟩
  have hlink := State.linksTo_msgIn ht
  have hacc' := hacc.linksTo hlink
  obtain ⟨_, _, _, _, rfl⟩ := hlink
  exact ⟨_, ht, hst, hacc'⟩

/-- The engine acts on such a message, in the state in which it was heard. -/
theorem State.onMsg_of_actedOn {s : State} {h : MsgHdr} {b : MsgBody} (ha : actedOn s h b) (f : State → State) :
    s.onMsg h b f = f (heard s h b) := by
  obtain ⟨t, ht, hst, hacc⟩ := State.msgIn_of_actedOn ha
  obtain ⟨w, hw⟩ := hacc.domAccept
  simp [State.onMsg, heard, ht, hst, hw]

/-- Hearing a message does not change the image. -/
theorem heard_image {s : State} {h : MsgHdr} {b : MsgBody} (ha : actedOn s h b) : (heard s h b).image = s.image := by
  obtain ⟨t, ht, -, hacc⟩ := State.msgIn_of_actedOn ha
  obtain ⟨w, hw⟩ := hacc.domAccept
  obtain ⟨_, _, _, _, he⟩ := (t.winPut (winKey h.src.toNat h.own) w).linksTo_passOn h b
  obtain ⟨_, _, _, _, rfl⟩ := State.linksTo_msgIn ht
  simp only [heard, ht, Option.getD_some, hw, he]
  rfl

/-! ## Recognising triggers -/

/-- The only trigger of an image is the one of index 0. -/
theorem State.trigsOf_single {s : State} {im : Image} {t : Trigger} (him : s.image = some im) (htr : im.triggers = [t])
    (p : TrigKind → Bool) : s.trigsOf p = if p t.kind then [0] else [] := by
  cases hp : p t.kind <;> simp [State.trigsOf, him, htr, hp]

theorem State.recognise_single {s : State} {im : Image} {t : Trigger} (him : s.image = some im) (htr : im.triggers = [t])
    (p : TrigKind → Bool) : s.recognise p = if p t.kind then s.hitTrig 0 else s := by
  rw [State.recognise, State.trigsOf_single him htr]
  split <;> rfl

/-- A kind that is asked for hits the only trigger. -/
theorem State.recognise_hit {s : State} {im : Image} {t : Trigger} {p : TrigKind → Bool} (him : s.image = some im)
    (htr : im.triggers = [t]) (hp : p t.kind = true) : s.recognise p = s.hitTrig 0 := by
  rw [State.recognise_single him htr, if_pos hp]

/-- How a recognised trigger acts (R206): at the end of its pass, or in a twin pair at the acting pass of the active twin. -/
theorem State.hitTrig_eq (s : State) (i : Nat) : s.hitTrig i =
    if s.twin.on = false then { s with cue := { s.cue with hits := s.cue.hits ++ [{ trig := i }] } }
    else if s.twin.st = .active then
      ({ s with cue := { s.cue with relayed := s.cue.relayed ++ [(s.acting, i)] } } : State).twinOut (.trigger i)
    else s := by
  cases hon : s.twin.on
  · simp [State.hitTrig, hon]
  · by_cases hst : s.twin.st = .active <;> simp [State.hitTrig, State.decides, hon, hst]

/-- A trigger is recognised once in a pass: the first one of a pass is added. -/
theorem State.addHit_of_nil {s : State} (h : s.cue.hits = []) (x : TrigHit) :
    s.addHit x = { s with cue := { s.cue with hits := [x] } } := by
  simp [State.addHit, h, State.updCue]

/-! ## Pins -/

/-- A pin that shows its recognised level changes nothing of CUE_PIN_IN.STATE. -/
theorem State.pinLevel_of_same {s : State} {pin : Nat} {level : Bool} (hdue : s.cue.stateDue = [])
    (hlevel : s.cue.state.getLsbD pin = level) : s.pinLevel pin level = s := by
  simp [State.pinLevel, hdue, hlevel]

/-- The edge of a level that was not recognised before: it is recorded, and the trigger is hit in its direction (R205). -/
theorem State.pinEdge_of_edge {s : State} {i dir b held : Nat} {level : Bool} (hheld : b + 1 ≤ held)
    (hold : mget 0 s.cue.edge i = if level then 1 else 2) :
    s.pinEdge i dir b held level =
      let t : State := { s with cue := { s.cue with edge := mset 0 s.cue.edge i (if level then 2 else 1) } }
      if dir = 2 ∨ (dir = 0 ∧ level = true) ∨ (dir = 1 ∧ level = false) then t.hitTrig i else t := by
  cases level <;> simp [State.pinEdge, Nat.not_lt.mpr hheld, hold, State.updCue]

theorem execCuePinEdge_single {s : State} {im : Image} {t : Trigger} {pin : Fin 16} {dir b : Nat} (him : s.image = some im)
    (htr : im.triggers = [t]) (hk : t.kind = .pinEdge pin dir b) (hs : s.cue.sampled = true) :
    execCuePinEdge pin s = .next ((s.pinLevel pin (s.cue.raw.getLsbD pin)).pinEdge 0 dir b (mget 0 s.cue.held pin)
      (s.cue.raw.getLsbD pin)) := by
  simp [execCuePinEdge, him, htr, hk, hs, State.pinHeld]

theorem execCuePinStale_single {s : State} {im : Image} {t : Trigger} {pin : Fin 16} {k : Nat} (him : s.image = some im)
    (htr : im.triggers = [t]) (hk : t.kind = .pinStale pin k) :
    execCuePinStale pin s = .next (if mget 0 s.cue.held pin = k + 1 then s.hitTrig 0 else s) := by
  simp [execCuePinStale, State.recognise_single him htr, hk, State.pinHeld]

/-- A status pin that is read back wrong for the eighth time is reported, and its trigger is hit (R207). -/
theorem execStatStuck_single {s : State} {im : Image} {t : Trigger} {o : Fin 8} (him : s.image = some im)
    (htr : im.triggers = [t]) (hk : t.kind = .statStuck o) (hbad : mget 0 s.cue.statBad o = 8) :
    execStatStuck o s = .next ((((({ s with cue := { s.cue with statBad := mset 0 s.cue.statBad o 9 } } : State).setFlag
      aCueStatFault o true)).raise 0x0F o 0 (if s.flag aCueStatOut o then 0 else 1)).hitTrig 0) := by
  have hlevel : (if (!s.flag aCueStatOut o) = true then 1 else 0) = if s.flag aCueStatOut o = true then 0 else 1 := by
    cases s.flag aCueStatOut o <;> rfl
  have hhit (f : Cues → Cues) (n : Nat) :
      ((((s.updCue f).setFlag aCueStatFault o true).raise 0x0F o 0 n).recognise fun k => k == .statStuck o.val) =
        (((s.updCue f).setFlag aCueStatFault o true).raise 0x0F o 0 n).hitTrig 0 :=
    State.recognise_hit him htr (by simp [hk])
  rw [execStatStuck, if_neg (not_not.mpr hbad)]
  exact congrArg _ ((hhit _ _).trans (by rw [hlevel]; rfl))

/-- The pin of a pulse that has run goes low (R209). -/
theorem execPulseEnd_single {s : State} {o : Fin 8} {x : Pulse} (hp : s.cue.pulses = [x]) (hx : x.pin = o.val) :
    execPulseEnd o s = .next (if x.left = 0 then
      ({ s with cue := { s.cue with pulses := [] } } : State).setFlag aCueStatOut o false else s) := by
  simp [execPulseEnd, hp, hx, State.updCue]

/-! ## Times -/

/-- A whole second begins with its own pass (R34). -/
theorem State.passOf_second (s : State) (sec : Nat) : s.passOf { sec := sec, ns := 0 } = BitVec.ofNat 48 (sec * s.fs) := by
  simp [State.passOf, ceilDiv]

theorem passDiff_self (p : PassIx) : passDiff p p = 0 := by
  simp [passDiff]

/-- The time trigger of index 0 at its pass: it is hit with its time, and is done or waits for its next period (R205). -/
theorem State.timeTrig_due {s : State} {im : Image} {t : Trigger} {sec period : Nat} (him : s.image = some im)
    (htr : im.triggers = [t]) (hk : t.kind = .time sec period) (hdone : s.cue.timeDone = []) (hhits : s.cue.hits = [])
    (hnext : mget 0 s.cue.nextTime 0 = 0) (hp : s.grid.p = BitVec.ofNat 48 (sec * s.fs)) :
    s.timeTrig 0 false =
      if period = 0 then { s with cue := { s.cue with hits := [{ trig := 0, time := some { sec := sec, ns := 0 } }], timeDone := [0] } }
      else { s with cue := { s.cue with hits := [{ trig := 0, time := some { sec := sec, ns := 0 } }],
                                        nextTime := mset 0 s.cue.nextTime 0 (1 + (sec + period)) } } := by
  have hd : passDiff (s.passOf { sec := sec, ns := 0 }) s.grid.p = 0 := by rw [State.passOf_second, hp, passDiff_self]
  obtain ⟨kind, level, rule⟩ := t
  obtain rfl : kind = .time sec period := hk
  have htrig : s.trigger 0 = some { kind := .time sec period, level := level, rule := rule } := by
    simp [State.trigger, him, htr]
  simp [State.timeTrig, htrig, hdone, hnext, hd, State.addHit_of_nil hhits, State.updCue]

/-- Before its pass it waits. -/
theorem State.timeTrig_early {s : State} {im : Image} {t : Trigger} {sec period : Nat} (him : s.image = some im)
    (htr : im.triggers = [t]) (hk : t.kind = .time sec period) (hnext : mget 0 s.cue.nextTime 0 = 0)
    (hp : 0 < passDiff (BitVec.ofNat 48 (sec * s.fs)) s.grid.p) : s.timeTrig 0 false = s := by
  rw [← State.passOf_second] at hp
  obtain ⟨kind, level, rule⟩ := t
  obtain rfl : kind = .time sec period := hk
  have htrig : s.trigger 0 = some { kind := .time sec period, level := level, rule := rule } := by
    simp [State.trigger, him, htr]
  simp [State.timeTrig, htrig, hnext, hp.ne', not_lt.mpr hp.le]

/-- In its pass a timed domain cue hits its trigger and is held no longer (R205). -/
theorem execTimedCue_due {s : State} {im : Image} {t : Trigger} {n level : Nat} {p : PtpTime} (him : s.image = some im)
    (htr : im.triggers = [t]) (hk : t.kind = .domainCue n) (ht : s.timed = true) (hc : s.cue.timedCues = [(n, level, p)])
    (hhits : s.cue.hits = []) (hp : s.grid.p = s.passOf p) :
    execTimedCue s = .next { s with cue := { s.cue with timedCues := [], hits := [{ trig := 0 }] } } := by
  let u : State := { s with cue := { s.cue with timedCues := [] } }
  have hdue : passDiff s.grid.p (s.passOf p) = 0 := by rw [hp, passDiff_self]
  have htrigs : u.trigsOf (fun k => k == .domainCue n) = [0] := by
    rw [State.trigsOf_single (s := u) him htr, hk, if_pos (beq_self_eq_true _)]
  have hstep : execTimedCue s = .next (forAll (u.trigsOf fun k => k == .domainCue n) u fun i v => v.addHit { trig := i }) := by
    simp [execTimedCue, ht, hc, hdue, State.updCue, u]
  rw [hstep, htrigs]
  exact congrArg _ (State.addHit_of_nil (s := u) hhits _)

/-! ## Domain cues -/

/-- A domain cue that the manager was sent is to be relayed (R209). -/
def State.relaysCue (s : State) (h : MsgHdr) (n level : Nat) (time : Option (Nat × Nat)) : State :=
  if s.manages = true ∧ h.dst = .manager then { s with dom := { s.dom with relays := s.dom.relays ++ [(n, level, time)] } } else s

theorem State.relaysCue_image (s : State) (h : MsgHdr) (n level : Nat) (time : Option (Nat × Nat)) :
    (s.relaysCue h n level time).image = s.image := by
  unfold State.relaysCue
  split <;> rfl

/-- A domain cue without a time hits its trigger (R205). -/
theorem execCueMsg_now {s : State} {im : Image} {t : Trigger} {h : MsgHdr} {n level : Nat} (him : s.image = some im)
    (htr : im.triggers = [t]) (hk : t.kind = .domainCue n) (ha : actedOn s h (.cue n level none)) :
    execCueMsg h n level none s = .next (((heard s h (.cue n level none)).relaysCue h n level none).hitTrig 0) := by
  have himage : ((heard s h (.cue n level none)).relaysCue h n level none).image = some im := by
    rw [State.relaysCue_image, heard_image ha, him]
  rw [execCueMsg, State.onMsg_of_actedOn ha]
  exact congrArg _ (State.recognise_hit himage htr (by simp [hk]))

/-- One with a time is held for it (R205). -/
theorem execCueMsg_timed {s : State} {h : MsgHdr} {n level sec ns : Nat} (ha : actedOn s h (.cue n level (some (sec, ns)))) :
    execCueMsg h n level (some (sec, ns)) s =
      .next (((heard s h (.cue n level (some (sec, ns)))).relaysCue h n level (some (sec, ns))).updCue fun c =>
        { c with timedCues := c.timedCues ++ [(n, level, { sec := sec, ns := ns })] }) := by
  rw [execCueMsg, State.onMsg_of_actedOn ha]
  rfl

/-! ## The statements -/

theorem cueTriggers : Stated.CueTriggers := by
  unfold Stated.CueTriggers
  intro s im t pin o h n level him htr hit
  have hhit (u : State) : u.hitTrig 0 = hit u := u.hitTrig_eq 0
  refine ⟨fun dir b hk hs hheld hsame hdue hold => ?_, fun k hk => ?_, ⟨fun ha hk => ?_, fun sec ns ha => ?_⟩, fun hk hbad => ?_⟩
  · rw [exec_cuePinEdge, execCuePinEdge_single him htr hk hs, State.pinLevel_of_same hdue hsame, State.pinEdge_of_edge hheld hold]
    simp only [hhit]
  · rw [exec_cuePinStale, execCuePinStale_single him htr hk, hhit]
  · rw [exec_cueMsg, execCueMsg_now him htr hk ha, hhit]
    rfl
  · rw [exec_cueMsg, execCueMsg_timed ha]
    rfl
  · rw [exec_statStuck, execStatStuck_single him htr hk hbad, hhit]

theorem timedTriggersAndPulses : Stated.TimedTriggersAndPulses := by
  unfold Stated.TimedTriggersAndPulses
  intro s im t o sec period n level p him htr
  refine ⟨fun ht hk hdone hhits hnext => ⟨fun hp => ?_, fun hp => ?_⟩, fun ht hk hc hhits hp => ?_, fun x hp hx => ?_⟩
  · rw [exec_timeTrigger, execTimeTrigger, if_pos ht]
    exact congrArg _ (State.timeTrig_due him htr hk hdone hhits hnext hp)
  · rw [exec_timeTrigger, execTimeTrigger, if_pos ht]
    exact congrArg _ (State.timeTrig_early him htr hk hnext hp)
  · exact execTimedCue_due him htr hk ht hc hhits hp
  · exact execPulseEnd_single hp hx

/-- Settles O39: each event recognises the image's only trigger, or holds it for its time. -/
theorem cues : Obligations.Cues :=
  ⟨cueTriggers, timedTriggersAndPulses⟩

end Sys2Proof.Machine
end

section
/-!
PROOFS. The switch to the control context (R101, R320 to R322).
-/

namespace Sys2Proof.Machine

/-! ## The control bank at a handler's entry -/

/-- A bank with no loops and MODE 0. -/
def Bank.fresh (b : Bank) : Bank := { b.setLoops [] with mode := 0 }

/-- The control bank as a handler of node `nd` finds it: the node's pointers, s15, no loops, MODE 0 (R320, R322). -/
def Bank.forHandler (b : Bank) (nd : NodeRec) : Bank :=
  [RegWrite.p 0 (BitVec.ofNat 17 nd.stateAddr), .p 1 (BitVec.ofNat 17 nd.paramAddr),
    .p 2 (BitVec.ofNat 17 nd.coefAddr), .s 15 0x7FF#32].foldl applyWrite b.fresh

theorem Bank.Canonical.fresh {b : Bank} (h : b.Canonical) : b.fresh.Canonical := (h.setLoops []).withMode 0

theorem Bank.getP_applyWrite_p {b : Bank} (h : b.Canonical) (i j : Fin 8) (x : BitVec 17) :
    (applyWrite b (.p i x)).getP j = if i = j then x else b.getP j := by
  have key := mget_mset h.p i j x
  simp only [Fin.val_inj] at key
  exact key

theorem Bank.getS_applyWrite_s {b : Bank} (h : b.Canonical) (i j : Fin 16) (x : Word) :
    (applyWrite b (.s i x)).getS j = if i = j then x else b.getS j := by
  have key := mget_mset h.s i j x
  simp only [Fin.val_inj] at key
  exact key

theorem Bank.getP_applyWrite_s (b : Bank) (i : Fin 16) (j : Fin 8) (x : Word) : (applyWrite b (.s i x)).getP j = b.getP j := rfl

theorem Bank.getS_applyWrite_p (b : Bank) (i : Fin 8) (j : Fin 16) (x : BitVec 17) : (applyWrite b (.p i x)).getS j = b.getS j := rfl

theorem Bank.getS_fresh (b : Bank) (i : Fin 16) : b.fresh.getS i = b.getS i := rfl

/-- The three pointers of a handler's node. -/
theorem Bank.forHandler_pointers {b : Bank} (h : b.Canonical) (nd : NodeRec) :
    (b.forHandler nd).getP 0 = BitVec.ofNat 17 nd.stateAddr ∧ (b.forHandler nd).getP 1 = BitVec.ofNat 17 nd.paramAddr ∧
      (b.forHandler nd).getP 2 = BitVec.ofNat 17 nd.coefAddr := by
  have h1 := h.fresh.applyWrite
  have h2 (u w : RegWrite) := (h1 u).applyWrite w
  simp [Bank.forHandler, Bank.getP_applyWrite_s, Bank.getP_applyWrite_p, h.fresh, h1, h2]

theorem Bank.forHandler_getS {b : Bank} (h : b.Canonical) (nd : NodeRec) (i : Fin 16) :
    (b.forHandler nd).getS i = if 15 = i then 0x7FF#32 else b.getS i := by
  have h3 (u v w : RegWrite) := ((h.fresh.applyWrite u).applyWrite v).applyWrite w
  simp [Bank.forHandler, Bank.getS_applyWrite_s, Bank.getS_applyWrite_p, Bank.getS_fresh, h3]

/-! ## The tile after the switch -/

/-- A tile that no WAITS holds enters the control context for run `r` of node `nd`, and the switch takes a cycle. -/
def Tile.entersControl (t : Tile) (r : HRun) (rest : List HRun) (nd : NodeRec) : Tile :=
  ({ t with ctx := true, handler := r.inst, runs := rest, ctl := t.ctl.forHandler nd,
            cf := { issued := t.cf.issued, pc := nd.ctrlEntry } } : Tile).spend 1

theorem Tile.deferRuns_deferred (t : Tile) :
    t.deferRuns.deferred = min 65535 (t.deferred + (t.runs.filter (fun x => !x.deferred)).length) := by
  unfold Tile.deferRuns satAdd
  simp only
  split <;> omega

theorem State.monitor_of_none {s : State} (h : s.tly.mons = []) (src arg : Nat) (v : Int) : s.monitor src arg v = s := by
  unfold State.monitor
  rw [h, List.foldl_nil]

/-! ## The command -/

/-- The sample program of tile `n` stands between two bundles, with no control transfer, repeat, WAITS or GANG under way, and
its first pending run is `r`, of node `nd`, with `rest` behind it. -/
structure State.HandlerWaits (s : State) (n : TileNo) (r : HRun) (rest : List HRun) (nd : NodeRec) : Prop where
  on : s.domOn n = true
  bundles : s.isLib n = false
  sample : (s.tile n).ctx = false
  closed : (s.tile n).bufOpen = false
  running : (s.tile n).run = .running
  noBranch : (s.tile n).sf.br = none
  noSkip : (s.tile n).sf.skip = none
  noRpt : (s.tile n).sf.rpt = none
  noWait : (s.tile n).sf.wait = none
  noGang : (s.cluster (n / 8)).gang = none
  noArrived : (s.cluster (n / 8)).arrived = []
  noCret : (s.tile n).afterCret = false
  noMons : s.tly.mons = []
  waits : (s.tile n).runs = r :: rest
  known : s.node r.inst = some nd

/-- A ganged section of the pass is still to come: no handler starts (R101). -/
theorem execControlSwitch_held {s : State} {n : TileNo} (spent : Nat)
    (hg : (s.cluster (n / 8)).gangsDone < (s.cluster (n / 8)).gangs.length) : execControlSwitch n spent s = .next s := by
  unfold execControlSwitch
  simp [Nat.not_le.mpr hg]

/-- After the last ganged section the first run enters, or it and those behind it are deferred (R320 to R322). -/
theorem State.HandlerWaits.switches {s : State} {n : TileNo} {r : HRun} {rest : List HRun} {nd : NodeRec}
    (h : s.HandlerWaits n r rest nd) (spent : Nat) (hg : (s.cluster (n / 8)).gangs.length ≤ (s.cluster (n / 8)).gangsDone) :
    execControlSwitch n spent s = .next (s.setTile n
      (if s.allowance < (s.tile n).ctlCyc + nd.ctrlCost + 2 then (s.tile n).deferRuns else (s.tile n).entersControl r rest nd)) := by
  unfold execControlSwitch
  refine congrArg _ ((if_neg ?_).trans ?_)
  · simp [h.on, h.bundles, h.sample, h.closed, h.running, h.noBranch, h.noSkip, h.noRpt, h.noGang, h.noArrived, h.noCret, hg]
  simp only [h.waits, h.known, h.noWait]
  split
  · rfl
  · rw [State.monitor_of_none (s := s.setTile _ _) h.noMons]
    rfl

/-- Settles O20: a ganged section to come leaves the state alone; after the last one the first run enters, or all are
deferred, and only the tile changes. -/
theorem controlSwitch : Obligations.ControlSwitch := by
  unfold Obligations.ControlSwitch
  intro s t spent r rest nd hc h1 h2 h3 h4 h5 h6 h7 h8 h9 h10 h11 h12 h13 h14 h15
  have h : s.HandlerWaits t r rest nd := ⟨h1, h2, h3, h4, h5, h6, h7, h8, h9, h10, h11, h12, h13, h14, h15⟩
  rw [exec_controlSwitch]
  refine ⟨execControlSwitch_held spent, fun hg => ⟨_, h.switches spent hg, ?_, rfl, ?_⟩⟩
  · intro m hm
    rw [State.tile_setTile hc.tiles, if_neg hm.symm]
  rw [State.tile_setTile hc.tiles, if_pos rfl]
  split
  · exact ⟨rfl, rfl, rfl, h.sample, rfl, Tile.deferRuns_deferred _⟩
  · have hb := (hc.banks t).ctl
    obtain ⟨hp0, hp1, hp2⟩ := Bank.forHandler_pointers hb nd
    exact ⟨rfl, rfl, rfl, rfl, rfl, rfl, rfl, rfl, hp0, hp1, hp2, Bank.forHandler_getS hb nd 15, rfl, rfl,
      fun i hi => (Bank.forHandler_getS hb nd i).trans (if_neg hi.symm)⟩

end Sys2Proof.Machine
end

section
/-!
PROOFS. The exchange: a descriptor whose element meets an error response (R540).
-/

namespace Sys2Proof.Machine

/-- A plain descriptor of one word, from tile 3 to tile 4. -/
def wordDesc : XDesc := { mark := 0, kind := 0, src := 0x200C0000, dst := 0x20100FFC, count := 1 }

/-- Cluster 0 is about to run `wordDesc`, and the power domain of the source, tile 3, is off. -/
def sourceOff : State :=
  { pwr := { mode := .run, dom := [(4, .on), (64, .on), (79, .on)] }, clusters := [(0, { descs := [wordDesc] })] }

theorem sourceOff_canonical : sourceOff.Canonical :=
  { regs := rfl, latch := rfl, mem := rfl, imem := rfl, tiles := rfl, clusters := by decide, nodes := rfl, ports := rfl,
    srcs := rfl, banks := fun _ => .empty, ecc := rfl }

/-- The error response is reported: SRC 0x0D of cluster 0 with DETAIL 1 (R540). -/
theorem sourceOff_reports : ∃ u, execExchangeDescriptor 0 sourceOff = .next u ∧
    u.flt.raised = [{ src := 0x0D, unit := 0, cls := 1, detail := 1, pass := 0 }] :=
  ⟨_, rfl, by decide⟩

/-- Refutes O33: the statement keeps the fault collector's state for every descriptor, but an element whose source tile is
off meets an error response, and its cluster raises a report. -/
theorem not_exchangeDescriptor : ¬ Obligations.ExchangeDescriptor := by
  unfold Obligations.ExchangeDescriptor
  intro h
  obtain ⟨u, hu, -, -, -, hflt, -, -⟩ := h sourceOff 0 wordDesc [] 0x200C0000 0x20100FFC sourceOff_canonical (by decide)
    (by decide) (by decide) rfl rfl rfl rfl rfl rfl (by decide) (by decide) rfl rfl rfl rfl rfl rfl
  obtain ⟨v, hv, hraised⟩ := sourceOff_reports
  rw [exec_exchangeDescriptor, hv] at hu
  obtain rfl : v = u := by injection hu
  rw [hflt] at hraised
  exact absurd hraised (by decide)

end Sys2Proof.Machine
end

section
/-!
PROOFS. The hourly learned floor of a zone gain (R154).
-/

namespace Sys2Proof.Machine

/-! ## Bytes and words of memory -/

theorem mget_memPut {m : List Host.Cell} (h : Memory.wf m) (a : Nat) (bs : List Byte) (b : Nat) :
    mget 0 (memPut m a bs) b = if a ≤ b then (bs[b - a]?).getD (mget 0 m b) else mget 0 m b := by
  induction bs generalizing m a with
  | nil => simp [memPut]
  | cons c bs ih =>
    rw [memPut, ih (mwf_mset h), mget_mset h]
    rcases Nat.lt_trichotomy a b with hlt | rfl | hgt
    · have hsub : b - a = b - (a + 1) + 1 := by omega
      simp [Nat.succ_le_of_lt hlt, hlt.le, hlt.ne, hsub]
    · simp
    · simp [show ¬a ≤ b by omega, show ¬a + 1 ≤ b by omega, show ¬a = b by omega]

/-- `u` is `s` but for what a write of memory marks: error marks, an armed injection, the dirty blocks of a copy. -/
def State.MarksTo (s u : State) : Prop := ∃ ms flt twin, u = { s with ms := ms, flt := flt, twin := twin }

theorem State.MarksTo.refl (s : State) : s.MarksTo s := ⟨_, _, _, rfl⟩

theorem State.MarksTo.trans {s t u : State} (h : s.MarksTo t) (g : t.MarksTo u) : s.MarksTo u := by
  obtain ⟨_, _, _, rfl⟩ := h
  obtain ⟨_, _, _, rfl⟩ := g
  exact ⟨_, _, _, rfl⟩

theorem State.MarksTo.ite {s t u : State} {c : Prop} [Decidable c] (h : s.MarksTo t) (g : s.MarksTo u) :
    s.MarksTo (if c then t else u) := by
  split <;> assumption

theorem State.marksTo_eccWrite (s : State) (l : List Nat) : s.MarksTo (s.eccWrite l) := by
  induction l generalizing s with
  | nil => exact .refl s
  | cons w l ih => exact .trans ⟨_, _, _, rfl⟩ (ih _)

theorem State.marksTo_markDirty (s : State) (a n : Nat) : s.MarksTo (s.markDirty a n) := .ite (.refl s) ⟨_, _, _, rfl⟩

/-- A write of memory puts the bytes and marks. -/
theorem State.marksTo_wrBytes (s : State) (a : Nat) (bs : List Byte) :
    ({ s with mem := memPut s.mem a bs } : State).MarksTo (s.wrBytes a bs) :=
  have h := State.marksTo_markDirty { s with mem := memPut s.mem a bs } a bs.length
  .ite h (h.trans (State.marksTo_eccWrite _ _))

@[simp] theorem State.wrBytes_mem (s : State) (a : Nat) (bs : List Byte) : (s.wrBytes a bs).mem = memPut s.mem a bs := by
  obtain ⟨_, _, _, e⟩ := s.marksTo_wrBytes a bs; rw [e]

@[simp] theorem State.wrBytes_nodes (s : State) (a : Nat) (bs : List Byte) : (s.wrBytes a bs).nodes = s.nodes := by
  obtain ⟨_, _, _, e⟩ := s.marksTo_wrBytes a bs; rw [e]

@[simp] theorem State.wrBytes_nvm (s : State) (a : Nat) (bs : List Byte) : (s.wrBytes a bs).nvm = s.nvm := by
  obtain ⟨_, _, _, e⟩ := s.marksTo_wrBytes a bs; rw [e]

@[simp] theorem State.wrBytes_regs (s : State) (a : Nat) (bs : List Byte) : (s.wrBytes a bs).regs = s.regs := by
  obtain ⟨_, _, _, e⟩ := s.marksTo_wrBytes a bs; rw [e]

@[simp] theorem State.wrBytes_tiles (s : State) (a : Nat) (bs : List Byte) : (s.wrBytes a bs).tiles = s.tiles := by
  obtain ⟨_, _, _, e⟩ := s.marksTo_wrBytes a bs; rw [e]

theorem State.rdB_wrBytes {s : State} (h : Memory.wf s.mem) (a : Nat) (bs : List Byte) (b : Nat) :
    (s.wrBytes a bs).rdB b = if a ≤ b then (bs[b - a]?).getD (s.rdB b) else s.rdB b := by
  rw [State.rdB, State.wrBytes_mem]
  exact mget_memPut h a bs b

theorem State.rdBytes_eq_map (s : State) (a n : Nat) : s.rdBytes a n = (List.range n).map (fun i => s.rdB (a + i)) := by
  induction n generalizing a with
  | zero => rfl
  | succ n ih =>
    rw [State.rdBytes, ih, List.range_succ_eq_map]
    simp [Function.comp_def, Nat.add_assoc, Nat.add_comm 1]

/-- Bytes read where they were written are the bytes written. -/
theorem State.rdBytes_wrBytes {s : State} (h : Memory.wf s.mem) (a : Nat) (bs : List Byte) :
    (s.wrBytes a bs).rdBytes a bs.length = bs := by
  rw [State.rdBytes_eq_map]
  refine List.ext_getElem (by simp) fun i _ hi => ?_
  simp [State.rdB_wrBytes h, hi]

theorem leBytes_length (n x : Nat) : (leBytes n x).length = n := by
  induction n generalizing x with
  | zero => rfl
  | succ n ih => simp [leBytes, ih]

theorem leNat_leBytes (n x : Nat) : leNat (leBytes n x) = x % 256 ^ n := by
  induction n generalizing x with
  | zero => simp [leBytes, leNat, Nat.mod_one]
  | succ n ih =>
    have hbyte : (BitVec.ofNat 8 x).toNat = x % 256 := BitVec.toNat_ofNat x 8
    rw [leBytes, leNat, ih, hbyte, pow_succ', Nat.mod_mul]

/-- A word read where it was written is the word written. -/
theorem State.rd32_wr32 {s : State} (h : Memory.wf s.mem) (a : Nat) (v : Word) : (s.wr32 a v).rd32 a = v := by
  have hb := State.rdBytes_wrBytes h a (leBytes 4 v.toNat)
  rw [leBytes_length] at hb
  have hv : v.toNat % 256 ^ 4 = v.toNat := Nat.mod_eq_of_lt v.isLt
  rw [State.rd32, State.wr32, hb, leNat_leBytes, hv, BitVec.ofNat_toNat, BitVec.setWidth_eq]

/-- The bytes outside a written word are as before. -/
theorem State.rdB_wr32_ne {s : State} (h : Memory.wf s.mem) {a b : Nat} (hb : b < a ∨ a + 4 ≤ b) (v : Word) :
    (s.wr32 a v).rdB b = s.rdB b := by
  rw [State.wr32, State.rdB_wrBytes h]
  split
  · rw [List.getElem?_eq_none (by rw [leBytes_length]; omega)]
    rfl
  · rfl

/-! ## The recorder and the nodes -/

theorem State.journal_of_lt {s : State} (h : s.nvm.queue.length < 64) (type : Nat) (data : List Byte) :
    s.journal type data = { s with nvm := { s.nvm with queue := s.nvm.queue ++ [{ type := type, data := data }] } } :=
  if_pos h

theorem State.nodeSt_setNodeSt {s : State} (h : mwf {} s.nodes = true) (i j : Nat) (x : NodeSt) :
    (s.setNodeSt i x).nodeSt j = if i = j then x else s.nodeSt j :=
  mget_mset h i j x

/-! ## The command -/

/-- A zone gain's state at the start of an hour: the estimate is the lowest so far, and no handler run is counted (R154). -/
def NodeSt.newHour (x : NodeSt) : NodeSt := x.put (msetAll 0 x.w [(5, mget 0 x.w 0), (6, 0)])

theorem NodeSt.newHour_get {x : NodeSt} (h : mwf 0 x.w = true) (k : Nat) :
    mget 0 x.newHour.w k = if k = 6 then 0 else if k = 5 then mget 0 x.w 0 else mget 0 x.w k := by
  simp only [NodeSt.newHour, NodeSt.put, msetAll, mget_mset (mwf_mset h), mget_mset h, eq_comm (b := k)]

/-- The learned-floor record of the journal: image, node, floor (R154). -/
def floorRecord (im : Image) (inst : Nat) (low : Int) : List Byte :=
  leBytes 8 im.build ++ leBytes 2 inst ++ leBytes 2 (low % 65536).toNat

/-- The lowest estimate of the hour becomes LEARNED, and the next hour begins (R154). -/
def State.takeFloor (s : State) (inst : Nat) (r : NodeRec) : State :=
  (s.setNodeSt inst (s.nodeSt inst).newHour).wr32 (coefAddrOn r (nodeTile r) 0) (word16 (mget 0 (s.nodeSt inst).w 5))

theorem State.takeFloor_nodeSt {s : State} (h : mwf {} s.nodes = true) (inst : Nat) (r : NodeRec) (j : Nat) :
    (s.takeFloor inst r).nodeSt j = if inst = j then (s.nodeSt inst).newHour else s.nodeSt j := by
  rw [State.nodeSt, State.takeFloor, State.wr32, State.wrBytes_nodes]
  exact State.nodeSt_setNodeSt h inst j _

/-- The command on a zone gain of the library: nothing before the hour is over; then the floor is taken and journalled. -/
theorem execLearnedFloor_of_zone {s : State} {inst : Nat} {r : NodeRec} {im : Image} (hr : s.node inst = some r)
    (him : s.image = some im) (ht : r.type = 0x0C) (hcu : r.custom = false) :
    execLearnedFloor inst s = .next (if 3600 * s.fs / 64 ≤ mget 0 (s.nodeSt inst).w 6
      then (s.takeFloor inst r).journal 5 (floorRecord im inst (mget 0 (s.nodeSt inst).w 5)) else s) := by
  simp only [execLearnedFloor, hr, him, ht, hcu, hourOver, ne_eq, not_true, Bool.false_eq_true, false_or, decide_eq_false_iff_not,
    ite_not]
  rfl

/-- Settles O34: before the hour is over the state stays; then the node, the word LEARNED and the queue change. -/
theorem learnedFloor : Obligations.LearnedFloor := by
  unfold Obligations.LearnedFloor
  intro s inst r im hc hr him ht hcu hq hw w low a
  rw [exec_learnedFloor, execLearnedFloor_of_zone hr him ht hcu]
  refine ⟨fun hlt => by rw [if_neg (not_le.mpr hlt)], fun hle => ?_⟩
  have hnvm : (s.takeFloor inst r).nvm = s.nvm := State.wrBytes_nvm _ _ _
  have hmem : Memory.wf (s.setNodeSt inst (s.nodeSt inst).newHour).mem := hc.mem
  have hnode := State.takeFloor_nodeSt hc.nodes inst r
  have hword (k : Nat) : mget 0 ((s.takeFloor inst r).nodeSt inst).w k =
      if k = 6 then 0 else if k = 5 then mget 0 w 0 else mget 0 w k := by
    rw [hnode, if_pos rfl, NodeSt.newHour_get hw]
  rw [if_pos hle, State.journal_of_lt (by rwa [hnvm])]
  exact ⟨_, rfl, State.rd32_wr32 hmem a _, fun b hb => State.rdB_wr32_ne hmem hb _, hword 0, hword 5, hword 6,
    congrArg (·.queue ++ _) hnvm, fun j hj => (hnode j).trans (if_neg hj.symm), State.wrBytes_regs _ _ _, State.wrBytes_tiles _ _ _⟩

end Sys2Proof.Machine
end

section
/-!
PROOFS. A record of the recorder and the scenes: neither touches the other.
-/

namespace Sys2Proof.Machine

section
variable (s : State) (f : Scenes → Scenes)

theorem State.updScn_count (a hi lo k : Nat) : (s.updScn f).count a hi lo k = (s.count a hi lo k).updScn f := rfl

theorem State.updScn_ite (c : Prop) [Decidable c] (t u : State) : (if c then t else u).updScn f = if c then t.updScn f else u.updScn f :=
  apply_ite (·.updScn f) c t u

theorem State.updScn_journal (type : Nat) (data : List Byte) :
    (s.updScn f).journal type data = (s.journal type data).updScn f := by
  rw [State.journal, State.journal, State.updScn_ite]
  rfl

theorem State.updScn_tlyIrq (sev : Nat) : (s.updScn f).tlyIrq sev = (s.tlyIrq sev).updScn f := by
  rw [State.tlyIrq, State.tlyIrq, State.updScn_ite]
  rfl

theorem State.updScn_newest : (s.updScn f).newest = s.newest := rfl

theorem State.updScn_requeueNewest : (s.updScn f).requeueNewest = s.requeueNewest.updScn f := by
  unfold State.requeueNewest
  rw [State.updScn_newest]
  cases s.newest with
  | none => rfl
  | some r => simp only [State.updScn_ite, State.updScn_journal, State.updScn_tly]

theorem State.updScn_placeAt (slot : Nat) (r : TRec) : (s.updScn f).placeAt slot r = (s.placeAt slot r).updScn f := by
  have hstore (t : State) (x : Tally) : ({ t.updScn f with tly := x } : State) = ({ t with tly := x } : State).updScn f := rfl
  simp only [State.placeAt, State.updScn_requeueNewest, State.updScn_tly, hstore, State.updScn_journal, ← State.updScn_ite,
    State.updScn_tlyIrq]

theorem State.updScn_record (kind sev : Nat) (inj : Bool) (source : Nat) (body : List Byte) :
    (s.updScn f).record kind sev inj source body = (s.record kind sev inj source body).updScn f := by
  have hstore (x : Tally) : ({ s.updScn f with tly := x } : State) = ({ s with tly := x } : State).updScn f := rfl
  simp only [State.record, State.updScn_newest, State.updScn_tly, hstore, State.updScn_tlyIrq, State.updScn_placeAt,
    State.updScn_count, State.updScn_ite]
  refine if_congr .rfl ?_ ?_
  · cases s.tly.head with
    | none => rfl
    | some _ => cases s.newest <;> rfl
  · cases emptySlot s.tly.store 0 with
    | some _ => rfl
    | none => cases oldestSlot ((s.tly.seq + 2 ^ 32 - 1) % 2 ^ 32) sev s.tly.store <;> rfl

theorem State.updScn_event (sev addr low high value detail : Nat) :
    (s.updScn f).event sev addr low high value detail = (s.event sev addr low high value detail).updScn f :=
  s.updScn_record f _ _ _ _ _

theorem State.recordsTo_event (sev addr low high value detail : Nat) : s.RecordsTo (s.event sev addr low high value detail) :=
  s.recordsTo_record _ _ _ _ _

@[simp] theorem State.event_scn (sev addr low high value detail : Nat) : (s.event sev addr low high value detail).scn = s.scn := by
  obtain ⟨_, _, _, e⟩ := s.recordsTo_event sev addr low high value detail; rw [e]

end

/-- What each step of a fold does to the state, when it holds of doing nothing and of one step after another, the fold does. -/
theorem State.foldl_related {α : Type} {R : State → State → Prop} (refl : ∀ t, R t t) (trans : ∀ {t u v}, R t u → R u v → R t v)
    {f : State → α → State} (hf : ∀ t a, R t (f t a)) (l : List α) (s : State) : R s (l.foldl f s) := by
  induction l generalizing s with
  | nil => exact refl s
  | cons a l ih => exact trans (hf s a) (ih _)

theorem State.RecordsTo.foldl {α : Type} {f : State → α → State} (hf : ∀ t a, State.RecordsTo t (f t a)) (l : List α) (s : State) :
    s.RecordsTo (l.foldl f s) :=
  State.foldl_related .refl .trans hf l s

theorem State.RecordsTo.scn_eq {s u : State} (h : s.RecordsTo u) : u.scn = s.scn := by
  obtain ⟨_, _, _, rfl⟩ := h; rfl

end Sys2Proof.Machine
end

section
/-!
PROOFS. Deals: received, held, cancelled, answered and entered (R198 to R203).
-/

namespace Sys2Proof.Machine

open Stated (actedOn heard)

/-! ## Deals received -/

theorem execDealMsg_of_actedOn {s : State} {h : MsgHdr} {d : DealMsg} (ha : actedOn s h (.deal d)) :
    execDealMsg h d s = .next ((heard s h (.deal d)).takeDeal d) := by
  rw [execDealMsg, State.onMsg_of_actedOn ha]

section
variable {s : State} {d : DealMsg}

/-- The engine has seen a deal of this identifier (R203). -/
def State.seenDeal (s : State) (d : DealMsg) : Prop := ∃ x ∈ s.scn.recentDeals, x.1 = d.id.toNat

theorem State.seenDeal_iff : s.scn.recentDeals.any (fun e => e.1 == d.id.toNat) = true ↔ s.seenDeal d := by
  simp [State.seenDeal]

theorem State.takeDeal_of_ignored (h : s.dealMine d = false ∨ s.seenDeal d) : s.takeDeal d = s :=
  if_pos (h.imp (by simp [·]) State.seenDeal_iff.mpr)

/-- A deal that the engine holds from now on, its request due in pass `q`: one whose pass has gone is due in the next one. -/
def State.heldDeal (s : State) (d : DealMsg) (c : SceneRec) (q : PassIx) : Deal :=
  let gone := s.grid.fnOn && decide (passDiff q s.grid.p < 0)
  { id := d.id.toNat, scene := d.scene, priority := d.prio, xf := d.xf, time := { sec := d.sec, ns := d.ns },
    s := if gone then none else some (s.passOf { sec := d.sec, ns := d.ns }), due := some (if gone then s.grid.p + 1 else q), staged := c.hot }

/-- The engine holds a deal, and answers it unless its record is still to be fetched (R199, R200, R202). -/
def State.holdDeal (s : State) (d : DealMsg) (c : SceneRec) (q : PassIx) : State :=
  let p := s.passOf { sec := d.sec, ns := d.ns }
  let kept := s.updScn fun x => { x with deals := x.deals ++ [s.heldDeal d c q],
                                         recentDeals := recentWith d.id.toNat d.scene p x.recentDeals }
  if c.hot = false then kept.fetchScene d.scene
  else if s.grid.fnOn && decide (passDiff q s.grid.p < 0) then (kept.event sevMajor scnBase 0 0 0 d.scene).dealAck d.id.toNat d.scene 1 p
  else kept.dealAck d.id.toNat d.scene 0 p

/-- The conditions under which an engine looks at a deal: it is targeted, and has not seen the deal (R198, R203). -/
structure State.DealNew (s : State) (d : DealMsg) : Prop where
  mine : s.dealMine d = true
  unseen : ¬s.seenDeal d

theorem State.DealNew.not_ignored (h : s.DealNew d) :
    ¬((!s.dealMine d) = true ∨ s.scn.recentDeals.any (fun e => e.1 == d.id.toNat) = true) := by
  simp [h.mine, mt State.seenDeal_iff.mp h.unseen]

theorem State.DealNew.takeDeal_of_noScene (h : s.DealNew d) (hc : s.sceneRec d.scene = none) :
    s.takeDeal d = s.dealAck d.id.toNat d.scene 2 (s.passOf { sec := d.sec, ns := d.ns }) := by
  rw [State.takeDeal, if_neg h.not_ignored]
  simp only [hc]

theorem State.DealNew.takeDeal_of_scene {c : SceneRec} (h : s.DealNew d) (hc : s.sceneRec d.scene = some c) : s.takeDeal d =
    if s.topoWork c = true ∧ (s.deltaOf c).isNone = true then s.dealAck d.id.toNat d.scene 3 (s.passOf { sec := d.sec, ns := d.ns })
    else if 16 ≤ s.scn.deals.length then s.dealAck d.id.toNat d.scene 4 (s.passOf { sec := d.sec, ns := d.ns })
    else s.holdDeal d c (s.dealPasses c { sec := d.sec, ns := d.ns }).2 := by
  rw [State.takeDeal, if_neg h.not_ignored]
  simp only [hc, Bool.not_eq_true']
  rfl

/-- The pass in which a deal's request is entered: 4 passes before its S, or with topology work the delta set's preroll and lead
before it (R192, R199). -/
theorem State.dealPasses_of_noTopo {c : SceneRec} (h : s.topoWork c = false) (t : PtpTime) :
    s.dealPasses c t = (s.passOf t, s.passOf t - 4) := by
  simp [State.dealPasses, h, State.lead]

theorem State.dealPasses_of_delta {c : SceneRec} {l : DeltaSet} (h : s.topoWork c = true) (hl : s.deltaOf c = some l) (t : PtpTime) :
    s.dealPasses c t = (s.passOf t, s.passOf t - BitVec.ofNat 48 (l.preroll + s.lead (some l))) := by
  simp [State.dealPasses, h, hl]

end

/-! ## Deals cancelled -/

section
variable {s : State} {h : MsgHdr} {id : BitVec 32} {e : Deal}

/-- The pass in which the request of deal `e` is entered is still to come (R201). -/
def State.DealEarly (s : State) (e : Deal) : Prop := e.s.isSome = true ∧ ∃ q, e.due = some q ∧ passDiff s.grid.p q < 0

theorem execDealCancel_early (ha : actedOn s h (.dealCancel id))
    (he : (heard s h (.dealCancel id)).scn.deals.find? (fun x => x.id == id.toNat) = some e)
    (hearly : (heard s h (.dealCancel id)).DealEarly e) :
    execDealCancel h id s = .next (((heard s h (.dealCancel id)).updScn fun x =>
      { x with deals := x.deals.filter (fun y => y.id ≠ id.toNat),
               recentDeals := x.recentDeals.filter (fun y => y.1 != id.toNat) }).dealAck id.toNat e.scene 5
        ((heard s h (.dealCancel id)).passOf e.time)) := by
  obtain ⟨hs, q, hq, hlt⟩ := hearly
  obtain ⟨p, hp⟩ := Option.isSome_iff_exists.mp hs
  rw [execDealCancel, State.onMsg_of_actedOn ha]
  simp only [he, hp, hq, hlt, decide_true, if_true]

theorem execDealCancel_late (ha : actedOn s h (.dealCancel id))
    (he : (heard s h (.dealCancel id)).scn.deals.find? (fun x => x.id == id.toNat) = some e)
    (hlate : ¬(heard s h (.dealCancel id)).DealEarly e) :
    execDealCancel h id s = .next ((heard s h (.dealCancel id)).dealAck id.toNat e.scene 6
      ((heard s h (.dealCancel id)).passOf e.time)) := by
  rw [execDealCancel, State.onMsg_of_actedOn ha]
  simp only [he]
  cases hs : e.s with
  | none => rfl
  | some p =>
    cases hq : e.due with
    | none => rfl
    | some q =>
      have hge : ¬passDiff (heard s h (.dealCancel id)).grid.p q < 0 := fun hlt => hlate ⟨by simp [hs], q, hq, hlt⟩
      simp only [hge, decide_false, Bool.false_eq_true, if_false]

/-- No deal of this number is held: one that the engine remembers is answered, any other is not (R201). -/
theorem execDealCancel_of_none (ha : actedOn s h (.dealCancel id))
    (he : (heard s h (.dealCancel id)).scn.deals.find? (fun x => x.id == id.toNat) = none) :
    execDealCancel h id s = .next (((heard s h (.dealCancel id)).scn.recentDeals.find? (fun x => x.1 == id.toNat)).elim
      (heard s h (.dealCancel id)) fun x => (heard s h (.dealCancel id)).dealAck id.toNat x.2.1 6 x.2.2) := by
  rw [execDealCancel, State.onMsg_of_actedOn ha]
  simp only [he]
  cases (heard s h (.dealCancel id)).scn.recentDeals.find? (fun x => x.1 == id.toNat) <;> rfl

end

theorem dealsReceived : Stated.DealsReceived := by
  unfold Stated.DealsReceived
  intro s h d c e id
  refine ⟨fun ha => ?_, fun ha => ?_⟩
  · intro s1 p seen
    simp only [exec_dealMsg, execDealMsg_of_actedOn ha]
    refine ⟨fun h => congrArg _ (State.takeDeal_of_ignored h), fun hmine hnew => ?_⟩
    have hdeal : s1.DealNew d := ⟨hmine, hnew⟩
    refine ⟨fun hc => congrArg _ (hdeal.takeDeal_of_noScene hc), fun hc => ?_⟩
    rw [hdeal.takeDeal_of_scene hc]
    have hroom (hd : s1.topoWork c = false ∨ s1.deltaOf c ≠ none) : ¬(s1.topoWork c = true ∧ (s1.deltaOf c).isNone = true) := by
      simpa [imp_iff_not_or] using hd
    refine ⟨fun ht hd => ?_, fun hd hlen => ?_, fun hlen q hq => ?_⟩
    · rw [if_pos ⟨ht, Option.isNone_iff_eq_none.mpr hd⟩]
    · rw [if_neg (hroom hd), if_pos hlen]
    · obtain ⟨ht, rfl⟩ | ⟨l, ht, hl, rfl⟩ := hq
      · rw [if_neg (hroom (.inl ht)), if_neg (not_le.mpr hlen), State.dealPasses_of_noTopo ht]
        rfl
      · rw [if_neg (hroom (.inr (by simp [hl]))), if_neg (not_le.mpr hlen), State.dealPasses_of_delta ht hl]
        rfl
  · intro s1
    simp only [exec_dealCancel]
    refine ⟨fun he => ⟨fun hearly => execDealCancel_early ha he hearly, fun hlate => execDealCancel_late ha he hlate⟩, fun hnone => ?_⟩
    rw [execDealCancel_of_none ha (List.find?_eq_none.mpr (by simpa using hnone))]
    refine ⟨fun x hx => by rw [hx]; rfl, fun hall => ?_⟩
    rw [List.find?_eq_none.mpr (by simpa using hall)]
    rfl

/-! ## Answers to the manager -/

theorem execDealAck_of_actedOn {s : State} {h : MsgHdr} {id : BitVec 32} {scene status : Nat} {p : PassIx}
    (ha : actedOn s h (.dealAck id scene status p)) :
    execDealAck h id scene status p s = .next
      (if (heard s h (.dealAck id scene status p)).manages = true
        then (heard s h (.dealAck id scene status p)).dealAnswer h.src.toNat id.toNat status
        else heard s h (.dealAck id scene status p)) := by
  rw [execDealAck, State.onMsg_of_actedOn ha]

section
variable {s : State} {dev id status : Nat}

theorem State.dealAnswer_of_unknown (h : ∀ x ∈ s.scn.issued, x.id ≠ id) : s.dealAnswer dev id status = s := by
  have hfind : s.scn.issued.find? (fun x => x.id == id) = none := List.find?_eq_none.mpr (by simpa using h)
  simp only [State.dealAnswer, hfind]

/-- The deal after the answer of device `dev`: the device and its pair are targets no more (R200, R202). -/
def State.answeredBy (s : State) (i : IssuedDeal) (dev status : Nat) : IssuedDeal :=
  { i with targets := i.targets.filter (fun x => x != (if (s.rosterE dev).twin = true then dev / 2 * 2 else dev) && x != dev),
           ready := if status = 0 then i.ready ++ [dev] else i.ready }

theorem State.dealAnswer_of_known {i : IssuedDeal} (h : s.scn.issued.find? (fun x => x.id == id) = some i) :
    s.dealAnswer dev id status =
      let t := s.updScn fun x => { x with issued := x.issued.map fun y => if y.id = id then s.answeredBy i dev status else y }
      if status = 0 then t else t.event sevMajor scnBase 0 0 0 dev := by
  simp only [State.dealAnswer, h]
  rfl

/-- The pass of the answers' deadline is still to come: 10 ms before the deal's (R202). -/
def State.answersOpen (s : State) (i : IssuedDeal) : Bool :=
  decide (passDiff s.grid.p (s.passOf i.time - BitVec.ofNat 48 (s.fs / 100)) < 0)

/-- At its deadline a deal is dropped, and every device that has not answered is recorded (R202). -/
theorem execDealAckDeadline_eq : execDealAckDeadline s = .next
    ((s.scn.issued.filter (!s.answersOpen ·)).foldl (fun t i => i.targets.foldl (fun t n => t.event sevMajor scnBase 0 0 0 n) t)
      (s.updScn fun x => { x with issued := x.issued.filter s.answersOpen })) := by
  have hover (i : IssuedDeal) :
      decide (0 ≤ passDiff s.grid.p (s.passOf i.time - BitVec.ofNat 48 (s.fs / 100))) = !s.answersOpen i := by
    rw [State.answersOpen, ← decide_not, decide_eq_decide, not_lt]
  simp only [execDealAckDeadline, hover, Bool.not_not]
  rfl

theorem execDealAckDeadline_scn :
    ∃ u, execDealAckDeadline s = .next u ∧ u.scn = { s.scn with issued := s.scn.issued.filter s.answersOpen } :=
  ⟨_, execDealAckDeadline_eq, (State.RecordsTo.foldl (fun t (i : IssuedDeal) => .foldl (fun t n => t.recordsTo_event _ _ _ _ _ n) i.targets t) _ _).scn_eq⟩

theorem execDealAckDeadline_single {i : IssuedDeal} (h : s.scn.issued = [i]) :
    execDealAckDeadline s = .next (if s.answersOpen i then s else
      i.targets.foldl (fun t n => t.event sevMajor scnBase 0 0 0 n) (s.updScn fun x => { x with issued := [] })) := by
  rw [execDealAckDeadline_eq]
  cases hi : s.answersOpen i with
  | true =>
    have hf : s.scn.issued.filter s.answersOpen = s.scn.issued := by simp [h, hi]
    have hsame : s.updScn (fun x => { x with issued := x.issued.filter s.answersOpen }) = s := by rw [State.updScn, hf]
    simp [hsame, h, hi]
  | false => simp [hi, State.updScn, h]

end

/-! ## Deals that are due -/

section
variable {s : State} {d : Deal}

/-- A deal is held back: the steward restarts, its record is being fetched, its pass is not known to have come (R199). -/
def State.dealWaits (s : State) (d : Deal) : Bool :=
  s.svc.stewDown || !d.staged || (!s.timed && d.s.isSome) ||
    (match d.due with | some q => decide (passDiff s.grid.p q < 0) | none => true)

/-- The request of a deal that is due; one whose pass has gone names none (R199, R202). -/
def State.dealRequest (s : State) (d : Deal) : RecallReq :=
  { scene := d.scene, priority := d.priority, xf := d.xf, rank := 513, dealId := some d.id,
    dealS := if d.due = some s.grid.p then d.s.map (fun p => (s.tickOf p).toNat) else none }

/-- The deal's request is recognised in this pass; a deal whose pass has gone is recorded (R63, R199, R202). -/
def State.enterDeal (s : State) (d : Deal) : State :=
  let gone : Bool := match d.due with | some p => decide (0 < passDiff s.grid.p p) | none => false
  let s := if gone ∧ d.s.isSome then s.dealLate d.scene else s
  let t : Option Nat := match d.s, gone with
    | some p, false => some (s.tickOf p).toNat
    | _, _ => none
  s.updScn (fun x => { x with recognised := x.recognised ++
    [{ scene := d.scene, priority := d.priority, xf := d.xf, rank := 513, dealS := t, dealId := some d.id }] })

/-- The test of `State.dealsDue`. -/
def State.dealIsDue (s : State) (d : Deal) : Bool :=
  !s.svc.stewDown && d.staged && (s.timed || d.s.isNone) &&
    (match d.due with | some p => decide (0 ≤ passDiff s.grid.p p) | none => false)

theorem State.dealIsDue_eq_not_waits : s.dealIsDue = (!s.dealWaits ·) := by
  funext d
  have hle (q : PassIx) : decide (0 ≤ passDiff s.grid.p q) = !decide (passDiff s.grid.p q < 0) := by
    rw [← decide_not, decide_eq_decide, not_lt]
  cases hd : d.due <;> simp [State.dealIsDue, State.dealWaits, hd, hle, Bool.not_or, Bool.not_and]

theorem State.dealsDue_eq : s.dealsDue = (s.scn.deals.filter (!s.dealWaits ·)).foldl State.enterDeal
    (s.updScn fun x => { x with deals := x.deals.filter s.dealWaits }) := by
  have hdue : s.dealsDue = (s.scn.deals.filter s.dealIsDue).foldl State.enterDeal
      (s.updScn fun x => { x with deals := x.deals.filter (!s.dealIsDue ·) }) := rfl
  simpa only [State.dealIsDue_eq_not_waits, Bool.not_not] using hdue

/-- A deal that does not wait has a pass, which has come. -/
theorem State.due_of_not_waits (h : s.dealWaits d = false) : ∃ q, d.due = some q ∧ 0 ≤ passDiff s.grid.p q := by
  cases hd : d.due with
  | none => simp [State.dealWaits, hd] at h
  | some q =>
    simp only [State.dealWaits, hd, Bool.or_eq_false_iff, decide_eq_false_iff_not, not_lt] at h
    exact ⟨q, rfl, h.2⟩

theorem passDiff_eq_zero_iff (a b : PassIx) : passDiff a b = 0 ↔ a = b := by
  rw [passDiff, ← BitVec.toInt_zero (w := 48), BitVec.toInt_inj]
  exact sub_eq_zero

/-- A deal that is entered after its pass is recorded (R63, R202). -/
def State.goneNoted (s : State) (d : Deal) (q : PassIx) : State :=
  if passDiff s.grid.p q ≠ 0 ∧ d.s.isSome = true then s.event sevMajor scnBase 0 0 0 d.scene else s

theorem State.recordsTo_goneNoted (s : State) (d : Deal) (q : PassIx) : s.RecordsTo (s.goneNoted d q) :=
  .ite (s.recordsTo_event _ _ _ _ _ _) (.refl s)

theorem State.updScn_goneNoted (s : State) (f : Scenes → Scenes) (d : Deal) (q : PassIx) :
    (s.updScn f).goneNoted d q = (s.goneNoted d q).updScn f := by
  simp only [State.goneNoted, State.updScn_event, State.updScn_grid, State.updScn_ite]

theorem State.enterDeal_of_due {q : PassIx} (hq : d.due = some q) (h : 0 ≤ passDiff s.grid.p q) : s.enterDeal d =
    (s.goneNoted d q).updScn fun x => { x with recognised := x.recognised ++ [s.dealRequest d] } := by
  rcases h.eq_or_lt with heq | hlt
  · obtain rfl := (passDiff_eq_zero_iff _ _).mp heq.symm
    cases hs : d.s <;> simp [State.enterDeal, State.goneNoted, State.dealRequest, hq, hs, passDiff_self]
  · have hne : q ≠ s.grid.p := fun e => hlt.ne' (by rw [e, passDiff_self])
    cases hs : d.s <;> simp [State.enterDeal, State.goneNoted, State.dealRequest, State.dealLate, hq, hs, hlt, hlt.ne', hne]

theorem State.dealRequest_of_grid {u : State} (h : u.grid = s.grid) : u.dealRequest = s.dealRequest := by
  funext d
  simp only [State.dealRequest, State.tickOf, h]

/-- The requests of deals that are due are recognised in their order. -/
theorem State.scn_foldl_enterDeal {l : List Deal} (h : ∀ d ∈ l, ∃ q, d.due = some q ∧ 0 ≤ passDiff s.grid.p q) :
    (l.foldl State.enterDeal s).scn = { s.scn with recognised := s.scn.recognised ++ l.map s.dealRequest } := by
  induction l generalizing s with
  | nil => simp
  | cons d l ih =>
    obtain ⟨q, hq, hle⟩ := h d (.head l)
    have hd := State.enterDeal_of_due hq hle
    have hgrid : (s.enterDeal d).grid = s.grid := by
      obtain ⟨_, _, _, e⟩ := s.recordsTo_goneNoted d q
      rw [hd, e]
      rfl
    have hscn : (s.enterDeal d).scn = { s.scn with recognised := s.scn.recognised ++ [s.dealRequest d] } := by
      rw [hd, State.updScn_scn, (s.recordsTo_goneNoted d q).scn_eq]
    have hl : ∀ y ∈ l, ∃ q, y.due = some q ∧ 0 ≤ passDiff (s.enterDeal d).grid.p q := by
      rw [hgrid]
      exact fun y hy => h y (.tail d hy)
    rw [List.foldl_cons, ih hl, hscn, State.dealRequest_of_grid hgrid]
    simp

theorem execDealDue_scn : ∃ u, execDealDue s = .next u ∧ u.scn = { s.scn with
    deals := s.scn.deals.filter s.dealWaits,
    recognised := s.scn.recognised ++ (s.scn.deals.filter (!s.dealWaits ·)).map s.dealRequest } := by
  refine ⟨_, rfl, ?_⟩
  rw [State.dealsDue_eq, State.scn_foldl_enterDeal]
  · rfl
  · intro d hd
    have hw : s.dealWaits d = false := by simpa using (List.mem_filter.mp hd).2
    exact State.due_of_not_waits hw

theorem execDealDue_single {q : PassIx} (hd : s.scn.deals = [d]) (hw : s.dealWaits d = false) (hq : d.due = some q) :
    execDealDue s = .next ((s.goneNoted d q).updScn fun x =>
      { x with deals := [], recognised := x.recognised ++ [s.dealRequest d] }) := by
  obtain ⟨q', hq', hle⟩ := State.due_of_not_waits hw
  obtain rfl : q = q' := Option.some.inj (hq.symm.trans hq')
  have hnone : s.updScn (fun x => { x with deals := x.deals.filter s.dealWaits }) = s.updScn fun x => { x with deals := [] } := by
    simp [State.updScn, hd, hw]
  have hstep : (s.updScn fun x => { x with deals := [] }).enterDeal d = _ := State.enterDeal_of_due hq hle
  rw [execDealDue, State.dealsDue_eq, hnone, hd]
  simp only [hw, List.filter_cons, Bool.not_false, if_true, List.filter_nil, List.foldl_cons, List.foldl_nil, hstep, State.updScn_goneNoted]
  rfl

end

theorem dealsKept : Stated.DealsKept := by
  unfold Stated.DealsKept
  intro s h e id i scene status p q early
  refine ⟨fun ha => ?_, execDealAckDeadline_scn, fun hi => execDealAckDeadline_single hi, execDealDue_scn, fun hd hw hq => ?_⟩
  · intro s1 n pair
    rw [exec_dealAck, execDealAck_of_actedOn ha]
    refine ⟨fun hno => ?_, fun hm hi => ?_⟩
    · rcases hno with hm | hno
      · rw [if_neg (Bool.eq_false_iff.mp hm)]
      · rw [State.dealAnswer_of_unknown hno, ite_self]
    · rw [if_pos hm, State.dealAnswer_of_known hi]
      rfl
  · rw [exec_dealDue, execDealDue_single hd hw hq, State.updScn, (s.recordsTo_goneNoted e q).scn_eq]
    rfl

/-- Settles O38: a deal heard goes by its target, its number and its scene's record; a cancel by the pass of the deal; answers
and requests by the deals that wait. -/
theorem deals : Obligations.Deals :=
  ⟨dealsReceived, dealsKept⟩

end Sys2Proof.Machine
end

section
/-!
PROOFS. Scene recalls: the request, and the start, audible, swap and last passes (R179, R185, R190, R194, R206, R220).
-/

namespace Sys2Proof.Machine

/-! ## The request -/

/-- A decision that waits for its acting pass by itself: an active twin relays it, a standby leaves it (R206). -/
theorem State.relayNow_eq (s : State) (e : TwinEv) (f : Nat → State → State) : s.relayNow e f =
    if s.twin.on = false then f s.grid.tick s else if s.twin.st = .active then (f s.acting s).twinOut e else s := by
  cases hon : s.twin.on
  · simp [State.relayNow, State.decides, State.acting, hon]
  · by_cases hst : s.twin.st = .active <;> simp [State.relayNow, State.decides, hon, hst]

theorem recallRequest : Stated.RecallRequest := by
  unfold Stated.RecallRequest
  intro s v entered
  refine ⟨by simp [State.recallOf, bits], rfl, rfl, ?_⟩
  rw [exec_scnRecall, execScnRecall, State.writeRecall, State.relayNow_eq]
  rfl

/-! ## A program put on a tile -/

theorem State.updScn_tile (s : State) (f : Scenes → Scenes) (n : Nat) : (s.updScn f).tile n = s.tile n := rfl

/-- In `u` tile `n` runs from `entry`, in the roles it has in `s`; the other tiles and the scenes are those of `s`. -/
structure State.TurnsTo (s u : State) (n entry : Nat) : Prop where
  run : (u.tile n).run = .running
  pc : (u.tile n).sf.pc = entry
  onBack : (u.tile n).onBack = (s.tile n).onBack
  frontIsB : (u.tile n).frontIsB = (s.tile n).frontIsB
  others : ∀ m, m ≠ n → u.tile m = s.tile m
  scn : u.scn = s.scn

@[simp] theorem State.wrBytes_scn (s : State) (a : Nat) (bs : List Byte) : (s.wrBytes a bs).scn = s.scn := by
  obtain ⟨_, _, _, e⟩ := s.marksTo_wrBytes a bs; rw [e]

theorem State.turnsTo_setTile {s u : State} {n entry : Nat} {t : Tile} (hw : mwf {} s.tiles = true) (htiles : u.tiles = s.tiles)
    (hscn : u.scn = s.scn) (hrun : t.run = .running) (hpc : t.sf.pc = entry) (hback : t.onBack = (s.tile n).onBack)
    (hfront : t.frontIsB = (s.tile n).frontIsB) : s.TurnsTo (u.setTile n t) n entry := by
  have htile (m : Nat) : (u.setTile n t).tile m = if n = m then t else s.tile m := by
    rw [State.tile_setTile (by rw [htiles]; exact hw), State.tile, htiles, State.tile]
  have hn : (u.setTile n t).tile n = t := (htile n).trans (if_pos rfl)
  exact ⟨by rw [hn, hrun], by rw [hn, hpc], by rw [hn, hback], by rw [hn, hfront], fun m hm => (htile m).trans (if_neg hm.symm), hscn⟩

theorem State.turnsTo_turnTile {s : State} (hw : mwf {} s.tiles = true) (n entry : Nat) : s.TurnsTo (s.turnTile n entry) n entry := by
  unfold State.turnTile
  dsimp only
  split
  · next hrun => exact State.turnsTo_setTile hw rfl rfl hrun rfl rfl rfl
  · exact State.turnsTo_setTile hw (State.wrBytes_tiles _ _ _) (State.wrBytes_scn _ _ _) rfl rfl rfl rfl

/-! ## The start pass -/

section
variable {s : State} {r : Recall} {d : DeltaSet} {c : SceneRec} {p : TilePart}

/-- Without added instances no handler run is released at the start (R189). -/
theorem State.releaseAdded_nil (s : State) (n : Nat) : s.releaseAdded [] n = s := by
  simp [State.releaseAdded]

theorem State.forAll_releaseAdded_nil (l : List Nat) (s : State) : forAll l s (fun n t => t.releaseAdded [] n) = s := by
  simp [forAll, State.releaseAdded_nil]

/-- A recall starts, and counts if it is late (R223). -/
def State.recallStarts (s : State) (r : Recall) : State :=
  let u := s.updScn fun x => { x with running := some { r with started := true }, replaced := [] }
  if r.late = true then u.count aScnCounts 31 16 1 else u

/-- Tile `n` runs from the back memory. -/
def State.toBack (s : State) (n : Nat) : State := s.setTile n { s.tile n with onBack := true }

theorem State.startRecall_of_program (hd : s.deltaRun r = some d) (ht : d.tiles = [p]) (ha : d.added = []) (hx : d.xchg = [])
    (he : r.e ≠ r.s0) : s.startRecall r =
      let n := 8 * p.cluster + p.tile
      let t := (s.recallStarts r).toBack n
      if (t.tile n).run = .halted then t else t.turnTile n p.xfEntry := by
  have hkeep : s.scn.nodes.filter (fun n => !([] : List NodeRec).any fun a => a.inst == n.inst) ++ [] = s.scn.nodes := by simp
  have hnone : s.scn.nodes.filter (fun n => ([] : List NodeRec).any fun a => a.inst == n.inst) = [] := by simp
  rw [State.startRecall]
  simp only [hd, ht, ha, hx, List.foldl_cons, List.foldl_nil, List.filter_nil, State.forAll_releaseAdded_nil, if_neg he]
  rw [State.updScn, hkeep, hnone]
  rfl

theorem State.recallStarts_tiles : (s.recallStarts r).tiles = s.tiles := by
  unfold State.recallStarts
  dsimp only
  split <;> rfl

theorem State.recallStarts_scn : (s.recallStarts r).scn = { s.scn with running := some { r with started := true }, replaced := [] } := by
  unfold State.recallStarts
  dsimp only
  split <;> rfl

theorem State.toBack_tile (hw : mwf {} s.tiles = true) (n m : Nat) :
    ((s.recallStarts r).toBack n).tile m = if n = m then { s.tile n with onBack := true } else s.tile m := by
  have htile (k : Nat) : (s.recallStarts r).tile k = s.tile k := by rw [State.tile, State.recallStarts_tiles, State.tile]
  rw [State.toBack, State.tile_setTile (by rwa [State.recallStarts_tiles]), htile, htile]

/-- A tile that has not stopped, put on its back memory, runs from there at the start pass (R185). -/
theorem State.startRecall_turnsTo (hw : mwf {} s.tiles = true) (hd : s.deltaRun r = some d) (ht : d.tiles = [p]) (ha : d.added = [])
    (hx : d.xchg = []) (he : r.e ≠ r.s0) (hrun : (s.tile (8 * p.cluster + p.tile)).run ≠ .halted) :
    ((s.recallStarts r).toBack (8 * p.cluster + p.tile)).TurnsTo (s.startRecall r) (8 * p.cluster + p.tile) p.xfEntry := by
  have hwb : mwf {} ((s.recallStarts r).toBack (8 * p.cluster + p.tile)).tiles = true :=
    mwf_mset (by rwa [State.recallStarts_tiles])
  rw [State.startRecall_of_program hd ht ha hx he]
  dsimp only
  rw [if_neg (by rwa [State.toBack_tile hw, if_pos rfl])]
  exact State.turnsTo_turnTile hwb _ _

/-! ## The swap pass -/

/-- The front's program after the swap to part `p`, in place of `old` (R184). -/
def swappedProg (p : TilePart) (old : TileProg) : TileProg :=
  { code := p.code, entry := p.entry, schedCycles := p.schedCycles, region := p.region, gang := old.gang, init := old.init ++ p.init,
    stateBase := p.stateBase, stateBytes := p.stateBytes, calls := p.callsN, lib := p.lib }

/-- The memories of tile `n` change their roles (R184, R185). -/
def State.swapRoles (s : State) (n : Nat) (p : TilePart) : State :=
  (s.updScn fun x => { x with progs := mset {} x.progs n (swappedProg p (s.prog n)) }).setTile n
    { s.tile n with frontIsB := !(s.tile n).frontIsB, onBack := false }

theorem State.swapRoles_tile (hw : mwf {} s.tiles = true) (n m : Nat) :
    (s.swapRoles n p).tile m = if n = m then { s.tile n with frontIsB := !(s.tile n).frontIsB, onBack := false } else s.tile m :=
  State.tile_setTile (s := s.updScn _) hw n m _

theorem State.lateAfter_of_none (h : ∀ y ∈ s.scn.others, y.swapped = true → y.xfLen = 0) : s.lateAfter r = [] := by
  have hnone : s.scn.others.filter (fun y => y.topo.isNone && y.swapped && y.xfLen != 0 && y.e == s.grid.tick && !recallLe y r) = [] := by
    refine List.filter_eq_nil_iff.mpr fun y hy => ?_
    cases hs : y.swapped
    · simp
    · simp [h y hy hs]
  rw [State.lateAfter, hnone, List.foldl_nil]

/-- The scenes `y` after a swap to scene `c` from the scenes `x`: no recall runs or is pending (R185, R194). -/
structure Scenes.SwapsTo (x y : Scenes) (c : SceneRec) : Prop where
  running : y.running = none
  pending : y.pending = none
  recognised : y.recognised = x.recognised ++ x.pending.toList
  frontTopo : y.frontTopo = c.topo.getD x.frontTopo

/-- The requests recognised in the swap pass: the pending one comes last (R194). -/
def Scenes.takePending (x : Scenes) : Scenes := { x with pending := none, recognised := x.recognised ++ x.pending.toList }

theorem Scenes.takePending_of_none {x : Scenes} (h : x.pending = none) : x.takePending = x := by
  have hsame : ({ x with pending := none } : Scenes) = x := by rw [← h]
  rw [Scenes.takePending, h, Option.toList_none, List.append_nil, hsame]

theorem State.swapRecall_of_program (hw : mwf {} s.tiles = true) (hd : s.deltaRun r = some d) (hc : s.sceneRec r.req.scene = some c)
    (ht : d.tiles = [p]) (hx : d.xchg = []) (hdown : p.powerDown = false) (hlen : r.xfLen = 0)
    (hold : ∀ y ∈ s.scn.others, y.swapped = false) (hrun : (s.tile (8 * p.cluster + p.tile)).run ≠ .halted) :
    ∃ f, s.swapRecall r = ((s.swapRoles (8 * p.cluster + p.tile) p).turnTile (8 * p.cluster + p.tile) p.entry).updScn f ∧
      ∀ x : Scenes, x.SwapsTo (f x) c := by
  obtain ⟨u, hu⟩ : ∃ u, s.swapRecall r = u := ⟨_, rfl⟩
  rw [hu]
  rw [State.swapRecall, hd, hc] at hu
  dsimp -zeta only at hu
  extract_lets s1 s2 s3 s4 s5 at hu
  have h1 : s1 = (s.swapRoles (8 * p.cluster + p.tile) p).turnTile (8 * p.cluster + p.tile) p.entry := by
    simp only [s1, ht, List.foldl_cons, List.foldl_nil]
    exact (if_neg (Bool.eq_false_iff.mp hdown)).trans (if_neg hrun)
  have h2 : s2 = s1 := by simp only [s2, hx, List.foldl_nil]
  have h4 : s4 = s3 := if_pos hlen
  have hothers : s2.scn.others = s.scn.others := by
    rw [h2, h1, (State.turnsTo_turnTile (mwf_mset hw) _ _).scn]
    rfl
  have h5 : s5 = s3 := by
    have hlate : s3.lateAfter r = [] := by
      refine State.lateAfter_of_none fun y hy hs => ?_
      simp only [s3, State.updScn_scn, hothers] at hy
      split at hy
      · rcases List.mem_append.mp hy with hy | hy
        · exact absurd hs (by simp [hold y hy])
        · rw [List.mem_singleton.mp hy]
          exact hlen
      · exact absurd hs (by simp [hold y hy])
    simp only [s5, h4, hlate, List.foldl_nil]
  have h6 : u = s3.updScn Scenes.takePending := by
    rw [← hu, h5]
    cases hp : s3.scn.pending with
    | none => rw [State.updScn, Scenes.takePending_of_none hp]
    | some q => simp [State.updScn, Scenes.takePending, hp]
  obtain ⟨f, h3, hf⟩ : ∃ f, s3 = s2.updScn f ∧ ∀ x : Scenes, x.SwapsTo (f x).takePending c :=
    ⟨_, rfl, fun x => ⟨rfl, rfl, rfl, rfl⟩⟩
  exact ⟨fun x => (f x).takePending, by rw [h6, h3, h2, h1]; rfl, hf⟩

/-! ## The audible start -/

theorem State.allEntries_of_plain {s : State} (he : c.entries = []) (hf : c.full = false) (hs : c.scope = []) : s.allEntries c = [] := by
  simp [State.allEntries, sceneInScope, he, hf, hs]

theorem State.rdBytes_updScn (s : State) (f : Scenes → Scenes) (a n : Nat) : (s.updScn f).rdBytes a n = s.rdBytes a n := by
  simp only [State.rdBytes_eq_map, State.rdB, State.updScn_mem]

/-- The record of a scene lies in the image, in memory and in the cold slots. -/
theorem State.sceneRec_setCurrent (k scene : Nat) : (s.updScn fun x => { x with current := k }).sceneRec scene = s.sceneRec scene := by
  have hat (im : Image) (c : SceneRec) : (s.updScn fun x => { x with current := k }).stageAt im c = s.stageAt im c := rfl
  have hread (im : Image) (o n : Nat) : (s.updScn fun x => { x with current := k }).stageRead im o n = s.stageRead im o n := by
    simp only [State.stageRead, State.rdBytes_updScn]
  have hstaged (im : Image) : (s.updScn fun x => { x with current := k }).staged im = s.staged im := by
    funext c
    rw [State.staged, State.staged, hat]
    cases s.stageAt im c with
    | none => rfl
    | some o =>
      dsimp only
      rw [hread]
  simp only [State.sceneRec, State.updScn_image, hstaged]

/-- A recall without topology work, of a scene that sets no parameter, becomes the current scene in its pass (R179, R221). -/
theorem execAudibleStart_of_plain (hc : s.sceneRec r.req.scene = some c) (he : c.entries = []) (hf : c.full = false) (hs : c.scope = [])
    (hnone : s.scn.running = none) (hr : s.scn.others = [r]) (ha : r.audible = false) (hfe : r.fetching = false) (hl : r.late = false)
    (ht : r.topo = none) (hdue : r.s ≤ s.grid.tick) :
    execAudibleStart s = .next (s.updScn fun x =>
      { x with current := r.req.scene, others := [{ r with audible := true, last := r.s, live := [] }] }) := by
  have hd : s.audibleDue r = true := by simp [State.audibleDue, ha, hfe, hdue, ht]
  have hlast : s.lastOf c r = r.s := by simp [State.lastOf, State.rampSpan, State.allEntries_of_plain he hf hs, ht, he]
  have hlive : s.liveLate c = [] := by simp [State.liveLate, he]
  have haud : s.audible r = s.updScn fun x => { x with current := r.req.scene } := by
    have hno : ¬(r.late = true ∧ r.topo.isNone = true) := by simp [hl]
    rw [State.audible]
    simp only [if_neg hno, State.sceneRec_setCurrent, hc]
    rw [State.applyEntries, State.allEntries_of_plain he hf hs, List.foldl_nil]
  simp only [execAudibleStart, hnone, hr, Option.toList_none, List.append_nil, List.filter_cons, hd, if_true, List.filter_nil,
    List.foldl_cons, List.foldl_nil, insertRecall, haud, List.cons_ne_nil, if_false]
  simp [State.updScn, hnone, hr, hd, hc, hlast, hlive]

end

theorem recallPasses : Stated.RecallPasses := by
  unfold Stated.RecallPasses
  intro s r d p c hcan hc he hf hs n
  refine ⟨fun hr hd ht ha hrem hx hrun => ⟨fun hst hns hdue hne => ?_, fun hst hdue hdown hlen hold => ?_⟩, ?_, ?_⟩
  · have hturn := State.startRecall_turnsTo hcan.tiles hd ht ha hx hne hrun
    have hback := State.toBack_tile (r := r) hcan.tiles n
    refine ⟨s.startRecall r, ?_, ?_, ?_, hturn.run, hturn.pc, ?_, fun m hm => ?_⟩
    · rw [exec_startPass, execStartPass, hr]
      exact congrArg _ (if_pos ⟨hst, hns, hdue⟩)
    · rw [hturn.scn]
      exact State.recallStarts_scn
    · rw [hturn.onBack, hback, if_pos rfl]
    · rw [hturn.frontIsB, hback, if_pos rfl]
    · rw [hturn.others m hm, hback, if_neg hm.symm]
  · obtain ⟨f, hu, hf⟩ := State.swapRecall_of_program hcan.tiles hd hc ht hx hdown hlen hold hrun
    have hturn := State.turnsTo_turnTile (s := s.swapRoles n p) (mwf_mset hcan.tiles) n p.entry
    have hroles := State.swapRoles_tile (p := p) hcan.tiles n
    have hscn := hf ((s.swapRoles n p).turnTile n p.entry).scn
    refine ⟨s.swapRecall r, ?_, ?_⟩
    · rw [exec_swapPass, execSwapPass, hr]
      exact congrArg _ (if_pos ⟨hst, hdue⟩)
    simp only [hu, State.updScn_scn, State.updScn_tile]
    refine ⟨?_, ?_, hturn.pc, hscn.running, hscn.pending, ?_, ?_, fun m hm => ?_⟩
    · exact hturn.onBack.trans (by rw [hroles, if_pos rfl])
    · exact hturn.frontIsB.trans (by rw [hroles, if_pos rfl])
    · exact hscn.recognised.trans (by rw [hturn.scn]; rfl)
    · exact hscn.frontTopo.trans (by rw [hturn.scn]; rfl)
    · exact (hturn.others m hm).trans (by rw [hroles, if_neg hm.symm])
  · exact fun hnone hr ha hfe hl ht hdue => execAudibleStart_of_plain hc he hf hs hnone hr ha hfe hl ht hdue
  · rfl

/-- Settles O35: the request is queued for the next pass, and each pass of a recall moves one program and the scenes. -/
theorem recalls : Obligations.Recalls :=
  ⟨recallRequest, recallPasses⟩

end Sys2Proof.Machine
end

section
/-!
PROOFS. The staged records of scenes: cold fetches, late fetches, damaged hot records (R193, R228).
-/

namespace Sys2Proof.Machine

/-! ## What a record leaves of the flash's work -/

/-- The flash's part of `u` is that of `s` but for the queue of journal records. -/
def State.QueuesTo (s u : State) : Prop := ∃ queue, u.nvm = { s.nvm with queue := queue }

theorem State.QueuesTo.of_nvm {s u : State} (h : u.nvm = s.nvm) : s.QueuesTo u := ⟨_, h⟩

theorem State.QueuesTo.trans {s t u : State} (h : s.QueuesTo t) (g : t.QueuesTo u) : s.QueuesTo u := by
  obtain ⟨_, ht⟩ := h
  obtain ⟨_, hu⟩ := g
  exact ⟨_, by rw [hu, ht]⟩

theorem State.QueuesTo.ite {s t u : State} {c : Prop} [Decidable c] (h : s.QueuesTo t) (g : s.QueuesTo u) :
    s.QueuesTo (if c then t else u) := by
  split <;> assumption

section
variable (s : State)

theorem State.queuesTo_tlyIrq (sev : Nat) : s.QueuesTo (s.tlyIrq sev) := .ite (.of_nvm rfl) (.of_nvm rfl)

theorem State.queuesTo_journal (type : Nat) (data : List Byte) : s.QueuesTo (s.journal type data) := .ite ⟨_, rfl⟩ (.of_nvm rfl)

theorem State.queuesTo_requeueNewest : s.QueuesTo s.requeueNewest := by
  unfold State.requeueNewest
  split
  · exact .ite (s.queuesTo_journal _ _) (.of_nvm rfl)
  · exact .of_nvm rfl

theorem State.queuesTo_placeAt (slot : Nat) (r : TRec) : s.QueuesTo (s.placeAt slot r) :=
  have hstore (t : State) (x : Tally) : t.QueuesTo { t with tly := x } := .of_nvm rfl
  ((s.queuesTo_requeueNewest.trans (hstore _ _)).trans
    (.ite (State.queuesTo_journal _ _ _) (.of_nvm rfl))).trans (State.queuesTo_tlyIrq _ _)

theorem State.queuesTo_record (kind sev : Nat) (inj : Bool) (source : Nat) (body : List Byte) :
    s.QueuesTo (s.record kind sev inj source body) := by
  have hstore (x : Tally) : s.QueuesTo { s with tly := x } := .of_nvm rfl
  unfold State.record
  refine .ite ?_ ?_
  · split
    · exact (hstore _).trans (State.queuesTo_tlyIrq _ _)
    · exact .of_nvm rfl
  · split
    · exact s.queuesTo_placeAt _ _
    · split
      · exact s.queuesTo_placeAt _ _
      · exact .of_nvm rfl

/-- An event leaves the flash's operations as they are (R650, R654). -/
theorem State.event_eq (sev addr low high value detail : Nat) : ∃ regs tly queue,
    s.event sev addr low high value detail = { s with regs := regs, tly := tly, nvm := { s.nvm with queue := queue } } := by
  obtain ⟨regs, tly, nvm, he⟩ := s.recordsTo_event sev addr low high value detail
  obtain ⟨queue, hq⟩ : s.QueuesTo (s.event sev addr low high value detail) := s.queuesTo_record _ _ _ _ _
  rw [he] at hq
  obtain rfl : nvm = { s.nvm with queue := queue } := hq
  exact ⟨regs, tly, queue, he⟩

end

/-! ## The staging area -/

/-- `u` is `s` but for memory and what a write of it marks. -/
def State.StagesTo (s u : State) : Prop := ∃ mem ms flt twin, u = { s with mem := mem, ms := ms, flt := flt, twin := twin }

theorem State.StagesTo.refl (s : State) : s.StagesTo s := ⟨_, _, _, _, rfl⟩

theorem State.StagesTo.trans {s t u : State} (h : s.StagesTo t) (g : t.StagesTo u) : s.StagesTo u := by
  obtain ⟨_, _, _, _, rfl⟩ := h
  obtain ⟨_, _, _, _, rfl⟩ := g
  exact ⟨_, _, _, _, rfl⟩

theorem State.stagesTo_wrBytes (s : State) (a : Nat) (bs : List Byte) : s.StagesTo (s.wrBytes a bs) := by
  obtain ⟨_, _, _, e⟩ := s.marksTo_wrBytes a bs
  exact ⟨_, _, _, _, e⟩

theorem State.stagesTo_stageWrite (s : State) (im : Image) (o : Nat) (bs : List Byte) : s.StagesTo (s.stageWrite im o bs) :=
  State.foldl_related .refl .trans (fun t (e : Nat × List Byte) => t.stagesTo_wrBytes e.1 e.2) _ s

/-! ## The end of a fetch -/

section
variable {s : State} {r : Recall} {scene : Nat}

/-- Nothing waits for the flash: its next operation is none. -/
theorem State.flashNext_of_idle (hop : s.nvm.op = none) (hw : s.nvm.waiting = []) (hs : s.nvm.suspended = none) : s.flashNext = s := by
  have hpick : s.flashPick = none := by simp [State.flashPick, hw]
  simp only [State.flashNext, hop, hpick, hs]

/-- The fetch of a cold record is over, and no other waits (R221). -/
theorem State.fetchOver_of_cold (hw : s.nvm.waiting = []) (hs : s.nvm.suspended = none) (hcold : s.isHot scene = false) :
    s.fetchOver scene = { s with nvm := { s.nvm with op := none }, scn := { s.scn with coldBusy := false, coldEnd := s.grid.tick + 1 } } := by
  have hnext : ({ s with nvm := { s.nvm with op := none } } : State).flashNext = { s with nvm := { s.nvm with op := none } } :=
    State.flashNext_of_idle rfl hw hs
  have hhot : ¬({ s with nvm := { s.nvm with op := none } } : State).isHot scene = true := Bool.eq_false_iff.mp hcold
  rw [State.fetchOver, hnext]
  simp only [hw, Option.toList_none, List.append_nil, List.any_nil]
  exact if_neg hhot

/-- Where a recall goes on whose record has come: in its own passes, or in the third pass from this one (R193). -/
theorem State.fetchGood_of_recall (hd : s.scn.deals = []) (hr : s.scn.running = some r) (ho : s.scn.others = []) :
    s.fetchGood scene = { s with scn := { s.scn with running := some (s.fetched scene r) } } := by
  simp [State.fetchGood, State.updScn, hd, hr, ho]

/-- The passes by which a recall that still waited for its record in this pass starts later (R193). -/
def State.fetchDelay (s : State) (r : Recall) : Nat :=
  if r.late = true ∨ r.s0 < s.grid.tick + 3 then s.grid.tick + 3 - r.s0 else 0

theorem State.fetched_eq (hs : r.req.scene = scene) (hf : r.fetching = true) : s.fetched scene r =
    { r with fetching := false, s0 := r.s0 + s.fetchDelay r, s := r.s + s.fetchDelay r, e := r.e + s.fetchDelay r, last := r.last + s.fetchDelay r } :=
  if_neg (by simp [hs, hf])

/-! ## A recall that is abandoned -/

/-- `u` is `s` but for tiles, power domains and clusters. -/
def State.UnitsTo (s u : State) : Prop := ∃ tiles clusters pwr, u = { s with tiles := tiles, clusters := clusters, pwr := pwr }

theorem State.UnitsTo.refl (s : State) : s.UnitsTo s := ⟨_, _, _, rfl⟩

theorem State.UnitsTo.trans {s t u : State} (h : s.UnitsTo t) (g : t.UnitsTo u) : s.UnitsTo u := by
  obtain ⟨_, _, _, rfl⟩ := h
  obtain ⟨_, _, _, rfl⟩ := g
  exact ⟨_, _, _, rfl⟩

theorem State.UnitsTo.ite {s t u : State} {c : Prop} [Decidable c] (h : s.UnitsTo t) (g : s.UnitsTo u) :
    s.UnitsTo (if c then t else u) := by
  split <;> assumption

/-- Abandoning the running recall turns tiles, domains and clusters back, and no recall runs (R194). -/
theorem State.abandonRecall_eq (hr : s.scn.running = some r) : ∃ t f, s.UnitsTo t ∧ s.abandonRecall = t.updScn f ∧
    ∀ x : Scenes, (f x).running = none ∧ (f x).coldSlots = x.coldSlots := by
  have htile (t : State) (n : Nat) : t.UnitsTo (if (t.tile n).onBack then t.setTile n { t.tile n with onBack := false } else t) :=
    .ite ⟨_, _, _, rfl⟩ (.refl t)
  have hdom (t : State) (n : Nat) :
      t.UnitsTo (if (t.prog n).code = [] ∧ (t.prog n).lib = false then (t.setTile n {}).setDom n .off else t) :=
    .ite ⟨_, _, _, rfl⟩ (.refl t)
  have hcluster (t : State) (n : Nat) : t.UnitsTo (t.setCluster n { t.cluster n with xfDescs := none, newDescs := none, xfRing := [] }) :=
    ⟨_, _, _, rfl⟩
  unfold State.abandonRecall
  rw [hr]
  refine ⟨_, _, ?_, rfl, fun x => ⟨rfl, rfl⟩⟩
  exact ((State.foldl_related .refl .trans htile _ s).trans (State.foldl_related .refl .trans hdom _ _)).trans
    (State.foldl_related .refl .trans hcluster _ _)

/-- Nothing but the scenes, the recorder and the units: memory and the cold slots stay, and no recall runs. -/
structure State.Refused (s u : State) : Prop where
  mem : u.mem = s.mem
  running : u.scn.running = none
  coldSlots : u.scn.coldSlots = s.scn.coldSlots

theorem State.Refused.of_same {s v u : State} (h : v.Refused u) (hmem : v.mem = s.mem) (hslots : v.scn.coldSlots = s.scn.coldSlots) :
    s.Refused u :=
  ⟨h.mem.trans hmem, h.running, h.coldSlots.trans hslots⟩

theorem State.refused_abandonRecall {v : State} {f : Scenes → Scenes} (hr : v.scn.running = some r) (hmem : v.mem = s.mem)
    (hslots : v.scn.coldSlots = s.scn.coldSlots) (hf : ∀ x, (f x).running = x.running ∧ (f x).coldSlots = x.coldSlots) :
    s.Refused (v.abandonRecall.updScn f) := by
  obtain ⟨_, g, ⟨_, _, _, rfl⟩, he, hg⟩ := State.abandonRecall_eq hr
  rw [he]
  exact ⟨hmem, (hf _).1.trans (hg _).1, (hf _).2.trans ((hg _).2.trans hslots)⟩

/-- A recall whose record does not match its digest is refused (R193). -/
theorem State.fetchBad_of_recall (hd : s.scn.deals = []) (hr : s.scn.running = some r) (hs : r.req.scene = scene) (hf : r.fetching = true) :
    s.Refused (s.fetchBad scene) := by
  obtain ⟨_, _, _, he⟩ := s.recordsTo_event sevMajor scnBase 0 0 0 scene
  have hhit : (r.req.scene == scene && r.fetching) = true := by simp [hs, hf]
  simp only [State.fetchBad, he, hd, List.filter_nil, List.foldl_nil, State.updScn_scn, hr, hhit, if_true]
  exact State.refused_abandonRecall hr rfl rfl fun x => ⟨rfl, rfl⟩

end

/-! ## The commands -/

section
variable {s : State} {r : Recall} {scene k : Nat} {o : FlashOp} {im : Image} {errs : List (Nat × Byte)}

/-- The record of `scene` as the flash delivers it (R193). -/
def State.delivered (s : State) (o : FlashOp) (scene : Nat) (errs : List (Nat × Byte)) : List Byte :=
  (s.nvm.misread o.addr errs).fbs o.addr (s.recordAt scene).2.1

/-- The flash reads the record of the cold scene of the running recall `r`, and nothing else (R193). -/
structure State.Fetches (s : State) (o : FlashOp) (scene k : Nat) (im : Image) (r : Recall) : Prop where
  op : s.nvm.op = some o
  use : o.use = .coldScene scene
  waiting : s.nvm.waiting = []
  suspended : s.nvm.suspended = none
  deals : s.scn.deals = []
  image : s.image = some im
  cold : s.isHot scene = false
  slot : s.freeSlot = some k
  running : s.scn.running = some r
  others : s.scn.others = []
  names : r.req.scene = scene
  fetching : r.fetching = true

theorem State.Fetches.execColdFetch_good (h : s.Fetches o scene k im r)
    (hd : sha256 (s.delivered o scene errs) = (s.recordAt scene).2.2) :
    execColdFetch scene errs s =
      .next (((s.stageRecord scene (some k) (s.delivered o scene errs)).fetchOver scene).fetchGood scene) := by
  simp only [State.delivered] at hd ⊢
  simp [execColdFetch, h.op, h.use, h.cold, h.slot, hd]

theorem State.Fetches.execColdFetch_bad (h : s.Fetches o scene k im r)
    (hd : sha256 (s.delivered o scene errs) ≠ (s.recordAt scene).2.2) :
    execColdFetch scene errs s = .next ((s.fetchOver scene).fetchBad scene) := by
  simp only [State.delivered] at hd
  simp [execColdFetch, h.op, h.use, h.cold, h.slot, hd]

/-- The record comes into the cold slot, and the recall goes on (R193). -/
theorem State.Fetches.good (h : s.Fetches o scene k im r) (bs : List Byte) :
    ((s.stageRecord scene (some k) bs).fetchOver scene).fetchGood scene =
      { s.stageWrite im (hotOffset im 1024 + k * coldSize im) bs with
        nvm := { s.nvm with op := none },
        scn := { s.scn with coldBusy := false, coldEnd := s.grid.tick + 1, running := some (s.fetched scene r),
                            coldSlots := (k, scene) :: s.scn.coldSlots.filter (fun e => e.1 ≠ k) } } := by
  have hstage : s.stageRecord scene (some k) bs = (s.stageWrite im (hotOffset im 1024 + k * coldSize im) bs).updScn fun x =>
      { x with coldSlots := (k, scene) :: x.coldSlots.filter (fun e => e.1 ≠ k) } := by
    simp only [State.stageRecord, h.image]
  obtain ⟨_, _, _, _, hu⟩ := s.stagesTo_stageWrite im (hotOffset im 1024 + k * coldSize im) bs
  rw [hstage, hu, State.fetchOver_of_cold, State.fetchGood_of_recall (r := r)]
  · rfl
  · exact h.deals
  · exact h.running
  · exact h.others
  · exact h.waiting
  · exact h.suspended
  · exact h.cold

theorem State.Fetches.bad (h : s.Fetches o scene k im r) : s.Refused ((s.fetchOver scene).fetchBad scene) := by
  rw [State.fetchOver_of_cold h.waiting h.suspended h.cold]
  refine .of_same (State.fetchBad_of_recall ?_ ?_ h.names h.fetching) rfl rfl
  · exact h.deals
  · exact h.running

theorem execColdFetchLate_of_recall (hr : s.scn.running = some r) (ho : s.scn.others = []) (hf : r.fetching = true) (hl : r.late = false)
    (hs : r.s0 ≤ s.grid.tick + 2) : execColdFetchLate s = .next
      (({ s with scn := { s.scn with running := some { r with late := true } } } : State).event sevMajor scnBase 0 0 0 r.req.scene) := by
  simp [execColdFetchLate, State.updScn, hr, ho, hf, hl, hs]

/-- A request that comes while the flash does no erase waits (R611). -/
theorem State.flashAsk_of_busy (ho : s.nvm.op = some o) (hk : o.kind ≠ .erase) (x : FlashOp) :
    s.flashAsk x = { s with nvm := { s.nvm with waiting := s.nvm.waiting ++ [x] } } := by
  simp [State.flashAsk, ho, hk]

/-- A damaged hot record is recorded and asked for again; what waits for it is refused (R228). -/
theorem execHotRecordRefetch_of_bad (hh : s.isHot scene = true) (hb : s.stageBad scene = true) (hr : s.scn.running = none)
    (ho : s.nvm.op = some o) (hk : o.kind ≠ .erase) : execHotRecordRefetch scene s = .next
      (({ s.event sevMajor scnBase 0 0 0 scene with
          nvm := { (s.event sevMajor scnBase 0 0 0 scene).nvm with
            waiting := (s.event sevMajor scnBase 0 0 0 scene).nvm.waiting ++
              [{ kind := .read, prio := 1, use := .coldScene scene, addr := (s.recordAt scene).1 }] } } : State).updScn fun x =>
        { x with others := x.others.filter (fun r => r.req.scene ≠ scene ∨ r.audible),
                 recognised := x.recognised.filter (fun r => r.scene ≠ scene) }) := by
  have hgo : ¬(s.isHot scene = false ∨ s.stageBad scene = false) := by simp [hh, hb]
  obtain ⟨_, _, _, he⟩ := s.event_eq sevMajor scnBase 0 0 0 scene
  have hop : (s.event sevMajor scnBase 0 0 0 scene).nvm.op = some o := by rw [he]; exact ho
  have hrec : (s.event sevMajor scnBase 0 0 0 scene).recordAt scene = s.recordAt scene := by rw [he]; rfl
  simp only [execHotRecordRefetch, if_neg hgo, State.flashAsk_of_busy hop hk, hrec, State.updScn_scn, State.event_scn, hr]

end

/-- Settles O36: the digest decides what the end of a cold fetch does; a late fetch and a damaged hot record are recorded. -/
theorem sceneRecords : Obligations.SceneRecords := by
  unfold Obligations.SceneRecords
  intro s r scene k o im errs bs
  refine ⟨fun h1 h2 h3 h4 h5 h6 h7 h8 h9 h10 h11 h12 => ?_, execColdFetchLate_of_recall, fun hh hb hr ho hk => ?_⟩
  · have h : s.Fetches o scene k im r := ⟨h1, h2, h3, h4, h5, h6, h7, h8, h9, h10, h11, h12⟩
    refine ⟨fun hgood => ?_, fun hbad => ⟨_, h.execColdFetch_bad hbad, h.bad.mem, h.bad.running, h.bad.coldSlots⟩⟩
    intro d r' u
    rw [exec_coldFetch, h.execColdFetch_good hgood, h.good, State.fetched_eq h.names h.fetching]
    rfl
  · refine ⟨_, execHotRecordRefetch_of_bad hh hb hr ho hk, rfl, fun x hx hs => ?_, fun x hx => ?_⟩
    · have hkeep := (List.mem_filter.mp hx).2
      simpa [hs] using hkeep
    · have hkeep := (List.mem_filter.mp hx).2
      simpa using hkeep

end Sys2Proof.Machine
end

section
/-!
PROOFS. The encodings of the tile's instructions: a word is the sum of its fields, and decode and encode agree (R269 to
R306).
-/

namespace Sys2Proof.Machine

/-! ## Fields of a word -/

section
variable {w hi lo n : Nat} {s : Bool}

theorem fld_lt (w hi lo : Nat) : fld w hi lo < 2 ^ (hi + 1 - lo) := Nat.mod_lt _ (Nat.two_pow_pos _)

/-- A field is its upper and its lower part. -/
theorem fld_split (m : Nat) (hl : lo ≤ m) (hh : m < hi) : fld w hi lo = fld w hi (m + 1) * 2 ^ (m + 1 - lo) + fld w m lo := by
  obtain ⟨a, rfl⟩ := Nat.exists_eq_add_of_le hl
  obtain ⟨b, rfl⟩ := Nat.exists_eq_add_of_lt hh
  have e0 : lo + a + b + 1 + 1 - lo = (a + 1) + (b + 1) := by omega
  have e1 : lo + a + b + 1 + 1 - (lo + a + 1) = b + 1 := by omega
  have e2 : lo + a + 1 - lo = a + 1 := by omega
  have e3 : 2 ^ (lo + a + 1) = 2 ^ lo * 2 ^ (a + 1) := by rw [← Nat.pow_add, Nat.add_assoc]
  unfold fld
  rw [e0, e1, e2, e3, ← Nat.div_div_eq_div_mul, Nat.pow_add 2 (a + 1), Nat.mod_mul, Nat.mul_comm, Nat.add_comm]

theorem bitN_lt (s : Bool) : bitN s < 2 := by cases s <;> decide

theorem bitN_bit (w n : Nat) : bitN (bit w n) = fld w n n := by
  have h := fld_lt w n n
  rw [Nat.add_sub_cancel_left] at h
  unfold bit bitN
  by_cases h1 : fld w n n = 1
  · simp [h1]
  · simp [h1]
    omega

theorem bit_of_fld (h : fld w n n = bitN s) : bit w n = s := by
  unfold bit; rw [h]; cases s <;> rfl

/-- A field as an index of its own width is the field. -/
theorem fin_val [NeZero n] (h : 2 ^ (hi + 1 - lo) ≤ n) : (fin n w hi lo).val = fld w hi lo :=
  Nat.mod_eq_of_lt (Nat.lt_of_lt_of_le (fld_lt w hi lo) h)

theorem vec_toNat (h : hi + 1 - lo ≤ n) : (vec n w hi lo).toNat = fld w hi lo :=
  Nat.mod_eq_of_lt (Nat.lt_of_lt_of_le (fld_lt w hi lo) (Nat.pow_le_pow_right (by decide) h))

theorem fin_of_fld [NeZero n] {x : Fin n} (h : fld w hi lo = x) : fin n w hi lo = x := by
  unfold fin; rw [h]; exact Fin.ofNat_val_eq_self x

theorem vec_of_fld {x : BitVec n} (h : fld w hi lo = x.toNat) : vec n w hi lo = x := by
  unfold vec; rw [h, BitVec.ofNat_toNat, BitVec.setWidth_eq]

end

/-! ## A word as the sum of its digits -/

/-- The word whose fields, from bit 0 up, have these widths and values. -/
def digits : List (Nat × Nat) → Nat
  | [] => 0
  | (k, x) :: ds => x + 2 ^ k * digits ds

/-- Every value fits its width. -/
def Fits : List (Nat × Nat) → Prop
  | [] => True
  | (k, x) :: ds => x < 2 ^ k ∧ Fits ds

/-- From bit `lo` up, a word has these fields and nothing above them. -/
def HasFields (w : Nat) : Nat → List (Nat × Nat) → Prop
  | lo, [] => w < 2 ^ lo
  | lo, (k, x) :: ds => w / 2 ^ lo % 2 ^ k = x ∧ HasFields w (lo + k) ds

/-- The fields of these widths of a word, from bit `lo` up. -/
def fieldsAt (w : Nat) : Nat → List Nat → List (Nat × Nat)
  | _, [] => []
  | lo, k :: ks => (k, w / 2 ^ lo % 2 ^ k) :: fieldsAt w (lo + k) ks

theorem hasFields_add {ds : List (Nat × Nat)} (hf : Fits ds) :
    ∀ {lo low : Nat}, low < 2 ^ lo → HasFields (low + 2 ^ lo * digits ds) lo ds := by
  induction ds with
  | nil => intro lo low hl; simpa [digits, HasFields] using hl
  | cons d ds ih =>
    intro lo low hl
    obtain ⟨k, x⟩ := d
    obtain ⟨hx, hds⟩ := hf
    refine ⟨?_, ?_⟩
    · rw [digits, Nat.add_mul_div_left _ _ (Nat.two_pow_pos lo), Nat.div_eq_of_lt hl, Nat.zero_add, Nat.add_mul_mod_self_left,
        Nat.mod_eq_of_lt hx]
    · have h : low + 2 ^ lo * digits ((k, x) :: ds) = low + 2 ^ lo * x + 2 ^ (lo + k) * digits ds := by rw [digits, Nat.pow_add]; ring
      rw [h]
      refine ih hds ?_
      calc low + 2 ^ lo * x < 2 ^ lo + 2 ^ lo * x := Nat.add_lt_add_right hl _
        _ = 2 ^ lo * (x + 1) := by ring
        _ ≤ 2 ^ (lo + k) := by rw [Nat.pow_add]; exact Nat.mul_le_mul_left _ hx

/-- The fields of a sum of digits are the digits. -/
theorem hasFields_digits {ds : List (Nat × Nat)} {w : Nat} (h : digits ds = w) (hf : Fits ds) : HasFields w 0 ds := by
  simpa [h] using hasFields_add hf (lo := 0) (low := 0) (by decide)

theorem digits_fieldsAt {w : Nat} {ks : List Nat} : ∀ {lo : Nat}, w < 2 ^ (lo + ks.sum) → digits (fieldsAt w lo ks) = w / 2 ^ lo := by
  induction ks with
  | nil => intro lo h; exact (Nat.div_eq_of_lt h).symm
  | cons k ks ih =>
    intro lo h
    rw [List.sum_cons, ← Nat.add_assoc] at h
    rw [fieldsAt, digits, ih h, Nat.pow_add, ← Nat.div_div_eq_div_mul, Nat.mod_add_div]

/-- A word is the sum of its fields. -/
theorem digits_word {w : Nat} (ks : List Nat) (h : w < 2 ^ ks.sum) : digits (fieldsAt w 0 ks) = w := by
  simpa using digits_fieldsAt (lo := 0) (by simpa using h)

/-- A slot's command is decoded exactly when its reserved bits are 0 and its fields are in range. -/
theorem slotOk_eq_ok {r f : Bool} {i j : Instr} : slotOk r f i = .ok j ↔ r = true ∧ f = true ∧ i = j := by
  unfold slotOk
  cases r <;> cases f <;> simp

/-! ## Codes of conditions, post-modifications, conversions, forms and registers -/

theorem condOf_code (c : Cond) : condOf (Cond.code c) = c := by cases c <;> rfl

theorem Cond.code_lt (c : Cond) : Cond.code c < 16 := by cases c <;> decide

theorem Cond.code_condOf {n : Nat} (h : n < 16) : Cond.code (condOf n) = n := by
  interval_cases n <;> rfl

theorem Post.code_lt (p : Post) : Post.code p < 3 := by cases p <;> decide

@[simp] theorem withPost_code (p : Post) (f : Post → Except Nat Instr) : withPost (Post.code p) f = f p := by cases p <;> rfl

/-- A POST field is the code of the post-modification it is read as. -/
theorem withPost_eq_ok {n : Nat} {f : Post → Except Nat Instr} {i : Instr} (h : withPost n f = .ok i) :
    ∃ p, Post.code p = n ∧ f p = .ok i := by
  unfold withPost postOf at h
  split at h
  · next p hp =>
    refine ⟨p, ?_, h⟩
    split at hp <;> cases hp <;> rfl
  · cases h

theorem Conv.code_lt (c : Conv) : Conv.code c < 18 := by
  cases c with
  | word k => exact Nat.lt_succ_of_lt k.isLt
  | p24 => decide

theorem convOf_code (c : Conv) : convOf (Conv.code c) = some c := by
  cases c with
  | word k =>
    unfold convOf
    exact (if_pos k.isLt).trans (congrArg (fun x => some (Conv.word x)) (Fin.ofNat_val_eq_self k))
  | p24 => rfl

theorem code_convOf {n : Nat} {c : Conv} (h : convOf n = some c) : Conv.code c = n := by
  unfold convOf at h
  split at h
  · next hn => cases h; exact Nat.mod_eq_of_lt hn
  · split at h
    · next hn => cases h; exact hn.symm
    · cases h

theorem formOf_code (f : MacForm) : formOf (MacForm.code f) = f := by cases f <;> rfl

theorem MacForm.code_lt (f : MacForm) : MacForm.code f < 4 := by cases f <;> decide

theorem MacForm.code_formOf {n : Nat} (h : n < 4) : MacForm.code (formOf n) = n := by
  interval_cases n <;> rfl

theorem SReg.code_lt (r : SReg) : (SReg.code r).1 < 4 ∧ (SReg.code r).2 < 16 := by
  cases r <;> simp only [SReg.code] <;> omega

theorem regOf_code (r : SReg) : regOf (SReg.code r).1 (SReg.code r).2 = r := by
  cases r with
  | s i => exact congrArg _ (Fin.ofNat_val_eq_self i)
  | p i => exact congrArg _ (Fin.ofNat_val_eq_self i)
  | m i => exact congrArg _ (Fin.ofNat_val_eq_self i)
  | n i => exact congrArg _ (Fin.ofNat_val_eq_self i)

theorem regOk_code (r : SReg) : regOk (SReg.code r).1 (SReg.code r).2 = true := by
  cases r with
  | s i => rfl
  | p i => exact decide_eq_true i.isLt
  | m i => exact decide_eq_true i.isLt
  | n i => exact decide_eq_true i.isLt

/-- A class and a register field in range are the code of the register they are read as. -/
theorem SReg.code_regOf {cls r : Nat} (hc : cls < 4) (hr : r < 16) (h : regOk cls r = true) : SReg.code (regOf cls r) = (cls, r) := by
  have h8 : cls ≠ 0 → r < 8 := fun h0 => by simpa [regOk, h0] using h
  interval_cases cls
  · simp [regOf, SReg.code, Nat.mod_eq_of_lt hr]
  · simp [regOf, SReg.code, Nat.mod_eq_of_lt (h8 (by decide))]
  · simp [regOf, SReg.code, Nat.mod_eq_of_lt (h8 (by decide))]
  · simp [regOf, SReg.code, Nat.mod_eq_of_lt (h8 (by decide))]

/-- The source of a MOVX is read from its code, with its lane where it has one. -/
theorem movSrcOf_code (x : MovSrc) {lane : Nat} (h : (MovSrc.code x).1 = 7 → lane = (MovSrc.code x).2.2) :
    movSrcOf (MovSrc.code x).1 (MovSrc.code x).2.1 lane = some x := by
  cases x with
  | reg r =>
    have hr := regOf_code r
    cases r <;> exact congrArg (fun r => some (MovSrc.reg r)) hr
  | lane v l => simp [MovSrc.code, movSrcOf, h rfl]
  | stat | mode | ldepth | scyc => rfl

theorem movDstOf_code (x : MovDst) {lane : Nat} (h : (MovDst.code x).1 = 7 → lane = (MovDst.code x).2.2) :
    movDstOf (MovDst.code x).1 (MovDst.code x).2.1 lane = some x := by
  cases x with
  | reg r =>
    have hr := regOf_code r
    cases r <;> exact congrArg (fun r => some (MovDst.reg r)) hr
  | lane v l => simp [MovDst.code, movDstOf, h rfl]
  | allLanes v => simp [MovDst.code, movDstOf]
  | stat => rfl

/-- A register of a MOVX is coded in range, and only a lane has a LANE field. -/
theorem MovSrc.code_ok (x : MovSrc) : (MovSrc.code x).1 < 16 ∧ (MovSrc.code x).2.1 < 16 ∧ (MovSrc.code x).2.2 < 4 ∧
    movRegOk (MovSrc.code x).1 (MovSrc.code x).2.1 = true ∧ ((MovSrc.code x).1 ≠ 7 → (MovSrc.code x).2.2 = 0) := by
  cases x with
  | reg r => cases r <;> simp [MovSrc.code, SReg.code, movRegOk] <;> omega
  | lane v l => simp [MovSrc.code, movRegOk]
  | stat | mode | ldepth | scyc => simp [MovSrc.code, movRegOk]

theorem MovDst.code_ok (x : MovDst) : (MovDst.code x).1 < 16 ∧ (MovDst.code x).2.1 < 16 ∧ (MovDst.code x).2.2 < 4 ∧
    movRegOk (MovDst.code x).1 (MovDst.code x).2.1 = true ∧ ((MovDst.code x).1 ≠ 7 → (MovDst.code x).2.2 = 0) := by
  cases x with
  | reg r => cases r <;> simp [MovDst.code, SReg.code, movRegOk] <;> omega
  | lane v l => simp [MovDst.code, movRegOk]
  | allLanes v => simp [MovDst.code, movRegOk]
  | stat => simp [MovDst.code, movRegOk]

/-- Class, register and lane in range are the code of the source they are read as. -/
theorem code_movSrcOf {cls r lane : Nat} {x : MovSrc} (hr : r < 16) (hl : lane < 4) (ho : movRegOk cls r = true)
    (h : movSrcOf cls r lane = some x) : MovSrc.code x = (cls, r, if cls = 7 then lane else 0) := by
  unfold movSrcOf at h
  split at h <;> cases h <;> simp_all [MovSrc.code, SReg.code, regOf, movRegOk, Nat.mod_eq_of_lt]

theorem code_movDstOf {cls r lane : Nat} {x : MovDst} (hr : r < 16) (hl : lane < 4) (ho : movRegOk cls r = true)
    (h : movDstOf cls r lane = some x) : MovDst.code x = (cls, r, if cls = 7 then lane else 0) := by
  unfold movDstOf at h
  split at h <;> cases h <;> simp_all [MovDst.code, SReg.code, regOf, movRegOk, Nat.mod_eq_of_lt]

end Sys2Proof.Machine
end

section
/-!
PROOFS. The words of the C slot (R273 to R285).
-/

namespace Sys2Proof.Machine

/-! ## Words of the C slot -/

section
variable {w major op d a b x y : Nat} {s ann : Bool}

/-- The fields of a SYS word. -/
theorem sys_fields (h : op * 2 ^ 16 + x = w) (ho : op < 16) (hx : x < 2 ^ 16) :
    w < 2 ^ 24 ∧ fld w 23 20 = 0 ∧ fld w 19 16 = op ∧ fld w 15 0 = x := by
  obtain ⟨f0, f16, f20, hw⟩ := hasFields_digits (w := w) (ds := [(16, x), (4, op), (4, 0)])
    (by simp only [digits]; omega) ⟨hx, ho, by decide, trivial⟩
  exact ⟨hw, f20, f16, f0⟩

theorem sys_word (hw : w < 2 ^ 24) (h : fld w 23 20 = 0) : fld w 19 16 * 2 ^ 16 + fld w 15 0 = w := by
  have hx : fld w 15 0 + 2 ^ 16 * (fld w 19 16 + 2 ^ 4 * (fld w 23 20 + 2 ^ 4 * 0)) = w :=
    digits_word [16, 4, 4] hw
  omega


theorem alu_fields (h : 2 ^ 20 + d * 2 ^ 16 + a * 2 ^ 12 + b * 2 ^ 8 + bitN s * 2 ^ 7 + op = w)
    (hd : d < 16) (ha : a < 16) (hb : b < 16) (ho : op < 32) :
    w < 2 ^ 24 ∧ fld w 23 20 = 1 ∧ fld w 19 16 = d ∧ fld w 15 12 = a ∧ fld w 11 8 = b ∧ bit w 7 = s ∧ fld w 6 5 = 0 ∧ fld w 4 0 = op := by
  obtain ⟨f0, f5, f7, f8, f12, f16, f20, hw⟩ := hasFields_digits (w := w) (ds := [(5, op), (2, 0), (1, bitN s), (4, b), (4, a), (4, d), (4, 1)])
    (by simp only [digits]; omega) ⟨ho, by decide, bitN_lt s, hb, ha, hd, by decide, trivial⟩
  exact ⟨hw, f20, f16, f12, f8, bit_of_fld f7, f5, f0⟩

theorem alu_word (hw : w < 2 ^ 24) (h : fld w 23 20 = 1) (h0 : fld w 6 5 = 0) :
    2 ^ 20 + fld w 19 16 * 2 ^ 16 + fld w 15 12 * 2 ^ 12 + fld w 11 8 * 2 ^ 8 + bitN (bit w 7) * 2 ^ 7 + fld w 4 0 = w := by
  have hx : fld w 4 0 + 2 ^ 5 * (fld w 6 5 + 2 ^ 2 * (fld w 7 7 + 2 ^ 1 * (fld w 11 8 + 2 ^ 4 * (fld w 15 12 + 2 ^ 4 * (fld w 19 16 + 2 ^ 4 * (fld w 23 20 + 2 ^ 4 * 0)))))) = w :=
    digits_word [5, 2, 1, 4, 4, 4, 4] hw
  rw [bitN_bit]
  omega

theorem alui_fields (h : 2 * 2 ^ 20 + d * 2 ^ 16 + a * 2 ^ 12 + op * 2 ^ 8 + x = w) (hd : d < 16) (ha : a < 16) (ho : op < 16) (hx : x < 256) :
    w < 2 ^ 24 ∧ fld w 23 20 = 2 ∧ fld w 19 16 = d ∧ fld w 15 12 = a ∧ fld w 11 8 = op ∧ fld w 7 0 = x := by
  obtain ⟨f0, f8, f12, f16, f20, hw⟩ := hasFields_digits (w := w) (ds := [(8, x), (4, op), (4, a), (4, d), (4, 2)])
    (by simp only [digits]; omega) ⟨hx, ho, ha, hd, by decide, trivial⟩
  exact ⟨hw, f20, f16, f12, f8, f0⟩

/-- The fields of a shift by a constant. -/
theorem shifti_fields (h : 2 * 2 ^ 20 + d * 2 ^ 16 + a * 2 ^ 12 + op * 2 ^ 8 + x = w) (hd : d < 16) (ha : a < 16) (ho : op < 16) (hx : x < 32) :
    w < 2 ^ 24 ∧ fld w 23 20 = 2 ∧ fld w 19 16 = d ∧ fld w 15 12 = a ∧ fld w 11 8 = op ∧ fld w 7 5 = 0 ∧ fld w 4 0 = x := by
  obtain ⟨f0, f5, f8, f12, f16, f20, hw⟩ := hasFields_digits (w := w) (ds := [(5, x), (3, 0), (4, op), (4, a), (4, d), (4, 2)])
    (by simp only [digits]; omega) ⟨hx, by decide, ho, ha, hd, by decide, trivial⟩
  exact ⟨hw, f20, f16, f12, f8, f5, f0⟩

theorem alui_word (hw : w < 2 ^ 24) (h : fld w 23 20 = 2) :
    2 * 2 ^ 20 + fld w 19 16 * 2 ^ 16 + fld w 15 12 * 2 ^ 12 + fld w 11 8 * 2 ^ 8 + fld w 7 0 = w := by
  have hx : fld w 7 0 + 2 ^ 8 * (fld w 11 8 + 2 ^ 4 * (fld w 15 12 + 2 ^ 4 * (fld w 19 16 + 2 ^ 4 * (fld w 23 20 + 2 ^ 4 * 0)))) = w :=
    digits_word [8, 4, 4, 4, 4] hw
  omega

/-- The fields of a word with a register and a constant of 16 bits. -/
theorem ldi_fields (h : major * 2 ^ 20 + d * 2 ^ 16 + x = w) (hm : major < 16) (hd : d < 16) (hx : x < 2 ^ 16) :
    w < 2 ^ 24 ∧ fld w 23 20 = major ∧ fld w 19 16 = d ∧ fld w 15 0 = x := by
  obtain ⟨f0, f16, f20, hw⟩ := hasFields_digits (w := w) (ds := [(16, x), (4, d), (4, major)])
    (by simp only [digits]; omega) ⟨hx, hd, hm, trivial⟩
  exact ⟨hw, f20, f16, f0⟩

theorem ldi_word (hw : w < 2 ^ 24) : fld w 23 20 * 2 ^ 20 + fld w 19 16 * 2 ^ 16 + fld w 15 0 = w := by
  have hx : fld w 15 0 + 2 ^ 16 * (fld w 19 16 + 2 ^ 4 * (fld w 23 20 + 2 ^ 4 * 0)) = w :=
    digits_word [16, 4, 4] hw
  omega

/-- The fields of a branch, whose target is an index or a register. -/
theorem branch_fields (h : major * 2 ^ 20 + d * 2 ^ 16 + bitN ann * 2 ^ 15 + x = w) (hm : major < 16) (hd : d < 16) (hx : x < 2 ^ 15) :
    w < 2 ^ 24 ∧ fld w 23 20 = major ∧ fld w 19 16 = d ∧ bit w 15 = ann ∧ fld w 14 11 = x / 2 ^ 11 ∧ fld w 10 0 = x % 2 ^ 11 := by
  obtain ⟨f0, f11, f15, f16, f20, hw⟩ := hasFields_digits (w := w) (ds := [(11, x % 2 ^ 11), (4, x / 2 ^ 11), (1, bitN ann), (4, d), (4, major)])
    (by simp only [digits]; omega) ⟨Nat.mod_lt _ (by decide), Nat.div_lt_of_lt_mul hx, bitN_lt ann, hd, hm, trivial⟩
  exact ⟨hw, f20, f16, bit_of_fld f15, f11, f0⟩

theorem branch_word (hw : w < 2 ^ 24) :
    fld w 23 20 * 2 ^ 20 + fld w 19 16 * 2 ^ 16 + bitN (bit w 15) * 2 ^ 15 + fld w 14 11 * 2 ^ 11 + fld w 10 0 = w := by
  have hx : fld w 10 0 + 2 ^ 11 * (fld w 14 11 + 2 ^ 4 * (fld w 15 15 + 2 ^ 1 * (fld w 19 16 + 2 ^ 4 * (fld w 23 20 + 2 ^ 4 * 0)))) = w :=
    digits_word [11, 4, 1, 4, 4] hw
  rw [bitN_bit]
  omega

/-- The fields of a loop, whose count is a register or a number. -/
theorem loop_fields (h : major * 2 ^ 20 + x * 2 ^ 11 + y = w) (hm : major < 16) (hx : x < 2 ^ 9) (hy : y < 2 ^ 11) :
    w < 2 ^ 24 ∧ fld w 23 20 = major ∧ fld w 19 15 = x / 16 ∧ fld w 14 11 = x % 16 ∧ fld w 19 11 = x ∧ fld w 10 0 = y := by
  obtain ⟨f0, f11, f15, f20, hw⟩ := hasFields_digits (w := w) (ds := [(11, y), (4, x % 16), (5, x / 16), (4, major)])
    (by simp only [digits]; omega) ⟨hy, Nat.mod_lt _ (by decide), Nat.div_lt_of_lt_mul hx, hm, trivial⟩
  obtain ⟨-, f11', -⟩ := hasFields_digits (w := w) (ds := [(11, y), (9, x), (4, major)])
    (by simp only [digits]; omega) ⟨hy, hx, hm, trivial⟩
  exact ⟨hw, f20, f15, f11, f11', f0⟩

theorem loop_word (hw : w < 2 ^ 24) : fld w 23 20 * 2 ^ 20 + fld w 19 11 * 2 ^ 11 + fld w 10 0 = w := by
  have hx : fld w 10 0 + 2 ^ 11 * (fld w 19 11 + 2 ^ 9 * (fld w 23 20 + 2 ^ 4 * 0)) = w :=
    digits_word [11, 9, 4] hw
  omega

theorem fu_fields (h : 0xB * 2 ^ 20 + d * 2 ^ 16 + a * 2 ^ 12 + b * 2 ^ 8 + op = w) (hd : d < 16) (ha : a < 16) (hb : b < 16) (ho : op < 8) :
    w < 2 ^ 24 ∧ fld w 23 20 = 0xB ∧ fld w 19 16 = d ∧ fld w 15 12 = a ∧ fld w 11 8 = b ∧ fld w 7 3 = 0 ∧ fld w 2 0 = op := by
  obtain ⟨f0, f3, f8, f12, f16, f20, hw⟩ := hasFields_digits (w := w) (ds := [(3, op), (5, 0), (4, b), (4, a), (4, d), (4, 0xB)])
    (by simp only [digits]; omega) ⟨ho, by decide, hb, ha, hd, by decide, trivial⟩
  exact ⟨hw, f20, f16, f12, f8, f3, f0⟩

theorem fu_word (hw : w < 2 ^ 24) (h : fld w 23 20 = 0xB) (h0 : fld w 7 3 = 0) :
    0xB * 2 ^ 20 + fld w 19 16 * 2 ^ 16 + fld w 15 12 * 2 ^ 12 + fld w 11 8 * 2 ^ 8 + fld w 2 0 = w := by
  have hx : fld w 2 0 + 2 ^ 3 * (fld w 7 3 + 2 ^ 5 * (fld w 11 8 + 2 ^ 4 * (fld w 15 12 + 2 ^ 4 * (fld w 19 16 + 2 ^ 4 * (fld w 23 20 + 2 ^ 4 * 0))))) = w :=
    digits_word [3, 5, 4, 4, 4, 4] hw
  omega

theorem movx_fields (h : 0xC * 2 ^ 20 + d * 2 ^ 16 + a * 2 ^ 12 + x * 2 ^ 8 + y * 2 ^ 4 + b * 2 ^ 2 = w)
    (hd : d < 16) (ha : a < 16) (hx : x < 16) (hy : y < 16) (hb : b < 4) :
    w < 2 ^ 24 ∧ fld w 23 20 = 0xC ∧ fld w 19 16 = d ∧ fld w 15 12 = a ∧ fld w 11 8 = x ∧ fld w 7 4 = y ∧ fld w 3 2 = b ∧ fld w 1 0 = 0 := by
  obtain ⟨f0, f2, f4, f8, f12, f16, f20, hw⟩ := hasFields_digits (w := w) (ds := [(2, 0), (2, b), (4, y), (4, x), (4, a), (4, d), (4, 0xC)])
    (by simp only [digits]; omega) ⟨by decide, hb, hy, hx, ha, hd, by decide, trivial⟩
  exact ⟨hw, f20, f16, f12, f8, f4, f2, f0⟩

theorem movx_word (hw : w < 2 ^ 24) (h : fld w 23 20 = 0xC) (h0 : fld w 1 0 = 0) :
    0xC * 2 ^ 20 + fld w 19 16 * 2 ^ 16 + fld w 15 12 * 2 ^ 12 + fld w 11 8 * 2 ^ 8 + fld w 7 4 * 2 ^ 4 + fld w 3 2 * 2 ^ 2 = w := by
  have hx : fld w 1 0 + 2 ^ 2 * (fld w 3 2 + 2 ^ 2 * (fld w 7 4 + 2 ^ 4 * (fld w 11 8 + 2 ^ 4 * (fld w 15 12 + 2 ^ 4 * (fld w 19 16 + 2 ^ 4 * (fld w 23 20 + 2 ^ 4 * 0)))))) = w :=
    digits_word [2, 2, 4, 4, 4, 4, 4] hw
  omega

end

/-! ## The word of a C slot is decoded as its command -/

section
variable {t : TileNo} {last : Bool} {i : Instr} {w : Nat}

theorem encodeC_movx (d : MovDst) (x : MovSrc) : encodeC (.movx t last d x) =
    if (MovDst.code d).1 = 7 ∧ (MovSrc.code x).1 = 7 then none
    else some (0xC * 2 ^ 20 + (MovDst.code d).2.1 * 2 ^ 16 + (MovSrc.code x).2.1 * 2 ^ 12 + (MovDst.code d).1 * 2 ^ 8 +
      (MovSrc.code x).1 * 2 ^ 4 + ((MovDst.code d).2.2 + (MovSrc.code x).2.2) * 2 ^ 2) := rfl

theorem illegalForm_movx (d : MovDst) (x : MovSrc) : Instr.illegalForm (.movx t last d x) = false ↔
    (MovDst.code d).1 = 0 ∨ (MovSrc.code x).1 = 0 := by
  change ((MovDst.code d).1 != 0 && (MovSrc.code x).1 != 0) = false ↔ _
  simp [← Classical.or_iff_not_imp_left]

/-- A MOVX whose classes the table allows, at least one of them that of the s registers. -/
theorem decodeC_movx {d : MovDst} {x : MovSrc} (hl : Instr.illegalForm (.movx t last d x) = false) (h : encodeC (.movx t last d x) = some w) :
    w < 2 ^ 24 ∧ decodeC t last w = .ok (.movx t last d x) := by
  obtain ⟨hdc, hdr, hdl, hdo, hd0⟩ := MovDst.code_ok d
  obtain ⟨hsc, hsr, hsl, hso, hs0⟩ := MovSrc.code_ok x
  have hone := (illegalForm_movx d x).mp hl
  rw [encodeC_movx, if_neg (by omega), Option.some.injEq] at h
  obtain ⟨hw, hm, h1, h2, h3, h4, h5, h6⟩ := movx_fields h hdr hsr hdc hsc (by omega)
  refine ⟨hw, ?_⟩
  have hlane : (MovDst.code d).1 = 7 ∨ (MovSrc.code x).1 = 7 ∨ fld w 3 2 = 0 := by omega
  have e1 := movDstOf_code d (lane := fld w 3 2) (by omega)
  have e2 := movSrcOf_code x (lane := fld w 3 2) (by omega)
  simp only [decodeC, hm, decodeMovx, h1, h2, h3, h4, e1, e2, slotOk_eq_ok]
  simp [h6, hone, hdo, hso, hlane, or_assoc]

theorem decodeC_encodeC {p : TileNo × Bool} (hs : Instr.slotOf i = some p) (hl : Instr.illegalForm i = false) (h : encodeC i = some w) :
    w < 2 ^ 24 ∧ decodeC p.1 p.2 w = .ok i := by
  cases i with
  | nop | yield | cret =>
    obtain rfl := Option.some.inj hs
    obtain ⟨hw, hm, ho, hz⟩ := sys_fields (Option.some.inj h) (by decide) (by decide)
    exact ⟨hw, by simp only [decodeC, hm, decodeSys, ho, slotOk_eq_ok]; simp [hz]⟩
  | setmodeImm _ _ nosat trunc =>
    obtain rfl := Option.some.inj hs
    obtain ⟨e0, e1, (ez : fld w 15 2 = 0), (ho : fld w 19 16 = 3), (hm : fld w 23 20 = 0), hw⟩ := hasFields_digits
      (ds := [(1, bitN trunc), (1, bitN nosat), (14, 0), (4, 3), (4, 0)]) (.trans (by simp only [digits]; omega) (Option.some.inj h))
      ⟨bitN_lt trunc, bitN_lt nosat, by decide, by decide, by decide, trivial⟩
    exact ⟨hw, by simp only [decodeC, hm, decodeSys, ho, slotOk_eq_ok]; simp [bit_of_fld e1, bit_of_fld e0, ez]⟩
  | setmodeS _ _ a =>
    obtain rfl := Option.some.inj hs
    obtain ⟨(ez : fld w 11 0 = 0), (ea : fld w 15 12 = a), (ho : fld w 19 16 = 4), (hm : fld w 23 20 = 0), hw⟩ := hasFields_digits
      (ds := [(12, 0), (4, a), (4, 4), (4, 0)]) (.trans (by simp only [digits]; omega) (Option.some.inj h))
      ⟨by decide, a.isLt, by decide, by decide, trivial⟩
    exact ⟨hw, by simp only [decodeC, hm, decodeSys, ho, slotOk_eq_ok]; simp [fin_of_fld ea, ez]⟩
  | waits _ _ c =>
    obtain rfl := Option.some.inj hs
    obtain ⟨ec, (ez : fld w 15 13 = 0), (ho : fld w 19 16 = 5), (hm : fld w 23 20 = 0), hw⟩ := hasFields_digits
      (ds := [(13, c.toNat), (3, 0), (4, 5), (4, 0)]) (.trans (by simp only [digits]; omega) (Option.some.inj h))
      ⟨c.isLt, by decide, by decide, by decide, trivial⟩
    exact ⟨hw, by simp only [decodeC, hm, decodeSys, ho, slotOk_eq_ok]; simp [vec_of_fld ec, ez]⟩
  | gang _ _ g =>
    obtain rfl := Option.some.inj hs
    obtain ⟨eg, (ez : fld w 15 4 = 0), (ho : fld w 19 16 = 6), (hm : fld w 23 20 = 0), hw⟩ := hasFields_digits
      (ds := [(4, g.val), (12, 0), (4, 6), (4, 0)]) (.trans (by simp only [digits]; omega) (Option.some.inj h))
      ⟨g.isLt, by decide, by decide, by decide, trivial⟩
    exact ⟨hw, by simp only [decodeC, hm, decodeSys, ho, slotOk_eq_ok]; simp [fin_of_fld eg, ez]⟩
  | add _ _ d a b s | sub _ _ d a b s | and _ _ d a b s | or _ _ d a b s | xor _ _ d a b s | andn _ _ d a b s | shl _ _ d a b s
  | shr _ _ d a b s | asr _ _ d a b s | min _ _ d a b s | max _ _ d a b s | minu _ _ d a b s | maxu _ _ d a b s | mull _ _ d a b s
  | mulh _ _ d a b s | addsat _ _ d a b s | subsat _ _ d a b s =>
    obtain rfl := Option.some.inj hs
    obtain ⟨hw, hm, hd, ha, hb, hf, hz, ho⟩ := alu_fields (Option.some.inj h) d.isLt a.isLt b.isLt (by decide)
    exact ⟨hw, by simp only [decodeC, hm, decodeAlu, ho, fin_of_fld hd, fin_of_fld ha, fin_of_fld hb, hf, hz] <;> rfl⟩
  | abs _ _ d a s | neg _ _ d a s | cls _ _ d a s | clz _ _ d a s =>
    obtain rfl := Option.some.inj hs
    obtain ⟨hw, hm, hd, ha, hb, hf, hz, ho⟩ := alu_fields (b := 0) (Option.some.inj h) d.isLt a.isLt (by decide) (by decide)
    exact ⟨hw, by simp only [decodeC, hm, decodeAlu, ho, fin_of_fld hd, fin_of_fld ha, hb, hf, hz] <;> rfl⟩
  | cmp _ _ a b | tst _ _ a b =>
    obtain rfl := Option.some.inj hs
    obtain ⟨hw, hm, hd, ha, hb, hf, hz, ho⟩ := alu_fields (d := 0) (s := true) (Option.some.inj h) (by decide) a.isLt b.isLt (by decide)
    exact ⟨hw, by simp only [decodeC, hm, decodeAlu, ho, hd, fin_of_fld ha, fin_of_fld hb, hf, hz] <;> rfl⟩
  | addi _ _ d a x | andi _ _ d a x | ori _ _ d a x | xori _ _ d a x | mini _ _ d a x | maxi _ _ d a x =>
    obtain rfl := Option.some.inj hs
    obtain ⟨hw, hm, hd, ha, ho, hx⟩ := alui_fields (Option.some.inj h) d.isLt a.isLt (by decide) x.isLt
    exact ⟨hw, by simp only [decodeC, hm, decodeAlui, ho, fin_of_fld hd, fin_of_fld ha, vec_of_fld hx]⟩
  | shli _ _ d a k | shri _ _ d a k | asri _ _ d a k =>
    obtain rfl := Option.some.inj hs
    obtain ⟨hw, hm, hd, ha, ho, hz, hk⟩ := shifti_fields (Option.some.inj h) d.isLt a.isLt (by decide) k.isLt
    exact ⟨hw, by simp only [decodeC, hm, decodeAlui, ho, slotOk_eq_ok]; simp [fin_of_fld hd, fin_of_fld ha, fin_of_fld hk, hz]⟩
  | cmpi _ _ a x =>
    obtain rfl := Option.some.inj hs
    obtain ⟨hw, hm, hd, ha, ho, hx⟩ := alui_fields (d := 0) (Option.some.inj h) (by decide) a.isLt (by decide) x.isLt
    exact ⟨hw, by simp only [decodeC, hm, decodeAlui, ho, slotOk_eq_ok]; simp [hd, fin_of_fld ha, vec_of_fld hx]⟩
  | ldi _ _ d x | ldih _ _ d x =>
    obtain rfl := Option.some.inj hs
    obtain ⟨hw, hm, hd, hx⟩ := ldi_fields (Option.some.inj h) (by decide) d.isLt x.isLt
    exact ⟨hw, by simp only [decodeC, hm, fin_of_fld hd, vec_of_fld hx]⟩
  | b _ _ c ann x | bal _ _ c ann x =>
    obtain rfl := Option.some.inj hs
    obtain ⟨hw, hm, hc, ha, hz, hx⟩ := branch_fields (Option.some.inj h) (by decide) (Cond.code_lt c) (by omega)
    rw [Nat.div_eq_of_lt (by omega)] at hz
    rw [Nat.mod_eq_of_lt (by omega)] at hx
    exact ⟨hw, by simp only [decodeC, hm, decodeBranch, hc, condOf_code, ha, hz, vec_of_fld hx, slotOk_eq_ok]; simp⟩
  | br _ _ c ann a =>
    obtain rfl := Option.some.inj hs
    obtain ⟨hw, hm, hc, hn, ha, hz⟩ := branch_fields (Option.some.inj h) (by decide) (Cond.code_lt c) (by omega)
    rw [Nat.mul_div_cancel _ (by decide)] at ha
    rw [Nat.mul_mod_left] at hz
    exact ⟨hw, by simp only [decodeC, hm, decodeBranch, hc, condOf_code, hn, hz, fin_of_fld ha, slotOk_eq_ok]; simp⟩
  | loop _ _ a lend =>
    obtain rfl := Option.some.inj hs
    obtain ⟨hw, hm, hz, ha, -, hx⟩ := loop_fields (Option.some.inj h) (by decide) (by omega) (by omega)
    rw [Nat.div_eq_of_lt a.isLt] at hz
    rw [Nat.mod_eq_of_lt a.isLt] at ha
    exact ⟨hw, by simp only [decodeC, hm, hz, fin_of_fld ha, vec_of_fld hx, slotOk_eq_ok]; simp⟩
  | loopi _ _ n lend =>
    obtain rfl := Option.some.inj hs
    obtain ⟨hw, hm, -, -, hn, hx⟩ := loop_fields (Option.some.inj h) (by decide) (by omega) (by omega)
    exact ⟨hw, by simp only [decodeC, hm, vec_of_fld hn, vec_of_fld hx]⟩
  | rpt _ _ c =>
    obtain rfl := Option.some.inj hs
    cases c with
    | imm n =>
      have hn : n.toNat ≤ 1024 := Nat.le_of_not_lt (of_decide_eq_false hl)
      have h' : 0xA * 2 ^ 20 + 0 * 2 ^ 16 + bitN false * 2 ^ 15 + n.toNat = w := Option.some.inj h
      obtain ⟨hw, hm, hd, hb, hz, hx⟩ := branch_fields h' (by decide) (by decide) (by omega)
      rw [Nat.div_eq_of_lt n.isLt] at hz
      rw [Nat.mod_eq_of_lt n.isLt] at hx
      exact ⟨hw, by simp only [decodeC, hm, decodeRpt, hb, hz, hd, vec_of_fld hx, hx]; simp [slotOk_eq_ok, hn]⟩
    | reg a =>
      have h' : 0xA * 2 ^ 20 + a * 2 ^ 16 + bitN true * 2 ^ 15 + 0 = w := Option.some.inj h
      obtain ⟨hw, hm, ha, hb, hz, hx⟩ := branch_fields h' (by decide) (by omega) (by decide)
      exact ⟨hw, by simp only [decodeC, hm, decodeRpt, hb, hz, hx, fin_of_fld ha]; simp [slotOk_eq_ok]⟩
  | rcp _ _ d a | rsq _ _ d a | log2 _ _ d a | exp2 _ _ d a =>
    obtain rfl := Option.some.inj hs
    obtain ⟨hw, hm, hd, ha, hb, hz, ho⟩ := fu_fields (Option.some.inj h) (by omega) (by omega) (by omega) (by decide)
    exact ⟨hw, by simp only [decodeC, hm, decodeFu, ho, hz, hb, fin_of_fld hd, fin_of_fld ha, slotOk_eq_ok]; simp⟩
  | div _ _ d a b =>
    obtain rfl := Option.some.inj hs
    obtain ⟨hw, hm, hd, ha, hb, hz, ho⟩ := fu_fields (Option.some.inj h) (by omega) (by omega) (by omega) (by decide)
    exact ⟨hw, by simp only [decodeC, hm, decodeFu, ho, hz, fin_of_fld hb, fin_of_fld hd, fin_of_fld ha, slotOk_eq_ok]; simp⟩
  | movx =>
    obtain rfl := Option.some.inj hs
    exact decodeC_movx hl h
  | _ => exact absurd h.symm (Option.some_ne_none _)

/-! ## A C slot that is decoded is the word of its command -/

theorem decodeSys_ok (hw : w < 2 ^ 24) (hm : fld w 23 20 = 0) (hd : decodeSys t last w = .ok i) :
    encodeC i = some w ∧ Instr.illegalForm i = false := by
  have hx := sys_word hw hm
  unfold decodeSys at hd
  split at hd
  case h_1 ho | h_2 ho | h_3 ho =>
    obtain ⟨hz, -, rfl⟩ := slotOk_eq_ok.mp hd
    exact ⟨congrArg some (by rw [← hx, ho, beq_iff_eq.mp hz]), rfl⟩
  case h_4 ho =>
    obtain ⟨hz, -, rfl⟩ := slotOk_eq_ok.mp hd
    refine ⟨congrArg some ?_, rfl⟩
    rw [fld_split (lo := 0) 1 (by decide) (by decide), fld_split (hi := 1) 0 (by decide) (by decide)] at hx
    simpa [bitN_bit, ho, beq_iff_eq.mp hz, Nat.mul_comm] using hx
  case h_5 ho =>
    obtain ⟨hz, -, rfl⟩ := slotOk_eq_ok.mp hd
    refine ⟨congrArg some ?_, rfl⟩
    rw [fld_split (lo := 0) 11 (by decide) (by decide)] at hx
    simpa [fin_val, ho, beq_iff_eq.mp hz] using hx
  case h_6 ho =>
    obtain ⟨hz, -, rfl⟩ := slotOk_eq_ok.mp hd
    refine ⟨congrArg some ?_, rfl⟩
    rw [fld_split (lo := 0) 12 (by decide) (by decide)] at hx
    simpa [vec_toNat, ho, beq_iff_eq.mp hz] using hx
  case h_7 ho =>
    obtain ⟨hz, -, rfl⟩ := slotOk_eq_ok.mp hd
    refine ⟨congrArg some ?_, rfl⟩
    rw [fld_split (lo := 0) 3 (by decide) (by decide)] at hx
    simpa [fin_val, ho, beq_iff_eq.mp hz] using hx
  case h_8 => cases hd

theorem decodeAlu_ok (hw : w < 2 ^ 24) (hm : fld w 23 20 = 1) (hd : decodeAlu t last w = .ok i) :
    encodeC i = some w ∧ Instr.illegalForm i = false := by
  have hx := alu_word hw hm
  unfold decodeAlu at hd
  split at hd
  case h_24 => cases hd
  all_goals
    next ho =>
    obtain ⟨hz, hf, rfl⟩ := slotOk_eq_ok.mp hd
    refine ⟨congrArg some ?_, rfl⟩
    simp_all [fin_val]

theorem decodeAlui_ok (hw : w < 2 ^ 24) (hm : fld w 23 20 = 2) (hd : decodeAlui t last w = .ok i) :
    encodeC i = some w ∧ Instr.illegalForm i = false := by
  have hx := alui_word hw hm
  unfold decodeAlui at hd
  split at hd
  case h_1 ho | h_2 ho | h_3 ho | h_4 ho | h_9 ho | h_10 ho =>
    cases hd
    refine ⟨congrArg some ?_, rfl⟩
    simpa [fin_val, vec_toNat, ho] using hx
  case h_5 ho | h_6 ho | h_7 ho =>
    obtain ⟨-, hz, rfl⟩ := slotOk_eq_ok.mp hd
    refine ⟨congrArg some ?_, rfl⟩
    rw [fld_split (lo := 0) 4 (by decide) (by decide)] at hx
    simpa [fin_val, ho, beq_iff_eq.mp hz] using hx
  case h_8 ho =>
    obtain ⟨-, hz, rfl⟩ := slotOk_eq_ok.mp hd
    refine ⟨congrArg some ?_, rfl⟩
    simpa [fin_val, vec_toNat, ho, beq_iff_eq.mp hz] using hx
  case h_11 => cases hd

theorem decodeBranch_ok (hw : w < 2 ^ 24) (hm : fld w 23 20 = 5 ∨ fld w 23 20 = 6 ∨ fld w 23 20 = 7) (hd : decodeBranch t last w = .ok i) :
    encodeC i = some w ∧ Instr.illegalForm i = false := by
  have hx := branch_word hw
  have hc := Cond.code_condOf (fld_lt w 19 16)
  unfold decodeBranch at hd
  split at hd
  case h_1 ho | h_2 ho =>
    obtain ⟨hz, -, rfl⟩ := slotOk_eq_ok.mp hd
    refine ⟨congrArg some ?_, rfl⟩
    simpa [vec_toNat, ho, hc, beq_iff_eq.mp hz] using hx
  case h_3 h5 h6 =>
    obtain ⟨hz, -, rfl⟩ := slotOk_eq_ok.mp hd
    have ho := (hm.resolve_left h5).resolve_left h6
    refine ⟨congrArg some ?_, rfl⟩
    simpa [fin_val, ho, hc, beq_iff_eq.mp hz] using hx

theorem decodeRpt_ok (hw : w < 2 ^ 24) (hm : fld w 23 20 = 0xA) (hd : decodeRpt t last w = .ok i) :
    encodeC i = some w ∧ Instr.illegalForm i = false := by
  have hx := branch_word hw
  unfold decodeRpt at hd
  split at hd
  · next hb =>
    obtain ⟨hz, hf, rfl⟩ := slotOk_eq_ok.mp hd
    refine ⟨congrArg some ?_, rfl⟩
    simpa [fin_val, hm, hb, bitN, beq_iff_eq.mp hz, beq_iff_eq.mp hf] using hx
  · next hb =>
    obtain ⟨hz, hf, rfl⟩ := slotOk_eq_ok.mp hd
    obtain ⟨hd0, hn⟩ := Bool.and_eq_true_iff.mp hf
    refine ⟨congrArg some ?_, ?_⟩
    · simpa [vec_toNat, hm, hb, bitN, beq_iff_eq.mp hz, beq_iff_eq.mp hd0] using hx
    · exact decide_eq_false (Nat.not_lt.mpr (by simpa [vec_toNat] using hn))

theorem decodeFu_ok (hw : w < 2 ^ 24) (hm : fld w 23 20 = 0xB) (hd : decodeFu t last w = .ok i) :
    encodeC i = some w ∧ Instr.illegalForm i = false := by
  have hx := fu_word hw hm
  unfold decodeFu at hd
  split at hd
  case h_6 => cases hd
  all_goals
    next ho =>
    obtain ⟨hz, hf, rfl⟩ := slotOk_eq_ok.mp hd
    refine ⟨congrArg some ?_, rfl⟩
    simp_all [fin_val]

theorem decodeMovx_ok (hw : w < 2 ^ 24) (hm : fld w 23 20 = 0xC) (hd : decodeMovx t last w = .ok i) :
    encodeC i = some w ∧ Instr.illegalForm i = false := by
  unfold decodeMovx at hd
  dsimp only at hd
  split at hd
  · next d x hd' hs' =>
    obtain ⟨hz, hf, rfl⟩ := slotOk_eq_ok.mp hd
    simp only [Bool.and_eq_true, Bool.or_eq_true, beq_iff_eq] at hz hf
    obtain ⟨⟨h0, hone⟩, ⟨hdo, hso⟩, hlane⟩ := And.intro hz hf
    have hdc := code_movDstOf (fld_lt w 19 16) (fld_lt w 3 2) hdo hd'
    have hsc := code_movSrcOf (fld_lt w 15 12) (fld_lt w 3 2) hso hs'
    have hx := movx_word hw hm h0
    rw [encodeC_movx, illegalForm_movx, hdc, hsc]
    refine ⟨(if_neg (by dsimp only; omega)).trans (congrArg some ?_), hone⟩
    have hl : (if fld w 11 8 = 7 then fld w 3 2 else 0) + (if fld w 7 4 = 7 then fld w 3 2 else 0) = fld w 3 2 := by
      split <;> split <;> omega
    simpa only [hl] using hx
  · cases hd

theorem decodeC_ok (hw : w < 2 ^ 24) (hd : decodeC t last w = .ok i) : encodeC i = some w ∧ Instr.illegalForm i = false := by
  unfold decodeC at hd
  split at hd
  case h_1 hm => exact decodeSys_ok hw hm hd
  case h_2 hm => exact decodeAlu_ok hw hm hd
  case h_3 hm => exact decodeAlui_ok hw hm hd
  case h_4 hm | h_5 hm =>
    have hx := ldi_word hw
    cases hd
    refine ⟨congrArg some ?_, rfl⟩
    simpa [fin_val, vec_toNat, hm] using hx
  case h_6 hm => exact decodeBranch_ok hw (.inl hm) hd
  case h_7 hm => exact decodeBranch_ok hw (.inr (.inl hm)) hd
  case h_8 hm => exact decodeBranch_ok hw (.inr (.inr hm)) hd
  case h_9 hm =>
    have hx := loop_word hw
    obtain ⟨hz, -, rfl⟩ := slotOk_eq_ok.mp hd
    refine ⟨congrArg some ?_, rfl⟩
    rw [fld_split (lo := 11) 14 (by decide) (by decide)] at hx
    simpa [fin_val, vec_toNat, hm, beq_iff_eq.mp hz] using hx
  case h_10 hm =>
    have hx := loop_word hw
    cases hd
    refine ⟨congrArg some ?_, rfl⟩
    simpa [vec_toNat, hm] using hx
  case h_11 hm => exact decodeRpt_ok hw hm hd
  case h_12 hm => exact decodeFu_ok hw hm hd
  case h_13 hm => exact decodeMovx_ok hw hm hd
  case h_14 => cases hd

end
end Sys2Proof.Machine
end

section
/-!
PROOFS. The words of the M and the L slot (R290 to R306), and the bundle (R269, R271).
-/

namespace Sys2Proof.Machine

/-! ## Words of the M slot -/

section
variable {w major x y p k : Nat} {post postb : Post}

/-- The fields of a word with a register of a class and a rotation. -/
theorem memReg_fields {cls n off : Nat} {rot : Bool} (h : major * 2 ^ 16 + (cls * 2 ^ 14 + n * 2 ^ 10) + p * 2 ^ 7 + Post.code post * 2 ^ 5 + (bitN rot * 2 ^ 4 + off) = w)
    (hm : major < 16) (hc : cls < 4) (hn : n < 16) (hp : p < 8) (ho : off < 16) :
    w < 2 ^ 20 ∧ fld w 19 16 = major ∧ fld w 15 14 = cls ∧ fld w 13 10 = n ∧ fld w 9 7 = p ∧ fld w 6 5 = Post.code post ∧ bit w 4 = rot ∧ fld w 3 0 = off := by
  obtain ⟨f0, f4, f5, f7, f10, f14, f16, hw⟩ := hasFields_digits (w := w) (ds := [(4, off), (1, bitN rot), (2, Post.code post), (3, p), (4, n), (2, cls), (4, major)])
    (by simp only [digits]; omega) ⟨ho, bitN_lt rot, (Post.code_lt post).trans (by decide), hp, hn, hc, hm, trivial⟩
  exact ⟨hw, f16, f14, f10, f7, f5, bit_of_fld f4, f0⟩

/-- The fields of a word with a vector register. -/
theorem memVec_fields {v off : Nat} (h : major * 2 ^ 16 + v * 2 ^ 12 + p * 2 ^ 7 + Post.code post * 2 ^ 5 + off = w)
    (hm : major < 16) (hv : v < 16) (hp : p < 8) (ho : off < 32) :
    w < 2 ^ 20 ∧ fld w 19 16 = major ∧ fld w 15 12 = v ∧ fld w 11 10 = 0 ∧ fld w 9 7 = p ∧ fld w 6 5 = Post.code post ∧ fld w 4 0 = off := by
  obtain ⟨f0, f5, f7, f10, f12, f16, hw⟩ := hasFields_digits (w := w) (ds := [(5, off), (2, Post.code post), (3, p), (2, 0), (4, v), (4, major)])
    (by simp only [digits]; omega) ⟨ho, (Post.code_lt post).trans (by decide), hp, by decide, hv, hm, trivial⟩
  exact ⟨hw, f16, f12, f10, f7, f5, f0⟩

/-- The fields of a word with a lane of a vector register. -/
theorem memLane_fields {v l off : Nat} {p3 : Bool} (h : major * 2 ^ 16 + (v * 2 ^ 12 + l * 2 ^ 10) + p * 2 ^ 7 + Post.code post * 2 ^ 5 + (bitN p3 * 2 ^ 4 + off) = w)
    (hm : major < 16) (hv : v < 16) (hl : l < 4) (hp : p < 8) (ho : off < 16) :
    w < 2 ^ 20 ∧ fld w 19 16 = major ∧ fld w 15 12 = v ∧ fld w 11 10 = l ∧ fld w 9 7 = p ∧ fld w 6 5 = Post.code post ∧ bit w 4 = p3 ∧ fld w 3 0 = off := by
  obtain ⟨f0, f4, f5, f7, f10, f12, f16, hw⟩ := hasFields_digits (w := w) (ds := [(4, off), (1, bitN p3), (2, Post.code post), (3, p), (2, l), (4, v), (4, major)])
    (by simp only [digits]; omega) ⟨ho, bitN_lt p3, (Post.code_lt post).trans (by decide), hp, hl, hv, hm, trivial⟩
  exact ⟨hw, f16, f12, f10, f7, f5, bit_of_fld f4, f0⟩

/-- The fields of a word with an accumulator, whose lane selection has a flag and a lane. -/
theorem memAcc_fields {a c l y : Nat} {one : Bool} (h : major * 2 ^ 16 + (a * 2 ^ 15 + c * 2 ^ 10) + p * 2 ^ 7 + Post.code post * 2 ^ 5 + y = w)
    (hy : bitN one * 2 ^ 4 + l * 2 ^ 2 = y) (hm : major < 16) (ha : a < 2) (hc : c < 32) (hp : p < 8) (hl : l < 4) :
    w < 2 ^ 20 ∧ fld w 19 16 = major ∧ fld w 15 15 = a ∧ fld w 14 10 = c ∧ fld w 9 7 = p ∧ fld w 6 5 = Post.code post ∧ bit w 4 = one ∧ fld w 3 2 = l ∧ fld w 1 0 = 0 := by
  obtain ⟨f0, f2, f4, f5, f7, f10, f15, f16, hw⟩ := hasFields_digits (w := w) (ds := [(2, 0), (2, l), (1, bitN one), (2, Post.code post), (3, p), (5, c), (1, a), (4, major)])
    (by simp only [digits]; omega) ⟨by decide, hl, bitN_lt one, (Post.code_lt post).trans (by decide), hp, hc, ha, hm, trivial⟩
  exact ⟨hw, f16, f15, f10, f7, f5, bit_of_fld f4, f2, f0⟩

theorem mem_word (hw : w < 2 ^ 20) :
    fld w 19 16 * 2 ^ 16 + fld w 15 10 * 2 ^ 10 + fld w 9 7 * 2 ^ 7 + fld w 6 5 * 2 ^ 5 + fld w 4 0 = w := by
  have hx : fld w 4 0 + 2 ^ 5 * (fld w 6 5 + 2 ^ 2 * (fld w 9 7 + 2 ^ 3 * (fld w 15 10 + 2 ^ 6 * (fld w 19 16 + 2 ^ 4 * 0)))) = w :=
    digits_word [5, 2, 3, 6, 4] hw
  omega

theorem ldd_fields {b : Bool} (h : 8 * 2 ^ 16 + x * 2 ^ 13 + p * 2 ^ 10 + Post.code post * 2 ^ 8 + k * 2 ^ 5 + Post.code postb * 2 ^ 3 + bitN b * 2 ^ 2 = w)
    (hx : x < 8) (hp : p < 8) (hk : k < 8) :
    w < 2 ^ 20 ∧ fld w 19 16 = 8 ∧ fld w 15 13 = x ∧ fld w 12 10 = p ∧ fld w 9 8 = Post.code post ∧ fld w 7 5 = k ∧
      fld w 4 3 = Post.code postb ∧ bit w 2 = b ∧ fld w 1 0 = 0 := by
  obtain ⟨f0, f2, f3, f5, f8, f10, f13, f16, hw⟩ := hasFields_digits (w := w)
    (ds := [(2, 0), (1, bitN b), (2, Post.code postb), (3, k), (2, Post.code post), (3, p), (3, x), (4, 8)])
    (by simp only [digits]; omega)
    ⟨by decide, bitN_lt b, (Post.code_lt postb).trans (by decide), hk, (Post.code_lt post).trans (by decide), hp, hx, by decide, trivial⟩
  exact ⟨hw, f16, f13, f10, f8, f5, f3, bit_of_fld f2, f0⟩

theorem ldd_word (hw : w < 2 ^ 20) : fld w 19 16 * 2 ^ 16 + fld w 15 13 * 2 ^ 13 + fld w 12 10 * 2 ^ 10 + fld w 9 8 * 2 ^ 8 +
    fld w 7 5 * 2 ^ 5 + fld w 4 3 * 2 ^ 3 + bitN (bit w 2) * 2 ^ 2 + fld w 1 0 = w := by
  have hx : fld w 1 0 + 2 ^ 2 * (fld w 2 2 + 2 ^ 1 * (fld w 4 3 + 2 ^ 2 * (fld w 7 5 + 2 ^ 3 * (fld w 9 8 + 2 ^ 2 * (fld w 12 10 + 2 ^ 3 * (fld w 15 13 + 2 ^ 3 * (fld w 19 16 + 2 ^ 4 * 0))))))) = w :=
    digits_word [2, 1, 2, 3, 2, 3, 3, 4] hw
  rw [bitN_bit]
  omega

end

section
variable {t : TileNo} {last : Bool} {i : Instr} {w : Nat}

/-- A dual load that steps no pointer twice. -/
theorem illegalForm_ldd {pair pa pb : Fin 8} {posta postb : Post} {bc : Bool} :
    Instr.illegalForm (.ldd t last pair pa posta pb postb bc) = false ↔
      ¬(pa.val = pb.val ∧ Post.code posta ≠ 0 ∧ Post.code postb ≠ 0) := by
  have hcode (p : Post) : Post.code p = 0 ↔ p = .none := by cases p <;> simp [Post.code]
  change (pa == pb && posta != .none && postb != .none) = false ↔ _
  simp [hcode, Fin.val_inj]

theorem decodeM_encodeM {p : TileNo × Bool} (hs : Instr.slotOf i = some p) (hl : Instr.illegalForm i = false) (h : encodeM i = some w) :
    w < 2 ^ 20 ∧ decodeM p.1 p.2 w = .ok i := by
  cases i with
  | nop => obtain rfl := Option.some.inj hs; cases h; exact ⟨by decide, rfl⟩
  | lds _ _ r ptr post rot off | sts _ _ r ptr post rot off =>
    obtain rfl := Option.some.inj hs
    obtain ⟨hc, hn⟩ := SReg.code_lt r
    obtain ⟨hw, hm, h1, h2, hp, hq, hr, ho⟩ := memReg_fields (Option.some.inj h) (by decide) hc hn (by omega) (by omega)
    exact ⟨hw, by simp only [decodeM, hm, hq, withPost_code, fin_of_fld hp, h1, h2, hr, fin_of_fld ho, regOf_code, regOk_code, slotOk_eq_ok]; simp⟩
  | ldv _ _ v ptr post off | stv _ _ v ptr post off | ldb _ _ v ptr post off =>
    obtain rfl := Option.some.inj hs
    obtain ⟨hw, hm, hv, hz, hp, hq, ho⟩ := memVec_fields (Option.some.inj h) (by decide) (by omega) (by omega) (by omega)
    exact ⟨hw, by simp only [decodeM, hm, hq, withPost_code, fin_of_fld hp, fin_of_fld hv, hz, fin_of_fld ho, slotOk_eq_ok]; simp⟩
  | ldl _ _ v lane ptr post p3 off | stl _ _ v lane ptr post p3 off =>
    obtain rfl := Option.some.inj hs
    obtain ⟨hw, hm, hv, hl, hp, hq, h3, ho⟩ := memLane_fields (Option.some.inj h) (by decide) (by omega) (by omega) (by omega) (by omega)
    exact ⟨hw, by simp only [decodeM, hm, hq, withPost_code, fin_of_fld hp, fin_of_fld hv, fin_of_fld hl, h3, fin_of_fld ho]⟩
  | ldd _ _ pair pa posta pb postb bc =>
    obtain rfl := Option.some.inj hs
    obtain ⟨hw, hm, h1, h2, h3, h4, h5, h6, h7⟩ := ldd_fields (Option.some.inj h) (by omega) (by omega) (by omega)
    have hone : (pa.val == pb.val && Post.code posta != 0 && Post.code postb != 0) = false := by
      simpa [and_assoc] using illegalForm_ldd.mp hl
    refine ⟨hw, ?_⟩
    simp only [decodeM, hm, h3, h5, withPost_code, h2, h4, h6, h7, fin_of_fld h1, fin_of_fld h2, fin_of_fld h4]
    simp [hone, slotOk_eq_ok]
  | sta _ _ acc c ptr post sel =>
    obtain rfl := Option.some.inj hs
    have hc := Conv.code_lt c
    cases sel with
    | four =>
      obtain ⟨hw, hm, ha, hk, hp, hq, hb, hl, hz⟩ := memAcc_fields (one := false) (l := 0) (Option.some.inj h) rfl (by decide) (by omega) (by omega) (by omega) (by omega)
      exact ⟨hw, by simp only [decodeM, hm, decodeSta, hk, convOf_code, hq, withPost_code, fin_of_fld hp, fin_of_fld ha, hb, hz, hl]; simp [slotOk_eq_ok]⟩
    | one l =>
      obtain ⟨hw, hm, ha, hk, hp, hq, hb, hl, hz⟩ := memAcc_fields (one := true) (l := l) (Option.some.inj h) (by simp [bitN]) (by decide) (by omega) (by omega) (by omega) (by omega)
      exact ⟨hw, by simp only [decodeM, hm, decodeSta, hk, convOf_code, hq, withPost_code, fin_of_fld hp, fin_of_fld ha, hb, hz, fin_of_fld hl]; simp [slotOk_eq_ok]⟩
  | lea _ _ pd pa x =>
    obtain rfl := Option.some.inj hs
    obtain ⟨hx, ha, hd, (hm : fld w 19 16 = 0xA), hw⟩ := hasFields_digits (ds := [(10, x.toNat), (3, pa.val), (3, pd.val), (4, 0xA)])
      (.trans (by simp only [digits]; omega) (Option.some.inj h)) ⟨x.isLt, pa.isLt, pd.isLt, by decide, trivial⟩
    exact ⟨hw, by simp only [decodeM, hm, fin_of_fld (lo := 13) (hi := 15) hd, fin_of_fld (lo := 10) (hi := 12) ha, vec_of_fld (hi := 9) hx]⟩
  | stepPtr _ _ ptr =>
    obtain rfl := Option.some.inj hs
    obtain ⟨(hz : fld w 6 0 = 0), hp, (hy : fld w 15 10 = 0), (hm : fld w 19 16 = 0xB), hw⟩ := hasFields_digits
      (ds := [(7, 0), (3, ptr.val), (6, 0), (4, 0xB)]) (.trans (by simp only [digits]; omega) (Option.some.inj h))
      ⟨by decide, ptr.isLt, by decide, by decide, trivial⟩
    exact ⟨hw, by simp only [decodeM, hm, fin_of_fld (lo := 7) (hi := 9) hp, hy, hz, slotOk_eq_ok]; simp⟩
  | _ => exact absurd h.symm (Option.some_ne_none _)

/-! ## An M slot that is decoded is the word of its command -/

theorem decodeSta_ok (hw : w < 2 ^ 20) (hm : fld w 19 16 = 9) (hd : decodeSta t last w = .ok i) :
    encodeM i = some w ∧ Instr.illegalForm i = false := by
  have hx := mem_word hw
  rw [fld_split (lo := 10) 14 (by decide) (by decide), fld_split (lo := 0) 3 (by decide) (by decide),
    fld_split (hi := 3) 1 (by decide) (by decide)] at hx
  unfold decodeSta at hd
  split at hd
  · cases hd
  · next c hc =>
    obtain ⟨post, hp, hd⟩ := withPost_eq_ok hd
    split at hd
    · next hb =>
      obtain ⟨hz, -, rfl⟩ := slotOk_eq_ok.mp hd
      have hb1 : fld w 4 4 = 1 := by rw [← bitN_bit, hb]; rfl
      refine ⟨congrArg some ?_, rfl⟩
      simp only [code_convOf hc, hp]
      simp [hm, hb1, beq_iff_eq.mp hz, fin_val] at hx ⊢
      linarith
    · next hb =>
      obtain ⟨hz, hf, rfl⟩ := slotOk_eq_ok.mp hd
      have hb0 : fld w 4 4 = 0 := by rw [← bitN_bit, eq_false_of_ne_true hb]; rfl
      refine ⟨congrArg some ?_, rfl⟩
      simp only [code_convOf hc, hp]
      simp [hm, hb0, beq_iff_eq.mp hz, beq_iff_eq.mp hf, fin_val] at hx ⊢
      linarith

theorem decodeM_ok (hw : w < 2 ^ 20) (hd : decodeM t last w = .ok i) : encodeM i = some w ∧ Instr.illegalForm i = false := by
  have hx := mem_word hw
  unfold decodeM at hd
  split at hd
  case h_1 hm =>
    obtain ⟨hz, -, rfl⟩ := slotOk_eq_ok.mp hd
    rw [beq_iff_eq] at hz
    refine ⟨congrArg some ?_, rfl⟩
    have hx : fld w 15 0 + 2 ^ 16 * (fld w 19 16 + 2 ^ 4 * 0) = w := digits_word [16, 4] hw
    omega
  case h_2 hm | h_3 hm =>
    obtain ⟨post, hp, hd⟩ := withPost_eq_ok hd
    obtain ⟨-, hf, rfl⟩ := slotOk_eq_ok.mp hd
    have hr := SReg.code_regOf (fld_lt w 15 14) (fld_lt w 13 10) hf
    rw [fld_split (lo := 10) 13 (by decide) (by decide), fld_split (hi := 4) 3 (by decide) (by decide)] at hx
    refine ⟨congrArg some ?_, rfl⟩
    simp only [hr, hp, bitN_bit]
    simp [hm, fin_val] at hx ⊢
    linarith
  case h_4 hm | h_5 hm | h_6 hm =>
    obtain ⟨post, hp, hd⟩ := withPost_eq_ok hd
    obtain ⟨hz, -, rfl⟩ := slotOk_eq_ok.mp hd
    rw [fld_split (lo := 10) 11 (by decide) (by decide)] at hx
    refine ⟨congrArg some ?_, rfl⟩
    simp only [hp]
    simp [hm, beq_iff_eq.mp hz, fin_val] at hx ⊢
    linarith
  case h_7 hm | h_8 hm =>
    obtain ⟨post, hp, hd⟩ := withPost_eq_ok hd
    cases hd
    rw [fld_split (lo := 10) 11 (by decide) (by decide), fld_split (hi := 4) 3 (by decide) (by decide)] at hx
    refine ⟨congrArg some ?_, rfl⟩
    simp only [hp, bitN_bit]
    simp [hm, fin_val] at hx ⊢
    linarith
  case h_9 hm =>
    have hx := ldd_word hw
    obtain ⟨a, ha, hd⟩ := withPost_eq_ok hd
    obtain ⟨b, hb, hd⟩ := withPost_eq_ok hd
    split at hd
    · cases hd
    · next hn =>
      obtain ⟨hz, -, rfl⟩ := slotOk_eq_ok.mp hd
      refine ⟨congrArg some ?_, ?_⟩
      · simpa [ha, hb, hm, fin_val, beq_iff_eq.mp hz] using hx
      · rw [illegalForm_ldd]
        simpa [fin_val, beq_iff_eq.mp hz] using hn
  case h_10 hm => exact decodeSta_ok hw hm hd
  case h_11 hm =>
    cases hd
    refine ⟨congrArg some ?_, rfl⟩
    have hx : fld w 9 0 + 2 ^ 10 * (fld w 12 10 + 2 ^ 3 * (fld w 15 13 + 2 ^ 3 * (fld w 19 16 + 2 ^ 4 * 0))) = w := digits_word [10, 3, 3, 4] hw
    simp only [fin_val (n := 8) (hi := 15) (lo := 13) (by decide), fin_val (n := 8) (hi := 12) (lo := 10) (by decide), vec_toNat (n := 10) (hi := 9) (lo := 0) (by decide)]
    omega
  case h_12 hm =>
    obtain ⟨hz, -, rfl⟩ := slotOk_eq_ok.mp hd
    refine ⟨congrArg some ?_, rfl⟩
    have hx : fld w 6 0 + 2 ^ 7 * (fld w 9 7 + 2 ^ 3 * (fld w 15 10 + 2 ^ 6 * (fld w 19 16 + 2 ^ 4 * 0))) = w := digits_word [7, 3, 6, 4] hw
    simp only [Bool.and_eq_true, beq_iff_eq] at hz
    rw [fin_val (by decide)]
    omega
  case h_13 => cases hd
end
end Sys2Proof.Machine
end

section
/-!
PROOFS. The words of the L slot (R300 to R306), and the bundle of three slots (R269, R271).
-/

namespace Sys2Proof.Machine

/-! ## Words of the L slot -/

section
variable {w op d a b x k f v : Nat}

theorem mac_fields (h : 2 ^ 16 + f * 2 ^ 14 + op * 2 ^ 12 + a * 2 ^ 11 + x * 2 ^ 7 + b * 2 ^ 3 = w)
    (hf : f < 4) (ho : op < 4) (ha : a < 2) (hx : x < 16) (hb : b < 16) :
    w < 2 ^ 20 ∧ fld w 19 16 = 1 ∧ fld w 15 14 = f ∧ fld w 13 12 = op ∧ fld w 11 11 = a ∧ fld w 10 7 = x ∧ fld w 6 3 = b ∧ fld w 2 0 = 0 := by
  obtain ⟨f0, f3, f7, f11, f12, f14, f16, hw⟩ := hasFields_digits (w := w) (ds := [(3, 0), (4, b), (4, x), (1, a), (2, op), (2, f), (4, 1)])
    (by simp only [digits]; omega) ⟨by decide, hb, hx, ha, ho, hf, by decide, trivial⟩
  exact ⟨hw, f16, f14, f12, f11, f7, f3, f0⟩

theorem mac_word (hw : w < 2 ^ 20) (hm : fld w 19 16 = 1) (h0 : fld w 2 0 = 0) :
    2 ^ 16 + fld w 15 14 * 2 ^ 14 + fld w 13 12 * 2 ^ 12 + fld w 11 11 * 2 ^ 11 + fld w 10 7 * 2 ^ 7 + fld w 6 3 * 2 ^ 3 = w := by
  have hx : fld w 2 0 + 2 ^ 3 * (fld w 6 3 + 2 ^ 4 * (fld w 10 7 + 2 ^ 4 * (fld w 11 11 + 2 ^ 1 * (fld w 13 12 + 2 ^ 2 * (fld w 15 14 + 2 ^ 2 * (fld w 19 16 + 2 ^ 4 * 0)))))) = w :=
    digits_word [3, 4, 4, 1, 2, 2, 4] hw
  omega

theorem cvt_fields (h : 2 * 2 ^ 16 + d * 2 ^ 12 + a * 2 ^ 11 + k * 2 ^ 6 = w) (hd : d < 16) (ha : a < 2) (hk : k < 32) :
    w < 2 ^ 20 ∧ fld w 19 16 = 2 ∧ fld w 15 12 = d ∧ fld w 11 11 = a ∧ fld w 10 6 = k ∧ fld w 5 0 = 0 := by
  obtain ⟨f0, f6, f11, f12, f16, hw⟩ := hasFields_digits (w := w) (ds := [(6, 0), (5, k), (1, a), (4, d), (4, 2)])
    (by simp only [digits]; omega) ⟨by decide, hk, ha, hd, by decide, trivial⟩
  exact ⟨hw, f16, f12, f11, f6, f0⟩

theorem cvt_word (hw : w < 2 ^ 20) (hm : fld w 19 16 = 2) (h0 : fld w 5 0 = 0) :
    2 * 2 ^ 16 + fld w 15 12 * 2 ^ 12 + fld w 11 11 * 2 ^ 11 + fld w 10 6 * 2 ^ 6 = w := by
  have hx : fld w 5 0 + 2 ^ 6 * (fld w 10 6 + 2 ^ 5 * (fld w 11 11 + 2 ^ 1 * (fld w 15 12 + 2 ^ 4 * (fld w 19 16 + 2 ^ 4 * 0)))) = w :=
    digits_word [6, 5, 1, 4, 4] hw
  omega

theorem acc_fields (h : 3 * 2 ^ 16 + op * 2 ^ 13 + a * 2 ^ 12 + v * 2 ^ 8 = w) (ho : op < 8) (ha : a < 2) (hv : v < 16) :
    w < 2 ^ 20 ∧ fld w 19 16 = 3 ∧ fld w 15 13 = op ∧ fld w 12 12 = a ∧ fld w 11 8 = v ∧ fld w 7 0 = 0 := by
  obtain ⟨f0, f8, f12, f13, f16, hw⟩ := hasFields_digits (w := w) (ds := [(8, 0), (4, v), (1, a), (3, op), (4, 3)])
    (by simp only [digits]; omega) ⟨by decide, hv, ha, ho, by decide, trivial⟩
  exact ⟨hw, f16, f13, f12, f8, f0⟩

theorem acc_word (hw : w < 2 ^ 20) (hm : fld w 19 16 = 3) (h0 : fld w 7 0 = 0) :
    3 * 2 ^ 16 + fld w 15 13 * 2 ^ 13 + fld w 12 12 * 2 ^ 12 + fld w 11 8 * 2 ^ 8 = w := by
  have hx : fld w 7 0 + 2 ^ 8 * (fld w 11 8 + 2 ^ 4 * (fld w 12 12 + 2 ^ 1 * (fld w 15 13 + 2 ^ 3 * (fld w 19 16 + 2 ^ 4 * 0)))) = w :=
    digits_word [8, 4, 1, 3, 4] hw
  omega

theorem valu_fields (h : 4 * 2 ^ 16 + d * 2 ^ 12 + a * 2 ^ 8 + b * 2 ^ 4 + op = w) (hd : d < 16) (ha : a < 16) (hb : b < 16) (ho : op < 16) :
    w < 2 ^ 20 ∧ fld w 19 16 = 4 ∧ fld w 15 12 = d ∧ fld w 11 8 = a ∧ fld w 7 4 = b ∧ fld w 3 0 = op := by
  obtain ⟨f0, f4, f8, f12, f16, hw⟩ := hasFields_digits (w := w) (ds := [(4, op), (4, b), (4, a), (4, d), (4, 4)])
    (by simp only [digits]; omega) ⟨ho, hb, ha, hd, by decide, trivial⟩
  exact ⟨hw, f16, f12, f8, f4, f0⟩

theorem valu_word (hw : w < 2 ^ 20) (hm : fld w 19 16 = 4) :
    4 * 2 ^ 16 + fld w 15 12 * 2 ^ 12 + fld w 11 8 * 2 ^ 8 + fld w 7 4 * 2 ^ 4 + fld w 3 0 = w := by
  have hx : fld w 3 0 + 2 ^ 4 * (fld w 7 4 + 2 ^ 4 * (fld w 11 8 + 2 ^ 4 * (fld w 15 12 + 2 ^ 4 * (fld w 19 16 + 2 ^ 4 * 0)))) = w :=
    digits_word [4, 4, 4, 4, 4] hw
  omega

theorem vshift_fields (h : 5 * 2 ^ 16 + d * 2 ^ 12 + a * 2 ^ 8 + op * 2 ^ 6 + k = w) (hd : d < 16) (ha : a < 16) (ho : op < 4) (hk : k < 32) :
    w < 2 ^ 20 ∧ fld w 19 16 = 5 ∧ fld w 15 12 = d ∧ fld w 11 8 = a ∧ fld w 7 6 = op ∧ fld w 5 5 = 0 ∧ fld w 4 0 = k := by
  obtain ⟨f0, f5, f6, f8, f12, f16, hw⟩ := hasFields_digits (w := w) (ds := [(5, k), (1, 0), (2, op), (4, a), (4, d), (4, 5)])
    (by simp only [digits]; omega) ⟨hk, by decide, ho, ha, hd, by decide, trivial⟩
  exact ⟨hw, f16, f12, f8, f6, f5, f0⟩

theorem vshift_word (hw : w < 2 ^ 20) (hm : fld w 19 16 = 5) (h0 : fld w 5 5 = 0) :
    5 * 2 ^ 16 + fld w 15 12 * 2 ^ 12 + fld w 11 8 * 2 ^ 8 + fld w 7 6 * 2 ^ 6 + fld w 4 0 = w := by
  have hx : fld w 4 0 + 2 ^ 5 * (fld w 5 5 + 2 ^ 1 * (fld w 7 6 + 2 ^ 2 * (fld w 11 8 + 2 ^ 4 * (fld w 15 12 + 2 ^ 4 * (fld w 19 16 + 2 ^ 4 * 0))))) = w :=
    digits_word [5, 1, 2, 4, 4, 4] hw
  omega

theorem vperm_fields (h : 6 * 2 ^ 16 + d * 2 ^ 12 + a * 2 ^ 8 + x = w) (hd : d < 16) (ha : a < 16) (hx : x < 256) :
    w < 2 ^ 20 ∧ fld w 19 16 = 6 ∧ fld w 15 12 = d ∧ fld w 11 8 = a ∧ fld w 7 0 = x := by
  obtain ⟨f0, f8, f12, f16, hw⟩ := hasFields_digits (w := w) (ds := [(8, x), (4, a), (4, d), (4, 6)])
    (by simp only [digits]; omega) ⟨hx, ha, hd, by decide, trivial⟩
  exact ⟨hw, f16, f12, f8, f0⟩

theorem vperm_word (hw : w < 2 ^ 20) (hm : fld w 19 16 = 6) :
    6 * 2 ^ 16 + fld w 15 12 * 2 ^ 12 + fld w 11 8 * 2 ^ 8 + fld w 7 0 = w := by
  have hx : fld w 7 0 + 2 ^ 8 * (fld w 11 8 + 2 ^ 4 * (fld w 15 12 + 2 ^ 4 * (fld w 19 16 + 2 ^ 4 * 0))) = w :=
    digits_word [8, 4, 4, 4] hw
  omega

end

section
variable {t : TileNo} {last : Bool} {i : Instr} {w : Nat}

theorem decodeL_encodeL {p : TileNo × Bool} (hs : Instr.slotOf i = some p) (h : encodeL i = some w) : w < 2 ^ 20 ∧ decodeL p.1 p.2 w = .ok i := by
  cases i with
  | nop => obtain rfl := Option.some.inj hs; cases h; exact ⟨by decide, rfl⟩
  | mul _ _ f a va vb | mac _ _ f a va vb | msu _ _ f a va vb =>
    obtain rfl := Option.some.inj hs
    obtain ⟨hw, hm, hf, ho, ha, hx, hb, hz⟩ := mac_fields (Option.some.inj h) (MacForm.code_lt f) (by decide) (Fin.isLt _) (Fin.isLt _) (Fin.isLt _)
    exact ⟨hw, by simp only [decodeL, hm, decodeMac, ho, hf, formOf_code, fin_of_fld ha, fin_of_fld hx, fin_of_fld hb, hz, slotOk_eq_ok]; simp⟩
  | cvt _ _ vd a c =>
    obtain rfl := Option.some.inj hs
    have hc := Conv.code_lt c
    obtain ⟨hw, hm, hd, ha, hk, hz⟩ := cvt_fields (Option.some.inj h) (by omega) (by omega) (by omega)
    exact ⟨hw, by simp only [decodeL, hm, hk, convOf_code, fin_of_fld hd, fin_of_fld ha, hz, slotOk_eq_ok]; simp⟩
  | clr _ _ a | suma _ _ a =>
    obtain rfl := Option.some.inj hs
    obtain ⟨hw, hm, ho, ha, hv, hz⟩ := acc_fields (Option.some.inj h) (by decide) (by omega) (by decide)
    exact ⟨hw, by simp only [decodeL, hm, decodeAcc, ho, hv, fin_of_fld ha, hz, slotOk_eq_ok]; simp⟩
  | lda _ _ a v | adda _ _ a v | suba _ _ a v =>
    obtain rfl := Option.some.inj hs
    obtain ⟨hw, hm, ho, ha, hv, hz⟩ := acc_fields (Option.some.inj h) (by decide) (by omega) (by omega)
    exact ⟨hw, by simp only [decodeL, hm, decodeAcc, ho, fin_of_fld hv, fin_of_fld ha, hz, slotOk_eq_ok]; simp⟩
  | vadd _ _ d a b | vsub _ _ d a b | vadds _ _ d a b | vsubs _ _ d a b | vmin _ _ d a b | vmax _ _ d a b | vand _ _ d a b | vor _ _ d a b
  | vxor _ _ d a b | vandn _ _ d a b | vcmpgt _ _ d a b | vcmpeq _ _ d a b =>
    obtain rfl := Option.some.inj hs
    obtain ⟨hw, hm, hd, ha, hb, ho⟩ := valu_fields (Option.some.inj h) d.isLt a.isLt b.isLt (by decide)
    exact ⟨hw, by simp only [decodeL, hm, decodeValu, ho, fin_of_fld hd, fin_of_fld ha, fin_of_fld hb]⟩
  | vabs _ _ d a | vneg _ _ d a | vmov _ _ d a =>
    obtain rfl := Option.some.inj hs
    obtain ⟨hw, hm, hd, ha, hb, ho⟩ := valu_fields (b := 0) (Option.some.inj h) d.isLt a.isLt (by decide) (by decide)
    exact ⟨hw, by simp only [decodeL, hm, decodeValu, ho, hb, fin_of_fld hd, fin_of_fld ha, slotOk_eq_ok]; simp⟩
  | vshl _ _ d a k | vshr _ _ d a k | vasr _ _ d a k | vshls _ _ d a k =>
    obtain rfl := Option.some.inj hs
    obtain ⟨hw, hm, hd, ha, ho, hz, hk⟩ := vshift_fields (Option.some.inj h) d.isLt a.isLt (by decide) k.isLt
    exact ⟨hw, by simp only [decodeL, hm, ho, hz, fin_of_fld hk, fin_of_fld hd, fin_of_fld ha, slotOk_eq_ok]; simp⟩
  | vperm _ _ d a sel =>
    obtain rfl := Option.some.inj hs
    obtain ⟨hw, hm, hd, ha, hx⟩ := vperm_fields (Option.some.inj h) (by omega) (by omega) (by omega)
    exact ⟨hw, by simp only [decodeL, hm, fin_of_fld hd, fin_of_fld ha, vec_of_fld hx]⟩
  | _ => exact absurd h.symm (Option.some_ne_none _)

/-! ## An L slot that is decoded is the word of its command -/

theorem decodeMac_ok (hw : w < 2 ^ 20) (hm : fld w 19 16 = 1) (hd : decodeMac t last w = .ok i) : encodeL i = some w := by
  have hx := mac_word hw hm
  have hf := MacForm.code_formOf (fld_lt w 15 14)
  unfold decodeMac at hd
  split at hd
  case h_1 ho | h_2 ho | h_3 ho =>
    obtain ⟨hz, -, rfl⟩ := slotOk_eq_ok.mp hd
    refine congrArg some ?_
    simpa [fin_val, hf, ho] using hx (beq_iff_eq.mp hz)
  case h_4 => cases hd

theorem decodeAcc_ok (hw : w < 2 ^ 20) (hm : fld w 19 16 = 3) (hd : decodeAcc t last w = .ok i) : encodeL i = some w := by
  have hx := acc_word hw hm
  unfold decodeAcc at hd
  split at hd
  case h_1 ho | h_5 ho =>
    obtain ⟨hz, hf, rfl⟩ := slotOk_eq_ok.mp hd
    refine congrArg some ?_
    simpa [fin_val, ho, beq_iff_eq.mp hf] using hx (beq_iff_eq.mp hz)
  case h_2 ho | h_3 ho | h_4 ho =>
    obtain ⟨hz, -, rfl⟩ := slotOk_eq_ok.mp hd
    refine congrArg some ?_
    simpa [fin_val, ho] using hx (beq_iff_eq.mp hz)
  case h_6 => cases hd

theorem decodeValu_ok (hw : w < 2 ^ 20) (hm : fld w 19 16 = 4) (hd : decodeValu t last w = .ok i) : encodeL i = some w := by
  have hx := valu_word hw hm
  unfold decodeValu at hd
  split at hd
  case h_16 => cases hd
  case h_7 ho | h_8 ho | h_15 ho =>
    obtain ⟨-, hf, rfl⟩ := slotOk_eq_ok.mp hd
    refine congrArg some ?_
    simpa [fin_val, ho, beq_iff_eq.mp hf] using hx
  all_goals
    next ho =>
    cases hd
    refine congrArg some ?_
    simpa [fin_val, ho] using hx

theorem decodeL_ok (hw : w < 2 ^ 20) (hd : decodeL t last w = .ok i) : encodeL i = some w := by
  unfold decodeL at hd
  split at hd
  case h_1 hm =>
    obtain ⟨hz, -, rfl⟩ := slotOk_eq_ok.mp hd
    rw [beq_iff_eq] at hz
    refine congrArg some ?_
    have hx : fld w 15 0 + 2 ^ 16 * (fld w 19 16 + 2 ^ 4 * 0) = w := digits_word [16, 4] hw
    omega
  case h_2 hm => exact decodeMac_ok hw hm hd
  case h_3 hm =>
    split at hd
    · next c hc =>
      obtain ⟨hz, -, rfl⟩ := slotOk_eq_ok.mp hd
      refine congrArg some ?_
      simpa [fin_val, code_convOf hc] using cvt_word hw hm (beq_iff_eq.mp hz)
    · cases hd
  case h_4 hm => exact decodeAcc_ok hw hm hd
  case h_5 hm => exact decodeValu_ok hw hm hd
  case h_6 hm =>
    obtain ⟨hz, -, rfl⟩ := slotOk_eq_ok.mp hd
    have hx := vshift_word hw hm (beq_iff_eq.mp hz)
    split
    case h_1 ho | h_2 ho | h_3 ho =>
      refine congrArg some ?_
      simpa [fin_val, ho] using hx
    case h_4 h0 h1 h2 =>
      have ho : fld w 7 6 = 3 := by
        have hlt := fld_lt w 7 6
        change fld w 7 6 ≠ 0 at h0
        change fld w 7 6 ≠ 1 at h1
        change fld w 7 6 ≠ 2 at h2
        omega
      refine congrArg some ?_
      simpa [fin_val, ho] using hx
  case h_7 hm =>
    cases hd
    refine congrArg some ?_
    simpa [fin_val, vec_toNat] using vperm_word hw hm
  case h_8 => cases hd

/-! ## Every command of a slot has a word -/

theorem encode_isSome (hs : Instr.slotOf i = some (t, last)) (hl : Instr.illegalForm i = false) :
    (encodeC i).isSome ∨ (encodeM i).isSome ∨ (encodeL i).isSome := by
  cases i with
  | movx _ _ d x =>
    have hone := (illegalForm_movx d x).mp hl
    rw [encodeC_movx, if_neg (by omega)]
    exact .inl rfl
  | rpt _ _ c => cases c <;> exact .inl rfl
  | lds | sts | ldv | stv | ldb | ldl | stl | ldd | sta | lea | stepPtr => exact .inr (.inl rfl)
  | mul | mac | msu | cvt | clr | lda | adda | suba | suma | vadd | vsub | vadds | vsubs | vmin | vmax | vabs | vneg | vand | vor | vxor
  | vandn | vcmpgt | vcmpeq | vmov | vshl | vshr | vasr | vshls | vperm => exact .inr (.inr rfl)
  | nop | yield | cret | setmodeImm | setmodeS | waits | gang | add | sub | and | or | xor | andn | shl | shr | asr | min | max | minu | maxu
  | mull | mulh | abs | neg | cls | clz | cmp | tst | addsat | subsat | addi | andi | ori | xori | shli | shri | asri | cmpi | mini | maxi
  | ldi | ldih | b | bal | br | loop | loopi | rcp | rsq | log2 | exp2 | div => exact .inl rfl
  | _ => exact absurd hs.symm (Option.some_ne_none _)

end

theorem slotWords : Stated.SlotWords := by
  intro i t last hs
  exact ⟨encode_isSome hs, fun _ hl => decodeC_encodeC hs hl, fun _ hl => decodeM_encodeM hs hl, fun _ => decodeL_encodeL hs,
    fun _ hw => decodeC_ok hw, fun _ hw => decodeM_ok hw, fun _ hw => decodeL_ok hw⟩

/-! ## The bundle -/

section
variable {c m l : Nat}

theorem slotC_packBundle (hc : c < 2 ^ 24) (hm : m < 2 ^ 20) (hl : l < 2 ^ 20) : slotC (packBundle c m l) = c := by
  unfold slotC packBundle fld; omega

theorem slotM_packBundle (hm : m < 2 ^ 20) (hl : l < 2 ^ 20) : slotM (packBundle c m l) = m := by
  unfold slotM packBundle fld; omega

theorem slotL_packBundle (hl : l < 2 ^ 20) : slotL (packBundle c m l) = l := by
  unfold slotL packBundle fld; omega

end

/-- A bundle whose slots all decode is the list of their commands. -/
theorem decodeBundle_of_slots {t : TileNo} {b c m l : Nat} {i j k : Instr} (hc : slotC b = c) (hm : slotM b = m) (hl : slotL b = l)
    (hi : decodeC t (m == 0 && l == 0) c = .ok i) (hj : decodeM t (l == 0) m = .ok j) (hk : decodeL t true l = .ok k) :
    decodeBundle t b = .ok (if c = 0 ∧ m = 0 ∧ l = 0 then [.nop t true]
      else (if c = 0 then [] else [i]) ++ (if m = 0 then [] else [j]) ++ (if l = 0 then [] else [k])) := by
  unfold decodeBundle
  simp only [hc, hm, hl, hi, hj, hk]
  exact (apply_ite Except.ok _ _ _).symm

theorem bundleSlots : Stated.BundleSlots := fun _ _ _ _ _ _ _ hc hm hl =>
  decodeBundle_of_slots (slotC_packBundle hc hm hl) (slotM_packBundle hm hl) (slotL_packBundle hl)

/-- Settles O17: a word is the sum of its fields, so that a slot's decoder and its encoding undo one another. -/
theorem bundleEncodings : Obligations.BundleEncodings := ⟨slotWords, bundleSlots⟩

end Sys2Proof.Machine
end

section
/-!
PROOFS. The scalar operations of the C slot: their results at distance 1 and their flags (R275 to R280).
-/

namespace Sys2Proof.Machine

/-! ## Words as numbers -/

theorem minS_eq (x y : Word) : minS x y = BitVec.ofInt 32 (min x.toInt y.toInt) := by
  unfold minS
  split
  · next h => rw [min_eq_left h, BitVec.ofInt_toInt]
  · next h => rw [min_eq_right (Int.le_of_not_le h), BitVec.ofInt_toInt]

theorem maxS_eq (x y : Word) : maxS x y = BitVec.ofInt 32 (max x.toInt y.toInt) := by
  unfold maxS
  split
  · next h => rw [max_eq_right h, BitVec.ofInt_toInt]
  · next h => rw [max_eq_left (Int.le_of_not_le h), BitVec.ofInt_toInt]

theorem minU_eq (x y : Word) : minU x y = BitVec.ofNat 32 (min x.toNat y.toNat) := by
  unfold minU
  split
  · next h => rw [min_eq_left h, BitVec.ofNat_toNat, BitVec.setWidth_eq]
  · next h => rw [min_eq_right (Nat.le_of_not_le h), BitVec.ofNat_toNat, BitVec.setWidth_eq]

theorem maxU_eq (x y : Word) : maxU x y = BitVec.ofNat 32 (max x.toNat y.toNat) := by
  unfold maxU
  split
  · next h => rw [max_eq_right h, BitVec.ofNat_toNat, BitVec.setWidth_eq]
  · next h => rw [max_eq_left (Nat.le_of_not_le h), BitVec.ofNat_toNat, BitVec.setWidth_eq]

theorem sat32_eq (v : Int) : sat32 v = max (-(2 ^ 31)) (min v (2 ^ 31 - 1)) := by
  unfold sat32 clampI
  split
  · omega
  · split <;> omega

/-- The saturation of the lanes and of the ALU is the limit to 32 bits. -/
theorem satLane_eq_limited (v : Int) : satLane v = limited v := by
  unfold satLane limited
  rw [sat32_eq]
  refine congrArg _ (decide_eq_decide.mpr ?_)
  omega

/-- A count of the places from n down that hold, of those below n + 1, stops at the first that does not. -/
theorem run_spec {p : Nat → Prop} [DecidablePred p] {go : Nat → Nat} (h0 : go 0 = 0) (hs : ∀ n, go (n + 1) = if p n then go n + 1 else 0) (n : Nat) :
    go n ≤ n ∧ (∀ k, k < go n → p (n - 1 - k)) ∧ (go n < n → ¬p (n - 1 - go n)) := by
  induction n with
  | zero => exact ⟨Nat.le_of_eq h0, fun k h => absurd (h0 ▸ h) (Nat.not_lt_zero k), fun h => absurd h (Nat.not_lt_zero _)⟩
  | succ n ih =>
    obtain ⟨hle, hsame, hnext⟩ := ih
    have hstep (k : Nat) : n + 1 - 1 - (k + 1) = n - 1 - k := by omega
    by_cases h : p n
    · rw [hs, if_pos h, hstep]
      refine ⟨Nat.succ_le_succ hle, fun k hk => ?_, fun hlt => hnext (Nat.lt_of_succ_lt_succ hlt)⟩
      cases k with
      | zero => exact h
      | succ k => rw [hstep]; exact hsame k (Nat.lt_of_succ_lt_succ hk)
    · rw [hs, if_neg h]
      exact ⟨Nat.zero_le _, fun k hk => absurd hk (Nat.not_lt_zero k), fun _ => h⟩

/-- The bits below bit 31 that equal it, from bit 30 down. -/
theorem countSign_spec (x : Word) : countSign x ≤ 31 ∧ (∀ k, k < countSign x → x.getLsbD (30 - k) = x.getLsbD 31) ∧
    (countSign x < 31 → x.getLsbD (30 - countSign x) ≠ x.getLsbD 31) :=
  run_spec (p := fun n => x.getLsbD n = x.getLsbD 31) (go := countSign.go x) rfl (fun _ => rfl) 31

/-- The zero bits from bit 31 down. -/
theorem countZero_spec (x : Word) : countZero x ≤ 32 ∧ (∀ k, k < countZero x → x.getLsbD (31 - k) = false) ∧
    (countZero x < 32 → x.getLsbD (31 - countZero x) = true) := by
  have hs (n : Nat) : countZero.go x (n + 1) = if x.getLsbD n = false then countZero.go x n + 1 else 0 := by
    rw [countZero.go]
    cases x.getLsbD n <;> rfl
  obtain ⟨hle, hzero, hone⟩ := run_spec (p := fun n => x.getLsbD n = false) rfl hs 32
  exact ⟨hle, hzero, fun h => eq_true_of_ne_false (hone h)⟩

/-- The negation of a word borrows unless it is 0, and overflows for the least word only. -/
theorem flagsSub_zero (x : Word) : flagsSub 0 x = flagsNZCV (0 - x) (decide (x = 0)) (decide (x = 0x80000000#32)) := by
  unfold flagsSub
  have hc : decide (x.toNat ≤ (0 : Word).toNat) = decide (x = 0) := by
    refine decide_eq_decide.mpr ?_
    rw [BitVec.toNat_eq]
    exact Nat.le_zero
  have hv : decide ((0 : Word).toInt - x.toInt ≠ (0 - x).toInt) = decide (x = 0x80000000#32) := by
    refine decide_eq_decide.mpr ?_
    have hlo := BitVec.le_toInt x
    have hhi := BitVec.toInt_lt (x := x)
    have hx : x = 0x80000000#32 ↔ x.toInt = -2147483648 := by
      rw [← BitVec.toInt_inj]
      rfl
    have h0 : (0 : Word).toInt = 0 := rfl
    rw [hx, zero_sub, BitVec.toInt_neg, h0, Int.bmod_def]
    omega
  rw [hc, hv]

/-! ## Shapes of the C slot -/

section
variable {s : State} {t : TileNo} {d a b : Fin 16} {sf : Bool} {c : Instr} {f : Issue → SlotEffect} {r : Word} {fl : FlagWrite}

theorem State.Poised.view_s (hc : s.Canonical) (a : Fin 16) : (s.view1 t).s_ a = (s.seen t).getS a :=
  congrArg (fun b => Bank.getS b a) (State.Poised.view_bank hc)

/-- A scalar result with the flags of an S bit. -/
theorem gives_scalar (hc : s.Canonical) (h : s.Poised t) (hx : exec c s = s.slot t true f)
    (hf : f (s.view1 t) = (s.view1 t).scalar d r (whenS sf fl)) :
    s.Gives c t ((1, .s d r) :: if sf then [(1, .flags fl)] else []) := by
  refine gives_of_quick hc h f c hx ?_ ?_ ?_ ?_ <;> rw [hf]
  · exact ⟨rfl, rfl, rfl, rfl, rfl, rfl⟩
  · rfl
  · rfl
  · cases sf <;> simp [ownOf, Issue.scalar, whenS, State.view1]

/-- A scalar result that leaves STAT alone. -/
theorem gives_imm (hc : s.Canonical) (h : s.Poised t) (hx : exec c s = s.slot t true f) (hf : f (s.view1 t) = (s.view1 t).imm d r) :
    s.Gives c t [(1, .s d r)] :=
  gives_scalar (sf := false) (fl := {}) hc h hx hf

/-- Flags without a result. -/
theorem gives_flags (hc : s.Canonical) (h : s.Poised t) (hx : exec c s = s.slot t true f) (hf : f (s.view1 t) = (s.view1 t).flagsOnly fl) :
    s.Gives c t [(1, .flags fl)] := by
  refine gives_of_quick hc h f c hx ?_ ?_ ?_ ?_ <;> rw [hf]
  · exact ⟨rfl, rfl, rfl, rfl, rfl, rfl⟩
  · rfl
  · rfl
  · simp [ownOf, Issue.flagsOnly, State.view1]

end

theorem scalarLogic : Stated.ScalarLogic := by
  intro s t d a b sf x y hc h hx hy
  rw [← State.Poised.view_s hc] at hx hy
  have log {c : Instr} {f : Issue → SlotEffect} {r : Word} (he : exec c s = s.slot t true f) (hf : f (s.view1 t) = (s.view1 t).logic d r sf) :=
    gives_scalar hc h he hf
  refine ⟨log (exec_and ..) ?_, log (exec_or ..) ?_, log (exec_xor ..) ?_, log (exec_andn ..) ?_, log (exec_min ..) ?_, log (exec_max ..) ?_,
    log (exec_minu ..) ?_, log (exec_maxu ..) ?_, log (exec_mull ..) ?_, log (exec_mulh ..) ?_, gives_flags hc h (exec_tst ..) ?_, ?_, ?_⟩
  · rw [hx, hy]
  · rw [hx, hy]
  · rw [hx, hy]
  · rw [hx, hy]
  · rw [hx, hy, minS_eq]
  · rw [hx, hy, maxS_eq]
  · rw [hx, hy, minU_eq]
  · rw [hx, hy, maxU_eq]
  · rw [hx, hy]
  · rw [hx, hy]; rfl
  · rw [hx, hy]
  · obtain ⟨h1, h2, h3⟩ := countSign_spec x
    exact ⟨countSign x, h1, h2, h3, log (exec_cls ..) (by rw [hx])⟩
  · obtain ⟨h1, h2, h3⟩ := countZero_spec x
    exact ⟨countZero x, h1, h2, h3, log (exec_clz ..) (by rw [hx])⟩

theorem scalarShifts : Stated.ScalarShifts := by
  intro s t d a b sf x y k hc h hx hy hk
  rw [← State.Poised.view_s hc] at hx hy
  have shift {c : Instr} {f : Issue → SlotEffect} {op : Word → Nat → Word × Bool} (he : exec c s = s.slot t true f)
      (hf : f (s.view1 t) = (s.view1 t).shift op d a b sf) :
      s.Gives c t ((1, .s d (op x k).1) :: if sf then [(1, .flags (flagsShift (op x k).1 k (op x k).2))] else []) :=
    gives_scalar hc h he (by rw [hf, hk, hx, hy]; rfl)
  exact ⟨shift (op := shlOut) (exec_shl ..) rfl, shift (op := shrOut) (exec_shr ..) rfl, shift (op := asrOut) (exec_asr ..) rfl⟩

theorem scalarSaturating : Stated.ScalarSaturating := by
  intro s t d a b sf x y hc h hx hy
  rw [← State.Poised.view_s hc] at hx hy
  have sat {c : Instr} {f : Issue → SlotEffect} {v : Int} (he : exec c s = s.slot t true f)
      (hf : f (s.view1 t) = (s.view1 t).saturating d v sf) :
      s.Gives c t ((1, .s d (limited v).1) :: if sf then [(1, .flags (flagsWith (limited v).1 statV (limited v).2))] else []) :=
    gives_scalar hc h he (by rw [hf, ← satLane_eq_limited]; rfl)
  refine ⟨sat (exec_abs ..) ?_, sat (exec_addsat ..) ?_, sat (exec_subsat ..) ?_⟩
  · rw [hx]
  · rw [hx, hy]
  · rw [hx, hy]

/-- Settles O1: each operation is one slot whose result and flags are those of its words. -/
theorem scalarLogicAndShifts : Obligations.ScalarLogicAndShifts := ⟨scalarLogic, scalarShifts, scalarSaturating⟩

/-! ## Immediates and constants -/

theorem scalarImmediate : Stated.ScalarImmediate := by
  intro s t d a imm amt x y hc h hx hy
  rw [← State.Poised.view_s hc] at hx
  have hi : imm8 imm = y := hy.symm
  refine ⟨gives_imm hc h (exec_addi ..) ?_, gives_imm hc h (exec_andi ..) ?_, gives_imm hc h (exec_ori ..) ?_, gives_imm hc h (exec_xori ..) ?_,
    gives_imm hc h (exec_shli ..) ?_, gives_imm hc h (exec_shri ..) ?_, gives_imm hc h (exec_asri ..) ?_, gives_flags hc h (exec_cmpi ..) ?_,
    gives_imm hc h (exec_mini ..) ?_, gives_imm hc h (exec_maxi ..) ?_⟩
  · rw [hx, hi]
  · rw [hx, hi]
  · rw [hx, hi]
  · rw [hx, hi]
  · rw [hx]; rfl
  · rw [hx]; rfl
  · rw [hx]; rfl
  · rw [hx, hi]; rfl
  · rw [hx, hi, minS_eq]
  · rw [hx, hi, maxS_eq]

/-- The upper half from a constant, the lower half kept. -/
theorem upperHalf_eq (imm : BitVec 16) (x : Word) :
    (imm.zeroExtend 32 <<< 16) ||| (x &&& 0x0000FFFF#32) = BitVec.ofNat 32 (65536 * imm.toNat + x.toNat % 65536) := by
  apply BitVec.eq_of_toNat_eq
  have hlo : x.toNat % 2 ^ 16 < 2 ^ 16 := Nat.mod_lt _ (by decide)
  have hmask : x.toNat &&& 0xFFFF = x.toNat % 2 ^ 16 := Nat.and_two_pow_sub_one_eq_mod x.toNat 16
  have hup : (imm.zeroExtend 32 <<< 16).toNat = imm.toNat <<< 16 := by
    simp only [BitVec.toNat_shiftLeft, BitVec.truncate_eq_setWidth, BitVec.toNat_setWidth, Nat.shiftLeft_eq]
    omega
  have hand : (x &&& 0x0000FFFF#32).toNat = x.toNat % 2 ^ 16 := hmask
  rw [BitVec.toNat_or, hup, hand, ← Nat.shiftLeft_add_eq_or_of_lt hlo, Nat.shiftLeft_eq, BitVec.toNat_ofNat]
  omega

theorem constants : Stated.Constants := by
  intro s t d imm hc h
  refine ⟨gives_imm hc h (exec_ldi ..) rfl, gives_imm hc h (exec_ldih ..) ?_⟩
  rw [State.Poised.view_s hc, upperHalf_eq]

/-- Settles O2: an immediate is sign-extended, and only the comparison writes flags. -/
theorem immediatesAndConstants : Obligations.ImmediatesAndConstants := ⟨scalarImmediate, constants⟩

/-! ## Additions, subtractions and their flags -/

theorem scalarAddSub : Stated.ScalarAddSub := by
  intro s t d a b sf x y hc h hx hy
  rw [← State.Poised.view_s hc] at hx hy
  refine ⟨gives_scalar hc h (exec_add ..) ?_, gives_scalar hc h (exec_sub ..) ?_, gives_scalar hc h (exec_neg ..) ?_, gives_flags hc h (exec_cmp ..) ?_⟩
  · rw [hx, hy]; rfl
  · rw [hx, hy]; rfl
  · rw [← hx, flagsSub_zero]
  · rw [hx, hy]; rfl

theorem getLsbD_bitWord {n : Nat} (hn : n < 32) (b : Bool) (k : Nat) : (bitWord n b).getLsbD k = (decide (k = n) && b) := by
  cases b with
  | false => simp [bitWord]
  | true =>
    have ht : bitWord n true = BitVec.twoPow 32 n := by
      apply BitVec.eq_of_toNat_eq
      simp [bitWord, BitVec.toNat_twoPow]
    rw [ht, BitVec.getLsbD_twoPow]
    simp [hn, eq_comm]

/-- A bit of STAT after a flag write. -/
theorem getLsbD_applyFlags (f : FlagWrite) (st : Word) (k : Nat) :
    (applyFlags f st).getLsbD k = if f.mask.getLsbD k then f.bits.getLsbD k else st.getLsbD k := by
  unfold applyFlags
  by_cases hk : k < 32
  · cases hm : f.mask.getLsbD k <;> simp only [BitVec.getLsbD_or, BitVec.getLsbD_and, BitVec.getLsbD_not, hm, hk] <;> simp
  · have ho (x : Word) : x.getLsbD k = false := BitVec.getLsbD_of_ge x k (Nat.le_of_not_lt hk)
    simp [ho]

/-- N and Z as the bits of a mask. -/
theorem flagsNZ_mask (r : Word) : (flagsNZ r).mask = bitWord statN true ||| bitWord statZ true := rfl

theorem flagsNZCV_mask (r : Word) (c v : Bool) :
    (flagsNZCV r c v).mask = bitWord statN true ||| bitWord statZ true ||| bitWord statC true ||| bitWord statV true := rfl

theorem flagsNZCV_bits (r : Word) (c v : Bool) : (flagsNZCV r c v).bits = (flagsNZ r).bits ||| bitWord statC c ||| bitWord statV v := rfl

theorem flagBits : Stated.FlagBits := by
  intro st r c v out k
  have hN (b : Bool) : (bitWord statN b).getLsbD k = (decide (k = 3) && b) := getLsbD_bitWord (by decide) b k
  have hZ (b : Bool) : (bitWord statZ b).getLsbD k = (decide (k = 2) && b) := getLsbD_bitWord (by decide) b k
  have hC (b : Bool) : (bitWord statC b).getLsbD k = (decide (k = 1) && b) := getLsbD_bitWord (by decide) b k
  have hV (b : Bool) : (bitWord statV b).getLsbD k = (decide (k = 0) && b) := getLsbD_bitWord (by decide) b k
  have hz : (r == 0) = decide (r = 0) := rfl
  have hn : r.msb = r.getLsbD 31 := rfl
  have nz : (flagsNZ r).bits.getLsbD k = ((decide (k = 3) && r.getLsbD 31) || (decide (k = 2) && decide (r = 0))) := by
    rw [← hN, ← hZ, ← hn, ← hz]
    exact BitVec.getLsbD_or
  simp only [getLsbD_applyFlags, flagsWith, flagsNZ_mask, flagsNZCV_mask, flagsNZCV_bits, BitVec.getLsbD_or, hN, hZ, hC, hV, nz]
  rcases (by omega : k = 3 ∨ k = 2 ∨ k = 1 ∨ k = 0 ∨ (k ≠ 3 ∧ k ≠ 2 ∧ k ≠ 1 ∧ k ≠ 0)) with rfl | rfl | rfl | rfl | ⟨h3, h2, h1, h0⟩
  · simp
  · simp
  · simp
  · simp
  · simp [h3, h2, h1, h0]

/-- Settles O3: a flag write replaces the flags its operation lists and keeps every other bit of STAT. -/
theorem scalarArithmetic : Obligations.ScalarArithmetic := ⟨scalarAddSub, flagBits⟩

end Sys2Proof.Machine
end

section
/-!
PROOFS. Moves between the register files, SETMODE and NOP, and the operations on lanes (R271, R274, R279, R304 to R306).
-/

namespace Sys2Proof.Machine

/-! ## Moves and modes -/

section
variable {s : State} {t : TileNo} {c : Instr} {f : Issue → SlotEffect}

theorem ownOf_own {e : SlotEffect} {n : Nat} {l : List (Nat × RegWrite)} (h : e.writes = l.map (fun w => (n, w))) : ownOf [e] n = l := by
  simp [ownOf, h, List.filterMap_map]

/-- A slot that does nothing but write registers of the issuing tile. -/
theorem gives_writes (hc : s.Canonical) (h : s.Poised t) (hx : exec c s = s.slot t true f) {l : List (Nat × RegWrite)}
    (hf : (f (s.view1 t)).Quick) (h4 : (f (s.view1 t)).fu = none) (h5 : (f (s.view1 t)).stall = 0)
    (hw : (f (s.view1 t)).writes = l.map (fun w => (t.val, w))) : s.Gives c t l :=
  gives_of_quick hc h f c hx hf h4 h5 (ownOf_own hw)

/-- A MOVX one of whose sides is an s register. -/
theorem gives_movx (hc : s.Canonical) (h : s.Poised t) {d : MovDst} {x : MovSrc} (hs : (!srcIsS x && !dstIsS d) = false) :
    s.Gives (.movx t true d x) t (((s.view1 t).movDst ((s.view1 t).movSrc x) d).1.map (fun w => (1, w))) := by
  refine gives_writes hc h (exec_movx ..) ⟨rfl, rfl, rfl, ?_, rfl, rfl⟩ rfl rfl (List.map_map ..).symm
  exact congrArg (fun b => illegalIf b 0) hs

theorem movesBetweenFiles : Stated.MovesBetweenFiles := by
  intro s t a d k v l x hc h hx
  have hb : (s.view1 t).bank = s.seen t := State.Poised.view_bank hc
  have hsrc : (s.view1 t).movSrc (.reg (.s a)) = x := (congrArg (fun b => Bank.getS b a) hb).trans hx.symm
  have hcyc : (s.view1 t).tile.scyc = (s.tile t).scyc := by
    unfold Issue.tile State.view1
    rw [State.tile_setTile hc.tiles, if_pos rfl]
    exact (open_fu h.noWait).2.1
  have outOf {m : MovSrc} {y : Word} (hm : (s.view1 t).movSrc m = y) : s.Gives (.movx t true (.reg (.s d)) m) t [(1, .s d y)] :=
    hm ▸ gives_movx hc h (d := .reg (.s d)) (Bool.and_false _)
  have into {m : MovDst} : s.Gives (.movx t true m (.reg (.s a))) t (((s.view1 t).movDst x m).1.map (fun w => (1, w))) :=
    hsrc ▸ gives_movx hc h (x := .reg (.s a)) (Bool.false_and _)
  refine ⟨outOf hsrc, outOf ?_, outOf ?_, outOf ?_, outOf ?_, outOf ?_, outOf ?_, outOf ?_, outOf ?_, into, into, into, into, into, into⟩
  · exact (congrArg (fun b => readSReg b (.p k)) hb).trans (BitVec.ofNat_toNat 32 _).symm
  · exact congrArg (fun b => readSReg b (.m k)) hb
  · exact (congrArg (fun b => readSReg b (.n k)) hb).trans (BitVec.ofNat_toNat 32 _).symm
  · exact congrArg Bank.stat hb
  · exact (congrArg (fun b => b.mode.zeroExtend 32) hb).trans (BitVec.ofNat_toNat 32 _).symm
  · exact congrArg (fun b => BitVec.ofNat 32 b.loops.length) hb
  · exact congrArg (fun b => Bank.getV b v l) hb
  · exact congrArg (BitVec.ofNat 32) hcyc

theorem modeAndNop : Stated.ModeAndNop := by
  intro s t a nosat trunc hc h
  refine ⟨gives_nop hc h _ (exec_nop ..), ?_, ?_⟩
  · have := gives_writes hc h (exec_setmodeImm t true nosat trunc s) 
      (l := [(2, .mode (BitVec.ofNat 2 ((if nosat then 2 else 0) + (if trunc then 1 else 0))))]) ⟨rfl, rfl, rfl, rfl, rfl, rfl⟩ rfl rfl rfl
    cases nosat <;> cases trunc <;> exact this
  · have := gives_writes hc h (exec_setmodeS t true a s) 
      (l := [(2, .mode (((s.view1 t).s_ a).truncate 2))]) ⟨rfl, rfl, rfl, rfl, rfl, rfl⟩ rfl rfl rfl
    rwa [State.Poised.view_s hc] at this

end

/-- Settles O4: a move reads its source as the bundle sees it and writes its destination at distance 1. -/
theorem movesAndModes : Obligations.MovesAndModes := ⟨movesBetweenFiles, modeAndNop⟩

/-! ## Lanes -/

/-- The saturation events of the four lanes as one write of STAT (R304, R305). -/
theorem satWrites_lanes (m d : Nat) (g : Fin 4 → Bool) :
    satWrites m d (lanes.map (fun l => (l, g l))) = (laneEvents d 8 g).map (fun w => (m, w)) := by
  unfold satWrites laneEvents lanes
  simp only [List.map_cons, List.map_nil, List.foldl_cons, List.foldl_nil]
  rcases g 0 <;> rcases g 1 <;> rcases g 2 <;> rcases g 3 <;> rfl

section
variable {s : State} {t : TileNo} {c : Instr} {f : Issue → SlotEffect} {vd va vb : Fin 16}

/-- A lane operation gives its results and their saturation events at distance 1. -/
theorem gives_lane (hc : s.Canonical) (h : s.Poised t) (hx : exec c s = s.slot t true f) {g : Nat → Fin 4 → Word × Bool}
    (hf : f (s.view1 t) = (s.view1 t).lane vd g) :
    s.Gives c t (laneResults 1 vd (fun l => (g t l).1) ++ laneEvents 1 8 (fun l => (g t l).2)) := by
  refine gives_writes hc h hx ?_ ?_ ?_ ?_ <;> rw [hf]
  · exact ⟨rfl, rfl, rfl, rfl, rfl, rfl⟩
  · rfl
  · rfl
  · rw [List.map_append]
    exact (List.append_nil _).trans (congrArg _ (satWrites_lanes ..))

theorem laneEvents_none (d lo : Nat) : laneEvents d lo (fun _ => false) = [] := rfl

/-- A lane operation that never saturates gives its results alone. -/
theorem gives_lane_plain (hc : s.Canonical) (h : s.Poised t) (hx : exec c s = s.slot t true f) {g : Nat → Fin 4 → Word}
    {r : Fin 4 → Word} (hf : f (s.view1 t) = (s.view1 t).lane vd (fun m l => (g m l, false))) (hg : ∀ l, g t l = r l) :
    s.Gives c t (laneResults 1 vd r) := by
  have := gives_lane hc h hx hf
  rwa [laneEvents_none, List.append_nil, funext hg] at this

end

theorem laneResults_holds : Stated.LaneResults := by
  intro s t vd va vb amt sel hc h x y
  have hb : (s.view1 t).bankOf t = s.seen t := State.Poised.view_bankOf hc
  have two {c : Instr} {f : Issue → SlotEffect} {op : Word → Word → Word} {r : Fin 4 → Word} (he : exec c s = s.slot t true f)
      (hf : f (s.view1 t) = (s.view1 t).lane2 vd va vb op) (hr : ∀ l, op (x l) (y l) = r l) : s.Gives c t (laneResults 1 vd r) :=
    gives_lane_plain hc h he hf (fun l => by rw [hb]; exact hr l)
  have one {c : Instr} {f : Issue → SlotEffect} {op : Word → Word} {r : Fin 4 → Word} (he : exec c s = s.slot t true f)
      (hf : f (s.view1 t) = (s.view1 t).lane1 vd va op) (hr : ∀ l, op (x l) = r l) : s.Gives c t (laneResults 1 vd r) :=
    gives_lane_plain hc h he hf (fun l => by rw [hb]; exact hr l)
  refine ⟨two (exec_vadd ..) rfl fun l => rfl, two (exec_vsub ..) rfl fun l => rfl, two (exec_vmin ..) rfl fun l => minS_eq _ _,
    two (exec_vmax ..) rfl fun l => maxS_eq _ _, two (exec_vand ..) rfl fun l => rfl, two (exec_vor ..) rfl fun l => rfl,
    two (exec_vxor ..) rfl fun l => rfl, two (exec_vandn ..) rfl fun l => rfl, two (exec_vcmpgt ..) rfl fun l => ?_,
    two (exec_vcmpeq ..) rfl fun l => ?_, one (exec_vmov ..) rfl fun l => rfl, one (exec_vshl ..) rfl fun l => rfl,
    one (exec_vshr ..) rfl fun l => rfl, one (exec_vasr ..) rfl fun l => rfl, gives_lane_plain hc h (exec_vperm ..) rfl fun l => ?_⟩
  · simp [ones]
  · simp [ones]
  · rw [hb, Nat.pow_mul]

theorem laneSaturating : Stated.LaneSaturating := by
  intro s t vd va vb amt hc h x y
  have hb : (s.view1 t).bankOf t = s.seen t := State.Poised.view_bankOf hc
  have two {c : Instr} {f : Issue → SlotEffect} {op : Int → Int → Int} (he : exec c s = s.slot t true f)
      (hf : f (s.view1 t) = (s.view1 t).lane2s vd va vb op) :
      s.Gives c t (laneResults 1 vd (fun l => (limited (op (x l) (y l))).1) ++ laneEvents 1 8 (fun l => (limited (op (x l) (y l))).2)) := by
    simpa only [hb, satLane_eq_limited] using gives_lane hc h he hf
  have one {c : Instr} {f : Issue → SlotEffect} {op : Int → Int} (he : exec c s = s.slot t true f)
      (hf : f (s.view1 t) = (s.view1 t).lane1s vd va op) :
      s.Gives c t (laneResults 1 vd (fun l => (limited (op (x l))).1) ++ laneEvents 1 8 (fun l => (limited (op (x l))).2)) := by
    simpa only [hb, satLane_eq_limited] using gives_lane hc h he hf
  refine ⟨two (op := fun p q => p + q) (exec_vadds ..) rfl, two (op := fun p q => p - q) (exec_vsubs ..) rfl,
    one (op := fun p => p.natAbs) (exec_vabs ..) rfl, one (op := fun p => -p) (exec_vneg ..) rfl,
    one (op := fun p => p * 2 ^ amt.val) (exec_vshls ..) ?_⟩
  simp

/-- Settles O5: every lane gives its own result, and the lanes that are limited set their SAT bits in one write. -/
theorem laneOperations : Obligations.LaneOperations := ⟨laneResults_holds, laneSaturating⟩

end Sys2Proof.Machine
end

section
/-!
PROOFS. The stores of the M slot: the bytes stored, word by word, and what they leave (R254, R256, R291 to R297).
-/

namespace Sys2Proof.Machine

/-! ## The words of a store -/

section
variable {α : Type} {p : Nat → Bool}

/-- A set of indices without gaps among those of a list from `k` up. -/
def GapFree (p : Nat → Bool) (k n : Nat) : Prop := ∀ i j m, k ≤ i → i < j → j < m → m < k + n → p i = true → p m = true → p j = true

/-- Of the entries behind one that is kept, the first that is kept comes next. -/
theorem filter_zipIdx_next {l : List α} {k : Nat} (hg : GapFree p k (l.length + 1)) (hk : p k = true) {e : α × Nat} {r : List (α × Nat)}
    (he : (l.zipIdx (k + 1)).filter (fun e => p e.2) = e :: r) : e.2 = k + 1 := by
  have hmem : e ∈ (l.zipIdx (k + 1)).filter (fun e => p e.2) := he ▸ List.mem_cons_self
  obtain ⟨hin, hpe⟩ := List.mem_filter.mp hmem
  obtain ⟨hlo, hhi, -⟩ := List.mem_zipIdx hin
  cases l with
  | nil => cases he
  | cons b l =>
    rw [List.zipIdx_cons, List.filter_cons] at he
    split at he
    · cases he; rfl
    · next hn =>
      by_contra hne
      exact hn (hg k (k + 1) e.2 (Nat.le_refl k) (by omega) (by omega) (by omega) hk hpe)

/-- Entries whose indices have no gaps stand at consecutive indices. -/
theorem filter_zipIdx_consecutive (l : List α) (k : Nat) (hg : GapFree p k l.length) {e : α × Nat} {r : List (α × Nat)}
    (he : (l.zipIdx k).filter (fun e => p e.2) = e :: r) (i : Nat) (hi : i < (e :: r).length) : ((e :: r)[i]).2 = e.2 + i := by
  induction l generalizing k e r i with
  | nil => cases he
  | cons a l ih =>
    have hg' : GapFree p (k + 1) l.length := fun i j m h1 h2 h3 h4 =>
      hg i j m (by omega) h2 h3 (by rw [List.length_cons]; omega)
    rw [List.zipIdx_cons, List.filter_cons] at he
    split at he
    · next hpk =>
      cases he
      cases i with
      | zero => rfl
      | succ i =>
        obtain ⟨e', r', hr⟩ : ∃ e' r', (l.zipIdx (k + 1)).filter (fun e => p e.2) = e' :: r' :=
          List.exists_cons_of_ne_nil (by rintro h; simp [h] at hi)
        have hi' : i < (e' :: r').length := by simpa [hr] using hi
        have hnext := filter_zipIdx_next hg hpk hr
        have := ih (k + 1) hg' hr i hi'
        simp only [hr, List.getElem_cons_succ, this, hnext]
        omega
    · exact ih (k + 1) hg' he i hi

end

theorem tileByte_eq (m x : Nat) : tileByte m x = dataAddr m x := rfl

section
variable {m x : Nat} {bs : List Byte}

/-- The bytes of a store that fall in the word `w`, with their places. -/
def bytesIn (m x : Nat) (bs : List Byte) (w : Nat) : List (Byte × Nat) :=
  bs.zipIdx.filter (fun e => dataAddr m (x + e.2) / 4 * 4 == w)

theorem mem_bytesIn {w : Nat} {e : Byte × Nat} :
    e ∈ bytesIn m x bs w ↔ (∃ h : e.2 < bs.length, bs[e.2] = e.1) ∧ dataAddr m (x + e.2) / 4 * 4 = w := by
  unfold bytesIn
  rw [List.mem_filter, List.mem_zipIdx_iff_getElem?, List.getElem?_eq_some_iff, beq_iff_eq]

theorem getElem_mem_bytesIn {w : Nat} {l : List (Byte × Nat)} (h : bytesIn m x bs w = l) {i : Nat} (hi : i < l.length) : l[i] ∈ bytesIn m x bs w := by
  subst h; exact List.getElem_mem hi

/-- The words of a store, each with the first of its bytes. -/
theorem mem_storeBytes {e : Nat × List Byte} : e ∈ storeBytes m x bs ↔
    ∃ j, j < bs.length ∧ ∃ b r, bytesIn m x bs (dataAddr m (x + j) / 4 * 4) = b :: r ∧ e = (dataAddr m (x + b.2), (b :: r).map (·.1)) := by
  unfold storeBytes touched upto
  simp only [List.mem_map, List.mem_eraseDups, List.mem_range]
  constructor
  · rintro ⟨w, ⟨j, hj, rfl⟩, rfl⟩
    have hmem : (bs[j], j) ∈ bytesIn m x bs (dataAddr m (x + j) / 4 * 4) := mem_bytesIn.mpr ⟨⟨hj, rfl⟩, rfl⟩
    obtain ⟨b, r, hb⟩ := List.exists_cons_of_ne_nil (List.ne_nil_of_mem hmem)
    refine ⟨j, hj, b, r, hb, ?_⟩
    unfold bytesIn at hb
    simp only [tileByte_eq, hb, List.head?_cons]
  · rintro ⟨j, hj, b, r, hb, rfl⟩
    refine ⟨_, ⟨j, hj, rfl⟩, ?_⟩
    unfold bytesIn at hb
    simp only [tileByte_eq, hb, List.head?_cons]

/-- Of the at most 16 bytes of a store, those of one word stand one after the other. -/
theorem bytesIn_consecutive (hl : bs.length ≤ 16) {w : Nat} {b : Byte × Nat} {r : List (Byte × Nat)} (hb : bytesIn m x bs w = b :: r)
    (i : Nat) (hi : i < (b :: r).length) :
    ((b :: r)[i]).2 = b.2 + i ∧ dataAddr m (x + (b.2 + i)) = dataAddr m (x + b.2) + i ∧ dataAddr m (x + b.2) % 4 + i < 4 := by
  have hgap : GapFree (fun j => dataAddr m (x + j) / 4 * 4 == w) 0 bs.length := by
    intro i j k _ hij hjk hk
    simp only [beq_iff_eq]
    unfold dataAddr
    omega
  have hidx := filter_zipIdx_consecutive bs 0 hgap hb i hi
  have hfst := (mem_bytesIn.mp (hb ▸ List.mem_cons_self : b ∈ bytesIn m x bs w))
  have hith := mem_bytesIn.mp (getElem_mem_bytesIn hb hi)
  obtain ⟨⟨hb0, -⟩, hw0⟩ := hfst
  obtain ⟨⟨hbi, -⟩, hwi⟩ := hith
  rw [hidx] at hwi hbi
  refine ⟨hidx, ?_⟩
  unfold dataAddr at *
  omega

/-- Byte `i` of the store of a word is a byte of the bytes stored, at its own address (R254). -/
theorem storeBytes_byte (hl : bs.length ≤ 16) {e : Nat × List Byte} (he : e ∈ storeBytes m x bs) :
    (∃ j, j < bs.length ∧ e.1 / 4 * 4 = dataAddr m (x + j) / 4 * 4) ∧ 0 < e.2.length ∧ e.1 % 4 + e.2.length ≤ 4 ∧
      ∀ i, i < e.2.length → ∃ j, j < bs.length ∧ dataAddr m (x + j) = e.1 + i ∧ e.2.getD i 0 = bs.getD j 0 := by
  obtain ⟨j, hj, b, r, hb, rfl⟩ := mem_storeBytes.mp he
  obtain ⟨⟨hlt, -⟩, hw⟩ := mem_bytesIn.mp (hb ▸ List.mem_cons_self : b ∈ bytesIn m x bs _)
  have hpos : 0 < ((b :: r).map (·.1)).length := by simp
  refine ⟨⟨b.2, hlt, rfl⟩, hpos, ?_, fun i hi => ?_⟩
  · have := (bytesIn_consecutive hl hb ((b :: r).length - 1) (by simp)).2.2
    simp only [List.length_map, List.length_cons] at *
    omega
  · rw [List.length_map] at hi
    obtain ⟨hidx, haddr, -⟩ := bytesIn_consecutive hl hb i hi
    obtain ⟨⟨hlt', hval⟩, -⟩ := mem_bytesIn.mp (getElem_mem_bytesIn hb hi)
    refine ⟨((b :: r)[i]).2, hlt', by rw [hidx, haddr], ?_⟩
    rw [List.getD_eq_getElem _ _ hlt', hval, List.getD_eq_getElem _ _ (by simpa using hi), List.getElem_map]

theorem storeBytes_covers (hl : bs.length ≤ 16) {j : Nat} (hj : j < bs.length) :
    ∃ e ∈ storeBytes m x bs, ∃ i, i < e.2.length ∧ dataAddr m (x + j) = e.1 + i := by
  have hmem : (bs[j], j) ∈ bytesIn m x bs (dataAddr m (x + j) / 4 * 4) := mem_bytesIn.mpr ⟨⟨hj, rfl⟩, rfl⟩
  obtain ⟨b, r, hb⟩ := List.exists_cons_of_ne_nil (List.ne_nil_of_mem hmem)
  refine ⟨_, mem_storeBytes.mpr ⟨j, hj, b, r, hb, rfl⟩, ?_⟩
  rw [hb] at hmem
  obtain ⟨i, hi, hij⟩ := List.getElem_of_mem hmem
  obtain ⟨hidx, haddr, -⟩ := bytesIn_consecutive hl hb i hi
  rw [hij] at hidx
  exact ⟨i, by simpa using hi, by rw [← haddr, ← hidx]⟩

end

/-! ## A run of writes -/

/-- `u` is `s` with memory written in the words `W`, and with what belongs to them: their error marks, an injection armed for
one of them, and their blocks among those a running copy has still to send. -/
def State.Rewrites (s u : State) (W : Nat → Prop) : Prop :=
  ∃ mem ecc rewrites armed dirty,
    u = { s with mem := mem, ms := { s.ms with ecc := ecc, rewrites := rewrites }, flt := { s.flt with armed := armed },
                 twin := { s.twin with dirty := dirty } } ∧
    (∀ w, ¬W w → mget 0 ecc w = mget 0 s.ms.ecc w) ∧ mwf 0 ecc = true

namespace State.Rewrites
variable {s t u : State} {W : Nat → Prop}

theorem refl (h : mwf 0 s.ms.ecc = true) : s.Rewrites s W := ⟨_, _, _, _, _, rfl, fun _ _ => rfl, h⟩

theorem trans (h : s.Rewrites t W) (g : t.Rewrites u W) : s.Rewrites u W := by
  obtain ⟨_, _, _, _, _, rfl, hm, -⟩ := h
  obtain ⟨_, _, _, _, _, rfl, gm, ge⟩ := g
  exact ⟨_, _, _, _, _, rfl, fun w hw => (gm w hw).trans (hm w hw), ge⟩

theorem ecc (h : s.Rewrites u W) : mwf 0 u.ms.ecc = true := by
  obtain ⟨_, _, _, _, _, rfl, -, he⟩ := h
  exact he

end State.Rewrites

variable {s : State} {W : Nat → Prop}

/-- The marks of written words change nothing else. -/
theorem State.rewrites_eccWrite (h : mwf 0 s.ms.ecc = true) (l : List Nat) (hW : ∀ w ∈ l, W w) : s.Rewrites (s.eccWrite l) W := by
  induction l generalizing s with
  | nil => exact .refl h
  | cons w l ih =>
    have hw := hW w List.mem_cons_self
    have hstep : s.Rewrites ({ s with ms := { s.ms with ecc := mset 0 s.ms.ecc w (eccMark s.flt.armed w),
                                                        rewrites := s.ms.rewrites.filter (· ≠ w) },
                                      flt := if eccMark s.flt.armed w = 0 then s.flt else { s.flt with armed := none } } : State) W := by
      refine ⟨s.mem, mset 0 s.ms.ecc w (eccMark s.flt.armed w), s.ms.rewrites.filter (· ≠ w),
        if eccMark s.flt.armed w = 0 then s.flt.armed else none, s.twin.dirty, ?_, fun v hv => ?_, mwf_mset h⟩
      · split <;> rfl
      · exact mget_mset_ne h (by rintro rfl; exact hv hw)
    exact hstep.trans (ih hstep.ecc (fun v hv => hW v (List.mem_cons_of_mem w hv)))

/-- A write of bytes marks the words it touches (R526, R572). -/
theorem State.rewrites_wrBytes (h : mwf 0 s.ms.ecc = true) (a : Nat) (bs : List Byte) (hW : ∀ w ∈ wordsOf a bs.length, W w) :
    s.Rewrites (s.wrBytes a bs) W := by
  have hmem : s.Rewrites ({ s with mem := memPut s.mem a bs } : State) W := ⟨_, _, _, _, _, rfl, fun _ _ => rfl, h⟩
  have hdirty : s.Rewrites (({ s with mem := memPut s.mem a bs } : State).markDirty a bs.length) W := by
    refine hmem.trans ?_
    unfold State.markDirty
    split
    · exact .refl h
    · exact ⟨_, _, _, _, _, rfl, fun _ _ => rfl, h⟩
  unfold State.wrBytes
  dsimp only
  split
  · exact hdirty
  · exact hdirty.trans (State.rewrites_eccWrite hdirty.ecc _ hW)

/-- A write inside one word touches that word alone. -/
theorem wordsOf_one {a n : Nat} (hn : 0 < n) (h : a % 4 + n ≤ 4) : wordsOf a n = [a / 4 * 4] := by
  have hone : (a % 4 + n + 3) / 4 = 1 := by omega
  unfold wordsOf
  rw [hone]
  rfl

theorem State.wf_mem_wrBytes (h : Memory.wf s.mem) (a : Nat) (bs : List Byte) : Memory.wf (s.wrBytes a bs).mem := by
  rw [State.wrBytes_mem]
  exact memPut_wf h

/-- A byte is among those of a run of writes. -/
def Covers (l : List (Nat × List Byte)) (b : Nat) : Prop := ∃ e ∈ l, ∃ i, i < e.2.length ∧ b = e.1 + i

theorem State.rdB_writes_outside (hm : Memory.wf s.mem) (l : List (Nat × List Byte)) (b : Nat) (hb : ¬Covers l b) :
    (l.foldl (fun (s : State) e => s.wrBytes e.1 e.2) s).rdB b = s.rdB b := by
  induction l generalizing s with
  | nil => rfl
  | cons e l ih =>
    have hm' : Memory.wf (s.wrBytes e.1 e.2).mem := State.wf_mem_wrBytes hm e.1 e.2
    have hne : ∀ i, i < e.2.length → b ≠ e.1 + i := fun i hi he => hb ⟨e, List.mem_cons_self, i, hi, he⟩
    refine (ih hm' (fun ⟨e', he', hi⟩ => hb ⟨e', List.mem_cons_of_mem _ he', hi⟩)).trans ?_
    rw [State.rdB_wrBytes hm]
    split
    · next hle => rw [List.getElem?_eq_none (by by_contra hlt; exact hne (b - e.1) (by omega) (by omega))]; rfl
    · rfl

/-- Writes one after the other: a byte that is written, always with the same value, ends with it. -/
theorem State.rdB_writes (hm : Memory.wf s.mem) (l : List (Nat × List Byte)) (b : Nat) (v : Byte) (hb : Covers l b)
    (hv : ∀ e ∈ l, ∀ i, i < e.2.length → b = e.1 + i → e.2.getD i 0 = v) :
    (l.foldl (fun (s : State) e => s.wrBytes e.1 e.2) s).rdB b = v := by
  induction l generalizing s with
  | nil => obtain ⟨e, he, -⟩ := hb; cases he
  | cons e l ih =>
    have hm' : Memory.wf (s.wrBytes e.1 e.2).mem := State.wf_mem_wrBytes hm e.1 e.2
    by_cases hc : Covers l b
    · exact ih hm' hc (fun e' he' => hv e' (List.mem_cons_of_mem _ he'))
    · obtain ⟨e', he', i, hi, rfl⟩ := hb
      cases he' with
      | tail _ h => exact absurd ⟨e', h, i, hi, rfl⟩ hc
      | head =>
        refine (State.rdB_writes_outside hm' l _ hc).trans ?_
        have hval := hv e List.mem_cons_self i hi rfl
        rw [State.rdB_wrBytes hm, if_pos (Nat.le_add_right _ _), Nat.add_sub_cancel_left, List.getElem?_eq_getElem hi]
        rwa [List.getD_eq_getElem _ _ hi] at hval

/-- Writes inside words of `W` one after the other. -/
theorem State.rewrites_writes (h : mwf 0 s.ms.ecc = true) (l : List (Nat × List Byte))
    (hl : ∀ e ∈ l, 0 < e.2.length ∧ e.1 % 4 + e.2.length ≤ 4 ∧ W (e.1 / 4 * 4)) :
    s.Rewrites (l.foldl (fun (s : State) e => s.wrBytes e.1 e.2) s) W := by
  induction l generalizing s with
  | nil => exact .refl h
  | cons e l ih =>
    obtain ⟨hpos, hin, hw⟩ := hl e List.mem_cons_self
    have hstep := State.rewrites_wrBytes (s := s) (W := W) h e.1 e.2 (by rw [wordsOf_one hpos hin]; simpa using hw)
    exact hstep.trans (ih hstep.ecc (fun e he => hl e (List.mem_cons_of_mem _ he)))

theorem State.writes_tiles (l : List (Nat × List Byte)) : (l.foldl (fun (s : State) e => s.wrBytes e.1 e.2) s).tiles = s.tiles := by
  induction l generalizing s with
  | nil => rfl
  | cons e l ih => exact ih.trans (State.wrBytes_tiles s e.1 e.2)

/-- A word is one that a store of `k` bytes from byte `x` of tile `n` touches. -/
def InStore (n x k w : Nat) : Prop := ∃ j, j < k ∧ w = dataAddr n (x + j) / 4 * 4

/-- The writes of a store put its bytes and leave the rest (R254, R256). -/
theorem State.stored_storeBytes (hc : s.Canonical) (n x : Nat) {bs : List Byte} (hl : bs.length ≤ 16) (t : Tile) :
    s.Stored ((storeBytes n x bs).foldl (fun (s : State) e => s.wrBytes e.1 e.2) (s.setTile n t)) n x bs := by
  have hcov (b : Nat) : Covers (storeBytes n x bs) b ↔ ∃ j, j < bs.length ∧ b = dataAddr n (x + j) := by
    constructor
    · rintro ⟨e, he, i, hi, rfl⟩
      obtain ⟨j, hj, hb, -⟩ := (storeBytes_byte hl he).2.2.2 i hi
      exact ⟨j, hj, hb.symm⟩
    · rintro ⟨j, hj, rfl⟩
      exact storeBytes_covers hl hj
  have hinj : ∀ j k, j < bs.length → k < bs.length → dataAddr n (x + j) = dataAddr n (x + k) → j = k := by
    intro j k hj hk h
    unfold dataAddr at h
    omega
  obtain ⟨mem, ecc, rewrites, armed, dirty, hu, hmarks, -⟩ := State.rewrites_writes (s := s.setTile n t) (W := InStore n x bs.length) hc.ecc
    (storeBytes n x bs) (fun e he => by
      obtain ⟨hw, hpos, hin, -⟩ := storeBytes_byte hl he
      exact ⟨hpos, hin, hw⟩)
  constructor
  · intro j hj
    refine State.rdB_writes (s := s.setTile n t) hc.mem _ _ _ ((hcov _).mpr ⟨j, hj, rfl⟩) (fun e he i hi hb => ?_)
    obtain ⟨k, hk, hk', hval⟩ := (storeBytes_byte hl he).2.2.2 i hi
    rw [hval, hinj j k hj hk (hb.trans hk'.symm)]
  · intro a ha
    exact State.rdB_writes_outside (s := s.setTile n t) hc.mem _ a (fun h => by
      obtain ⟨j, hj, hb⟩ := (hcov a).mp h
      exact ha j hj hb)
  · intro w hw
    rw [hu]
    exact hmarks w (fun ⟨j, hj, hb⟩ => hw j hj hb)
  all_goals rw [hu]; rfl

/-! ## Stores -/

section
variable {t : TileNo} {c : Instr} {f : Issue → SlotEffect} {x : Nat} {bs : List Byte} {ws : List (Nat × RegWrite)}

/-- A slot that stores bytes and writes registers of the issuing tile, in a bundle of its own. -/
theorem stores_of_slot (hc : s.Canonical) (h : s.Poised t) (hx : exec c s = s.slot t true f) {e : SlotEffect} (he : f (s.view1 t) = e)
    (hctl : e.ctl = .none) (hleg : e.illegal = none) (hexc : e.exc = none) (hd : dupDest e.dests = false) (hr : e.reads = [])
    (hfu : e.fu = none) (hst : e.stall = 0) (hs : e.stores = storeBytes t x bs) (hl : bs.length ≤ 16)
    (hw : e.writes = ws.map (fun w => (t.val, w))) : s.Stores c t x bs ws := by
  have hp := SlotEffect.plain hctl hleg hexc hd (s.tile t).flow.pc (s.tile t).ctx (s.tile t).bank.loops
  have hn := ctlOf_none hctl
  have htook : (s.tile t).took [e] = 1 := by simp [Tile.took, Tile.pre, hfu, hst]
  have hexec := hx.trans (slot_alone hc.tiles h f e he hp)
  rw [commit_one hc.tiles h [e] (by simp [hn]) (by simp [hn]) (by simp [hn])] at hexec
  simp only [List.flatMap_cons, List.flatMap_nil, List.append_nil, hr, hs, List.foldl_nil] at hexec
  refine ⟨_, hexec, ?_, State.stored_storeBytes hc t x hl _⟩
  rw [← ownOf_own hw]
  exact after1_went hc.tiles h hn (State.writes_tiles _) htook

/-- Right words bring no report and no exception. -/
theorem check_right {n d : Nat} {l : List (Nat × Nat)} (h : ∀ w ∈ l, mget 0 s.ms.ecc w.2 = 0) : (s.view1 n).check d l = ([], none) := by
  have hecc (a : Nat) : mget 0 (s.view1 n).s.ms.ecc a = mget 0 s.ms.ecc a := rfl
  have hseen : (l.map (·.2)).filter (fun a => decide (mget 0 s.ms.ecc a ≠ 0) && decide (mget 0 s.ms.ecc a < 64)) = [] := by
    rw [List.filter_eq_nil_iff]
    intro a ha
    obtain ⟨w, hw, rfl⟩ := List.mem_map.mp ha
    simp [h w hw]
  have hbad : l.find? (fun w => mget 0 s.ms.ecc w.2 == 64) = none := by
    rw [List.find?_eq_none]
    intro w hw
    simp [h w hw]
  unfold Issue.check
  simp only [hecc, hseen, hbad, Option.map_none]

/-- An aligned store of a poised tile to right words: its bytes and the post-modification. -/
theorem storing_right {ptr : Fin 8} {k al : Nat} {post : Post} {g : Nat → List Byte} (hg : g t = bs) (hl : bs.length ≤ 16)
    (hs : s.Sound t x bs.length) (hal : x % al = 0) :
    (s.view1 t).storing (s.view1 t).members x al g ((s.view1 t).post ptr k post) =
      { (s.view1 t).post ptr k post with stores := storeBytes t x bs } := by
  have hst : (s.view1 t).members.flatMap (fun m => (storeBytes m x (g m)).map (fun w => (m, w))) = (storeBytes t x bs).map (fun w => (t.val, w)) := by
    rw [← hg]
    exact List.append_nil _
  have hchk : (s.view1 t).check 1 ((((storeBytes t x bs).map (fun w => (t.val, w))).filter (fun w => decide (w.2.2.length ≠ 4))).map
      (fun w => (w.1, w.2.1 / 4 * 4))) = ([], none) := by
    refine check_right (fun a ha => ?_)
    obtain ⟨w, hw, rfl⟩ := List.mem_map.mp ha
    obtain ⟨e, he, rfl⟩ := List.mem_map.mp (List.mem_filter.mp hw).1
    obtain ⟨⟨j, hj, hword⟩, -⟩ := storeBytes_byte hl he
    dsimp only
    rw [hword]
    exact hs j hj
  have hmis : (s.view1 t).misaligned x al = none := if_pos hal
  unfold Issue.storing
  simp only [hst, hchk, hmis, List.map_map]
  simp [Issue.post, firstExc]

theorem postWrite_eq {ptr : Fin 8} {k : Nat} {post : Post} (b : Bank) : (postWrite b ptr k post).map (fun w => (1, w)) = postResult b ptr k post := by
  cases post <;> rfl

/-- The writes of the post-modification. -/
theorem post_writes (hc : s.Canonical) {ptr : Fin 8} {k : Nat} {post : Post} :
    ((s.view1 t).post ptr k post).writes = (postResult (s.seen t) ptr k post).map (fun w => (t.val, w)) := by
  rw [← postWrite_eq, ← State.Poised.view_bank hc, List.map_map]
  rfl

theorem dupDest_post (ptr : Fin 8) (post : Post) : dupDest (postDest ptr post) = false := by cases post <;> rfl

theorem addr_eq (hc : s.Canonical) (ptr : Fin 8) (off : Nat) : (s.view1 t).addr ptr off = (((s.seen t).getP ptr).toNat + off) % 2 ^ 17 :=
  congrArg (fun b => accessAddr b ptr off) (State.Poised.view_bank hc)

/-- A store that writes no register but the pointer, and lane events `ev`. -/
theorem stores_of_storing (hc : s.Canonical) (h : s.Poised t) (hx : exec c s = s.slot t true f) {ptr : Fin 8} {k al : Nat} {post : Post}
    {g : Nat → List Byte} {ev : List (Nat × RegWrite)} {sts : Bool} {x' : Nat}
    (hf : f (s.view1 t) = { ((s.view1 t).storing (s.view1 t).members x' al g ((s.view1 t).post ptr k post)).plus (ev.map (fun w => (t.val, w))) []
      with gangSts := sts }) (hx' : x' = x)
    (hg : g t = bs) (hl : bs.length ≤ 16) (hs : s.Sound t x bs.length) (hal : x % al = 0) :
    s.Stores c t x bs (ev ++ postResult (s.seen t) ptr k post) := by
  subst hx'
  rw [storing_right hg hl hs hal] at hf
  refine stores_of_slot hc h hx hf rfl rfl rfl (dupDest_post ptr post) rfl rfl rfl rfl hl ?_
  rw [List.map_append, ← post_writes hc]
  rfl

end

/-! ## Bytes of a word -/

/-- The bytes of a word, the least significant first. -/
def wordBytes (w : Word) : List Byte := [w.truncate 8, (w >>> 8).truncate 8, (w >>> 16).truncate 8, (w >>> 24).truncate 8]

theorem ofNat_byte (w : Word) (k : Nat) : BitVec.ofNat 8 (w.toNat / 2 ^ k) = (w >>> k).truncate 8 := by
  rw [BitVec.truncate_eq_setWidth, ← BitVec.ofNat_toNat, BitVec.toNat_ushiftRight, Nat.shiftRight_eq_div_pow]

theorem leBytes_word (w : Word) : leBytes 4 w.toNat = wordBytes w := by
  have h1 := ofNat_byte w 8
  have h2 := ofNat_byte w 16
  have h3 := ofNat_byte w 24
  simp only [leBytes, Nat.div_div_eq_div_mul]
  exact congrArg₂ _ (BitVec.ofNat_toNat 8 w) (by rw [← h1, ← h2, ← h3]; rfl)

/-- The three upper bytes of a word. -/
theorem leBytes_packed (w : Word) : leBytes 3 (w.toNat / 256) = (wordBytes w).tail := by
  rw [← leBytes_word]
  rfl

/-- The bytes of four lanes. -/
theorem leBytes_lanes (g : Fin 4 → Word) :
    lanes.flatMap (fun l => leBytes 4 (g l).toNat) = wordBytes (g 0) ++ wordBytes (g 1) ++ wordBytes (g 2) ++ wordBytes (g 3) := by
  simp only [lanes, List.flatMap_cons, List.flatMap_nil, leBytes_word, List.append_assoc, List.append_nil]

/-- The saturation event of one lane. -/
theorem satWrites_one (m d : Nat) (k : Fin 4) (g : Fin 4 → Bool) :
    satWrites m d [(k, g k)] = (laneEvents d 8 (fun l => decide (l = k) && g l)).map (fun w => (m, w)) := by
  fin_cases k
  · cases h : g 0 <;> simp [satWrites, laneEvents, h]; rfl
  · cases h : g 1 <;> simp [satWrites, laneEvents, h]; rfl
  · cases h : g 2 <;> simp [satWrites, laneEvents, h]; rfl
  · cases h : g 3 <;> simp [satWrites, laneEvents, h]; rfl

theorem readSReg_eq (b : Bank) (r : SReg) : readSReg b r = match r with
    | .s i => b.getS i
    | .p i => BitVec.ofNat 32 (b.getP i).toNat
    | .m i => BitVec.ofInt 32 (b.getM i).toInt
    | .n i => BitVec.ofNat 32 (b.getN i).toNat := by
  cases r with
  | s i => rfl
  | p i => exact (BitVec.ofNat_toNat 32 _).symm
  | m i => rfl
  | n i => exact (BitVec.ofNat_toNat 32 _).symm

/-- Settles O10: a store splits its bytes over the words it touches, and each byte goes to its own address. -/
theorem storeResults : Obligations.StoreResults := by
  unfold Obligations.StoreResults
  intro s t r v lane acc c ptr post rot o o' hc h b at_ value cv _
  have hb : (s.view1 t).bank = b := State.Poised.view_bank hc
  have hbo : (s.view1 t).bankOf t = b := State.Poised.view_bankOf hc
  have hmem : (s.view1 t).members = [t.val] := rfl
  have hval : readSReg b r = value := readSReg_eq b r
  refine ⟨fun hal hs => ?_, fun hal hs => ?_, fun hs => ?_, fun hs => ?_, fun hal hs => ?_, fun hal hs => ?_⟩
  · refine stores_of_storing (ev := []) hc h (exec_sts ..) rfl (addr_eq hc ptr _) ?_ (Nat.le_of_ble_eq_true rfl) hs ?_
    · rw [hb, hval]; exact leBytes_word _
    · cases rot <;> simp_all [Nat.mod_one]
  · refine stores_of_storing (ev := []) hc h (exec_stv ..) rfl (addr_eq hc ptr _) ?_ (Nat.le_of_ble_eq_true rfl) hs hal
    rw [hbo]; exact leBytes_lanes (b.getV v)
  · refine stores_of_storing (ev := []) hc h (exec_stl ..) rfl (addr_eq hc ptr _) ?_ (Nat.le_of_ble_eq_true rfl) hs (Nat.mod_one _)
    rw [hbo]; exact leBytes_word _
  · refine stores_of_storing (ev := []) hc h (exec_stl ..) rfl (addr_eq hc ptr _) ?_ (Nat.le_of_ble_eq_true rfl) hs (Nat.mod_one _)
    rw [hbo]; exact leBytes_packed _
  · refine stores_of_storing (sts := false) (ev := laneEvents 2 8 (fun l => (cv l).2))
      (g := fun m => lanes.flatMap (fun l => leBytes 4 (convert (s.view1 t).bank.mode c (((s.view1 t).bankOf m).getA acc l)).1.toNat)) hc h (exec_sta ..) ?_ (addr_eq hc ptr 0) ?_ (Nat.le_of_ble_eq_true rfl) hs hal
    · rw [← satWrites_lanes]
      simp only [hb, hmem, hbo, List.flatMap_cons, List.flatMap_nil, List.append_nil]
      rfl
    · rw [hbo, hb]; exact leBytes_lanes (fun l => (cv l).1)
  · refine stores_of_storing (sts := false) (ev := laneEvents 2 8 (fun l => decide (l = lane) && (cv l).2))
      (g := fun m => [lane].flatMap (fun l => leBytes 4 (convert (s.view1 t).bank.mode c (((s.view1 t).bankOf m).getA acc l)).1.toNat)) hc h (exec_sta ..) ?_ (addr_eq hc ptr 0) ?_ (Nat.le_of_ble_eq_true rfl) hs hal
    · rw [← satWrites_one]
      simp only [hb, hmem, hbo, List.flatMap_cons, List.flatMap_nil, List.append_nil]
      rfl
    · rw [hbo, hb]
      exact (List.append_nil _).trans (leBytes_word _)

end Sys2Proof.Machine
end

section
/-!
PROOFS. The issue of a bundle of at most one slot on its own, whatever flow it meets, and the branches (R281 to R284, R327).
-/

namespace Sys2Proof.Machine

/-! ## The tile after a bundle -/

/-- The tile after a bundle of `k` cycles that leaves the registers `b` and the flow `f`. -/
def Tile.closed (t : Tile) (b : Bank) (f : Flow) (k : Nat) : Tile :=
  { ((t.setBank b).setFlow f).spend k with buf := [], bufOpen := false, afterCret := t.afterCret && t.ctx }

/-- The flow in which the control effect of a bundle of tile n finds its context: its results have joined those in flight. -/
def Tile.joined (t : Tile) (n : Nat) (l : List SlotEffect) : Flow :=
  { t.flow with pend := inFlight t.flow.pend t.flow.issued ++ pendOf n t.flow.issued l, issued := t.flow.issued + 1 }

/-- The tile after its bundle of the slots `l`, annulled or not. -/
def Tile.afterBundle (t : Tile) (n : Nat) (l : List SlotEffect) (annul : Bool) : Tile :=
  (((t.holding l).setFlow { t.openBundle.flow with pend := t.openBundle.flow.pend ++ pendOf n t.flow.issued l, issued := t.flow.issued + 1 }).spend (t.took l)).issued
    (l.findSome? (·.fu)) t.bank.loops annul (ctlOf l) false (t.scyc + t.pre l) (t.pre l) (t.took l)

theorem Tile.afterBundle_false (t : Tile) (n : Nat) (l : List SlotEffect) : t.afterBundle n l false = t.after1 n l := rfl

/-- What is left of a context's flow once its control effect `c` is known: a WAITS still to come holds it. -/
def Flow.held (f : Flow) (c : Ctl) (scyc : Nat) : Flow :=
  match c with
  | .waits k => if k ≤ scyc then { f with pc := f.pc + 1 } else { f with wait := some k }
  | _ => f

/-- What a context's end does to its tile. -/
def Tile.ended (t : Tile) (c : Ctl) (at_ : Nat) : Tile :=
  match c with
  | .yield => t.yield at_
  | .cret => t.cret
  | _ => t

/-- The control effect of a bundle comes in twice: in the flow it leaves, and at the end of its context. -/
theorem Tile.issued_ended (u : Tile) (loops : List Level) (annul : Bool) (c : Ctl) (at_ pre cyc : Nat) :
    u.issued none loops annul c false at_ pre cyc =
      let r := u.flow.after loops annul c
      let v := (u.setFlow (r.1.held c u.scyc)).setBank (u.bank.setLoops r.2)
      ({ v with buf := [], bufOpen := false, afterCret := v.afterCret && v.ctx } : Tile).ended c at_ := by
  unfold Tile.issued
  simp only [Bool.or_false]
  cases c <;> rfl

theorem Tile.afterBundle_eq {t : Tile} (hw : t.flow.wait = none) {n : Nat} {l : List SlotEffect} {annul : Bool} (hf : l.findSome? (·.fu) = none)
    {r : Flow × List Level} (hr : (t.joined n l).after t.bank.loops annul (ctlOf l) = r) :
    t.afterBundle n l annul = (t.closed (t.openBundle.bank.setLoops r.2)
      (r.1.held (ctlOf l) (if t.ctx then t.scyc else t.scyc + t.took l)) (t.took l)).ended (ctlOf l) t.scyc := by
  have hp : t.pre l = 0 := by unfold Tile.pre; rw [hf]; rfl
  subst hr
  unfold Tile.afterBundle
  rw [hf, hp]
  have ho := Tile.openBundle_eq hw
  have hob : t.openBundle.bank = retire t.bank t.flow.pend t.flow.issued := by rw [ho, Tile.setFlow_bank, Tile.setBank_bank]
  have hof : t.openBundle.flow = { t.flow with pend := inFlight t.flow.pend t.flow.issued } := by rw [ho, Tile.setFlow_flow]
  rw [hof, hob]
  unfold Tile.holding
  rw [ho]
  generalize retire t.bank t.flow.pend t.flow.issued = b
  generalize t.took l = k
  unfold Tile.joined
  generalize t.bank.loops = loops
  generalize hp : inFlight t.flow.pend t.flow.issued = p
  generalize hq : pendOf n t.flow.issued l = q
  rw [Tile.issued_ended]
  cases hx : t.ctx <;> simp [Tile.closed, Tile.setFlow, Tile.setBank, Tile.flow, Tile.bank, Tile.spend, hx]

theorem Tile.closed_flow (t : Tile) (b : Bank) (f : Flow) (k : Nat) : (t.closed b f k).flow = f := by
  have h : (t.closed b f k).flow = ((t.setBank b).setFlow f).flow := rfl
  rw [h, Tile.setFlow_flow]

theorem Tile.closed_bank (t : Tile) (b : Bank) (f : Flow) (k : Nat) : (t.closed b f k).bank = b := by
  have h : (t.closed b f k).bank = ((t.setBank b).setFlow f).bank := rfl
  rw [h, Tile.setFlow_bank, Tile.setBank_bank]

/-- What a context's own bundle leaves of the other one, and of the counters of both. -/
theorem Tile.closed_other (t : Tile) (b : Bank) (f : Flow) (k : Nat) :
    (t.closed b f k).scyc = t.scyc + (if t.ctx then 0 else k) ∧ (t.closed b f k).ctlCyc = t.ctlCyc + (if t.ctx then k else 0) ∧
    (if t.ctx then (t.closed b f k).sf = t.sf else (t.closed b f k).cf = t.cf) ∧
    (if t.ctx then (t.closed b f k).smp = t.smp else (t.closed b f k).ctl = t.ctl) := by
  unfold Tile.closed Tile.setFlow Tile.setBank Tile.spend
  cases t.ctx <;> simp

theorem Tile.closed_kept (t : Tile) (b : Bank) (f : Flow) (k : Nat) :
    { t.closed b f k with smp := t.smp, ctl := t.ctl, sf := t.sf, cf := t.cf, fu := t.fu, buf := t.buf, bufOpen := t.bufOpen,
                          scyc := t.scyc, ctlCyc := t.ctlCyc, afterCret := t.afterCret } = t := by
  unfold Tile.closed Tile.setFlow Tile.setBank Tile.spend
  obtain ⟨run, ctx⟩ := t
  cases ctx <;> rfl

section
variable {s u : State} {t : TileNo} {b : Bank} {f : Flow} {k : Nat}

theorem issued_of_closed (hu : ∀ m, u.tile m = if t.val = m then (s.tile t).closed b f k else s.tile m)
    (hf : f.issued = (s.tile t).flow.issued + 1) : s.Issued u t k := by
  have hn : u.tile t = (s.tile t).closed b f k := (hu t).trans (if_pos rfl)
  obtain ⟨hs, hc, hsf, hb⟩ := (s.tile t).closed_other b f k
  exact {
    others := fun m hm => (hu m).trans (if_neg (Ne.symm hm))
    count := by rw [hn, Tile.closed_flow, hf]
    sampleCycles := by rw [hn, hs]
    controlCycles := by rw [hn, hc]
    idleFlow := by rw [hn]; exact hsf
    idleBank := by rw [hn]; exact hb
    closed := by rw [hn]; rfl
    kept := by rw [hn]; exact Tile.closed_kept ..
  }

/-- The results in flight after a bundle of slots `l`. -/
theorem flying_of_joined {l : List SlotEffect} (hn : (u.tile t).flow.pend = ((s.tile t).joined t l).pend)
    (hi : (u.tile t).flow.issued = (s.tile t).flow.issued + 1) : u.flying t = nearer (s.flying t) ++ ownOf l t := by
  unfold State.flying
  rw [hn, hi]
  simp only [Tile.joined, List.map_append, flying_after, nearer_flying]

/-- Tile `t` has issued a bundle of `k` cycles with the slots `l`, and goes on with the registers `b` and the flow `f`; nothing outside
it has changed. -/
structure State.Steps (s u : State) (t : TileNo) (k : Nat) (l : List SlotEffect) (b : Bank) (f : Flow) : Prop where
  tile : u.tile t = (s.tile t).closed b f k
  issued : s.Issued u t k
  flying : u.flying t = nearer (s.flying t) ++ ownOf l t
  rest : ({ u with tiles := s.tiles } : State) = s
  bank : (u.tile t).bank = b
  flow : (u.tile t).flow = f

theorem steps_closed (hc : s.Canonical) {x : Tile} {l : List SlotEffect} (hx : x = (s.tile t).closed b f k) (hp : f.pend = ((s.tile t).joined t l).pend)
    (hi : f.issued = (s.tile t).flow.issued + 1) : s.Steps (s.setTile t x) t k l b f := by
  subst hx
  have hu := State.tile_setTile (s := s) hc.tiles t
  have hn : (s.setTile t ((s.tile t).closed b f k)).tile t = (s.tile t).closed b f k := (hu t _).trans (if_pos rfl)
  have hflow : ((s.setTile t ((s.tile t).closed b f k)).tile t).flow = f := by rw [hn, Tile.closed_flow]
  exact {
    tile := hn
    issued := issued_of_closed (fun m => hu m _) hi
    flying := flying_of_joined (by rw [hflow, hp]) (by rw [hflow, hi])
    rest := rfl
    bank := by rw [hn, Tile.closed_bank]
    flow := hflow }

end

end Sys2Proof.Machine
end

section
/-!
PROOFS. What a tile's bundle does at issue when it is fetched right and issues alone, whatever its flow and its slots: an exception, or its
commit (R282 to R284, R312, R327).
-/

namespace Sys2Proof.Machine

/-- Tile n is about to issue a bundle, alone, whose two words are right; a branch, a repeat or a loop may be going on. -/
structure State.Alone (s : State) (n : Nat) : Prop where
  issues : s.mayIssue n = true
  alone : s.membersOf n = [n]
  closed : (s.tile n).bufOpen = false
  noWait : (s.tile n).flow.wait = none
  noTarget : (s.tile n).flow.atTarget = false
  inside : (s.tile n).flow.pc ≤ 2047
  right0 : mget 0 s.ms.ecc (s.fetchAddr n (s.tile n).flow.pc) = 0
  right1 : mget 0 s.ms.ecc (s.fetchAddr n (s.tile n).flow.pc + 4) = 0

theorem State.Poised.isAlone {s : State} {n : Nat} (h : s.Poised n) : s.Alone n :=
  ⟨h.issues, h.alone, h.closed, h.noWait, h.noTarget, h.inside, h.right0, h.right1⟩

/-- The exception that the slots `l` of a rightly fetched bundle raise, with the tile that raises it. -/
def State.slotExc (s : State) (n : Nat) (l : List SlotEffect) : Option (Exc × Nat) :=
  let f := (s.tile n).flow
  let place (b : Bool) (x : Exc) : Option (Exc × Nat) := if b then some (x, n) else none
  firstExc [
    (bundleDetail (s.fetchBundle n f.pc)).map (fun d => (({ cause := 1, detail := d } : Exc), n)),
    (l.findSome? (·.illegal)).map (fun x => (x, n)),
    place (dupDest (l.flatMap (·.dests))) { cause := 1, detail := 2 },
    place (badPlace f (s.tile n).bank.loops l (s.tile n).ctx false (match f.skip with | some k => k.first | none => false)) { cause := 1, detail := 3 },
    (badLoop f (s.tile n).bank.loops (ctlOf l)).map (fun x => (x, n)),
    if f.annulled then none else l.findSome? (·.exc)]

section
variable {s : State} {t : TileNo}

/-- The state in which tile t issues the slots `l`. -/
def State.opened (s : State) (t : TileNo) (l : List SlotEffect) : State := s.setTile t ((s.tile t).holding l)

namespace State.Alone

theorem open_flow (h : s.Alone t) :
    (s.tile t).openBundle.flow = { (s.tile t).flow with pend := inFlight (s.tile t).flow.pend (s.tile t).flow.issued } := by
  rw [Tile.openBundle_eq h.noWait, Tile.setFlow_flow]

theorem seen_loops (h : s.Alone t) : (s.seen t).loops = (s.tile t).bank.loops := by
  unfold State.seen
  rw [Tile.openBundle_eq h.noWait, Tile.setFlow_bank, Tile.setBank_bank, retire_loops]

theorem opened_tile (hc : s.Canonical) (l : List SlotEffect) : (s.opened t l).tile t = (s.tile t).holding l := by
  unfold State.opened
  rw [State.tile_setTile hc.tiles, if_pos rfl]

theorem opened_members (hc : s.Canonical) (h : s.Alone t) (l : List SlotEffect) : (s.opened t l).membersOf t = [t.val] := by
  unfold State.opened
  rw [State.membersOf_setTile hc.tiles]
  · exact h.alone
  · exact (open_fu h.noWait).2.2.2.2.2

/-- Opening a bundle changes nothing of where the tile fetches. -/
theorem holding_fetch (h : s.Alone t) (l : List SlotEffect) : ((s.tile t).holding l).frontIsB = (s.tile t).frontIsB ∧
    ((s.tile t).holding l).handler = (s.tile t).handler ∧ ((s.tile t).holding l).onBack = (s.tile t).onBack ∧
    ((s.tile t).holding l).ctx = (s.tile t).ctx := by
  unfold Tile.holding
  rw [Tile.kept_open h.noWait]
  exact ⟨rfl, rfl, rfl, rfl⟩

theorem opened_fetch (hc : s.Canonical) (h : s.Alone t) (l : List SlotEffect) (i : Nat) :
    (s.opened t l).fetchBack t = s.fetchBack t ∧
    (s.opened t l).fetchAddr t i = s.fetchAddr t i ∧ (s.opened t l).fetchBundle t i = s.fetchBundle t i := by
  obtain ⟨hf, hh, hb, hx⟩ := h.holding_fetch l
  have ht := opened_tile (t := t) hc l
  have hback : (s.opened t l).fetchBack t = s.fetchBack t := by
    unfold State.fetchBack
    rw [ht]
    dsimp only
    rw [hx, hh, hb]
    rfl
  refine ⟨hback, ?_, ?_⟩
  · unfold State.fetchAddr
    rw [ht, hf, hback]
  · unfold State.fetchBundle
    rw [ht, hf, hback]
    rfl

theorem opened_seen (hc : s.Canonical) (h : s.Alone t) (l : List SlotEffect) : (s.opened t l).fetchSeen t = s.opened t l := by
  unfold State.fetchSeen
  rw [opened_tile hc, Tile.holding_flow, h.open_flow, (h.opened_fetch hc l _).2.1]
  exact fetchSeen_right _ _ h.right0 h.right1

theorem opened_exc (hc : s.Canonical) (h : s.Alone t) (l : List SlotEffect) :
    (s.opened t l).bundleExc t (s.tile t).bank.loops (s.tile t).flow.annulled = s.slotExc t l := by
  obtain ⟨-, ha, hb⟩ := h.opened_fetch hc l (s.tile t).flow.pc
  have hon : (s.opened t l).domOn t = true := by
    have := h.issues
    unfold State.mayIssue at this
    simp only [Bool.and_eq_true] at this
    exact this.1.1.1
  have hecc : (s.opened t l).ms = s.ms := rfl
  unfold State.bundleExc State.slotExc
  simp only [opened_tile hc, h.opened_members hc, Tile.holding_flow, h.open_flow, (h.holding_fetch l).2.2.2, ha, hb, hecc, h.right0, h.right1]
  have hins : decide (2047 < (s.tile t).flow.pc) = false := decide_eq_false (Nat.not_lt.mpr h.inside)
  have hfind : [t.val].find? (fun m => !(s.opened t l).domOn m) = none := by simp [hon]
  rw [hins, hfind]
  rfl

theorem issue_eq (hc : s.Canonical) (h : s.Alone t) (l : List SlotEffect) :
    (s.opened t l).issueBundle t = match s.slotExc t l with
      | some (x, m) => ((s.opened t l).fuStall t).tileExc t m x (s.tile t).flow.annulled false
      | none => (s.opened t l).commitBundle t (s.tile t).bank.loops (s.tile t).flow.annulled := by
  have hloops : ((s.opened t l).tile t).bank.loops = (s.tile t).bank.loops := by
    rw [opened_tile hc, Tile.holding_bank]
    exact h.seen_loops
  have hann : ((s.opened t l).tile t).flow.annulled = (s.tile t).flow.annulled := by
    rw [opened_tile hc, Tile.holding_flow, h.open_flow]
    rfl
  have hat : ((s.opened t l).tile t).flow.atTarget = false := by
    rw [opened_tile hc, Tile.holding_flow, h.open_flow]
    exact h.noTarget
  unfold State.issueBundle
  simp only [hat, hann, hloops, h.opened_seen hc, h.opened_exc hc, Bool.false_eq_true, if_false] <;> rfl

/-- Opening the bundle of a tile that issues alone. -/
theorem opens (hc : s.Canonical) (h : s.Alone t) : s.openBundle t = s.opened t [] := by
  unfold State.openBundle State.opened Tile.holding
  rw [if_neg (by simp [h.closed]), h.alone]
  simp only [forAll, List.foldl_cons, List.foldl_nil]
  rw [State.setTile_setTile hc.tiles, State.tile_setTile hc.tiles, if_pos rfl]

/-- A bundle of one slot. -/
theorem slot_eq (hc : s.Canonical) (h : s.Alone t) (f : Issue → SlotEffect) :
    s.slot t true f = .next ((s.opened t [f (s.view1 t)]).issueBundle t) := by
  have hv : Issue.mk (s.opened t []) t ((s.opened t []).membersOf t) = s.view1 t := by
    rw [h.opened_members hc]; rfl
  unfold State.slot
  rw [if_pos h.issues, h.opens hc]
  dsimp only
  rw [hv, opened_tile hc, if_pos rfl]
  unfold State.opened
  rw [State.setTile_setTile hc.tiles]
  rfl

/-- A bundle whose only slot does nothing. -/
theorem noSlot_eq (hc : s.Canonical) (h : s.Alone t) : s.noSlot t true = .next ((s.opened t []).issueBundle t) := by
  unfold State.noSlot
  rw [if_pos h.issues, h.opens hc]
  rfl

end State.Alone

end

end Sys2Proof.Machine
end

section
/-!
PROOFS. The commit of a bundle that issues alone, and how a bundle that transfers no control moves the flow (R282 to R284, R312).
-/

namespace Sys2Proof.Machine

/-- What a bundle's control effect does outside its tile. -/
def State.steered (s : State) (n : Nat) (c : Ctl) : State :=
  match c with
  | .gang sec => s.gangArrive n sec
  | .cret =>
    match s.node (s.tile n).handler with
    | some r => if r.type = 0x14 ∧ r.custom = false then s.meterSample r else s
    | none => s
  | _ => s

section
variable {s : State} {t : TileNo} {l : List SlotEffect}

namespace State.Alone

/-- A bundle that issues alone, with no access to memory, commits: its tile goes on, and then its control effect takes place. -/
theorem commit_eq (hc : s.Canonical) (h : s.Alone t) {annul : Bool} (ha : annul = true → l = []) (hst : l.flatMap (·.stores) = [])
    (hrd : l.flatMap (·.reads) = []) (hi : ctlOf l = .yield → s.injFor 0x0C 0 t = false) :
    (s.opened t l).commitBundle t (s.tile t).bank.loops annul =
      (s.setTile t ((s.tile t).afterBundle t l annul)).steered t (ctlOf l) := by
  have hslots : (if annul = true then [] else l) = l := by
    cases annul with
    | false => rfl
    | true => exact (ha rfl).symm
  have hinj : (ctlOf l == Ctl.yield && (s.opened t l).injFor 0x0C 0 t) = false := by
    by_cases hy : ctlOf l = .yield
    · rw [hy]; exact hi hy
    · rw [beq_eq_false_iff_ne.mpr hy]; rfl
  obtain ⟨hfu, hsc, -⟩ := open_fu h.noWait
  have hbuf : ((s.tile t).holding l).buf = l := rfl
  have hctl : (List.find? (fun x => x.kind == SlotKind.c) l).elim Ctl.none (fun x => x.ctl) = ctlOf l := rfl
  unfold State.commitBundle
  simp only [opened_tile hc, h.opened_members hc, hbuf, hslots, hctl, hinj, hst, hrd, List.foldl_cons, List.foldl_nil]
  simp only [State.opened, Bool.false_eq_true, if_false, State.setTile_setTile hc.tiles, State.tile_setTile hc.tiles, if_true]
  have hone (x : State) (k : Nat) : (if [t.val].length ≠ 1 then x.gangPass (t.val / 8) k else x) = x := if_neg (fun hn => hn rfl)
  have hafter : (((((s.tile t).holding l).setFlow { ((s.tile t).holding l).flow with
        pend := ((s.tile t).holding l).flow.pend ++ pendOf t ((s.tile t).holding l).flow.issued l,
        issued := ((s.tile t).holding l).flow.issued + 1 }).spend
        (1 + (if (l.findSome? (·.fu)).isSome then ((s.tile t).holding l).fu.left else 0) + (l.map (·.stall)).foldl (· + ·) 0)).issued
      (l.findSome? (·.fu)) (s.tile t).bank.loops annul (ctlOf l) false
      (((s.tile t).holding l).scyc + (if (l.findSome? (·.fu)).isSome then ((s.tile t).holding l).fu.left else 0))
      (if (l.findSome? (·.fu)).isSome then ((s.tile t).holding l).fu.left else 0)
      (1 + (if (l.findSome? (·.fu)).isSome then ((s.tile t).holding l).fu.left else 0) + (l.map (·.stall)).foldl (· + ·) 0))
      = (s.tile t).afterBundle t l annul := by
    have e1 : ((s.tile t).holding l).fu = (s.tile t).fu := hfu
    have e2 : ((s.tile t).holding l).scyc = (s.tile t).scyc := hsc
    have e3 : ((s.tile t).holding l).flow.issued = (s.tile t).flow.issued := by rw [Tile.holding_flow, h.open_flow]
    unfold Tile.afterBundle Tile.took Tile.pre
    rw [e1, e2, e3]
    rfl
  simp only [hafter, hone, State.steered, State.tile_setTile hc.tiles, if_true] <;> rfl

theorem slotExc_nil (hd : bundleDetail (s.fetchBundle t (s.tile t).flow.pc) = none) : s.slotExc t [] = none := by
  have hp (first : Bool) : badPlace (s.tile t).flow (s.tile t).bank.loops [] (s.tile t).ctx false first = false := by
    simp [badPlace]
  have ha : (if (s.tile t).flow.annulled then none else ([] : List SlotEffect).findSome? (·.exc)) = none := by
    split <;> rfl
  unfold State.slotExc
  simp only [hd, hp, ha]
  rfl

/-- A NOP alone in its bundle. -/
theorem exec_nop_eq (hc : s.Canonical) (h : s.Alone t) (hd : bundleDetail (s.fetchBundle t (s.tile t).flow.pc) = none) :
    exec (.nop t true) s = .next (s.setTile t ((s.tile t).afterBundle t [] (s.tile t).flow.annulled)) := by
  rw [exec_nop, execNop, h.noSlot_eq hc, h.issue_eq hc, slotExc_nil hd]
  exact congrArg _ (h.commit_eq hc (fun _ => rfl) rfl rfl (fun hy => by cases hy))

end State.Alone

end

/-! ## How the flow advances -/

section
variable {f : Flow} {loops : List Level} {annul : Bool}

theorem Flow.advance_keeps (f : Flow) (loops : List Level) (annul : Bool) :
    (f.advance loops annul).1.pend = f.pend ∧ (f.advance loops annul).1.issued = f.issued := by
  unfold Flow.advance
  split
  · split <;> exact ⟨rfl, rfl⟩
  · split <;> exact ⟨rfl, rfl⟩
  · split <;> exact ⟨rfl, rfl⟩
  · split
    · split
      · split <;> exact ⟨rfl, rfl⟩
      · exact ⟨rfl, rfl⟩
    · exact ⟨rfl, rfl⟩

theorem Flow.advance_br {b : Branch} (h : f.br = some b) : (f.advance loops annul).1 =
    if b.slot = 0 then { f with pc := f.pc + 1, br := some { b with slot := 1 } }
    else { f with pc := if b.taken then b.target else b.at_ + 3, br := none, atTarget := b.taken } := by
  unfold Flow.advance
  rw [h]
  dsimp only
  split <;> rfl

theorem Flow.advance_skip {k : Skip} (hb : f.br = none) (h : f.skip = some k) :
    (f.advance loops annul).1.pc = if k.left ≤ 1 then k.next else f.pc + 1 := by
  unfold Flow.advance
  rw [hb, h]
  dsimp only
  split <;> rfl

theorem Flow.advance_rpt {r : Rpt} (hb : f.br = none) (hs : f.skip = none) (h : f.rpt = some r) : (f.advance loops annul).1 =
    if r.count ≤ r.done + 1 then { f with pc := f.pc + 1, rpt := none } else { f with rpt := some { r with done := r.done + 1 } } := by
  unfold Flow.advance
  rw [hb, hs, h]
  dsimp only
  split <;> rfl

/-- The end of the innermost loop's body. -/
theorem Flow.advance_lend {rest : List Level} {v : Level} (hb : f.br = none) (hs : f.skip = none) (hr : f.rpt = none) (hv : v.lend = f.pc) :
    f.advance (rest ++ [v]) false =
      if 1 < v.lcount.toNat then ({ f with pc := v.lstart }, rest ++ [{ v with lcount := v.lcount - 1 }]) else ({ f with pc := f.pc + 1 }, rest) := by
  unfold Flow.advance
  rw [hb, hs, hr]
  simp [hv]

end

/-- The flow from which a tile's NOP goes on. -/
def Tile.nopFlow (x : Tile) (n : Nat) : Flow := { x.joined n [] with atTarget := false }

/-- A NOP advances the flow, and does nothing else. -/
theorem State.Alone.nop_steps {s : State} {t : TileNo} (hc : s.Canonical) (h : s.Alone t)
    (hd : bundleDetail (s.fetchBundle t (s.tile t).flow.pc) = none) {r : Flow × List Level}
    (hr : ((s.tile t).nopFlow t).advance (s.tile t).bank.loops (s.tile t).flow.annulled = r) :
    ∃ u, exec (.nop t true) s = .next u ∧ s.Steps u t 1 [] ((s.seen t).setLoops r.2) r.1 := by
  obtain ⟨hp, hi⟩ := Flow.advance_keeps ((s.tile t).nopFlow t) (s.tile t).bank.loops (s.tile t).flow.annulled
  rw [hr] at hp hi
  exact ⟨_, h.exec_nop_eq hc hd, steps_closed hc (Tile.afterBundle_eq (l := []) h.noWait rfl hr) hp hi⟩

/-- Settles O14: a NOP leaves the flow to `Flow.advance`, whose cases are those of the statement. -/
theorem flowAdvance : Obligations.FlowAdvance := by
  unfold Obligations.FlowAdvance
  intro s t f hc hm ha hcl hf hw hat hpc h0 h1 hd
  subst hf
  have h : s.Alone t := ⟨hm, ha, hcl, hw, hat, hpc, h0, h1⟩
  obtain ⟨u, hx, hst⟩ := h.nop_steps hc hd rfl
  have hflow := hst.flow
  refine ⟨u, hx, hst.issued, hst.flying.trans (List.append_nil _), hst.rest, ?_, ?_, ?_, ?_, ?_⟩
  · intro b hb hz
    rw [hflow, Flow.advance_br (f := (s.tile t).nopFlow t) hb, if_pos hz]
    exact ⟨rfl, rfl⟩
  · intro b hb hz
    rw [hflow, Flow.advance_br (f := (s.tile t).nopFlow t) hb, if_neg hz]
    exact ⟨rfl, rfl, rfl⟩
  · intro k hb hk
    rw [hflow, Flow.advance_skip (f := (s.tile t).nopFlow t) hb hk]
    rfl
  · intro r hb hk hr
    rw [hflow, Flow.advance_rpt (f := (s.tile t).nopFlow t) hb hk hr]
    split <;> exact ⟨rfl, rfl⟩
  · intro v rest hb hk hr hl hv
    have hann : (s.tile t).flow.annulled = false := by simp [Flow.annulled, hb, hk, hr]
    have hadv := Flow.advance_lend (f := (s.tile t).nopFlow t) (rest := rest) hb hk hr hv
    rw [← hl, h.seen_loops] at hadv
    rw [hflow, hst.bank, hann, hadv]
    split <;> exact ⟨rfl, rfl⟩

end Sys2Proof.Machine
end

section
/-!
PROOFS. The branches (R281, R282).
-/

namespace Sys2Proof.Machine

theorem branchConditions : Stated.BranchConditions := fun st =>
  ⟨rfl, rfl, rfl, rfl, (Bool.not_not _).symm, rfl, congrArg (fun x => !st.getLsbD 2 && x) (Bool.not_not (st.getLsbD 3 == st.getLsbD 0)).symm,
    rfl, rfl, rfl, rfl, rfl, rfl, rfl, rfl, rfl⟩

section
variable {s : State} {t : TileNo} {c : Instr} {f : Issue → SlotEffect} {e : SlotEffect}

/-- A C slot whose control effect is `k`, without a result of its own that takes time. -/
structure SlotEffect.Steers (e : SlotEffect) (k : Ctl) : Prop where
  kind : e.kind = .c
  ctl : e.ctl = k
  stores : e.stores = []
  reads : e.reads = []
  legal : e.illegal = none
  exc : e.exc = none
  dests : dupDest e.dests = false
  fu : e.fu = none
  stall : e.stall = 0

theorem SlotEffect.Steers.ctlOf {k : Ctl} (h : e.Steers k) : ctlOf [e] = k := by
  unfold Machine.ctlOf
  rw [List.find?_cons_of_pos (by rw [h.kind]; rfl)]
  exact h.ctl

/-- The places that the rules allow a control effect other than a repeat, a loop or a rendezvous. -/
theorem SlotEffect.Steers.plain {k : Ctl} (h : e.Steers k) {pc : Nat} {ctx : Bool} {loops : List Level} (hg : ∀ j, k ≠ .gang j)
    (hcr : k = .cret → ctx = true) (hs : (k = .yield ∨ ∃ j, k = .waits j) → ctx = false)
    (hb : ∀ x y z w, k = .branch x y z w → ∀ v ∈ loops, v.lend ≠ pc + 1 ∧ v.lend ≠ pc + 2) (hr : ∀ j, k ≠ .rpt j) (hl : ∀ i j, k ≠ .loop i j) :
    Plain [e] pc ctx loops where
  legal := by simp [h.legal]
  exc := by simp [h.exc]
  dests := by simpa using h.dests
  one := .inr ⟨e, rfl⟩
  noGang := by rwa [h.ctlOf]
  cret := by rwa [h.ctlOf]
  sample := by rwa [h.ctlOf]
  branch := by rwa [h.ctlOf]
  rpt := fun j hj => absurd (h.ctlOf.symm.trans hj) (hr j)
  loop := fun i j hj => absurd (h.ctlOf.symm.trans hj) (hl i j)

theorem SlotEffect.Steers.took {k : Ctl} (h : e.Steers k) (x : Tile) : x.took [e] = 1 := by
  simp [Tile.took, Tile.pre, h.fu, h.stall]

/-- The tile after a steering slot. -/
theorem SlotEffect.Steers.after1_eq {k : Ctl} (h : e.Steers k) {x : Tile} (hw : x.flow.wait = none) {n : Nat} {r : Flow × List Level}
    (hr : (x.joined n [e]).after x.bank.loops false k = r) : x.after1 n [e] =
      (x.closed (x.openBundle.bank.setLoops r.2) (r.1.held k (if x.ctx then x.scyc else x.scyc + 1)) 1).ended k x.scyc := by
  rw [← h.ctlOf] at hr
  rw [← Tile.afterBundle_false, Tile.afterBundle_eq hw (by simp [h.fu]) hr, h.ctlOf, h.took]

/-- A steering slot that its place allows issues, and its control effect takes place. -/
theorem exec_steers (hc : s.Canonical) (h : s.Poised t) (hx : exec c s = s.slot t true f) (hf : f (s.view1 t) = e) {k : Ctl} (he : e.Steers k)
    (hp : Plain [e] (s.tile t).flow.pc (s.tile t).ctx (s.tile t).bank.loops) (hi : k = .yield → s.injFor 0x0C 0 t = false) :
    exec c s = .next ((s.setTile t ((s.tile t).after1 t [e])).steered t k) := by
  have hcommit := h.isAlone.commit_eq hc (l := [e]) (annul := false) (fun ha => by cases ha) (by simp [he.stores]) (by simp [he.reads])
    (fun hy => hi (he.ctlOf.symm.trans hy))
  rw [he.ctlOf] at hcommit
  rw [hx, slot_alone hc.tiles h f e hf hp]
  exact congrArg _ hcommit

theorem branches_of_slot (hc : s.Canonical) (h : s.Poised t) (hx : exec c s = s.slot t true f) {taken annul link : Bool} {goal : Nat}
    (hf : f (s.view1 t) = e) (he : e.Steers (.branch taken goal annul link))
    (hl : ∀ v ∈ (s.seen t).loops, v.lend ≠ (s.tile t).flow.pc + 1 ∧ v.lend ≠ (s.tile t).flow.pc + 2) {ws : List (Nat × RegWrite)}
    (hw : ownOf [e] t = ws) :
    ∃ u, exec c s = .next u ∧ s.Issued u t 1 ∧ (u.tile t).bank = s.seen t ∧ u.flying t = nearer (s.flying t) ++ ws ∧
      ({ u with tiles := s.tiles } : State) = s ∧ (u.tile t).flow.pc = (s.tile t).flow.pc + 1 ∧
      (u.tile t).flow.br = some { at_ := (s.tile t).flow.pc, slot := 0, taken := taken, target := goal, annulled := !taken && annul } := by
  have hp : Plain [e] (s.tile t).flow.pc (s.tile t).ctx (s.tile t).bank.loops :=
    he.plain (fun _ => nofun) nofun nofun (fun _ _ _ _ _ => h.seen_loops ▸ hl) (fun _ => nofun) (fun _ _ => nofun)
  have hb : (s.tile t).openBundle.bank.setLoops (s.tile t).bank.loops = s.seen t := by
    rw [← h.seen_loops]; exact Bank.setLoops_self _
  have haft := he.after1_eq h.noWait (n := t) rfl
  have hst := steps_closed hc (haft.trans (congrArg (fun b => (s.tile t).closed b _ 1) hb)) rfl rfl
  exact ⟨s.setTile t ((s.tile t).after1 t [e]), exec_steers hc h hx hf he hp (fun hy => by cases hy), hst.issued, hst.bank, hw ▸ hst.flying, hst.rest,
    by rw [hst.flow]; rfl, by rw [hst.flow]; rfl⟩

/-- The slot of a branch of a poised tile. -/
theorem branch_eq (hc : s.Canonical) (h : s.Poised t) (cond : Cond) (annul link : Bool) (goal : Nat) :
    (s.view1 t).branch cond annul link goal =
      { ctl := .branch (condHolds cond (s.seen t).stat) goal annul link, transfer := true,
        writes := if link && condHolds cond (s.seen t).stat then [(t.val, 1, .s 15 (BitVec.ofNat 32 ((s.tile t).flow.pc + 3)))] else [],
        dests := if link then [.s 15] else [] } := by
  have hpc : (s.view1 t).pc = (s.tile t).flow.pc := by
    unfold Issue.pc Issue.tile State.view1
    rw [State.tile_setTile hc.tiles, if_pos rfl, Tile.holding_flow, h.open_flow]
  unfold Issue.branch
  rw [State.Poised.view_bank hc, hpc]
  rfl

theorem branches : Stated.Branches := by
  intro s t cond annul target a hc h pc taken _ hl
  have steers (link : Bool) (goal : Nat) : ((s.view1 t).branch cond annul link goal).Steers (.branch taken goal annul link) := by
    rw [branch_eq hc h]
    exact ⟨rfl, rfl, rfl, rfl, rfl, rfl, by cases link <;> rfl, rfl, rfl⟩
  have own (link : Bool) (goal : Nat) : ownOf [(s.view1 t).branch cond annul link goal] t =
      if link && taken then [(1, .s 15 (BitVec.ofNat 32 (pc + 3)))] else [] := by
    rw [branch_eq hc h]
    refine ownOf_own ?_
    dsimp only
    split <;> rfl
  refine ⟨?_, ?_, ?_⟩
  · exact branches_of_slot hc h (exec_b ..) rfl (steers ..) hl (own ..)
  · exact branches_of_slot hc h (exec_bal ..) rfl (steers ..) hl (own ..)
  · exact branches_of_slot hc h (exec_br ..) (congrArg (fun x => (s.view1 t).branch cond annul false x.toNat) (State.Poised.view_s hc a)) (steers ..) hl (own ..)

end

/-- Settles O12: a condition is a test of four bits, and a branch issues with its target kept for after its delay slots. -/
theorem branchesAndConditions : Obligations.BranchesAndConditions := ⟨branchConditions, branches⟩

end Sys2Proof.Machine
end

section
/-!
PROOFS. WAITS, YIELD and CRET (R287, R289).
-/

namespace Sys2Proof.Machine

theorem Tile.closed_fu (t : Tile) (b : Bank) (f : Flow) (k : Nat) : (t.closed b f k).fu = { t.fu with left := t.fu.left - k } := by
  unfold Tile.closed Tile.setFlow Tile.setBank Tile.spend
  cases t.ctx <;> rfl

theorem Tile.closed_ctx (t : Tile) (b : Bank) (f : Flow) (k : Nat) : (t.closed b f k).ctx = t.ctx := by
  unfold Tile.closed Tile.setFlow Tile.setBank Tile.spend
  cases h : t.ctx <;> simp

theorem Tile.setFlow_scyc (t : Tile) (f : Flow) : (t.setFlow f).scyc = t.scyc := by unfold Tile.setFlow; split <;> rfl
theorem Tile.setBank_scyc (t : Tile) (b : Bank) : (t.setBank b).scyc = t.scyc := by unfold Tile.setBank; split <;> rfl

theorem Tile.flow_sample {t : Tile} (h : t.ctx = false) : t.flow = t.sf := by unfold Tile.flow; simp [h]
theorem Tile.bank_sample {t : Tile} (h : t.ctx = false) : t.bank = t.smp := by unfold Tile.bank; simp [h]
theorem Tile.flow_control {t : Tile} (h : t.ctx = true) : t.flow = t.cf := by unfold Tile.flow; simp [h]
theorem Tile.bank_control {t : Tile} (h : t.ctx = true) : t.bank = t.ctl := by unfold Tile.bank; simp [h]

section
variable {s : State} {t : TileNo} {c : Instr} {f : Issue → SlotEffect} {e : SlotEffect}

/-- A poised tile's bank keeps its loop stack where a bundle leaves it. -/
theorem State.Poised.seen_setLoops (h : s.Poised t) : (s.tile t).openBundle.bank.setLoops (s.tile t).bank.loops = s.seen t := by
  rw [← h.seen_loops]; exact Bank.setLoops_self _

/-- The slot of an instruction that does nothing but end or hold its context. -/
theorem steers_ctl (k : Ctl) : ({ ctl := k, transfer := true } : SlotEffect).Steers k := ⟨rfl, rfl, rfl, rfl, rfl, rfl, rfl, rfl, rfl⟩

/-- The waiting tile's next bundle opens when its schedule-cycle counter has reached the value waited for. -/
theorem Tile.openBundle_waits {x : Tile} {k : Nat} (hc : x.ctx = false) (hw : x.flow.wait = some k) :
    x.openBundle.scyc = x.scyc + (k - x.scyc) ∧ x.openBundle.flow.pc = x.flow.pc + 1 ∧
    x.openBundle.flow.issued = x.flow.issued + (k - x.scyc) := by
  rw [Tile.flow_sample hc] at *
  have he : x.waitEnds = { x.waited (k - x.scyc) with sf := { (x.waited (k - x.scyc)).sf with wait := none, pc := (x.waited (k - x.scyc)).sf.pc + 1 } } := by
    unfold Tile.waitEnds
    rw [hc, hw]
  have hx : x.waitEnds.ctx = false := by rw [he]; exact hc
  unfold Tile.openBundle
  dsimp only
  rw [Tile.setFlow_flow, Tile.flow_sample hx]
  refine ⟨?_, ?_, ?_⟩
  · rw [Tile.setFlow_scyc, Tile.setBank_scyc, he]; rfl
  · rw [he]; rfl
  · rw [he]; rfl

theorem waitForCycle : Stated.WaitForCycle := by
  intro s t cycle hc h hctx
  have hs := steers_ctl (.waits cycle.toNat)
  have hp := hs.plain (pc := (s.tile t).flow.pc) (ctx := (s.tile t).ctx) (loops := (s.tile t).bank.loops)
    (fun _ => nofun) nofun (fun _ => hctx) (fun _ _ _ _ => nofun) (fun _ => nofun) (fun _ _ => nofun)
  have hx : exec (.waits t true cycle) s = .next (s.setTile t ((s.tile t).after1 t [{ ctl := .waits cycle.toNat, transfer := true }])) :=
    exec_steers hc h (exec_waits ..) rfl hs hp nofun
  have haft := hs.after1_eq h.noWait (n := t) rfl
  dsimp only [Flow.after, Flow.held, Tile.ended] at haft
  rw [h.seen_setLoops, hctx] at haft
  have hat : (s.tile t).flow.atTarget = false := h.noTarget
  refine ⟨fun hle => ?_, fun hlt => ?_⟩
  · rw [if_neg Bool.false_ne_true, if_pos hle] at haft
    have hst := steps_closed hc haft rfl rfl
    refine ⟨_, hx, ⟨hst.issued, hst.bank, hst.flying, ?_⟩, ?_, hst.rest⟩
    · rw [hst.flow]
      dsimp only [Tile.joined]
      rw [← hat]
    · rw [hst.tile, Tile.closed_fu]
  · rw [if_neg Bool.false_ne_true, if_neg (Nat.not_le.mpr hlt)] at haft
    have hst := steps_closed hc haft rfl rfl
    obtain ⟨hscyc, hpc, hissued⟩ := Tile.openBundle_waits (x := (s.setTile t ((s.tile t).after1 t _)).tile t) (k := cycle.toNat)
      (by rw [hst.tile, Tile.closed_ctx, hctx]) (by rw [hst.flow])
    have hcyc := hst.issued.sampleCycles
    rw [hctx, if_neg Bool.false_ne_true] at hcyc
    refine ⟨_, hx, hst.rest, hst.issued.others, hscyc.trans ?_, hpc.trans ?_, hissued.trans ?_⟩
    · omega
    · rw [hst.flow]; rfl
    · rw [hst.issued.count]; omega

/-- Results in flight that leave nothing for a later bundle. -/
theorem inFlight_of_nearer (h : nearer (s.flying t) = []) : inFlight (s.tile t).flow.pend (s.tile t).flow.issued = [] := by
  have := nearer_flying (s.tile t).flow.pend (s.tile t).flow.issued
  exact List.map_eq_nil_iff.mp (this.trans h)

/-- The tile at the end of its context: its last bundle is over, and nothing of it is in flight. -/
theorem State.Poised.ends (h : s.Poised t) {k : Ctl} (hk : k = .yield ∨ k = .cret) :
    ∃ y : Tile, (s.tile t).after1 t [{ ctl := k, transfer := true }] = y.ended k (s.tile t).scyc ∧ y.ctx = (s.tile t).ctx ∧ y.bank = s.seen t ∧
      y.flow.pend = inFlight (s.tile t).flow.pend (s.tile t).flow.issued ∧
      y.scyc = (s.tile t).scyc + (if (s.tile t).ctx then 0 else 1) ∧ y.ctlCyc = (s.tile t).ctlCyc + (if (s.tile t).ctx then 1 else 0) ∧
      (if (s.tile t).ctx then y.sf = (s.tile t).sf else y.cf = (s.tile t).cf) ∧
      (if (s.tile t).ctx then y.smp = (s.tile t).smp else y.ctl = (s.tile t).ctl) ∧ y.handler = (s.tile t).handler := by
  refine ⟨(s.tile t).closed (s.seen t) { (s.tile t).joined t [] with pc := (s.tile t).flow.pc + 1, atTarget := false } 1, ?_, Tile.closed_ctx ..,
    Tile.closed_bank .., ?_, ?_⟩
  · have haft := (steers_ctl k).after1_eq h.noWait (n := t) rfl
    rw [← h.seen_setLoops]
    obtain rfl | rfl := hk <;> exact haft
  · rw [Tile.closed_flow]; exact List.append_nil _
  · have hkept := congrArg Tile.handler ((s.tile t).closed_kept (s.seen t) { (s.tile t).joined t [] with pc := (s.tile t).flow.pc + 1, atTarget := false } 1)
    obtain ⟨h1, h2, h3, h4⟩ := (s.tile t).closed_other (s.seen t) { (s.tile t).joined t [] with pc := (s.tile t).flow.pc + 1, atTarget := false } 1
    exact ⟨h1, h2, h3, h4, hkept⟩

theorem yield_ends (hc : s.Canonical) (h : s.Poised t) (hctx : (s.tile t).ctx = false) (hi : s.injFor 0x0C 0 t = false) :
    ∃ u, exec (.yield t true) s = .next u ∧ ({ u with tiles := s.tiles } : State) = s ∧ (∀ m, m ≠ t.val → u.tile m = s.tile m) ∧
      (u.tile t).run = .idle ∧ (u.tile t).yielded = true ∧ (u.tile t).scyc = (s.tile t).scyc + 1 ∧
      u.flying t = [] ∧ (nearer (s.flying t) = [] → (u.tile t).bank = s.seen t) ∧ (u.tile t).ctl = (s.tile t).ctl := by
  have hp := (steers_ctl .yield).plain (pc := (s.tile t).flow.pc) (ctx := (s.tile t).ctx) (loops := (s.tile t).bank.loops)
    (fun _ => nofun) nofun (fun _ => hctx) (fun _ _ _ _ => nofun) (fun _ => nofun) (fun _ _ => nofun)
  have hx : exec (.yield t true) s = .next (s.setTile t ((s.tile t).after1 t [{ ctl := .yield, transfer := true }])) :=
    exec_steers hc h (exec_yield ..) rfl (steers_ctl .yield) hp (fun _ => hi)
  obtain ⟨y, haft, hyc, hyb, hyp, hys, -, -, hyo, -⟩ := h.ends (.inl rfl)
  have hu := State.tile_setTile (s := s) hc.tiles t
  have hn : (s.setTile t ((s.tile t).after1 t [{ ctl := .yield, transfer := true }])).tile t = y.yield (s.tile t).scyc :=
    ((hu t _).trans (if_pos rfl)).trans haft
  rw [hctx] at hyc hys hyo
  rw [Tile.bank_sample hyc] at hyb
  rw [Tile.flow_sample hyc] at hyp
  refine ⟨_, hx, rfl, fun m hm => (hu m _).trans (if_neg (Ne.symm hm)), ?_⟩
  unfold State.flying
  rw [hn, Tile.flow_sample (t := y.yield _) hyc, Tile.bank_sample (t := y.yield _) hyc]
  refine ⟨rfl, rfl, hys, rfl, fun hnear => ?_, hyo⟩
  have hpend : y.sf.pend = [] := hyp.trans (inFlight_of_nearer hnear)
  unfold Tile.yield
  dsimp only
  rw [hpend]
  exact hyb

theorem cret_ends (hc : s.Canonical) (h : s.Poised t) (hctx : (s.tile t).ctx = true) (hm : ∀ r, s.node (s.tile t).handler = some r → r.type ≠ 0x14) :
    ∃ u, exec (.cret t true) s = .next u ∧ ({ u with tiles := s.tiles } : State) = s ∧ (∀ m, m ≠ t.val → u.tile m = s.tile m) ∧
      (u.tile t).ctx = false ∧ (u.tile t).flow.pc = (s.tile t).sf.pc ∧ (u.tile t).smp = (s.tile t).smp ∧
      (u.tile t).cf.pend = [] ∧ (u.tile t).ctlCyc = (s.tile t).ctlCyc + 1 ∧ (u.tile t).scyc = (s.tile t).scyc := by
  have hp := (steers_ctl .cret).plain (pc := (s.tile t).flow.pc) (ctx := (s.tile t).ctx) (loops := (s.tile t).bank.loops)
    (fun _ => nofun) (fun _ => hctx) nofun (fun _ _ _ _ => nofun) (fun _ => nofun) (fun _ _ => nofun)
  have hx := exec_steers hc h (exec_cret ..) rfl (steers_ctl .cret) hp nofun
  obtain ⟨y, haft, hyc, -, -, hys, hyk, hyf, hyo, hyh⟩ := h.ends (.inr rfl)
  have hu := State.tile_setTile (s := s) hc.tiles t
  have hn : (s.setTile t ((s.tile t).after1 t [{ ctl := .cret, transfer := true }])).tile t = y.cret :=
    ((hu t _).trans (if_pos rfl)).trans haft
  have hst : (s.setTile t ((s.tile t).after1 t [{ ctl := .cret, transfer := true }])).steered t .cret =
      s.setTile t ((s.tile t).after1 t [{ ctl := .cret, transfer := true }]) := by
    unfold State.steered
    dsimp only
    rw [hn]
    split
    · next r hr => exact if_neg (fun hr' => hm r (hyh ▸ hr) hr'.1)
    · rfl
  rw [hst] at hx
  rw [hctx] at hys hyk hyf hyo
  refine ⟨_, hx, rfl, fun m hm => (hu m _).trans (if_neg (Ne.symm hm)), ?_⟩
  rw [hn, Tile.flow_sample (t := y.cret) rfl]
  exact ⟨rfl, congrArg Flow.pc hyf, hyo, rfl, hyk, hys⟩

end

/-- Settles O15: a WAITS holds its flow until its cycle, and YIELD and CRET end their context with what is in flight retired. -/
theorem waitsAndYield : Obligations.WaitsAndYield :=
  ⟨waitForCycle, fun _ _ hc h => ⟨yield_ends hc h, cret_ends hc h⟩⟩

end Sys2Proof.Machine
end

section
/-!
PROOFS. The rendezvous of a ganged section (R288).
-/

namespace Sys2Proof.Machine

/-- A ganged section whose first bundle is 20. -/
def leadTwenty : GangRec := { start := 10, length := 4, leadBundle := 20, dataAddr := 0, dataBytes := 0 }

/-- Tile 3 is the last of its cluster to arrive, and tile 0 is in its control context at bundle 0. -/
def controlAtLead : State :=
  { pwr := { dom := [(3, .on)] }
    tiles := [(0, { ctx := true }), (3, { run := .running })]
    clusters := [(0, { gangs := [leadTwenty], arrived := [(0, 0), (1, 0), (2, 0), (4, 0), (5, 0), (6, 0), (7, 0)] })] }

theorem controlAtLead_canonical : controlAtLead.Canonical :=
  { regs := rfl, latch := rfl, mem := rfl, imem := rfl, tiles := by decide, clusters := by decide, nodes := rfl, ports := rfl,
    srcs := rfl, ecc := rfl
    banks := fun n => by
      unfold State.tile controlAtLead
      simp only [mget]
      repeat' split
      all_goals exact ⟨.empty, .empty⟩ }

theorem controlAtLead_poised : controlAtLead.Poised (3 : TileNo) where
  issues := by decide
  alone := by decide
  closed := by decide
  noBranch := by decide
  noSkip := by decide
  noRpt := by decide
  noWait := by decide
  noTarget := by decide
  inside := by decide
  noEnd := by decide
  right0 := by decide
  right1 := by decide
  legal := by decide

/-- The section starts in tile 0's sample flow, and its control context stays at its own bundle. -/
theorem controlAtLead_starts : ∃ u, execGang 3 true 0 controlAtLead = .next u ∧ (u.tile 0).flow.pc = 0 :=
  ⟨_, rfl, by decide⟩

/-- Refutes O16: the section starts tile 0's sample flow, but the statement does not say that tile 0 is in its sample context, and the
flow of a tile in its control context is another one. -/
theorem not_gangRendezvous : ¬ Obligations.GangRendezvous := by
  unfold Obligations.GangRendezvous
  intro h
  obtain ⟨-, harrived⟩ := h controlAtLead 3 0 leadTwenty controlAtLead_canonical controlAtLead_poised (by decide) (by decide)
  obtain ⟨u, -, hu, -, -, hpc, -⟩ := harrived (by decide)
  obtain ⟨v, hv, hzero⟩ := controlAtLead_starts
  rw [exec_gang, hv] at hu
  obtain rfl : v = u := by injection hu
  exact absurd (hpc.symm.trans hzero) (by decide)

end Sys2Proof.Machine
end

section
/-!
PROOFS. The exceptions of a bundle: its record, its report and its stop (R326 to R329, R332, R336 to R340).
-/

namespace Sys2Proof.Machine

/-! ## The record -/

theorem flagAt_eq (n : Nat) (b : Bool) : flagAt n b = bitN b * 2 ^ n := by cases b <;> simp [flagAt, bitN]

/-- The words that the record keeps of one loop level (R340). -/
def levelWords (m : SMap Word) (e : Level × Nat) : SMap Word :=
  mset 0 (mset 0 (mset 0 m (0x840 + 16 * e.2) e.1.lcount) (0x840 + 16 * e.2 + 4) (BitVec.ofNat 32 (e.1.lstart % 2048)))
    (0x840 + 16 * e.2 + 8) (BitVec.ofNat 32 (e.1.lend % 2048))

/-- The words of the loop levels lie behind the others. -/
theorem mget_levelWords {l : List (Level × Nat)} : ∀ {m : SMap Word}, mwf 0 m = true → ∀ {k : Nat}, k < 0x840 →
    mget 0 (l.foldl levelWords m) k = mget 0 m k := by
  induction l with
  | nil => intro m _ k _; rfl
  | cons e l ih =>
    intro m hm k hk
    refine (ih (mwf_mset (mwf_mset (mwf_mset hm))) hk).trans ?_
    rw [mget_mset_ne (mwf_mset (mwf_mset hm)) (by omega), mget_mset_ne (mwf_mset hm) (by omega), mget_mset_ne hm (by omega)]

theorem mwf_msetAll {l : List (Nat × Word)} : ∀ {m : SMap Word}, mwf 0 m = true → mwf 0 (msetAll 0 m l) = true := by
  induction l with
  | nil => exact id
  | cons e l ih => exact fun hm => ih (mwf_mset hm)

theorem mget_msetAll {l : List (Nat × Word)} : ∀ {m : SMap Word}, mwf 0 m = true → ∀ k, 
    mget 0 (msetAll 0 m l) k = l.foldl (fun v e => if e.1 = k then e.2 else v) (mget 0 m k) := by
  induction l with
  | nil => exact fun _ _ => rfl
  | cons e l ih =>
    intro m hm k
    rw [List.foldl_cons, ← mget_mset hm]
    exact ih (mwf_mset hm) k

section
variable {s : State} {n : Nat} {x : Exc}

theorem excRecord_words (hb : (s.tile n).flow.br = none) (hr : (s.tile n).flow.rpt = none) {m : SMap Word} (hm : s.excRecord n n x false none false = m) :
    mget 0 m 0x800 = BitVec.ofNat 32 (2 ^ 31 + flagAt 16 (s.tile n).flow.shadow.isSome + flagAt 15 (s.fetchBack n) + flagAt 14 (s.tile n).ctx +
      x.detail * 16 + x.cause) ∧
    mget 0 m 0x804 = BitVec.ofNat 32 ((s.tile n).flow.pc % 2048) ∧ mget 0 m 0x80C = BitVec.ofNat 32 (x.addr % 2 ^ 17) ∧
    mget 0 m 0x814 = BitVec.ofNat 32 s.grid.tick ∧
    mget 0 m 0x82C = BitVec.ofNat 32 (satAdd 16 (bits (mget 0 (s.tile n).xrec 0x82C) 31 16) (if x.cause = 5 then 1 else 0) * 2 ^ 16 +
      satAdd 16 (bits (mget 0 (s.tile n).xrec 0x82C) 15 0) 1) := by
  subst hm
  unfold State.excRecord
  simp only [hb, hr]
  refine ⟨?_, ?_, ?_, ?_, ?_⟩
  all_goals
    refine (mget_levelWords (mwf_msetAll rfl) (by decide)).trans ((mget_msetAll rfl _).trans ?_)
    simp [flagAt]

/-- The fields of the status word of a record (R336). -/
theorem excStatus_fields {shadow back ctx : Bool} {detail cause w : Nat} (hd : detail < 16) (hx : cause < 16)
    (hw : 2 ^ 31 + flagAt 16 shadow + flagAt 15 back + flagAt 14 ctx + detail * 16 + cause = w) :
    bits (BitVec.ofNat 32 w) 31 31 = 1 ∧ bits (BitVec.ofNat 32 w) 14 14 = bitN ctx ∧ bits (BitVec.ofNat 32 w) 7 4 = detail ∧
      bits (BitVec.ofNat 32 w) 3 0 = cause := by
  obtain ⟨h0, h4, -, h14, -, -, -, h31, hlt⟩ := hasFields_digits (w := w)
    (ds := [(4, cause), (4, detail), (6, 0), (1, bitN ctx), (1, bitN back), (1, bitN shadow), (14, 0), (1, 1)])
    (by rw [← hw]; simp only [digits, flagAt_eq]; omega)
    ⟨hx, hd, by decide, bitN_lt ctx, bitN_lt back, bitN_lt shadow, by decide, by decide, trivial⟩
  have hn : (BitVec.ofNat 32 w).toNat = w := Nat.mod_eq_of_lt hlt
  unfold bits
  rw [hn]
  exact ⟨h31, h14, h4, h0⟩

theorem bits_low {v hi : Nat} (h : v < 2 ^ (hi + 1)) (h32 : hi < 32) : bits (BitVec.ofNat 32 v) hi 0 = v := by
  have hv : v < 2 ^ 32 := Nat.lt_of_lt_of_le h (Nat.pow_le_pow_right (by decide) h32)
  have hn : (BitVec.ofNat 32 v).toNat = v := Nat.mod_eq_of_lt hv
  unfold bits
  rw [hn, Nat.pow_zero, Nat.div_one]
  exact Nat.mod_eq_of_lt h

theorem bits_word (v : Nat) : bits (BitVec.ofNat 32 v) 31 0 = v % 2 ^ 32 := by
  unfold bits
  rw [BitVec.toNat_ofNat, Nat.pow_zero, Nat.div_one]
  exact Nat.mod_mod _ _

/-- The two counts of the record's last word, of 16 bits each (R339). -/
theorem excCounts_fields {hi lo : Nat} (hh : hi < 2 ^ 16) (hl : lo < 2 ^ 16) :
    bits (BitVec.ofNat 32 (hi * 2 ^ 16 + lo)) 15 0 = lo ∧ bits (BitVec.ofNat 32 (hi * 2 ^ 16 + lo)) 31 16 = hi := by
  obtain ⟨h0, h16, hlt⟩ := hasFields_digits (w := hi * 2 ^ 16 + lo) (ds := [(16, lo), (16, hi)]) (by simp only [digits]; omega) ⟨hl, hh, trivial⟩
  have hn : (BitVec.ofNat 32 (hi * 2 ^ 16 + lo)).toNat = hi * 2 ^ 16 + lo := Nat.mod_eq_of_lt hlt
  unfold bits
  rw [hn]
  exact ⟨h0, h16⟩

theorem bits_lt (v : Word) (hi lo : Nat) : bits v hi lo < 2 ^ (hi + 1 - lo) := Nat.mod_lt _ (Nat.two_pow_pos _)

theorem satAdd_one {c : Nat} (h : c < 2 ^ 16) : satAdd 16 c 1 = min 65535 (c + 1) := by
  unfold satAdd
  split <;> omega

theorem satAdd_zero {c : Nat} (h : c < 2 ^ 16) : satAdd 16 c 0 = c := if_pos h

end

end Sys2Proof.Machine
end

section
/-!
PROOFS. What an exception does to the state, and which exceptions the slots raise (R272, R326 to R329, R332).
-/

namespace Sys2Proof.Machine

/-! ## The stop -/

/-- The tile stopped by an exception, with its record. -/
def Tile.haltedBy (t : Tile) (m : SMap Word) : Tile :=
  { t with xrec := m, injYield := false, run := .halted, ctx := false, smp := retireAll t.smp t.sf.pend, ctl := retireAll t.ctl t.cf.pend,
           sf := { t.sf with pend := [], wait := none }, cf := { t.cf with pend := [] },
           buf := [], bufOpen := false, waiting := false, muted := true, restartIn := 1, rampK := 0 }

section
variable {s : State} {t : TileNo} {l : List SlotEffect} {x : Exc} {annul : Bool}

theorem State.Alone.notHalted (h : s.Alone t) : (s.tile t).run ≠ .halted := by
  have hm := h.issues
  unfold State.mayIssue at hm
  simp only [Bool.and_eq_true] at hm
  simpa using hm.1.2

theorem State.Alone.stops (hc : s.Canonical) (h : s.Alone t) (l : List SlotEffect) (m : SMap Word) :
    ((s.opened t l).setTile t { (s.opened t l).tile t with xrec := m, injYield := false }).stopTile t =
      s.setTile t (((s.tile t).holding l).haltedBy m) := by
  have hrun : ((s.tile t).holding l).run ≠ .halted := by
    unfold Tile.holding
    rw [Tile.kept_open h.noWait]
    exact h.notHalted
  rw [State.Alone.opened_tile hc]
  unfold State.opened State.stopTile
  simp only [State.setTile_setTile hc.tiles, State.tile_setTile hc.tiles, if_true]
  rw [if_neg hrun]
  rfl

/-- An exception other than an uncorrectable error stops the tile, drops its arrival and raises a report. -/
theorem State.Alone.tileExc_eq (hc : s.Canonical) (h : s.Alone t) (hinj : (s.tile t).injYield = false) (hx : x.cause ≠ 2) :
    ∃ cl, (s.opened t l).tileExc t t x annul false =
      ((s.setTile t (((s.tile t).holding l).haltedBy ((s.opened t l).excRecord t t x annul none false))).setCluster (t / 8) cl).raise 0x0C t 1
        (x.detail + x.cause * 16 + flagAt 8 (s.tile t).ctx) := by
  have hi : ((s.tile t).holding l).injYield = false := by
    unfold Tile.holding
    rw [Tile.kept_open h.noWait]
    exact hinj
  have hone : ([t.val].length ≠ 1) = False := eq_false (fun hn => hn rfl)
  unfold State.tileExc
  simp only [h.opened_members hc, List.map_cons, List.map_nil, List.foldl_cons, List.foldl_nil, hone, if_false, h.stops hc]
  rw [State.Alone.opened_tile hc, hi, (h.holding_fetch l).2.2.2]
  have hecc (y : State) (a : Nat) : y.excEcc a x t = y := if_pos hx
  rw [hecc]
  exact ⟨_, rfl⟩

/-- What the tile's open bundle keeps of the tile. -/
theorem State.Alone.holding_kept (h : s.Alone t) (l : List SlotEffect) :
    ((s.tile t).holding l).xrec = (s.tile t).xrec ∧ ((s.tile t).holding l).flow.br = (s.tile t).flow.br ∧
    ((s.tile t).holding l).flow.rpt = (s.tile t).flow.rpt ∧ ((s.tile t).holding l).flow.pc = (s.tile t).flow.pc := by
  refine ⟨?_, ?_, ?_, ?_⟩
  · unfold Tile.holding
    rw [Tile.kept_open h.noWait]
  all_goals rw [Tile.holding_flow, h.open_flow]

/-- With nothing left in flight, the stop leaves the registers as the bundle saw them. -/
theorem State.Alone.haltedBy_bank (h : s.Alone t) (l : List SlotEffect) (m : SMap Word) (hn : nearer (s.flying t) = []) :
    (if (s.tile t).ctx then (((s.tile t).holding l).haltedBy m).ctl else (((s.tile t).holding l).haltedBy m).smp) = s.seen t := by
  have hp : ((s.tile t).holding l).flow.pend = [] := by
    rw [Tile.holding_flow, h.open_flow]
    exact inFlight_of_nearer hn
  have hb : ((s.tile t).holding l).bank = s.seen t := rfl
  have hx := (h.holding_fetch l).2.2.2
  unfold Tile.haltedBy
  dsimp only
  split
  · next hc =>
    rw [Tile.flow_control (hx.trans hc)] at hp
    rw [Tile.bank_control (hx.trans hc)] at hb
    rw [hp]; exact hb
  · next hc =>
    have hc := eq_false_of_ne_true hc
    rw [Tile.flow_sample (hx.trans hc)] at hp
    rw [Tile.bank_sample (hx.trans hc)] at hb
    rw [hp]; exact hb

variable {c : Instr}

/-- A bundle whose slots raise an exception, other than an uncorrectable error and an overrun, stops its tile with the record and the report
of it. -/
theorem raises_of_exc (hc : s.Canonical) (h : s.Alone t) (hb : (s.tile t).flow.br = none) (hk : (s.tile t).flow.skip = none)
    (hr : (s.tile t).flow.rpt = none) (hinj : (s.tile t).injYield = false) (hx : exec c s = .next ((s.opened t l).issueBundle t))
    (hf : l.findSome? (·.fu) = none) {cause detail addr : Nat} (he : s.slotExc t l = some ({ cause := cause, detail := detail, addr := addr }, t.val))
    (hcause : cause < 16 ∧ cause ≠ 2 ∧ cause ≠ 5) (hdetail : detail < 16) (haddr : addr < 2 ^ 17) : Stated.Raises s t c cause detail addr := by
  obtain ⟨hc16, hc2, hc5⟩ := hcause
  have hann : (s.tile t).flow.annulled = false := by simp [Flow.annulled, hb, hk, hr]
  have hstall : (s.opened t l).fuStall t = s.opened t l := by
    unfold State.fuStall
    rw [State.Alone.opened_tile hc]
    exact if_neg (by rw [show ((s.tile t).holding l).buf = l from rfl, hf]; exact Bool.false_ne_true)
  obtain ⟨cl, hexc⟩ := h.tileExc_eq (l := l) (x := { cause := cause, detail := detail, addr := addr }) (annul := false) hc hinj hc2
  rw [h.issue_eq hc, he] at hx
  dsimp only at hx
  rw [hstall, hann, hexc] at hx
  obtain ⟨hxrec, hhbr, hhrpt, hhpc⟩ := h.holding_kept l
  have ht := State.Alone.opened_tile (t := t) hc l
  obtain ⟨w0, w4, wc, w14, w2c⟩ := excRecord_words (s := s.opened t l) (n := t) (x := { cause := cause, detail := detail, addr := addr })
    (by rw [ht, hhbr, hb]) (by rw [ht, hhrpt, hr]) rfl
  generalize (s.opened t l).excRecord t t { cause := cause, detail := detail, addr := addr } false none false = m at *
  have hu (k : Nat) : (((s.setTile t (((s.tile t).holding l).haltedBy m)).setCluster (t / 8) cl).raise 0x0C t 1
      (detail + cause * 16 + flagAt 8 (s.tile t).ctx)).tile k = if t.val = k then ((s.tile t).holding l).haltedBy m else s.tile k :=
    State.tile_setTile hc.tiles t k (((s.tile t).holding l).haltedBy m)
  rw [ht] at w0 w4 w2c
  rw [(h.holding_fetch l).2.2.2] at w0
  rw [hhpc] at w4
  rw [hxrec, if_neg hc5, satAdd_zero (bits_lt _ 31 16), satAdd_one (bits_lt _ 15 0)] at w2c
  obtain ⟨h31, h14, h4, h0⟩ := excStatus_fields (shadow := ((s.tile t).holding l).flow.shadow.isSome) (back := (s.opened t l).fetchBack t)
    (ctx := (s.tile t).ctx) hdetail hc16 rfl
  obtain ⟨hlo, hhi⟩ := excCounts_fields (bits_lt (mget 0 (s.tile t).xrec 0x82C) 31 16)
    (lo := min 65535 (bits (mget 0 (s.tile t).xrec 0x82C) 15 0 + 1)) (by omega)
  refine ⟨_, hx, ?_⟩
  unfold State.xfld
  rw [hu t, if_pos rfl]
  have hrec : (((s.tile t).holding l).haltedBy m).xrec = m := rfl
  rw [hrec, w0, w4, wc, w14, w2c]
  refine ⟨rfl, rfl, rfl, rfl, rfl, rfl, h.haltedBy_bank l m, h31, h14, h4, h0, ?_, ?_, ?_, hlo, hhi, ?_, rfl, ?_, rfl⟩
  · exact (bits_low (hi := 10) (Nat.mod_lt _ (by decide)) (by decide)).trans (Nat.mod_eq_of_lt (Nat.lt_succ_of_le h.inside))
  · exact (bits_low (hi := 16) (Nat.mod_lt _ (by decide)) (by decide)).trans (Nat.mod_eq_of_lt haddr)
  · exact bits_word _
  · have hd : detail + cause * 16 + flagAt 8 (s.tile t).ctx = 16 * cause + detail + if (s.tile t).ctx then 256 else 0 := by
      unfold flagAt
      split <;> omega
    exact congrArg (fun d => s.flt.raised ++ [{ src := 0x0C, unit := t, cls := 1, pass := s.p32, detail := d }]) hd
  · exact fun k hk => (hu k).trans (if_neg (Ne.symm hk))

end

end Sys2Proof.Machine
end

section
/-!
PROOFS. The exceptions of slots and of stored bundles (R272, R326).
-/

namespace Sys2Proof.Machine

/-! ## The DETAIL of an illegal encoding -/

/-- A decoder's errors are DETAIL values of four bits. -/
def DetailFits {α : Type} (x : Except Nat α) : Prop := ∀ d, x = .error d → d < 16

@[simp] theorem detailFits_ok {α : Type} (i : α) : DetailFits (.ok i : Except Nat α) := nofun

@[simp] theorem detailFits_error {α : Type} {n : Nat} : DetailFits (.error n : Except Nat α) ↔ n < 16 :=
  ⟨fun h => h n rfl, fun h _ hd => Except.error.inj hd ▸ h⟩

@[simp] theorem detailFits_slotOk (r f : Bool) (i : Instr) : DetailFits (slotOk r f i) := by
  unfold slotOk
  cases r <;> cases f <;> simp

theorem detailFits_withPost (n : Nat) {f : Post → Except Nat Instr} (h : ∀ p, DetailFits (f p)) : DetailFits (withPost n f) := by
  unfold withPost
  split
  · exact h _
  · simp

section
variable (t : TileNo) (last : Bool) (w : Nat)

theorem detailFits_decodeSys : DetailFits (decodeSys t last w) := by unfold decodeSys; split <;> simp
theorem detailFits_decodeAlu : DetailFits (decodeAlu t last w) := by unfold decodeAlu; split <;> simp
theorem detailFits_decodeAlui : DetailFits (decodeAlui t last w) := by unfold decodeAlui; split <;> simp
theorem detailFits_decodeBranch : DetailFits (decodeBranch t last w) := by unfold decodeBranch; split <;> simp
theorem detailFits_decodeRpt : DetailFits (decodeRpt t last w) := by unfold decodeRpt; split <;> simp
theorem detailFits_decodeFu : DetailFits (decodeFu t last w) := by unfold decodeFu; split <;> simp
theorem detailFits_decodeMovx : DetailFits (decodeMovx t last w) := by unfold decodeMovx; dsimp only; split <;> simp
theorem detailFits_decodeMac : DetailFits (decodeMac t last w) := by unfold decodeMac; split <;> simp
theorem detailFits_decodeAcc : DetailFits (decodeAcc t last w) := by unfold decodeAcc; split <;> simp
theorem detailFits_decodeValu : DetailFits (decodeValu t last w) := by unfold decodeValu; split <;> simp

theorem detailFits_decodeC : DetailFits (decodeC t last w) := by
  unfold decodeC
  split
  case h_1 => exact detailFits_decodeSys t last w
  case h_2 => exact detailFits_decodeAlu t last w
  case h_3 => exact detailFits_decodeAlui t last w
  case h_6 | h_7 | h_8 => exact detailFits_decodeBranch t last w
  case h_11 => exact detailFits_decodeRpt t last w
  case h_12 => exact detailFits_decodeFu t last w
  case h_13 => exact detailFits_decodeMovx t last w
  all_goals simp

theorem detailFits_decodeSta : DetailFits (decodeSta t last w) := by
  unfold decodeSta
  split
  · simp
  · exact detailFits_withPost _ (fun p => by split <;> simp)

theorem detailFits_decodeM : DetailFits (decodeM t last w) := by
  unfold decodeM
  split
  case h_10 => exact detailFits_decodeSta t last w
  case h_9 => exact detailFits_withPost _ (fun a => detailFits_withPost _ (fun b => by split <;> simp))
  case h_1 | h_11 | h_12 | h_13 => simp
  all_goals exact detailFits_withPost _ (fun p => by simp)

theorem detailFits_decodeL : DetailFits (decodeL t last w) := by
  unfold decodeL
  split
  case h_2 => exact detailFits_decodeMac t last w
  case h_4 => exact detailFits_decodeAcc t last w
  case h_5 => exact detailFits_decodeValu t last w
  case h_3 => dsimp only; split <;> simp
  all_goals simp

end

theorem bundleDetail_lt {b d : Nat} (h : bundleDetail b = some d) : d < 16 := by
  unfold bundleDetail decodeBundle at h
  dsimp only at h
  split at h
  · next hd =>
    cases h
    split at hd
    · next he => cases hd; exact detailFits_decodeC _ _ _ _ he
    · next he _ => cases hd; exact detailFits_decodeM _ _ _ _ he
    · next he _ _ => cases hd; exact detailFits_decodeL _ _ _ _ he
    · split at hd <;> cases hd
  · cases h

/-! ## The exception of a bundle's slots -/

section
variable {s : State} {t : TileNo} {l : List SlotEffect} {e : SlotEffect} {x : Exc}

theorem slotExc_stored {d : Nat} (hd : bundleDetail (s.fetchBundle t (s.tile t).flow.pc) = some d) :
    s.slotExc t l = some ({ cause := 1, detail := d }, t.val) := by
  unfold State.slotExc
  dsimp only
  rw [hd]
  rfl

theorem slotExc_illegal (hd : bundleDetail (s.fetchBundle t (s.tile t).flow.pc) = none) (hi : l.findSome? (·.illegal) = some x) :
    s.slotExc t l = some (x, t.val) := by
  unfold State.slotExc
  dsimp only
  rw [hd, hi]
  rfl

theorem slotExc_dup (hd : bundleDetail (s.fetchBundle t (s.tile t).flow.pc) = none) (hi : l.findSome? (·.illegal) = none)
    (hdup : dupDest (l.flatMap (·.dests)) = true) : s.slotExc t l = some ({ cause := 1, detail := 2 }, t.val) := by
  unfold State.slotExc
  dsimp only
  rw [hd, hi, hdup]
  rfl

/-- The exception of the access of a bundle's only slot, an M slot. -/
theorem slotExc_access (h : s.Poised t) (hk : e.kind = .m) (hi : e.illegal = none) (hdup : dupDest e.dests = false) (ht : e.transfer = false)
    {m : Nat} (hx : e.exc = some (x, m)) : s.slotExc t [e] = some (x, m) := by
  have hann : (s.tile t).flow.annulled = false := by simp [Flow.annulled, h.noBranch, h.noSkip, h.noRpt]
  have hctl : ctlOf [e] = .none := by simp [ctlOf, hk]
  have hplace (first : Bool) : badPlace (s.tile t).flow (s.tile t).bank.loops [e] (s.tile t).ctx false first = false := by
    simp [badPlace, hk, ht, h.noRpt]
  have hil : [e].findSome? (·.illegal) = none := by simp [hi]
  have hds : dupDest ([e].flatMap (·.dests)) = false := by simpa using hdup
  have hex : [e].findSome? (·.exc) = some (x, m) := by simp [hx]
  unfold State.slotExc
  dsimp only
  rw [h.legal, hil, hds, hplace, hctl, hann, hex]
  rfl

variable {c : Instr} {f : Issue → SlotEffect}

/-- A slot alone in its bundle that raises an exception. -/
theorem raises_of_slot (hc : s.Canonical) (h : s.Poised t) (hinj : (s.tile t).injYield = false) (hx : exec c s = s.slot t true f)
    (hf : (f (s.view1 t)).fu = none) {cause detail addr : Nat}
    (he : s.slotExc t [f (s.view1 t)] = some ({ cause := cause, detail := detail, addr := addr }, t.val))
    (hcause : cause < 16 ∧ cause ≠ 2 ∧ cause ≠ 5) (hdetail : detail < 16) (haddr : addr < 2 ^ 17) : Stated.Raises s t c cause detail addr :=
  raises_of_exc hc h.isAlone h.noBranch h.noSkip h.noRpt hinj (hx.trans (h.isAlone.slot_eq hc f)) (by simp [hf]) he hcause hdetail haddr

/-- An M slot that loads at a misaligned offset, with all else right. -/
theorem slotExc_misaligned (h : s.Poised t) {y : Nat} {ms : List Nat} {k : Nat} (hi : e.illegal = none) (hdup : dupDest e.dests = false)
    (ht : e.transfer = false) (he : e.exc = none) (hy : y % 16 ≠ 0) :
    s.slotExc t [(s.view1 t).loading ms y k 16 e] = some ({ cause := 3, detail := 1, addr := y }, t.val) := by
  refine slotExc_access (e := (s.view1 t).loading ms y k 16 e) h rfl hi hdup ht ?_
  have hm : (s.view1 t).misaligned y 16 = some ({ cause := 3, detail := 1, addr := y }, t.val) := if_neg hy
  unfold Issue.loading
  dsimp only
  rw [he, hm]
  rfl

end

/-! ## The obligation -/

theorem dupDest_postLoad (ptr : Fin 8) (post : Post) (v : Fin 16) : dupDest (.v v :: postDest ptr post) = false := by cases post <;> rfl

theorem dupDest_postOwn {post : Post} (hp : post ≠ .none) (ptr : Fin 8) : dupDest (.p ptr :: postDest ptr post ++ []) = true := by
  cases post
  case none => exact absurd rfl hp
  all_goals simp [postDest, dupDest]

theorem slotExceptions : Stated.SlotExceptions := by
  intro s t v ptr k post off rot o n hc h hinj x
  have haddr : (s.view1 t).addr ptr (16 * off) = x := addr_eq hc ptr _
  refine ⟨fun hx => ?_, ?_, fun hp => ?_, fun hn => ?_⟩
  · refine raises_of_slot hc h hinj (exec_ldv ..) rfl ?_ (by decide) (by decide) (Nat.mod_lt _ (by decide))
    dsimp only
    rw [haddr]
    exact slotExc_misaligned h rfl (dupDest_postLoad ptr post v) rfl rfl hx
  · exact raises_of_slot hc h hinj (exec_movx ..) rfl (slotExc_illegal h.legal rfl) (by decide) (by decide) (by decide)
  · exact raises_of_slot hc h hinj (exec_lds ..) rfl (slotExc_dup h.legal rfl (dupDest_postOwn hp ptr)) (by decide) (by decide) (by decide)
  · refine raises_of_slot hc h hinj (exec_rpt ..) rfl (slotExc_illegal h.legal ?_) (by decide) (by decide) (by decide)
    simp [illegalIf, hn]

theorem illegalStored : Stated.IllegalStored := by
  intro s t m d hc h hinj hm hd
  have hc' : ({ s with imem := m } : State).Canonical := { hc with imem := hm }
  have ha : ({ s with imem := m } : State).Alone t :=
    ⟨h.issues, h.alone, h.closed, h.noWait, h.noTarget, h.inside, h.right0, h.right1⟩
  exact raises_of_exc hc' ha h.noBranch h.noSkip h.noRpt hinj ((exec_nop ..).trans (ha.noSlot_eq hc')) rfl (slotExc_stored hd) (by decide)
    (bundleDetail_lt hd) (by decide)

/-- Settles O18: a slot's exception is the first of its bundle, and the stop, the record and the report follow from the bundle's issue. -/
theorem tileException : Obligations.TileException := ⟨slotExceptions, illegalStored⟩

end Sys2Proof.Machine
end

section
/-!
SUPPORT. Clearing a tile's state area, starting a tile, writing a word right, and the end of a flash read.
-/

namespace Sys2Proof.Machine

/-! ## Ranges of memory that are cleared -/

/-- A read of a map of which only the keys of `q` are left. -/
theorem mget_filter {α : Type} [DecidableEq α] {d : α} {lo : Nat} {m : SMap α} (h : mwfFrom d lo m = true) (q : Nat → Bool) (k : Nat) :
    mget d (m.filter (fun e => q e.1)) k = if q k then mget d m k else d := by
  induction m generalizing lo with
  | nil => simp [mget]
  | cons e m ih =>
    obtain ⟨j, v⟩ := e
    simp only [mwfFrom, Bool.and_eq_true, decide_eq_true_eq] at h
    obtain ⟨-, hm⟩ := h
    have hlow (hk : k < j) : mget d m k = d := mget_low hm (by omega)
    have hrest := ih hm
    cases hq : q j with
    | true =>
      rw [List.filter_cons_of_pos (by simp [hq]), mget, mget, hrest]
      by_cases hj : j = k
      · simp [← hj, hq]
      · by_cases hk : k < j <;> simp [hj, hk]
    | false =>
      rw [List.filter_cons_of_neg (by simp [hq]), mget, hrest]
      by_cases hj : j = k
      · simp [← hj, hq]
      · by_cases hk : k < j <;> simp [hj, hk, hlow]

/-- The blocks that a copy has still to send are all that marking a range changes (R572). -/
theorem State.markDirty_eq (s : State) (a n : Nat) : ∃ twin, s.markDirty a n = { s with twin := twin } := by
  unfold State.markDirty
  split
  · exact ⟨_, rfl⟩
  · exact ⟨_, rfl⟩

/-- The bytes of memory outside `n` bytes from `a` up. -/
def State.memWithout (s : State) (a n : Nat) : List Host.Cell := s.mem.filter (fun c => !(decide (a ≤ c.1) && decide (c.1 < a + n)))

theorem State.mget_memWithout {s : State} (h : Memory.wf s.mem) (a n b : Nat) :
    mget 0 (s.memWithout a n) b = if a ≤ b ∧ b < a + n then 0 else s.rdB b := by
  rw [State.memWithout, mget_filter h (fun k => !(decide (a ≤ k) && decide (k < a + n)))]
  by_cases hb : a ≤ b ∧ b < a + n
  · simp [hb]
  · have hkeep : (!(decide (a ≤ b) && decide (b < a + n))) = true := by rw [← Bool.decide_and, decide_eq_false hb]; rfl
    rw [if_neg hb, if_pos hkeep, State.rdB]

/-- A cleared range: its bytes and its error marks go (R527). -/
theorem State.zeroRange_eq (s : State) (a n : Nat) :
    ∃ ms twin, s.zeroRange a n = { s with mem := s.memWithout a n, ms := ms, twin := twin } := by
  obtain ⟨_, e⟩ := State.markDirty_eq _ a n
  exact ⟨_, _, e⟩

/-- `u` is `s` but for the states of node instances. -/
def State.NodesTo (s u : State) : Prop := ∃ nodes, u = { s with nodes := nodes }

theorem State.NodesTo.refl (s : State) : s.NodesTo s := ⟨_, rfl⟩

theorem State.NodesTo.trans {s t u : State} (h : s.NodesTo t) (g : t.NodesTo u) : s.NodesTo u := by
  obtain ⟨_, rfl⟩ := h
  obtain ⟨_, rfl⟩ := g
  exact ⟨_, rfl⟩

theorem State.nodesTo_nodeClear (s : State) (r : NodeRec) (first : Bool) : s.NodesTo (s.nodeClear r first) := ⟨_, rfl⟩

/-- Clearing a tile's state area changes memory in that area alone, what belongs to it, and its nodes' states (R81). -/
theorem State.clearState_eq (s : State) (n : Nat) : ∃ nodes ms twin, s.clearState n =
    { s with mem := s.memWithout (tileBase n + (s.prog n).stateBase) (s.prog n).stateBytes, nodes := nodes, ms := ms, twin := twin } := by
  obtain ⟨ms, twin, hz⟩ := s.zeroRange_eq (tileBase n + (s.prog n).stateBase) (s.prog n).stateBytes
  have hnode (u : State) (r : NodeRec) : u.NodesTo (if nodeTile r = n then u.nodeClear r false else u) := by
    split
    · exact u.nodesTo_nodeClear r false
    · exact .refl u
  obtain ⟨nodes, hf⟩ := State.foldl_related .refl .trans hnode
    (s.zeroRange (tileBase n + (s.prog n).stateBase) (s.prog n).stateBytes).scn.nodes _
  refine ⟨nodes, ms, twin, hf.trans ?_⟩
  rw [hz]

/-! ## A tile that is cleared and started -/

@[simp] theorem State.wrBytes_imem (s : State) (a : Nat) (bs : List Byte) : (s.wrBytes a bs).imem = s.imem := by
  obtain ⟨_, _, _, e⟩ := s.marksTo_wrBytes a bs; rw [e]

@[simp] theorem State.startTile_mem (s : State) (n entry : Nat) :
    (s.startTile n entry).mem = (s.wr32 (tileBase n) (BitVec.ofNat 32 s.grid.tick)).mem := rfl

@[simp] theorem State.startTile_imem (s : State) (n entry : Nat) : (s.startTile n entry).imem = s.imem := State.wrBytes_imem _ _ _

theorem State.startTile_tile_ne {s : State} (hw : mwf {} s.tiles = true) {n m : Nat} (hm : m ≠ n) (entry : Nat) :
    (s.startTile n entry).tile m = s.tile m := by
  have hw' : mwf {} (s.wr32 (tileBase n) (BitVec.ofNat 32 s.grid.tick)).tiles = true := by
    rw [State.wr32, State.wrBytes_tiles]; exact hw
  refine (State.tile_setTile hw' n m _).trans ((if_neg hm.symm).trans ?_)
  rw [State.tile, State.wr32, State.wrBytes_tiles, State.tile]

/-- A tile cleared: the roles of its instruction memories, its exception record and its run counts stay (R332, R665). -/
def Tile.cleared (t : Tile) : Tile :=
  { frontIsB := t.frontIsB, onBack := t.onBack, xrec := t.xrec, merged := t.merged, deferred := t.deferred }

/-- A tile whose delivered words are at the first step of their ramp (R333). -/
def Tile.rampIn (t : Tile) : Tile := { t with rampK := 1 }

/-- A cleared tile whose words ramp in, started at `entry` (R332, R333). -/
def Tile.restarted (t : Tile) (entry : Nat) : Tile :=
  { t.cleared.rampIn with run := .running, yielded := false, sf := { pc := entry } }

/-- The tile cleared and at the first step of its ramp, not yet started. -/
def State.ramping (s : State) (n : Nat) : State := (s.clearTile n).setTile n ((s.clearTile n).tile n).rampIn

/-- The entry of the sample program that tile `n` runs: of a crossfade's program while one runs from the back (R185, R310). -/
def Scenes.entryOf (x : Scenes) (n : Nat) (onBack : Bool) : Nat :=
  match onBack, mget none x.backs n with
  | true, some p => p.xfEntry
  | _, _ => (mget {} x.progs n).entry

/-- A restart clears the tile, then starts it at the entry of the program it runs (R332). -/
theorem State.restartTile_eq_startTile (s : State) (n : Nat) :
    s.restartTile n = (s.ramping n).startTile n ((s.ramping n).scn.entryOf n (s.tile n).onBack) := rfl

section
variable {s : State} (n : Nat)

theorem State.clearState_tiles : (s.clearState n).tiles = s.tiles := by
  obtain ⟨_, _, _, e⟩ := s.clearState_eq n; rw [e]

theorem State.tile_clearState (m : Nat) : (s.clearState n).tile m = s.tile m := by
  rw [State.tile, State.clearState_tiles, State.tile]

theorem State.wf_clearState_tiles (hw : mwf {} s.tiles = true) : mwf {} (s.clearState n).tiles = true := by
  rwa [State.clearState_tiles]

theorem State.clearTile_eq (hw : mwf {} s.tiles = true) : s.clearTile n = (s.clearState n).setTile n (s.tile n).cleared := by
  have hw' := State.wf_clearState_tiles n hw
  unfold State.clearTile State.wakeTile
  dsimp only
  rw [State.setTile_setTile hw', State.tile_setTile hw', if_pos rfl]
  rfl

theorem State.ramping_eq (hw : mwf {} s.tiles = true) : s.ramping n = (s.clearState n).setTile n (s.tile n).cleared.rampIn := by
  have hw' := State.wf_clearState_tiles n hw
  rw [State.ramping, State.clearTile_eq n hw, State.setTile_setTile hw', State.tile_setTile hw', if_pos rfl]

theorem State.wf_ramping_tiles (hw : mwf {} s.tiles = true) : mwf {} (s.ramping n).tiles = true :=
  mwf_mset (by rw [State.clearTile_eq n hw]; exact mwf_mset (State.wf_clearState_tiles n hw))

theorem State.tile_ramping (hw : mwf {} s.tiles = true) (m : Nat) :
    (s.ramping n).tile m = if n = m then (s.tile n).cleared.rampIn else s.tile m := by
  rw [State.ramping_eq n hw, State.tile_setTile (State.wf_clearState_tiles n hw), State.tile_clearState]

/-- Clearing a tile leaves the scenes, the grid and the instruction memories as they are, and clears its state area (R81). -/
theorem State.ramping_rest (hw : mwf {} s.tiles = true) : (s.ramping n).scn = s.scn ∧ (s.ramping n).grid = s.grid ∧
    (s.ramping n).imem = s.imem ∧ (s.ramping n).mem = s.memWithout (tileBase n + (s.prog n).stateBase) (s.prog n).stateBytes := by
  obtain ⟨_, _, _, hclear⟩ := s.clearState_eq n
  rw [State.ramping_eq n hw, hclear]
  exact ⟨rfl, rfl, rfl, rfl⟩

/-! ## A tile that restarts -/

theorem State.restartTile_eq (hw : mwf {} s.tiles = true) :
    s.restartTile n = (s.ramping n).startTile n (s.scn.entryOf n (s.tile n).onBack) := by
  obtain ⟨hscn, -⟩ := State.ramping_rest n hw
  rw [State.restartTile_eq_startTile, hscn]

theorem State.restartTile_tile (hw : mwf {} s.tiles = true) :
    (s.restartTile n).tile n = (s.tile n).restarted (s.scn.entryOf n (s.tile n).onBack) := by
  have hramp : (s.ramping n).tile n = (s.tile n).cleared.rampIn := (State.tile_ramping n hw n).trans (if_pos rfl)
  have hw' : mwf {} ((s.ramping n).wr32 (tileBase n) (BitVec.ofNat 32 (s.ramping n).grid.tick)).tiles = true := by
    rw [State.wr32, State.wrBytes_tiles]
    exact State.wf_ramping_tiles n hw
  rw [State.restartTile_eq n hw]
  unfold State.startTile
  dsimp only
  rw [State.tile_setTile hw', if_pos rfl, hramp]
  simp [Tile.restarted, Tile.cleared, Tile.rampIn]

theorem State.restartTile_tile_ne (hw : mwf {} s.tiles = true) {m : Nat} (hm : m ≠ n) : (s.restartTile n).tile m = s.tile m := by
  rw [State.restartTile_eq n hw, State.startTile_tile_ne (State.wf_ramping_tiles n hw) hm, State.tile_ramping n hw, if_neg hm.symm]

theorem State.restartTile_imem (hw : mwf {} s.tiles = true) : (s.restartTile n).imem = s.imem := by
  obtain ⟨-, -, himem, -⟩ := State.ramping_rest n hw
  rw [State.restartTile_eq n hw, State.startTile_imem, himem]

/-- The memory of a tile that restarts: its state area cleared, then the tick written to its first word (R81, R310). -/
theorem State.restartTile_mem (hw : mwf {} s.tiles = true) :
    (s.restartTile n).mem = ((s.ramping n).wr32 (tileBase n) (BitVec.ofNat 32 s.grid.tick)).mem := by
  obtain ⟨-, hgrid, -, -⟩ := State.ramping_rest n hw
  rw [State.restartTile_eq n hw, State.startTile_mem, hgrid]

end

/-! ## Words written right -/

theorem State.rdB_setTile (s : State) (n : Nat) (t : Tile) (b : Nat) : (s.setTile n t).rdB b = s.rdB b := rfl

theorem State.rd32_setTile (s : State) (n : Nat) (t : Tile) (a : Nat) : (s.setTile n t).rd32 a = s.rd32 a := by
  simp only [State.rd32, State.rdBytes_eq_map, State.rdB_setTile]

/-- A word written while no injection is armed is right (R526). -/
theorem State.wr32_ecc_self {s : State} (h : mwf 0 s.ms.ecc = true) (harm : s.flt.armed = none) {a : Nat} (ha : a % 4 = 0) (v : Word) :
    mget 0 (s.wr32 a v).ms.ecc a = 0 := by
  have hword : wordsOf a (leBytes 4 v.toNat).length = [a] := by
    rw [leBytes_length, wordsOf_one (by decide) (by omega), show a / 4 * 4 = a by omega]
  obtain ⟨_, hdirty⟩ := State.markDirty_eq { s with mem := memPut s.mem a (leBytes 4 v.toNat) } a (leBytes 4 v.toNat).length
  unfold State.wr32 State.wrBytes
  rw [hdirty, hword]
  dsimp only
  split
  · next hright =>
    have hnil : s.ms.ecc = [] := by simpa [harm] using hright
    rw [hnil]
    rfl
  · have hmark : eccMark s.flt.armed a = 0 := by rw [harm]; rfl
    show mget 0 (mset 0 s.ms.ecc a (eccMark s.flt.armed a)) a = 0
    rw [mget_mset_self h, hmark]

theorem State.wr32_tileBad {s : State} (h : mwf 0 s.ms.ecc = true) (a : Nat) (v : Word) : (s.wr32 a v).ms.tileBad = s.ms.tileBad := by
  obtain ⟨_, _, _, _, _, e, -, -⟩ := State.rewrites_wrBytes (W := fun _ => True) h a (leBytes 4 v.toNat) (fun _ _ => trivial)
  rw [State.wr32, e]

/-! ## What the image holds -/

section
variable {s u : State} (hmem : u.mem = s.mem) (himage : u.image = s.image) (hscn : u.scn = s.scn)
include hmem himage hscn

/-- The record of a scene lies in the image, in the staging area and in the cold slots (R192, R193). -/
theorem State.sceneRec_congr (scene : Nat) : u.sceneRec scene = s.sceneRec scene := by
  have hread (im : Image) (o n : Nat) : u.stageRead im o n = s.stageRead im o n := by
    simp only [State.stageRead, State.rdBytes_eq_map, State.rdB, hmem]
  have hstaged (im : Image) : u.staged im = s.staged im := by
    funext c
    simp only [State.staged, State.stageAt, hread, hscn]
  simp only [State.sceneRec, himage, hstaged]

/-- The word of a tile as the image has it rests on the image, the scenes and what is staged of them (R334, R527). -/
theorem State.imageWord_congr (hrate : u.rate96 = s.rate96) (a : Nat) : u.imageWord a = s.imageWord a := by
  simp only [State.imageWord, State.sceneWord, State.sceneRec_congr hmem himage hscn, State.codeOf, State.fs, State.liveInit,
    State.prog, hscn, hrate]

end

/-! ## The flash goes on -/

/-- `u` is `s` but for which flash operations run and wait. -/
def State.FlashTo (s u : State) : Prop :=
  ∃ op waiting suspended, u = { s with nvm := { s.nvm with op := op, waiting := waiting, suspended := suspended } }

theorem State.FlashTo.refl (s : State) : s.FlashTo s := ⟨_, _, _, rfl⟩

theorem State.FlashTo.trans {s t u : State} (h : s.FlashTo t) (g : t.FlashTo u) : s.FlashTo u := by
  obtain ⟨_, _, _, rfl⟩ := h
  obtain ⟨_, _, _, rfl⟩ := g
  exact ⟨_, _, _, rfl⟩

theorem State.flashTo_flashNext (s : State) : s.FlashTo s.flashNext := by
  unfold State.flashNext
  split
  · exact .refl s
  · split
    · split
      · exact .refl s
      · exact ⟨_, _, _, rfl⟩
    · split
      · split
        · exact ⟨_, _, _, rfl⟩
        · exact .refl s
      · exact .refl s

theorem State.flashTo_readOver (s : State) (hit : FlashFor → Bool) : s.FlashTo (s.readOver hit) :=
  .trans ⟨_, _, _, rfl⟩ (State.flashTo_flashNext _)

end Sys2Proof.Machine
end

section
/-!
PROOFS. A tile restarts after an exception, and an uncorrectable word of a tile is written again (R332 to R334).
-/

namespace Sys2Proof.Machine

section
variable {s : State}

/-! ## The restart -/

/-- A restart that is due, with that of every tile stopped with it, is carried out (R332, R335). -/
theorem exec_restart_due {t : TileNo} (hrun : (s.tile t).run = .halted)
    (hdue : ∀ m ∈ s.restartsWith t, (s.tile m).restartIn = 0 ∧ s.eccHeld m = false) (hgraph : s.graphRuns = true)
    (hon : s.domOn t = true) : exec (.restart t) s = .next (s.restartTile t) := by
  have hall : (s.restartsWith t).all (fun m => (s.tile m).restartIn == 0 && !s.eccHeld m) = true :=
    List.all_eq_true.mpr fun m hm => by
      obtain ⟨hin, hheld⟩ := hdue m hm
      simp [hin, hheld]
  rw [exec_restart]
  exact congrArg Host.Outcome.next (if_pos ⟨hrun, hall, hgraph, hon⟩)

section
variable (hc : s.Canonical) (n : Nat)
include hc

theorem wf_ramping_mem : Memory.wf (s.ramping n).mem := by
  obtain ⟨-, -, -, hmem⟩ := State.ramping_rest n hc.tiles
  rw [hmem]
  exact mwf_filter hc.mem

theorem rd32_restartTile : (s.restartTile n).rd32 (tileBase n) = BitVec.ofNat 32 s.grid.tick := by
  have hread := State.rd32_wr32 (wf_ramping_mem hc n) (tileBase n) (BitVec.ofNat 32 s.grid.tick)
  rw [State.rd32, State.rdBytes_eq_map] at hread ⊢
  simpa only [State.rdB, State.restartTile_mem n hc.tiles] using hread

/-- A byte outside the first word: 0 in the state area, else as before. -/
theorem rdB_restartTile {b : Nat} (hb : b < tileBase n ∨ tileBase n + 4 ≤ b) : (s.restartTile n).rdB b =
    if tileBase n + (s.prog n).stateBase ≤ b ∧ b < tileBase n + (s.prog n).stateBase + (s.prog n).stateBytes then 0 else s.rdB b := by
  obtain ⟨-, -, -, hmem⟩ := State.ramping_rest n hc.tiles
  have hword := State.rdB_wr32_ne (wf_ramping_mem hc n) hb (BitVec.ofNat 32 s.grid.tick)
  rw [State.rdB, State.restartTile_mem n hc.tiles]
  refine hword.trans ?_
  rw [State.rdB, hmem, State.mget_memWithout hc.mem]

end

/-! ## The rewrite -/

/-- The flash, and the list of the words that wait for it, after the read for the rewrite of `a`. -/
def State.rewriteRead (s : State) (a : Nat) : State :=
  ({ s with ms := { s.ms with tileBad := s.ms.tileBad.filter (· ≠ a) } } : State).readOver (rewriteOf a)

/-- The read that is over leaves memory, the tiles and the error marks, and takes the word off the list. -/
theorem rewriteRead_rest (s : State) (a : Nat) : (s.rewriteRead a).mem = s.mem ∧ (s.rewriteRead a).tiles = s.tiles ∧
    (s.rewriteRead a).flt = s.flt ∧ (s.rewriteRead a).ms = { s.ms with tileBad := s.ms.tileBad.filter (· ≠ a) } := by
  obtain ⟨_, _, _, e⟩ := State.flashTo_readOver { s with ms := { s.ms with tileBad := s.ms.tileBad.filter (· ≠ a) } } (rewriteOf a)
  rw [State.rewriteRead, e]
  exact ⟨rfl, rfl, rfl, rfl⟩

/-- A read of the flash that is over changes no word of the image. -/
theorem imageWord_rewriteRead (s : State) (a : Nat) : (s.rewriteRead a).imageWord a = s.imageWord a := by
  obtain ⟨_, _, _, e⟩ := State.flashTo_readOver { s with ms := { s.ms with tileBad := s.ms.tileBad.filter (· ≠ a) } } (rewriteOf a)
  have hread : s.rewriteRead a = _ := e
  exact State.imageWord_congr (by rw [hread]) (by rw [hread]) (by rw [hread]) (by rw [hread]) a

/-- The rewrite of a word of data memory: the word is written as the image has it, and its tile's restart is due at the next
strobe (R334). -/
theorem exec_eccWordRewrite_data {a : Word} (hbad : a.toNat ∈ s.ms.tileBad) (hdata : a.toNat % 0x40000 < 0x20000)
    (hread : s.reading (rewriteOf a.toNat) = true) : ∃ x : Tile, x.restartIn = 1 ∧ exec (.eccWordRewrite a) s =
      .next (((s.rewriteRead a.toNat).wr32 a.toNat (s.imageWord a.toNat)).setTile (tileOf a.toNat) x) := by
  refine ⟨{ ((s.rewriteRead a.toNat).wr32 a.toNat (s.imageWord a.toNat)).tile (tileOf a.toNat) with restartIn := 1 }, rfl, ?_⟩
  rw [exec_eccWordRewrite]
  unfold execEccWordRewrite
  dsimp only
  rw [if_pos ⟨List.contains_iff_mem.mpr hbad, hread⟩, if_pos hdata, ← imageWord_rewriteRead s a.toNat]
  rfl

end

/-- Settles O19: a restart clears the tile and starts its program over the cleared memory; a rewrite is one write of a word. -/
theorem tileRestart : Obligations.TileRestart := by
  intro s t a hc
  refine ⟨fun hrun hdue hgraph hon => ?_, fun hbad _ halign hdata harm hread => ?_⟩
  · have hu := State.restartTile_tile t.val hc.tiles
    refine ⟨s.restartTile t, exec_restart_due hrun hdue hgraph hon, ?_⟩
    rw [hu]
    refine ⟨rfl, rfl, rfl, rfl, rfl, rfl, rfl, rfl, rfl, rd32_restartTile hc t, fun b hw hlo hhi => ?_, fun b hw hout => ?_,
      State.restartTile_imem t.val hc.tiles, fun m hm => State.restartTile_tile_ne t.val hc.tiles hm⟩
    · exact (rdB_restartTile hc t (.inr hw)).trans (if_pos ⟨hlo, hhi⟩)
    · exact (rdB_restartTile hc t hw).trans (if_neg (by omega))
  · obtain ⟨x, hx, hexec⟩ := exec_eccWordRewrite_data hbad hdata hread
    obtain ⟨hmem, htiles, hflt, hms⟩ := rewriteRead_rest s a.toNat
    have hwf : Memory.wf (s.rewriteRead a.toNat).mem := by rw [hmem]; exact hc.mem
    have hecc : mwf 0 (s.rewriteRead a.toNat).ms.ecc = true := by rw [hms]; exact hc.ecc
    refine ⟨_, hexec, ?_, ?_, ?_, ?_, fun b hb => ?_⟩
    · rw [State.rd32_setTile, State.rd32_wr32 hwf]
    · rw [State.setTile_ms, State.wr32_ecc_self hecc (by rw [hflt]; exact harm) halign]
    · rw [State.setTile_ms, State.wr32_tileBad hecc, hms]
      simp
    · rw [State.tile_setTile (by rw [State.wr32, State.wrBytes_tiles, htiles]; exact hc.tiles), if_pos rfl]
      exact hx
    · rw [State.rdB_setTile, State.rdB_wr32_ne hwf hb, State.rdB, hmem, State.rdB]

end Sys2Proof.Machine
end
